-- ==== Sys2Proof/Word.lean ====
section
/-! DEFINITION. The word types of the block, and the plain shapes of a register and of a register field (R7 to R10). -/

namespace Sys2Proof

/-- One byte of a packet, a frame, an image or a record. -/
abbrev Byte := BitVec 8

/-- A register of the window: "All registers are 32 bits wide" (00_scope.md, Registers). -/
abbrev Word := BitVec 32

/-- The access codes of R8. -/
inductive Acc where
  | RW | RO | RC | W1C | WS | WA
  deriving DecidableEq, Repr

/-- A field of a register: the address of instance 0, the two instance strides (R7), the lowest bit and the width. -/
structure Fld where
  base    : Nat
  stride  : Nat
  stride2 : Nat
  lo      : Nat
  width   : Nat
  deriving DecidableEq, Repr

/-- Where a field's value comes from at a start (the Reset column of a register table, R9). -/
inductive Src where
  /-- the value the column writes -/
  | fixed
  /-- "from option image" (R410, R411) -/
  | option
  /-- "set at start", or read from a fuse, a flash or an OTP structure -/
  | start
  deriving DecidableEq, Repr

/-- A row of a register table. `keep` lists the reset levels that keep the field (R9). -/
structure FieldDef where
  lo    : Nat
  width : Nat
  acc   : Acc
  rst   : Nat
  src   : Src
  keep  : List Nat
  deriving DecidableEq, Repr

/-- A register, or an array of registers: instance (i, j) lies at base + i × stride + j × stride2 (R7). -/
structure RegDef where
  base    : Nat
  stride  : Nat
  count   : Nat
  stride2 : Nat
  count2  : Nat
  fields  : List FieldDef
  deriving DecidableEq, Repr

end Sys2Proof
end

