-- ==== Sys2Proof/Syntax.lean ====
section
/-! DEFINITION. The commands of the block: `Instr`, one constructor for each row of spec/opcode_table.json, and the
plain data its operands carry. -/

namespace Sys2Proof

/-- The authentication part of a command packet: KEY_SLOT, COUNTER and TAG (R303). -/
structure Auth where
  slot    : Nat
  counter : Nat
  tag     : List Byte
  deriving DecidableEq, Repr

/-- What a host command packet carries beside its opcode and parameters: the transport it came by, SEQ, and the
authentication part when AUTH is 1 (R303). -/
structure Hdr where
  can  : Bool
  seq  : Nat
  auth : Option Auth
  deriving DecidableEq, Repr

/-- A CAN frame as it stands on a bus (12_can_fd.md).  -/
structure CanFrame where
  ide  : Bool
  rtr  : Bool
  fdf  : Bool
  brs  : Bool
  esi  : Bool
  id   : Nat
  dlc  : Nat
  data : List Byte
  deriving DecidableEq, Repr

/-- The supplies whose brown-out asserts a reset (R402). -/
inductive Supply where
  | vaux | core | dram | flash | vio
  deriving DecidableEq, Repr

/-- The watchdogs of R402. -/
inductive Watchdog where
  | sill | core0 | core1 | interpreter | grove | security
  deriving DecidableEq, Repr

/-- The memories of critical state of R402, sources 14 to 21. -/
inductive CriticalStore where
  | optionImage | safety | keySlot | signalBoard | coreMemory | imageRam | retention | safetyLog
  deriving DecidableEq, Repr

/-- What the world and the tests of a start show (15_reset_and_start.md): each is an outcome the spec leaves to the
hardware. A mask has bit n for unit n. -/
structure StartEnv where
  /-- every part of the minimum service set works (R422) -/
  minSet     : Bool
  /-- a reset asserts while the option loader runs (R413) -/
  loadCut    : Bool
  /-- a start of Level 0 or 1 has come as far as the interpreter serving, and no further (R418 step 4, R420) -/
  serves     : Bool
  /-- the fuse map passes its check (R403) -/
  fuseMap    : Bool
  /-- the retained RAM image passes its CRC (R412) -/
  optRam     : Bool
  /-- image RAM passes its CRC (R76) -/
  imageRam   : Bool
  /-- PLL A locks (R429) -/
  pllA       : Bool
  /-- DRAM training passes -/
  dram       : Bool
  /-- both application cores pass their start-up test -/
  cores      : Bool
  /-- the PWM/ADC timing island passes its start-up test -/
  pwmAdc     : Bool
  /-- oscillator and delay-line trims pass, converter trims pass (R412) -/
  trim       : Bool
  convTrim   : Bool
  /-- engines that pass their self-test, those that fail in a memory, those that fail in logic, and those whose test still
  runs when a warm start completes (R154, R170, R419) -/
  engines    : Nat
  engineMem  : Nat
  engineLogic : Nat
  engineLate : Nat
  /-- driver dies that pass the handshake and identity check (R248) -/
  dies       : Nat
  /-- converters that pass the start-up check (R268) -/
  converters : Nat
  /-- the TRNG start-up test passes (R391) -/
  trng       : Bool
  /-- the start-up duration, ms -/
  startMs    : Nat
  deriving DecidableEq, Repr

/-- A driver die's 1 µs status frame (R359): the gate state and the Shutter state it reports, whether the level of the
overcurrent warning still holds (R240), and whether SENSE is above SC_TH (R239). -/
structure DieFrame where
  gate    : Bool
  shutter : Bool
  oc      : Bool
  sc      : Bool
  deriving DecidableEq, Repr

/-- A completed switching edge (R232). -/
structure EdgeMeas where
  on    : Bool
  valid : Bool
  time  : Nat
  deriving DecidableEq, Repr

/-- What a die reads at its NTC input (R244). -/
inductive NtcReading where
  | openCircuit
  | shorted
  /-- the resistance of the NTC, Ω -/
  | ohms (r : Nat)
  deriving DecidableEq, Repr

/-- How a transmission attempt ends (R343). -/
inductive TxOutcome where
  | sent
  /-- lost arbitration -/
  | lost
  /-- an error of kind `code` (LAST_ERR) at bit `pos` -/
  | error (code : Nat) (pos : Nat)
  deriving DecidableEq, Repr

/-- What wakes a sleeping controller (R354). -/
inductive Wake where
  | dominant (us : Nat)
  | frame (f : CanFrame)
  deriving DecidableEq, Repr

/-- A TIME symbol (R445): TS is the low 48 bits; `crcOk` says that its CRC-8 holds. -/
structure TimeSymbol where
  seqNo : Nat
  epoch : Nat
  ts    : Nat
  crcOk : Bool
  deriving DecidableEq, Repr

/-- A SYNC symbol (R445). `phase` is the fine phase of its receipt instant within the present tick (R447). -/
structure SyncSymbol where
  seqNo : Nat
  d     : Nat
  phase : Nat
  crcOk : Bool
  deriving DecidableEq, Repr

/-- A TRIGGER symbol (R297, R445), with the fine phase of its receipt instant. -/
structure TrigSymbol where
  line   : Nat
  origin : Nat
  d      : Nat
  phase  : Nat
  crcOk  : Bool
  deriving DecidableEq, Repr

/-- A TRAIN symbol (R445, R448). -/
structure TrainSymbol where
  pos   : Nat
  last  : Bool
  hop   : Nat
  count : Nat
  crcOk : Bool
  deriving DecidableEq, Repr

/-- A TRAIN_REPLY symbol and the round trip it ends, in fine steps (R448). -/
structure TrainReply where
  count     : Nat
  roundTrip : Nat
  crcOk     : Bool
  deriving DecidableEq, Repr

/-- What the DRAM patrol or another DRAM access finds (R453). -/
inductive DramFinding where
  | clean
  /-- a single-bit error of a bank, corrected -/
  | corrected (bank : Nat)
  /-- an uncorrectable word, by its DRAM address -/
  | uncorrectable (addr : Nat)
  /-- a pass is complete: its duration, s -/
  | passDone (sec : Nat)
  deriving DecidableEq, Repr

/-- What a scrub of an SRAM or of an engine memory finds (R455). The last two are changes that no check bits show: the scrub
passes over them, and the comparison of R77 finds them. -/
inductive SramFinding where
  | clean
  | corrected
  | engine (n : Nat)
  | uncorrectable (store : CriticalStore)
  /-- the image RAM of a bridge's graph differs -/
  | imageDiffers (bridge : Nat)
  /-- the copy that an engine holds of a record and its parameters differs -/
  | copyDiffers (engine : Nat) (record : Nat)
  deriving DecidableEq, Repr

/-- What a beat shows beside the signals: the record whose comparison with its copy on the target of its hinge shows a difference
(R165), the mask of the capture units whose FIFO is full (R292), and the records whose states have not reached their hinge's target by
the input point (R166). -/
structure BeatShown where
  mismatch : Option Nat
  lost     : Nat
  late     : List Nat
  deriving DecidableEq, Repr

/-- The word of an engine's memory that is uncorrectable: the record it belongs to, 0xFFFF for none, and whether it is a state
word of the record (R172). -/
structure BadWord where
  record : Nat
  state_ : Bool
  deriving DecidableEq, Repr

/-- A conversion result: the raw code, and the mask of the capture units whose FIFO is full (R292). -/
structure ConvResult where
  raw  : Nat
  lost : Nat
  deriving DecidableEq, Repr

/-- An error seen while receiving (R340): its kind, and how many of the conditions of ISO 11898-1 that add 8 to REC came with
it (a dominant bit after an error flag, a bit error within it, eight further dominant bits). -/
structure RxError where
  code : Nat
  eights : Nat
  deriving DecidableEq, Repr

/-- One constructor for each row of the opcode table: a host command, a register access of its own row, an SPI or CAN
transaction, or an event of the world outside the block or of the block's own units. -/
inductive Instr where
  /-- PING (R331). Returns ID_PART, ID_REV and ID_FW. -/
  | ping (h : Hdr)
  /-- GET_STATUS (R331). Returns DEV_STATUS, DEV_EVENT, ID_STATUS and VG_EVENT. -/
  | getStatus (h : Hdr)
  /-- RESET (R405). Queues DONE, then requests a reset of the commanded level 1-4 (level 3 names a bridge). -/
  | reset (h : Hdr) (level : Nat) (bridge : Nat)
  /-- RESET_COMMAND_ACT (R405). A commanded reset of level 1 or 4 acts once its reply has been read out, or 10 ms after queuing. -/
  | resetCommandAct
  /-- SHUTDOWN (R424). Starts the orderly shutdown: ramp-seals every bridge and refuses SET_MODE except to SEALED. -/
  | shutdown (h : Hdr)
  /-- SHUTDOWN_FINISH (R424). Once every bridge is SEALED and flash writes have ended, writes the ledger and counter checkpoints and asserts source 24. -/
  | shutdownFinish
  /-- OPTION_WRITE (R415). Authenticated store of the running configuration into the option copy chosen for writing. -/
  | optionWrite (h : Hdr)
  /-- OPTION_WRITE_DONE (R415). The option copy write and read-back end with RESULT 1 (retained RAM image updated) or RESULT 2. -/
  | optionWriteDone (ok : Bool)
  /-- FUSE_PROGRAM (R417). Authenticated ADMIN command that blows fuse-map or DBG_LOCK bits in one 20 us pulse. -/
  | fuseProgram (h : Hdr) (word : Nat) (value : Nat)
  /-- FUSE_PROGRAM_DONE (R417). Fuse read-back ends the command with RESULT 1 or 2. -/
  | fuseProgramDone (ok : Bool)
  /-- SET_MODE (R29). Evaluates checks 1-11 for a bridge's mode change and applies the transition or refusal. -/
  | setMode (h : Hdr) (bridge : Nat) (mode : Nat) (style : Nat)
  /-- GET_MODE (R331). Returns MODE, STEP and SEAL_REASON of a bridge. -/
  | getMode (h : Hdr) (bridge : Nat)
  /-- SASH_LOAD (R209). In SERVICE without a placed graph, applies pending fall-back values at the next master valley without tag comparison. -/
  | sashLoad (h : Hdr) (bridge : Nat)
  /-- GRAPH_BEGIN (R71). Empties the staging buffer and declares the image length. -/
  | graphBegin (h : Hdr) (length : Nat)
  /-- GRAPH_DATA (R72). Appends data bytes at offset FILL to the staging buffer. -/
  | graphData (h : Hdr) (offset : Nat) (data : List Byte)
  /-- GRAPH_CHECK (R69). Validates the staged image without loading it. -/
  | graphCheck (h : Hdr)
  /-- GRAPH_LOAD (R73). Validates the staged image and loads the masked bridges' graphs in full or swap style. -/
  | graphLoad (h : Hdr) (mask : Nat) (style : Nat)
  /-- PARAMETER_SWAP (R74). At the first input point after a swap-style GRAPH_LOAD, every block of the bridge takes the new parameters and bases. -/
  | parameterSwap (bridge : Nat)
  /-- GRAPH_STORE (R72). Checks the staging under checks 1-8 and starts writing it to a flash slot. -/
  | graphStore (h : Hdr) (slot : Nat)
  /-- GRAPH_STORE_DONE (R72). The image store write ends and STATE leaves 5. -/
  | graphStoreDone (ok : Bool)
  /-- GRAPH_START (R416). Rewrites the start-slot record of the newest option copy and the retained RAM image. -/
  | graphStart (h : Hdr) (slot : Nat)
  /-- GRAPH_UNLOAD (R71). Clears IMAGE_OK and frees the image RAM of a SEALED bridge's graph. -/
  | graphUnload (h : Hdr) (bridge : Nat)
  /-- GRAPH_INFO (R71). Returns IMAGE_ID and the graph and structure digests of a bridge's graph. -/
  | graphInfo (h : Hdr) (bridge : Nat)
  /-- GRAPH_VERIFY (R77). Compares engine copies and image RAM of a loaded graph and returns the result byte. -/
  | graphVerify (h : Hdr) (bridge : Nat)
  /-- GRAPH_VERIFY_PERIODIC (R77). Every 60 s the device compares each loaded graph's engine copies and image RAM, evacuating or sealing on a difference. -/
  | graphVerifyPeriodic
  /-- READ_WIN (R327). Reads COUNT registers from the register window. -/
  | readWin (h : Hdr) (addr : Nat) (count : Nat)
  /-- WRITE_WIN (R329). Checks and writes COUNT registers of the register window that have no row of their own. -/
  | writeWin (h : Hdr) (addr : Nat) (values : List Word)
  /-- BRIDGE_CONFIG_WRITE (R21). Authenticated write of BR_CFG, BR_PHASE or BR_KON in SEALED; clears IMAGE_OK and frees image RAM. -/
  | bridgeConfigWrite (h : Hdr) (bridge : Nat) (reg : Nat) (value : Word)
  /-- FAULT_CLR (R41). Clears LATCHED only if the latching cause is no longer present. -/
  | faultClr (h : Hdr) (bridge : Nat)
  /-- RESYNC_WRITE (R136). Write of GF_CTRL RESYNC requesting slew-limited resynchronisation. -/
  | resyncWrite (h : Hdr) (bridge : Nat) (resync : Bool)
  /-- ENCODER_CONFIG_WRITE (R142). Write of TR_ENC_CFG that sets ownership and resets the encoder count to 0. -/
  | encoderConfigWrite (h : Hdr) (bridge : Nat) (value : Word)
  /-- HOST_SIGNAL_WRITE (R80). WRITE_WIN to the signal board window updates host signals under R52. -/
  | hostSignalWrite (h : Hdr) (index : Nat) (values : List Word)
  /-- PER_WRITE (R196). Write of the master leg's PER, checked against beat range, pulse and phase limits, and applied via shadow or at once in SEALED. -/
  | perWrite (h : Hdr) (leg : Nat) (value : Word)
  /-- FALLBACK_WRITE (R206). Write of FB_PER or FB_DUTYi records the period tag and marks the register pending. -/
  | fallbackWrite (h : Hdr) (bridge : Nat) (index : Nat) (values : List Word)
  /-- LATCH_CLR (R214). In SEALED, clears a leg's LATCH_OFF and empties its trip window. -/
  | latchClr (h : Hdr) (leg : Nat)
  /-- XCHK_TRIP_CLEAR (R229). Write of 1 to XCHK_TRIP clears it while the bridge is SEALED or the leg is in no bridge. -/
  | xchkTripClear (h : Hdr) (leg : Nat)
  /-- LOUVRE_WRITE (R234). Write of DRV_LOUVRE sets NON and NOFF to their initial values. -/
  | louvreWrite (h : Hdr) (switch : Nat) (value : Word)
  /-- DRV_CLR (R246). Returns a die from FAULT to OK if its bridge is SEALED and the cause is gone. -/
  | drvClr (h : Hdr) (switch : Nat)
  /-- TW_CLR (R266). Clears a pair's FAIL and SUSP bits when its owner is SEALED and the last comparison agreed. -/
  | twClr (h : Hdr) (pair : Nat)
  /-- STEER_WRITE (R187). Authenticated write of CN_STEER or CN_STEER2; clearing STEER_EN returns shares to 0x2000 at the next input point. -/
  | steerWrite (h : Hdr) (bridge : Nat) (steer : Word) (steer2 : Word)
  /-- SAFETY_CONFIG_WRITE (R377). Authenticated write of the safety block, accepted only while no bridge is in modes 2-5. -/
  | safetyConfigWrite (h : Hdr) (addr : Nat) (values : List Word)
  /-- VANGAT_CAN_CONFIG_WRITE (R333). Write of VG_CAN_CFG or an identifier register discards any packet in reception. -/
  | vangatCanConfigWrite (h : Hdr) (reg : Nat) (value : Word)
  /-- CAPTURE_CONFIG_WRITE (R288). Write of a capture unit's configuration, accepted only while the unit is IDLE. -/
  | captureConfigWrite (h : Hdr) (unit : Nat) (offset : Nat) (values : List Word)
  /-- CFG_REQ (R338). Requests a CAN controller's move to CONFIG, at once or at the next bus idle. -/
  | cfgReq (h : Hdr) (ctrl : Nat)
  /-- CAN_CONFIG_ENTER (R338). At bus idle the controller enters CONFIG and abandons every pending transmission. -/
  | canConfigEnter (ctrl : Nat)
  /-- TX_REQ (R349). Requests transmission of a TX message object, setting TX_PEND. -/
  | txReq (h : Hdr) (ctrl : Nat) (obj : Nat)
  /-- BUF_ID_READ (R347). A read of BUF_ID takes the object's read lock. -/
  | bufIdRead (h : Hdr) (ctrl : Nat)
  /-- BUF_DATA15_READ (R347). A read of BUF_DATA15 releases the lock, clears NEW and writes any held frame. -/
  | bufData15Read (h : Hdr) (ctrl : Nat)
  /-- MO_SEL_WRITE (R347). A write of MO_SEL releases the read lock without clearing NEW. -/
  | moSelWrite (h : Hdr) (ctrl : Nat) (obj : Nat)
  /-- LOCK_TIMEOUT (R347). A read lock held for 1 ms is released, incrementing LOCK_TO. -/
  | lockTimeout (ctrl : Nat)
  /-- RETRAIN (R448). Starts training of the Dellan output hop. -/
  | retrain (h : Hdr)
  /-- CAP_ARM (R284). Arms a capture unit or group, taking all its panes. -/
  | capArm (h : Hdr) (unit : Nat)
  /-- CAP_DISARM (R287). Disarms a group, freeing filling panes and closing fired records as truncated. -/
  | capDisarm (h : Hdr) (unit : Nat)
  /-- CAP_FORCE (R301). Host trigger of a READY capture group. -/
  | capForce (h : Hdr) (unit : Nat)
  /-- CAP_LIST (R301). Lists up to 64 full or reading records. -/
  | capList (h : Hdr)
  /-- CAP_READ (R301). Reads bytes of a record, moving its panes to reading. -/
  | capRead (h : Hdr) (unit : Nat) (recNo : Nat) (offset : Nat) (length : Nat)
  /-- CAP_RELEASE (R301). Frees a record's panes. -/
  | capRelease (h : Hdr) (unit : Nat) (recNo : Nat)
  /-- CAL_ZERO (R271). Starts averaging an input's results for a candidate offset. -/
  | calZero (h : Hdr) (input : Nat) (log2n : Nat)
  /-- CAL_FULL (R271). Starts averaging an input's results for a candidate gain against REFQ. -/
  | calFull (h : Hdr) (input : Nat) (log2n : Nat) (refq : Nat)
  /-- CAL_AVERAGE_END (R272). After N results or 10 s the average is checked and candidate OFS or GAIN set, or CAL_ERR recorded. -/
  | calAverageEnd (input : Nat)
  /-- CAL_STORE (R273). Authenticated start of writing candidates of masked inputs to the calibration record. -/
  | calStore (h : Hdr) (mask : Nat)
  /-- CAL_STORE_DONE (R273). The calibration record write ends and the candidates come into force, or CAL_ERR 8 is set. -/
  | calStoreDone (ok : Bool)
  /-- CAL_DISCARD (R270). Clears the candidates of the masked inputs. -/
  | calDiscard (h : Hdr) (mask : Nat)
  /-- CAL_READ (R270). Returns an input's calibration in force, its candidates and IN_STATUS. -/
  | calRead (h : Hdr) (input : Nat)
  /-- SAFETY_STATUS (R380). Returns SF_STATUS, SF_INPUTS, SF_FAULT and SF_TEST. -/
  | safetyStatus (h : Hdr)
  /-- SAFETY_CODE (R380). Returns CFG_CODE, EXP_CODE, the seal pattern and CODE_OK. -/
  | safetyCode (h : Hdr)
  /-- SAFETY_LOG (R380). Returns one safety-log entry. -/
  | safetyLog (h : Hdr) (entry : Nat)
  /-- GET_COUNTER (R331). Returns the counter of a key slot. -/
  | getCounter (h : Hdr) (slot : Nat)
  /-- COUNTER_RESYNC (R390). Checkpoints a slot at a higher value and sets its counter to it. -/
  | counterResync (h : Hdr) (slot : Nat) (value : Nat)
  /-- KEY_LOAD (R385). ADMIN-authenticated start of programming a new key generation into a slot. -/
  | keyLoad (h : Hdr) (slot : Nat) (record : List Byte)
  /-- KEY_LOAD_DONE (R385). The OTP write ends and the slot is ACTIVE with its new use and epoch-base counter. -/
  | keyLoadDone (ok : Bool)
  /-- KEY_REVOKE (R386). Programs a slot to REVOKED. -/
  | keyRevoke (h : Hdr) (slot : Nat)
  /-- KEY_INFO (R386). Returns a slot's STATE and USE. -/
  | keyInfo (h : Hdr) (slot : Nat)
  /-- FW_BEGIN (R393). Empties the firmware staging of the idle bank and declares its length. -/
  | fwBegin (h : Hdr) (length : Nat)
  /-- FW_DATA (R393). Appends firmware bytes to the staging. -/
  | fwData (h : Hdr) (offset : Nat) (data : List Byte)
  /-- FW_COMMIT (R394). Confirms a running TRIAL bank or starts verifying and writing the staged image. -/
  | fwCommit (h : Hdr)
  /-- FW_COMMIT_DONE (R394). Verification and bank write end; the bank becomes TRIAL or FW_ERR is set. -/
  | fwCommitDone (ok : Bool)
  /-- FW_INFO (R395). Returns state, version and SVN of both firmware banks. -/
  | fwInfo (h : Hdr)
  /-- TRNG_READ (R331). Returns count random bytes from the TRNG. -/
  | trngRead (h : Hdr) (count : Nat)
  /-- TLM_CFG (R460). Replaces a telemetry stream's configuration. -/
  | tlmCfg (h : Hdr) (stream : Nat) (config : List Byte)
  /-- TLM_START (R460). Starts the masked telemetry streams. -/
  | tlmStart (h : Hdr) (mask : Nat)
  /-- TLM_STOP (R460). Stops the masked telemetry streams. -/
  | tlmStop (h : Hdr) (mask : Nat)
  /-- LOG_READ (R459). Returns one event-log entry by SEQ. -/
  | logRead (h : Hdr) (entry : Nat)
  /-- CAN_BUS_ON (R356). Brings a CAN controller on the bus from CONFIG or SLEEP, or starts bus-off recovery. -/
  | canBusOn (h : Hdr) (ctrl : Nat)
  /-- CAN_MAP (R351). Sets or clears an RX object's receive-mapping pairs. -/
  | canMap (h : Hdr) (ctrl : Nat) (entry : List Byte)
  /-- CAN_SLEEP (R354). Requests SLEEP of an on-bus CAN controller at the next bus idle. -/
  | canSleep (h : Hdr) (ctrl : Nat)
  /-- CAN_SLEEP_ENTER (R354). At bus idle the controller abandons pending transmissions and enters SLEEP. -/
  | canSleepEnter (ctrl : Nat)
  /-- CAN_STATUS (R356). Returns CF_STATUS, CF_CNT, CF_CNT2 and CF_EVENT without clearing. -/
  | canStatus (h : Hdr) (ctrl : Nat)
  /-- CANOPY_MAP (R188). Returns the engine of each record of a placed bridge. -/
  | canopyMap (h : Hdr) (bridge : Nat)
  /-- CANOPY_WHERE (R188). Returns engine, hinge target and phase of one record. -/
  | canopyWhere (h : Hdr) (bridge : Nat) (record : Nat)
  /-- CANOPY_HOLD (R171). Holds rotation steps over a bridge's engines for 0-30 s. -/
  | canopyHold (h : Hdr) (bridge : Nat) (seconds : Nat)
  /-- CANOPY_HOLD_EXPIRY (R171). A rotation hold ends when its time runs out. -/
  | canopyHoldExpiry
  /-- LEDGER_READ (R188). Returns a switch's 544-byte ledger entry. -/
  | ledgerRead (h : Hdr) (switch : Nat)
  /-- LEDGER_NF (R188). Authenticated load of a cycles-to-failure table, followed by a checkpoint. -/
  | ledgerNf (h : Hdr) (table : Nat) (words : List Word)
  /-- LEDGER_NF_READ (R188). Returns a cycles-to-failure table. -/
  | ledgerNfRead (h : Hdr) (table : Nat)
  /-- LEDGER_SAVE (R188). Requests a ledger checkpoint. -/
  | ledgerSave (h : Hdr)
  /-- LEDGER_RESET (R184). Zeroes the ledger entries of masked switches and checkpoints. -/
  | ledgerReset (h : Hdr) (mask : Nat)
  /-- PKT_WRITE (R314). SPI transaction delivering one packet in single mode to the receive queue. -/
  | pktWrite (packet : List Byte)
  /-- PKT_WRITE_Q (R314). SPI transaction delivering one packet in quad mode to the receive queue. -/
  | pktWriteQ (packet : List Byte)
  /-- PKT_READ (R315). SPI transaction reading the oldest queued reply in single mode. -/
  | pktRead (clocked : Nat)
  /-- PKT_READ_Q (R315). SPI transaction reading the oldest queued reply in quad mode. -/
  | pktReadQ (clocked : Nat)
  /-- STATUS (R316). SPI transaction returning the 4-byte status word. -/
  | status
  /-- BAD_INSTRUCTION (R313). An SPI transaction with an unknown instruction byte ends without effect and increments BAD_INS. -/
  | badInstruction (byte : Byte)
  /-- CAN_SEGMENT_RECEIVE (R318). A CAN FD segment frame on CMD_ID is assembled into a packet. -/
  | canSegmentReceive (frame : CanFrame)
  /-- SEGMENT_TIMEOUT (R318). A gap above SEG_TO discards the packet in reception, answered BAD_FRAME. -/
  | segmentTimeout
  /-- PACKET_TAKE (R323). The interpreter takes the next packet from a receive queue and runs the checks of R307. -/
  | packetTake
  /-- CAN_REPLY_SEND (R319). The next CAN reply is transmitted after its predecessor was sent or abandoned. -/
  | canReplySend (sent : Bool)
  /-- POWER_ON (R402). VAUX rising through its threshold asserts a Level 0 reset. -/
  | powerOn
  /-- SUPPLY_BROWN_OUT (R402). A VAUX, core, DRAM, flash or VIO brown-out asserts a reset at its level. -/
  | supplyBrownOut (supply : Supply)
  /-- RST_N_ASSERT (R404). RST_N low for 1 us asserts a reset at its fuse-map level. -/
  | rstNAssert
  /-- RST_N_RELEASE (R404). RST_N going high releases its reset source. -/
  | rstNRelease
  /-- PLLA_LOCK_LOSS (R429). PLL A losing lock after its first lock asserts reset source 6. -/
  | pllaLockLoss
  /-- LOCKSTEP_MISMATCH (R402). A Sill monitor lockstep mismatch asserts reset source 7. -/
  | lockstepMismatch
  /-- WATCHDOG_EXPIRY (R402). A Sill, core, interpreter, Grove fabric or security watchdog expires and asserts its reset source. -/
  | watchdogExpiry (dog : Watchdog)
  /-- UNCORRECTABLE_ERROR (R402). An uncorrectable error in a memory of critical state asserts its reset source. -/
  | uncorrectableError (store : CriticalStore)
  /-- OVER_TEMPERATURE (R402). Control-die temperature above 135 C asserts reset source 22. -/
  | overTemperature
  /-- DEBUG_RESET_REQUEST (R402). A test and debug port request asserts reset source 25. -/
  | debugResetRequest
  /-- RESET_RELEASE (R407). A reset source releases and the device leaves reset as far as the deepest remaining source allows. -/
  | resetRelease (source : Nat)
  /-- COLD_START (R418). The device runs the cold start sequence after a Level 0 or non-retained Level 1 reset. -/
  | coldStart (env : StartEnv)
  /-- WARM_START (R419). The device runs the warm start sequence after a Level 2 or retained Level 1 reset. -/
  | warmStart (env : StartEnv)
  /-- BRIDGE_RESET (R401). A Level 3 reset seals one bridge, frees its engines and restarts its converters. -/
  | bridgeReset (bridge : Nat)
  /-- INTERPRETER_RESET (R401). A Level 4 reset empties the command queues and the memory of R324. -/
  | interpreterReset
  /-- BEAT_INPUT_POINT (R59). IP ticks after a beat's carrier edge the device writes system signals, snapshots inputs and runs the due blocks. -/
  | beatInputPoint (bridge : Nat) (shown : BeatShown)
  /-- BEAT_OUTPUT_POINT (R59). When the last class-0 block has written, duties pass to the sash shadows and the device reads sinks. -/
  | beatOutputPoint (bridge : Nat)
  /-- BEAT_OVERRUN (R63). Class-0 work unfinished at the latest strobe point keeps old duties and counts OVERRUN; a second seals. -/
  | beatOverrun (bridge : Nat)
  /-- SIGNAL_AGEING (R52). At each writer period without a write, a signal's AGE increments. -/
  | signalAgeing (index : Nat)
  /-- NO_GRAPH_WRITE_CYCLE (R142). Every 100 us or 1 ms sources without a running owner graph write their signals. -/
  | noGraphWriteCycle (slow : Bool)
  /-- STEP_ADVANCE (R124). A bridge's step ends at the first beat its end condition holds and the next step begins. -/
  | stepAdvance (bridge : Nat)
  /-- BUS_CHECK_WAIT_EXPIRY (R26). The dead-bus check of 200 ms plus drawn wait completes. -/
  | busCheckWaitExpiry (bridge : Nat)
  /-- KON_WAIT_EXPIRY (R35). Readback not agreeing within KON_WAIT seals the bridge with reason 12. -/
  | konWaitExpiry (bridge : Nat)
  /-- HOLD_TIMER_EXPIRY (R25). 200 ms of in-band HOLD move the bridge to FORMING RUN. -/
  | holdTimerExpiry (bridge : Nat)
  /-- BLACKSTART_TIMEOUT (R28). HOLD not completed within RAMP_T plus BS_TO seals with reason 9. -/
  | blackstartTimeout (bridge : Nat)
  /-- SYNC_TIMEOUT (R28). SYNC not met within SYNC_TO seals with reason 10. -/
  | syncTimeout (bridge : Nat)
  /-- RAMP_END (R141). At tr + RAMP_MS or SS1_T the Shutter path is asserted and the bridge sealed. -/
  | rampEnd (bridge : Nat)
  /-- SS1_SILL_TIMEOUT (R365). The Sill monitor asserts the Shutter line at detection + SS1_T x 1.02 + 1 ms. -/
  | ss1SillTimeout (bridge : Nat)
  /-- SCO_CONTACTOR_FORCE (R366). KOFF_DLY after Shutter assertion an SCO forces its contactors off. -/
  | scoContactorForce (input : Nat)
  /-- ROTATION_STEP (R169). Every 625 ms Canopy exchanges or hinges engine E with the fallow engine. -/
  | rotationStep
  /-- BIST_DONE (R170). A fallow engine's self-test ends as FALLOW_READY or FAILED. -/
  | bistDone (engine : Nat) (result : Nat)
  /-- ENGINE_UNCORRECTABLE_ERROR (R172). An uncorrectable error in an ACTIVE engine starts its evacuation. -/
  | engineUncorrectableError (engine : Nat) (word : BadWord)
  /-- LEDGER_PASS (R178). Every 10 s Canopy reads persistent wear state into the ledger and recomputes damage. -/
  | ledgerPass
  /-- LEDGER_CHECKPOINT (R181). Every 600 s or on demand the ledger RAM is copied to flash. -/
  | ledgerCheckpoint
  /-- LEDGER_CHECKPOINT_DONE (R181). The ledger checkpoint write ends, or CP_FAIL is set. -/
  | ledgerCheckpointDone (ok : Bool)
  /-- DELAY_LINE_MEASUREMENT (R191). Every 1 ms NCAL is measured and DL_FAIL set or cleared. -/
  | delayLineMeasurement (taps : Nat)
  /-- DELAY_LINE_TIMEOUT (R192). No measurement completed within 2 ms sets DL_FAIL. -/
  | delayLineTimeout
  /-- UPDATE_POINT (R200). At a leg's valley or peak pending values come into force and short pulses are dropped or stretched. The row
  names its point: whether it is a peak, and whether the beat of a strobed duty has ended at it. -/
  | updatePoint (leg : Nat) (peak : Bool) (beatEnd : Bool)
  /-- MASTER_VALLEY (R207). At each master valley the fall-back path applies tagged values or counts a split mismatch. -/
  | masterValley (bridge : Nat)
  /-- TRIP_WINDOW_EXPIRE (R213). At each leg valley the oldest trip slot expires from WIN_SUM. -/
  | tripWindowExpire (leg : Nat)
  /-- BOOTSTRAP_REFRESH (R210). High side on beyond BOOT_INT inserts a refresh pulse, then checks VPOS undervoltage. -/
  | bootstrapRefresh (leg : Nat)
  /-- CYCLE_TRIP (R212). A trip source asserting ends the pulse and counts in the trip window. -/
  | cycleTrip (leg : Nat) (source : Nat)
  /-- CONVERTER_TRIGGER (R256). A leg edge plus TRIG_DLY, or the 100 us self-trigger, starts a converter's slot list. -/
  | converterTrigger (conv : Nat)
  /-- CONVERSION_RESULT (R252). A conversion result is calibrated and written to its signal. -/
  | conversionResult (conv : Nat) (result : ConvResult)
  /-- AUTOZERO (R454). Every 100 ms a converter autozeroes its comparator. -/
  | autozero (conv : Nat)
  /-- PASS_THROUGH_EDGE (R227). A PTH input edge drives a leg's command in SERVICE with pass-through. -/
  | passThroughEdge (input : Nat) (high : Bool)
  /-- CONFLICT_RESUME (R225). max(DT_LH, DT_HL) after a conflict ends the surviving command passes. -/
  | conflictResume (leg : Nat)
  /-- DIE_STATUS_FRAME (R359). A driver die's 1 us status frame reports gate and Shutter state. -/
  | dieStatusFrame (switch : Nat) (frame : DieFrame)
  /-- DIE_LINK_LOST (R243). Two consecutive missed status frames put the die in FAULT cause 5. -/
  | dieLinkLost (switch : Nat)
  /-- DIE_COMMAND_TIMEOUT (R222). A die without a valid command frame for 500 ns turns its switch off. -/
  | dieCommandTimeout (switch : Nat)
  /-- STUCK_GATE (R230). Reported gate state differing from command beyond STUCK_T is FAULT cause 4. -/
  | stuckGate (switch : Nat)
  /-- SWITCH_EDGE_MEASUREMENT (R232). A completed edge writes the switching-time word to signal 0x080 + s. -/
  | switchEdgeMeasurement (switch : Nat) (edge : EdgeMeas)
  /-- SHORT_CIRCUIT (R238). SC comparator held for SC_FILT latches, soft-turns off and reports FAULT cause 1. -/
  | shortCircuit (switch : Nat)
  /-- SOFT_TURN_OFF_END (R238). After SOFT_T all sink segments and the clamp apply. -/
  | softTurnOffEnd (switch : Nat)
  /-- OVERCURRENT_WARNING (R240). OC comparator held for OC_FILT reports the warning to the sash unit. -/
  | overcurrentWarning (switch : Nat)
  /-- SUPPLY_UNDERVOLTAGE (R242). A filtered VPOS or VNEG undervoltage while armed puts the die in FAULT. -/
  | supplyUndervoltage (switch : Nat) (neg : Bool)
  /-- DIE_OVER_TEMPERATURE (R243). Die temperature above 150 C turns off and enters FAULT cause 6. -/
  | dieOverTemperature (switch : Nat)
  /-- NTC_WRITE (R244). A die writes its zone temperature signal or sets NTC_ERR. -/
  | ntcWrite (switch : Nat) (reading : NtcReading)
  /-- ENCODER_EDGE (R144). An encoder level stable for FILT ticks is counted as an edge or error. -/
  | encoderEdge (encoder : Nat) (levels : Nat) (stable : Nat)
  /-- PULSE_INPUT_EDGE (R147). A filtered pulse-input edge updates period and high time. -/
  | pulseInputEdge (input : Nat) (high : Bool) (stable : Nat)
  /-- CAPTURE_ROW (R277). A capture unit takes a row at its row clock and writes it to the ring. -/
  | captureRow (unit : Nat) (lost : Bool)
  /-- PANE_WAIT_REARM (R286). A WAIT_PANE group rearms when enough panes become free. -/
  | paneWaitRearm (unit : Nat)
  /-- CAPTURE_FIRE (R281). At the fire time of an accepted trigger every member enters FIRED. -/
  | captureFire (unit : Nat)
  /-- TRIG_PIN_INPUT (R294). A TRIG pin level stable for FILT samples becomes a trigger source. -/
  | trigPinInput (pin : Nat) (high : Bool) (samples : Nat)
  /-- TRIG_OUTPUT_PULSE_END (R294). A TRIG output returns from its active level after 1 us. -/
  | trigOutputPulseEnd (pin : Nat)
  /-- FRAME_RECEIVE (R345). A received CAN frame is offered to the time slave, transport and objects. -/
  | frameReceive (ctrl : Nat) (frame : CanFrame)
  /-- FRAME_TRANSMIT (R343). A transmission attempt ends transmitted, failed and retried, or abandoned. -/
  | frameTransmit (ctrl : Nat) (obj : Nat) (outcome : TxOutcome)
  /-- INTEGRATION_DONE (R337). 11 consecutive recessive bits bring an INTEGRATING controller to ERROR_ACTIVE. -/
  | integrationDone (ctrl : Nat)
  /-- BUS_OFF_RECOVERY_DONE (R356). 128 occurrences of 11 recessive bits end RECOVERING with TEC and REC 0. -/
  | busOffRecoveryDone (ctrl : Nat)
  /-- REFERENCE_MESSAGE_DUE (R352). Every REF_PER ms a time master queues a reference message. -/
  | referenceMessageDue (ctrl : Nat)
  /-- CAN_WAKE (R354). A dominant level or wake frame moves a sleeping controller to INTEGRATING. -/
  | canWake (ctrl : Nat) (wake : Wake)
  /-- SAFETY_INPUT_SAMPLE (R368). Every 50 us the Sill monitor samples every safety channel and accepts filtered levels. -/
  | safetyInputSample (levels : Nat)
  /-- DISCREPANCY_TICK (R370). At each Sill tick the discrepancy count D advances and latches DISC at DISC_T + 1. -/
  | discrepancyTick
  /-- TEST_PULSE (R369). A TPO output pulses off for TP_W every TP_PER and blanks its channels. -/
  | testPulse (output : Nat)
  /-- TEST_PULSE_BLANK_END (R369). 100 us after a pulse a channel unblanks and a TP fault latches if it read 1. -/
  | testPulseBlankEnd (output : Nat) (levels : Nat)
  /-- CONTACTOR_READBACK_ACCEPT (R374). A KRB level after 40 equal samples becomes the contactor readback. -/
  | contactorReadbackAccept (kon : Nat) (level : Bool)
  /-- KON_FAULT (R374). Readback differing from output beyond KRB_T latches KON_FAULT. -/
  | konFault (kon : Nat)
  /-- TEST_DUE (R360). 168 h since the last Shutter test sets TEST_DUE. -/
  | testDue (bridge : Nat)
  /-- TEST_OVERDUE_SS1 (R360). 192 h since the last Shutter test demands SS1-t on the bridge. -/
  | testOverdueSs1 (bridge : Nat)
  /-- OSC_CHECK (R361). Every 10 ms the RC oscillator is compared with PLL A and OSC_FAULT latched beyond 4%. -/
  | oscCheck (ratioPpm : Nat)
  /-- SEAL_SWITCH_READ (R375). Every 10 ms the seal switches are read and SEAL_FAULT checked. -/
  | sealSwitchRead (levels : Nat) (pulsed : Nat)
  /-- COUNTER_CHECKPOINT_DONE (R387). A counter checkpoint record write ends, updating CP. -/
  | counterCheckpointDone (ok : Bool)
  /-- TRNG_HEALTH_FAIL (R391). A failed TRNG health test sets TRNG 2. -/
  | trngHealthFail
  /-- REF_IN_LOST (R430). A lost REF_IN switches PLL A to the crystal or unlocks it. -/
  | refInLost
  /-- PLLB_LOCK (R437). PLL B locks and its outputs are ungated. -/
  | pllbLock
  /-- DELLAN_REF_LOST (R449). PLL B unlock or DLN_CKI loss gates its outputs and enters coasting. -/
  | dellanRefLost (cki : Bool)
  /-- DELLAN_REF_RETURN (R449). DLN_CKI present for 10 ms; PLL B relocks and TRAIN_REQ is sent. -/
  | dellanRefReturn (stable : Bool)
  /-- TS_FINE_STEP (R438). At most every 40 us the timestamp takes one fine step towards alignment or holdover. -/
  | tsFineStep
  /-- HOLD_RATE_MEASURE (R441). Each 1 s the rate of PLL B against PLL A updates HOLD_PPB. -/
  | holdRateMeasure (ppb : Int)
  /-- SYNC_SCHEDULE (R445). Every 1 ms the head schedules a SYNC and its TIME symbol. -/
  | syncSchedule
  /-- SYNC_SYMBOL_RECEIVE (R438). A SYNC symbol's receipt instant is recorded and the symbol repeated. -/
  | syncSymbolReceive (symbol : SyncSymbol)
  /-- TIME_SYMBOL_RECEIVE (R438). A TIME symbol gives the alignment error e and may set NOT_ALIGNED. -/
  | timeSymbolReceive (symbol : TimeSymbol)
  /-- TRIGGER_SYMBOL_RECEIVE (R297). A TRIGGER symbol is repeated downstream with added delay and may schedule a capture fire. -/
  | triggerSymbolReceive (symbol : TrigSymbol)
  /-- PPS_EDGE (R442). A SYNC_IN edge in the head gives a timestamp measurement. -/
  | ppsEdge
  /-- TRAIN_REQ (R448). A TRAIN_REQ from downstream starts training of the output hop. -/
  | trainReq (crcOk : Bool)
  /-- TRAIN (R448). A TRAIN symbol is answered with TRAIN_REPLY, or with LAST 1 sets position and IN_HOP. -/
  | train (symbol : TrainSymbol)
  /-- TRAIN_REPLY (R448). A TRAIN_REPLY gives a round-trip measurement. -/
  | trainReply (reply : TrainReply)
  /-- TRAINING_END (R448). Training completes with OUT_HOP, or without replies ends DOWN. -/
  | trainingEnd
  /-- TRAINING_RETRY (R448). Every 100 ms a DOWN output hop retries training. -/
  | trainingRetry
  /-- SYMBOL_LOSS (R449). No valid TIME for 3 ms while locked sets SYM_LOST. -/
  | symbolLoss
  /-- TRANSOM_SEND (R433). A sender consumes a credit and writes a crossing entry, or stalls. -/
  | transomSend (crossing : Nat)
  /-- TRANSOM_DRAIN (R433). The receiver drains an entry and returns its credit. -/
  | transomDrain (crossing : Nat)
  /-- CREDIT_RETURN (R434). A returned credit becomes available in the sending island. -/
  | creditReturn (crossing : Nat)
  /-- DRAM_PATROL_SCRUB (R453). The patrol reads and corrects a DRAM ECC word. -/
  | dramPatrolScrub (found : DramFinding)
  /-- SRAM_SCRUB (R455). The SRAM scrub corrects and counts single-bit errors. -/
  | sramScrub (found : SramFinding)
  /-- PARITY_PATROL (R455). Every 1 ms each signal word's parity is checked. -/
  | parityPatrol
  /-- EVENT_LOG_FLUSH (R459). Every 10 s or at 64 pending entries the event-log buffer is written to flash. -/
  | eventLogFlush (ok : Bool)
  /-- ERASE_AHEAD (R456). Retired flash sectors are erased to keep two records ahead in each ring. -/
  | eraseAhead (area : Nat) (sector : Nat)
  /-- FLASH_PATROL (R458). The patrol checks CRCs of flash structures and sets FAIL or wear bits. -/
  | flashPatrol (structure_ : Nat) (sound : Bool)
  /-- TLM_SAMPLE (R461). A running stream samples its signals and queues a TLM_DATA packet or skips. -/
  | tlmSample (stream : Nat)
  /-- ZONE_SUPPLY_RECOVERY (R241). A zone's filtered VPOS or VNEG comparator returns above its threshold with hysteresis, clearing UV_POS or UV_NEG so turn-ons are no longer refused and DRV_CLR can succeed. -/
  | zoneSupplyRecovery (switch : Nat) (neg : Bool)
  /-- CAN_RECEIVE_ERROR (R340). An error detected while receiving, or an error frame seen on the bus, raises REC, records LAST_ERR and may move the controller to ERROR_PASSIVE. -/
  | canReceiveError (ctrl : Nat) (error : RxError)
  deriving DecidableEq, Repr

end Sys2Proof
end

