-- ==== Sys2Proof/Decode.lean ====
section
/-! DEFINITION. The word spelling of a command: the opcode table gives its rows no bits (every row has an empty field
list), so no word spells a command. The packets a host sends are read in Machine/Interp.lean. -/

namespace Sys2Proof

/-- The command a word spells by the bits of the opcode table: none, since no row has bits. -/
def decodeTableWord (_nbits _w : Nat) : Option Instr := none

end Sys2Proof
end

