-- ==== Sys2Proof/Config.lean ====
section
/-! DEFINITION. What one module fixes and what the spec leaves free: constants without a body, so that no proof can use
a value of them (log entries 4 to 9). -/

namespace Sys2Proof.Config

/-- The 64-bit module serial number of the fuse array (R14). -/
opaque serial : BitVec 64

/-- LIB_VER of the running firmware beyond 0x0100: R81 says 0x0100 or higher. -/
opaque libVerExtra : Nat

/-- Whether a library later than 0x0100 supports a TVER above 1 of a block type (R81). -/
opaque tverLater : (opcode tver : Nat) → Bool

/-- The error of the library's table function number `k` at its arguments (R83); the model holds it to 2 Q15 LSB. Number 6 is
the phase correction of a VSM whose speed is negative (R100), held to its slew limit. -/
opaque libErr : (k : Nat) → (a b : Rat) → Rat

/-- The 32-byte header of the firmware image the module is shipped with (R392). -/
opaque shippedFw : List Byte

/-- AES-256-CMAC of a message under a key (R309): 16 bytes, of which the tag takes the first 8. -/
opaque cmac : (key msg : List Byte) → List Byte

/-- SHA-256 of a byte string, 32 bytes. -/
opaque sha256 : List Byte → List Byte

/-- Whether an ECDSA P-256 signature verifies over a digest under a public key (R68, R394). -/
opaque ecdsaOk : (key digest sig : List Byte) → Bool

/-- Whether a 64-byte public key is a point of the curve (R385). -/
opaque onCurve : List Byte → Bool

/-- AES key unwrap (R385): none where the integrity check fails. -/
opaque kwUnwrap : (key blob : List Byte) → Option (List Byte)

/-- The key a slot is shipped with, at 8 × slot + generation (R384). -/
opaque factoryKey : (slotGen : Nat) → List Byte

/-- The factory raw code of REF of each converter pair (TW_REF, fuse array). -/
opaque refNom : (pair : Nat) → Nat

/-- The revision and serial number a driver die reports at its handshake (DRV_ID). -/
opaque dieId : (switch : Nat) → Nat

/-- A fresh random byte of the TRNG: the n-th one drawn (R391). -/
opaque trngByte : (n : Nat) → Byte

/-- Both modules' fixed, factory-calibrated paths of a Dellan hop, in fine steps (R448). -/
opaque dellanPaths : Nat

/-- Whether a quotient that the spec rounds without saying how is rounded up: `what` names the quantity. -/
opaque roundUp : (what num den : Nat) → Bool

/-- RATE where R180's quotient is negative or does not fit its 32 bits. -/
opaque rateOpen : (damage old ontime : Nat) → Nat

/-- A free value, fresh for every number drawn from the model's own counter. -/
opaque freeNat : (n : Nat) → Nat

/-- The temperature in °C that a die converts from the resistance of its NTC (Ω) with NTC_B (K) and NTC_R25 (0.1 kΩ): R244
gives the two parameters and no formula. -/
opaque ntcTemp : (b r25 ohms : Nat) → Rat

/-- The code of a diagnostic channel at the scale of R254, from its raw code. -/
opaque diagCode : (channel raw : Nat) → Nat

/-- A padding byte of the last segment frame of a reply, and the bit-rate switch of its frames (R318 leaves both open). -/
opaque segmentPad : (place : Nat) → Byte
opaque segmentBrs : Bool

end Sys2Proof.Config
end

