-- ==== Sys2Proof/Machine/Operands.lean ====
section
/-! DEFINITION. The bit fields, signed fields, byte orders and checks the operands of the commands are made of
(R303, R304, the fixed-point formats of 02_law_graphs.md). -/

namespace Sys2Proof.Machine

open Sys2Proof

/-- The `w` bits of `n` from bit `lo` upwards. -/
def bitsOf (n lo w : Nat) : Nat := (n >>> lo) % 2 ^ w

/-- `n` with the `w` bits from bit `lo` replaced by the low `w` bits of `v`. -/
def setBits (n lo w v : Nat) : Nat :=
  n - bitsOf n lo w * 2 ^ lo + (v % 2 ^ w) * 2 ^ lo

/-- Bit `k` of `n`. -/
def bitAt (n k : Nat) : Bool := n.testBit k

/-- 1 for true. -/
def b2n (b : Bool) : Nat := if b then 1 else 0

/-- The two's complement reading of the low `w` bits of `n`. -/
def toSigned (w n : Nat) : Int :=
  if n % 2 ^ w < 2 ^ (w - 1) then (n % 2 ^ w : Nat) else ((n % 2 ^ w : Nat) : Int) - (2 ^ w : Nat)

/-- The `w`-bit two's complement code of `z`. -/
def ofSigned (w : Nat) (z : Int) : Nat := (z % (2 ^ w : Nat)).toNat

/-- `z` held to the range from `lo` to `hi`. -/
def clampInt (lo hi z : Int) : Int := max lo (min hi z)

/-- The integers 0 to n - 1 whose bit is 1 in `mask`. -/
def maskBits (n mask : Nat) : List Nat := (List.range n).filter (fun k => bitAt mask k)

/-- The mask with exactly the bits of `ks`. -/
def bitsMask (ks : List Nat) : Nat := ks.foldl (fun m k => m ||| 2 ^ k) 0

/-- How many bits of the low `n` bits of `mask` are 1. -/
def popCount (n mask : Nat) : Nat := (maskBits n mask).length

/-- The `k` low bytes of `n`, little-endian (R303). -/
def le : Nat → Nat → List Byte
  | 0, _ => []
  | k + 1, n => BitVec.ofNat 8 n :: le k (n / 256)

/-- The number a little-endian byte string spells (R303). -/
def ofLe : List Byte → Nat
  | [] => 0
  | b :: t => b.toNat + 256 * ofLe t

/-- Byte `k` of a string, 0 beyond its end. -/
def byteAt (bs : List Byte) (k : Nat) : Nat := ((bs.drop k).headD 0).toNat

/-- The little-endian number of `w` bytes at offset `k`. -/
def leAt (bs : List Byte) (k w : Nat) : Nat := ofLe ((bs.drop k).take w)

/-- `n` bytes from offset `k`. -/
def slice (bs : List Byte) (k n : Nat) : List Byte := (bs.drop k).take n

/-- A string padded with zero bytes to `n` bytes. -/
def padTo (n : Nat) (bs : List Byte) : List Byte := bs ++ List.replicate (n - bs.length) 0

/-- One bit of the reflected CRC-32C: polynomial 0x1EDC_6F41, reflected 0x82F6_3B78 (R304). -/
def crcBit (c : Nat) : Nat := if c % 2 = 1 then (c / 2) ^^^ 0x82F63B78 else c / 2

/-- One byte of the CRC-32C (R304). -/
def crcByte (c : Nat) (b : Byte) : Nat :=
  crcBit (crcBit (crcBit (crcBit (crcBit (crcBit (crcBit (crcBit (c ^^^ b.toNat))))))))

/-- CRC-32C: initial value and final XOR 0xFFFF_FFFF (R304). -/
def crc32c (bs : List Byte) : Nat := bs.foldl crcByte 0xFFFFFFFF ^^^ 0xFFFFFFFF

/-- Round a rational to the nearest integer, a half away from zero. -/
def roundAway (q : Rat) : Int := if 0 ≤ q then (q + 1 / 2).floor else -((-q + 1 / 2).floor)

/-- A quotient whose rounding the spec leaves open: `what` names the quantity (log entry 16). -/
def divOpen (what num den : Nat) : Nat :=
  num / den + (if num % den ≠ 0 ∧ Config.roundUp what num den then 1 else 0)

/-- An integer beside `q` where the spec rounds without saying how: `what` names the quantity (log entry 16). -/
def roundOpen (what : Nat) (q : Rat) : Int :=
  q.floor + (if q.den ≠ 1 ∧ Config.roundUp what q.num.natAbs q.den then 1 else 0)

/-- The least integer not below `q`. -/
def ceilRat (q : Rat) : Int := -((-q).floor)

/-- A value put before the first one of a list that does not come ahead of it. -/
def insertBy {α : Type} (le : α → α → Bool) (x : α) : List α → List α
  | [] => [x]
  | y :: t => if le x y then x :: y :: t else y :: insertBy le x t

/-- A list in the order of `le`, equal values as they stood. -/
def sortBy {α : Type} (le : α → α → Bool) (l : List α) : List α := l.foldr (insertBy le) []

/-- The integer part of a square root, from its highest bit down. -/
def isqrt (n : Nat) : Nat :=
  (List.range (n.log2 / 2 + 1)).foldr (fun k r => if (r + 2 ^ k) * (r + 2 ^ k) ≤ n then r + 2 ^ k else r) 0

/-- Ticks in a second. -/
def tSec : Nat := 400000000
/-- Ticks in a millisecond. -/
def tMs : Nat := 400000

end Sys2Proof.Machine
end

