-- ==== Sys2Proof/Machine/BlockTypes.lean ====
section
/-! DEFINITION. The catalogue of the 48 block types: ports with their kinds, parameter words with their formats and
ranges, state words, cost and rates (R82, R87, R91, R94 to R114). Ranges are in units of the format's code. -/

namespace Sys2Proof.Machine

open Sys2Proof

/-- The kind of a port (R87). -/
inductive PortKind where
  | S | A | W | X
  deriving DecidableEq, Repr

/-- The format of a parameter word (R82); no entry uses format A or W for a parameter. -/
inductive ParFmt where
  | Q | G | C | U
  deriving DecidableEq, Repr

/-- The format and the range of a parameter word. -/
structure ParSpec where
  fmt : ParFmt
  lo  : Int
  hi  : Int
  deriving DecidableEq, Repr

/-- A row of the catalogue. -/
structure BlockType where
  ins    : List PortKind
  outs   : List PortKind
  stateW : Nat
  cost   : Nat
  rates  : List Nat
  pars   : List ParSpec
  deriving DecidableEq, Repr

/-- A type that no row of the table has (OPCODE outside 0x01 to 0x30). -/
def tyNone : BlockType := ⟨[], [], 0, 0, [], []⟩

def r07 : List Nat := [0, 1, 2, 3, 4, 5, 6, 7]
def r04 : List Nat := [0, 1, 2, 3, 4]

/-- CLARKE (R91). -/
def tyClarke : BlockType :=
  ⟨[.S, .S, .S], [.S, .S, .S], 0, 18, r07, []⟩

/-- INV_CLARKE (R91). -/
def tyInvClarke : BlockType :=
  ⟨[.S, .S, .S], [.S, .S, .S], 0, 18, r07, []⟩

/-- PARK (R91). -/
def tyPark : BlockType :=
  ⟨[.S, .S, .A], [.S, .S], 0, 40, r07, []⟩

/-- INV_PARK (R91). -/
def tyInvPark : BlockType :=
  ⟨[.S, .S, .A], [.S, .S], 0, 40, r07, []⟩

/-- SINCOS (R91). -/
def tySincos : BlockType :=
  ⟨[.A], [.S, .S], 0, 30, r07, []⟩

/-- SVPWM (R91). -/
def tySvpwm : BlockType :=
  ⟨[.S, .S, .S], [.S, .S, .S], 0, 70, r04, [⟨.U, 0, 2⟩, ⟨.G, 656, 262144⟩, ⟨.Q, 410, 8192⟩, ⟨.Q, 0, 8192⟩, ⟨.Q, 0, 8192⟩]⟩

/-- PI (R91). -/
def tyPi : BlockType :=
  ⟨[.S, .S, .S], [.S], 2, 32, r07, [⟨.G, 0, 65536000⟩, ⟨.G, 0, 1966080000⟩, ⟨.Q, -32768, 32767⟩, ⟨.Q, -32768, 32767⟩]⟩

/-- PID (R91). -/
def tyPid : BlockType :=
  ⟨[.S, .S, .S], [.S], 6, 48, r04, [⟨.G, 0, 65536000⟩, ⟨.G, 0, 1966080000⟩, ⟨.G, 0, 65536⟩, ⟨.U, 2000, 40000000⟩, ⟨.Q, -32768, 32767⟩, ⟨.Q, -32768, 32767⟩]⟩

/-- PR (R91). -/
def tyPr : BlockType :=
  ⟨[.S, .S, .S], [.S], 6, 60, r04, [⟨.G, 0, 65536000⟩, ⟨.G, 0, 1966080000⟩, ⟨.G, 32768, 65536000⟩, ⟨.U, 1, 15⟩, ⟨.Q, -32768, 32767⟩, ⟨.Q, -32768, 32767⟩]⟩

/-- DQ_PI (R91). -/
def tyDqPi : BlockType :=
  ⟨[.S, .S, .S, .S, .S], [.S, .S, .W], 4, 90, r04, [⟨.G, 0, 65536000⟩, ⟨.G, 0, 1966080000⟩, ⟨.Q, 0, 16384⟩, ⟨.Q, 0, 32767⟩, ⟨.U, 0, 1⟩]⟩

/-- LEAD_LAG (R91). -/
def tyLeadLag : BlockType :=
  ⟨[.S], [.S], 4, 28, r04, [⟨.G, -65536000, 65536000⟩, ⟨.U, 1, 10000000⟩, ⟨.U, 1, 10000000⟩]⟩

/-- SUM (R91). -/
def tySum : BlockType :=
  ⟨[.S, .S, .S, .S, .S, .S, .S, .S], [.S], 0, 24, r07, List.replicate 8 ⟨.G, -65536000, 65536000⟩ ++ [⟨.Q, -32768, 32767⟩]⟩

/-- PRODUCT (R91). -/
def tyProduct : BlockType :=
  ⟨[.S, .S, .S], [.S], 0, 40, r07, [⟨.U, 0, 1⟩]⟩

/-- LIMIT (R91). -/
def tyLimit : BlockType :=
  ⟨[.S, .S, .S], [.S, .W], 0, 16, r07, [⟨.Q, -32768, 32767⟩, ⟨.Q, -32768, 32767⟩, ⟨.U, 0, 3⟩]⟩

/-- SLEW (R91). -/
def tySlew : BlockType :=
  ⟨[.S], [.S], 1, 20, r07, [⟨.G, 66, 1966080000⟩, ⟨.G, 66, 1966080000⟩]⟩

/-- VEC_LIMIT (R91). -/
def tyVecLimit : BlockType :=
  ⟨[.S, .S, .S], [.S, .S, .W], 0, 60, r07, [⟨.U, 0, 1⟩]⟩

/-- HYST (R91). -/
def tyHyst : BlockType :=
  ⟨[.S], [.W], 1, 12, r07, [⟨.Q, -32768, 32767⟩, ⟨.Q, -32768, 32767⟩]⟩

/-- LPF1 (R91). -/
def tyLpf1 : BlockType :=
  ⟨[.S], [.S], 2, 20, r07, [⟨.U, 0, 400000000⟩]⟩

/-- BIQUAD (R91). -/
def tyBiquad : BlockType :=
  ⟨[.S], [.S], 8, 26, r04, List.replicate 5 ⟨.C, -2147483648, 2147483647⟩⟩

/-- NOTCH (R91). -/
def tyNotch : BlockType :=
  ⟨[.S, .S], [.S], 8, 80, r04, [⟨.U, 1, 15⟩, ⟨.G, 32768, 3276800⟩, ⟨.G, 0, 65536⟩]⟩

/-- MAVG (R91). -/
def tyMavg : BlockType :=
  ⟨[.S], [.S], 131, 24, r07, [⟨.U, 1, 256⟩]⟩

/-- RMS (R91). -/
def tyRms : BlockType :=
  ⟨[.S], [.S], 2, 50, r07, [⟨.U, 0, 400000000⟩]⟩

/-- ANGLE_INT (R91). -/
def tyAngleInt : BlockType :=
  ⟨[.S, .A], [.A], 2, 16, r04, []⟩

/-- PLL (R91). -/
def tyPll : BlockType :=
  ⟨[.S, .S], [.A, .S, .S], 4, 90, r04, [⟨.G, 0, 6553600⟩, ⟨.G, 0, 1966080000⟩, ⟨.Q, 0, 16384⟩, ⟨.Q, -32768, 32767⟩, ⟨.Q, -32768, 32767⟩]⟩

/-- SEQ_SPLIT (R91). -/
def tySeqSplit : BlockType :=
  ⟨[.S, .S], [.S, .S, .S, .S], 516, 70, r04, []⟩

/-- PQ_CALC (R91). -/
def tyPqCalc : BlockType :=
  ⟨[.S, .S, .S, .S], [.S, .S], 4, 30, r07, [⟨.U, 0, 400000000⟩]⟩

/-- SYNC_CHECK (R91). -/
def tySyncCheck : BlockType :=
  ⟨[.A, .A, .S, .S, .S, .S], [.W, .A], 2, 70, r04, [⟨.U, 1, 364⟩, ⟨.U, 1, 50⟩, ⟨.U, 1, 20⟩, ⟨.U, 0, 1000⟩]⟩

/-- VSM (R91). -/
def tyVsm : BlockType :=
  ⟨[.S, .S, .W, .A, .W], [.A, .S, .S], 6, 110, r04, [⟨.U, 5, 2000⟩, ⟨.G, 0, 65536000⟩, ⟨.U, 50, 1000⟩, ⟨.Q, 7373, 9011⟩, ⟨.Q, -32768, 32767⟩, ⟨.Q, -32768, 32767⟩, ⟨.U, 1, 200⟩]⟩

/-- DROOP_PF (R91). -/
def tyDroopPf : BlockType :=
  ⟨[.S, .S], [.S], 0, 20, r07, [⟨.U, 50, 1000⟩, ⟨.Q, 7373, 9011⟩, ⟨.Q, -32768, 32767⟩, ⟨.Q, -32768, 32767⟩]⟩

/-- DROOP_QV (R91). -/
def tyDroopQv : BlockType :=
  ⟨[.S, .S, .S], [.S], 0, 20, r07, [⟨.U, 0, 2000⟩, ⟨.Q, -32768, 32767⟩, ⟨.Q, -32768, 32767⟩]⟩

/-- VIRT_Z (R91). -/
def tyVirtZ : BlockType :=
  ⟨[.S, .S, .S, .S, .S], [.S, .S, .W], 1, 90, r04, [⟨.Q, 0, 8192⟩, ⟨.Q, 0, 8192⟩]⟩

/-- INERTIA_LEDGER (R91). -/
def tyInertiaLedger : BlockType :=
  ⟨[.S, .S, .S], [.W, .S, .W], 12, 260, [6], [⟨.U, 5, 2000⟩, ⟨.U, 1, 20000⟩, ⟨.Q, 0, 8192⟩, ⟨.U, 100, 60000⟩, ⟨.Q, 9, 1638⟩, ⟨.U, 1, 8⟩] ++ List.replicate 8 ⟨.U, 0, 2000⟩⟩

/-- RT_ENVELOPE (R91). -/
def tyRtEnvelope : BlockType :=
  ⟨[.S, .S], [.W, .S, .W], 6, 120, [0], [⟨.Q, -32768, 32767⟩, ⟨.Q, -32768, 32767⟩, ⟨.Q, 0, 1638⟩, ⟨.Q, 820, 32767⟩, ⟨.Q, 820, 16384⟩, ⟨.Q, 820, 16384⟩, ⟨.G, 6554, 65536000⟩, ⟨.U, 10, 3000⟩, ⟨.U, 1, 16⟩] ++ List.replicate 16 ⟨.U, 0, 4294967295⟩⟩

/-- INRUSH_LIM (R91). -/
def tyInrushLim : BlockType :=
  ⟨[.S, .S], [.S, .W], 1, 30, r04, [⟨.Q, 410, 16384⟩, ⟨.G, 0, 6553600⟩]⟩

/-- PROFILE (R91). -/
def tyProfile : BlockType :=
  ⟨[.S, .W], [.S, .S, .S], 8, 140, r04, [⟨.G, 66, 1966080000⟩, ⟨.G, 66, 1966080000⟩, ⟨.G, 66, 1966080000⟩, ⟨.Q, 0, 81⟩]⟩

/-- FOLLOW_ERR (R91). -/
def tyFollowErr : BlockType :=
  ⟨[.S, .S], [.W, .S], 2, 30, r04, [⟨.Q, 0, 32767⟩, ⟨.U, 1, 10000⟩, ⟨.U, 1, 2⟩]⟩

/-- FRESH_SUP (R91). -/
def tyFreshSup : BlockType :=
  ⟨[.S, .S, .S, .W], [.S, .W, .W], 6, 40, [0], [⟨.U, 1, 3⟩, ⟨.U, 2, 255⟩, ⟨.Q, 0, 32767⟩, ⟨.U, 1, 500⟩]⟩

/-- FIELD_WEAKEN (R91). -/
def tyFieldWeaken : BlockType :=
  ⟨[.S, .S], [.S], 2, 60, r04, [⟨.G, 0, 1966080000⟩, ⟨.G, 0, 262144⟩, ⟨.Q, -32767, 0⟩]⟩

/-- OBS_PM (R91). -/
def tyObsPm : BlockType :=
  ⟨[.S, .S, .S, .S], [.A, .S, .W], 10, 220, r04, [⟨.Q, 0, 8192⟩, ⟨.Q, 0, 8192⟩, ⟨.G, 0, 6553600⟩, ⟨.G, 0, 6553600⟩, ⟨.G, 0, 1966080000⟩, ⟨.Q, 0, 8192⟩, ⟨.Q, 820, 16384⟩]⟩

/-- OBS_IM (R91). -/
def tyObsIm : BlockType :=
  ⟨[.S, .S, .S], [.A, .S, .S], 6, 160, r04, [⟨.Q, 820, 32767⟩, ⟨.U, 1000, 10000000⟩, ⟨.Q, 82, 8192⟩]⟩

/-- SETPOINT_SEL (R91). -/
def tySetpointSel : BlockType :=
  ⟨[.S, .S, .S, .S], [.S], 2, 40, r07, [⟨.U, 0, 3⟩] ++ List.replicate 4 ⟨.Q, -32768, 32767⟩ ++ [⟨.Q, 0, 32767⟩, ⟨.G, 656, 1966080000⟩]⟩

/-- TORQUE_REF (R91). -/
def tyTorqueRef : BlockType :=
  ⟨[.S, .S], [.S], 0, 40, r07, [⟨.G, 656, 6553600⟩, ⟨.Q, 0, 32767⟩, ⟨.Q, 82, 16384⟩]⟩

/-- THERMAL_NET (R91). -/
def tyThermalNet : BlockType :=
  ⟨[.S, .S, .S, .S, .W], [.S, .S], 16, 1650, r04, [⟨.U, 0, 47⟩, ⟨.U, 1, 1000000⟩, ⟨.U, 0, 20000⟩, ⟨.U, 1, 10000000⟩, ⟨.U, 0, 20000⟩] ++ List.replicate 4 ⟨.U, 0, 10000000⟩ ++ List.replicate 4 ⟨.U, 1, 100000000⟩⟩

/-- RAINFLOW (R91). -/
def tyRainflow : BlockType :=
  ⟨[.S], [.S, .S, .W], 176, 1350, r04, [⟨.U, 0, 47⟩, ⟨.Q, 9, 1638⟩, ⟨.Q, 0, 8192⟩, ⟨.Q, 41, 4096⟩, ⟨.Q, -4096, 12288⟩, ⟨.Q, 82, 4096⟩]⟩

/-- CURRENT_STEER (R91). -/
def tyCurrentSteer : BlockType :=
  ⟨[.S, .S, .S, .S, .S, .S, .S, .S, .S], [.S, .S, .S, .S], 8, 180, r04, [⟨.U, 2, 4⟩, ⟨.G, 0, 6553600⟩, ⟨.G, 0, 1966080000⟩, ⟨.Q, 0, 512⟩]⟩

/-- REACT_MUX (R91). -/
def tyReactMux : BlockType :=
  ⟨[.W, .W, .W, .W, .W, .W, .W, .W], [.W], 1, 30, [0], []⟩

/-- CAPTURE_TRIG (R91). -/
def tyCaptureTrig : BlockType :=
  ⟨[.S], [.W], 1, 20, r07, [⟨.U, 0, 2⟩, ⟨.Q, -32768, 32767⟩, ⟨.Q, 0, 8192⟩]⟩

/-- SELECT (R91). -/
def tySelect : BlockType :=
  ⟨[.W, .X, .X, .X, .X, .X, .X, .X, .X], [.X], 0, 14, r07, []⟩

/-- The catalogue by opcode. -/
def blockType (op : Nat) : BlockType :=
  match op with
  | 1 => tyClarke
  | 2 => tyInvClarke
  | 3 => tyPark
  | 4 => tyInvPark
  | 5 => tySincos
  | 6 => tySvpwm
  | 7 => tyPi
  | 8 => tyPid
  | 9 => tyPr
  | 10 => tyDqPi
  | 11 => tyLeadLag
  | 12 => tySum
  | 13 => tyProduct
  | 14 => tyLimit
  | 15 => tySlew
  | 16 => tyVecLimit
  | 17 => tyHyst
  | 18 => tyLpf1
  | 19 => tyBiquad
  | 20 => tyNotch
  | 21 => tyMavg
  | 22 => tyRms
  | 23 => tyAngleInt
  | 24 => tyPll
  | 25 => tySeqSplit
  | 26 => tyPqCalc
  | 27 => tySyncCheck
  | 28 => tyVsm
  | 29 => tyDroopPf
  | 30 => tyDroopQv
  | 31 => tyVirtZ
  | 32 => tyInertiaLedger
  | 33 => tyRtEnvelope
  | 34 => tyInrushLim
  | 35 => tyProfile
  | 36 => tyFollowErr
  | 37 => tyFreshSup
  | 38 => tyFieldWeaken
  | 39 => tyObsPm
  | 40 => tyObsIm
  | 41 => tySetpointSel
  | 42 => tyTorqueRef
  | 43 => tyThermalNet
  | 44 => tyRainflow
  | 45 => tyCurrentSteer
  | 46 => tyReactMux
  | 47 => tyCaptureTrig
  | 48 => tySelect
  | _ => tyNone

/-- Whether a parameter word fits its format and lies in its range (R82). -/
def parOk (sp : ParSpec) (w : Nat) : Bool :=
  match sp.fmt with
  | .Q => decide (w / 2 ^ 16 = if w.testBit 15 then 0xFFFF else 0) && decide (sp.lo ≤ toSigned 16 w ∧ toSigned 16 w ≤ sp.hi)
  | .U => decide (sp.lo ≤ (w : Int) ∧ (w : Int) ≤ sp.hi)
  | _ => decide (sp.lo ≤ toSigned 32 w ∧ toSigned 32 w ≤ sp.hi)

end Sys2Proof.Machine
end

