-- ==== Sys2Proof/Machine/RegTable.lean ====
section
/-! DEFINITION. Every register of the register window (00_scope.md, Registers, and the register table that ends each
chapter): one named constant for each field, and one row of `regTable` for each register with its access codes and
its reset values. The addresses follow R7. -/

namespace Sys2Proof.Machine

/-! ## 00_scope.md -/

/-- ID_PART (00_scope.md, R14): address of instance 0. -/
def A.ID_PART : Nat := 0x0
def R.ID_PART.FAMILY : Fld := ⟨0x0, 0x0, 0, 16, 16⟩
def R.ID_PART.PART : Fld := ⟨0x0, 0x0, 0, 0, 16⟩
/-- ID_REV (00_scope.md, R14): address of instance 0. -/
def A.ID_REV : Nat := 0x4
def R.ID_REV.SILREV : Fld := ⟨0x4, 0x0, 0, 24, 8⟩
def R.ID_REV.PKGREV : Fld := ⟨0x4, 0x0, 0, 16, 8⟩
/-- ID_FW (00_scope.md, R14): address of instance 0. -/
def A.ID_FW : Nat := 0x8
def R.ID_FW.FW_MAJOR : Fld := ⟨0x8, 0x0, 0, 24, 8⟩
def R.ID_FW.FW_MINOR : Fld := ⟨0x8, 0x0, 0, 16, 8⟩
def R.ID_FW.FW_BUILD : Fld := ⟨0x8, 0x0, 0, 0, 16⟩
/-- ID_STATUS (00_scope.md, R14): address of instance 0. -/
def A.ID_STATUS : Nat := 0xc
def R.ID_STATUS.OPT_FAILS : Fld := ⟨0xc, 0x0, 0, 20, 2⟩
def R.ID_STATUS.OPT_SRC : Fld := ⟨0xc, 0x0, 0, 16, 2⟩
def R.ID_STATUS.DIES_OK : Fld := ⟨0xc, 0x0, 0, 4, 6⟩
def R.ID_STATUS.MIN_SERVICE : Fld := ⟨0xc, 0x0, 0, 3, 1⟩
def R.ID_STATUS.CERT_CFG : Fld := ⟨0xc, 0x0, 0, 2, 1⟩
def R.ID_STATUS.START_WARM : Fld := ⟨0xc, 0x0, 0, 1, 1⟩
/-- ID_SERIAL_LO (00_scope.md, R14): address of instance 0. -/
def A.ID_SERIAL_LO : Nat := 0x10
def R.ID_SERIAL_LO.SERIAL : Fld := ⟨0x10, 0x0, 0, 0, 32⟩
/-- ID_SERIAL_HI (00_scope.md, R14): address of instance 0. -/
def A.ID_SERIAL_HI : Nat := 0x14
def R.ID_SERIAL_HI.SERIAL : Fld := ⟨0x14, 0x0, 0, 0, 32⟩

/-- Registers of 00_scope.md. -/
def regs00_0 : List RegDef := [
  -- ID_PART
  ⟨0x0, 0x0, 1, 0, 1, [⟨16, 16, .RO, 23116, .fixed, []⟩, ⟨0, 16, .RO, 18468, .fixed, []⟩]⟩,
  -- ID_REV
  ⟨0x4, 0x0, 1, 0, 1, [⟨24, 8, .RO, 66, .fixed, []⟩, ⟨16, 8, .RO, 1, .fixed, []⟩]⟩,
  -- ID_FW
  ⟨0x8, 0x0, 1, 0, 1, [⟨24, 8, .RO, 0, .start, []⟩, ⟨16, 8, .RO, 0, .start, []⟩, ⟨0, 16, .RO, 0, .start, []⟩]⟩,
  -- ID_STATUS
  ⟨0xc, 0x0, 1, 0, 1, [⟨20, 2, .RO, 0, .fixed, [1, 2, 3, 4]⟩, ⟨16, 2, .RO, 0, .start, []⟩, ⟨4, 6, .RO, 0, .start, []⟩, ⟨3, 1, .RO, 0, .start, []⟩, ⟨2, 1, .RO, 0, .start, []⟩, ⟨1, 1, .RO, 0, .start, []⟩]⟩,
  -- ID_SERIAL_LO
  ⟨0x10, 0x0, 1, 0, 1, [⟨0, 32, .RO, 0, .start, []⟩]⟩,
  -- ID_SERIAL_HI
  ⟨0x14, 0x0, 1, 0, 1, [⟨0, 32, .RO, 0, .start, []⟩]⟩]

/-! ## 01_bridge_modes.md -/

/-- DEV_STATUS (01_bridge_modes.md, R42): address of instance 0. -/
def A.DEV_STATUS : Nat := 0x20
def R.DEV_STATUS.KON_OUT : Fld := ⟨0x20, 0x0, 0, 28, 4⟩
def R.DEV_STATUS.KRB : Fld := ⟨0x20, 0x0, 0, 24, 4⟩
def R.DEV_STATUS.ANY_LATCHED : Fld := ⟨0x20, 0x0, 0, 23, 1⟩
def R.DEV_STATUS.ANY_RT : Fld := ⟨0x20, 0x0, 0, 22, 1⟩
def R.DEV_STATUS.DEV_STATE : Fld := ⟨0x20, 0x0, 0, 20, 2⟩
def R.DEV_STATUS.CFG_VALID : Fld := ⟨0x20, 0x0, 0, 16, 4⟩
def R.DEV_STATUS.MODE_D : Fld := ⟨0x20, 0x0, 0, 12, 3⟩
def R.DEV_STATUS.MODE_C : Fld := ⟨0x20, 0x0, 0, 8, 3⟩
def R.DEV_STATUS.MODE_B : Fld := ⟨0x20, 0x0, 0, 4, 3⟩
def R.DEV_STATUS.MODE_A : Fld := ⟨0x20, 0x0, 0, 0, 3⟩
/-- DEV_EVENT (01_bridge_modes.md, R42): address of instance 0. -/
def A.DEV_EVENT : Nat := 0x24
def R.DEV_EVENT.RT_ENTRY : Fld := ⟨0x24, 0x0, 0, 12, 1⟩
def R.DEV_EVENT.REFUSED : Fld := ⟨0x24, 0x0, 0, 8, 4⟩
def R.DEV_EVENT.AUTO_SEAL : Fld := ⟨0x24, 0x0, 0, 4, 4⟩
def R.DEV_EVENT.MODE_CHG : Fld := ⟨0x24, 0x0, 0, 0, 4⟩
/-- DEV_EVENT_EN (01_bridge_modes.md, R42): address of instance 0. -/
def A.DEV_EVENT_EN : Nat := 0x28
def R.DEV_EVENT_EN.EN : Fld := ⟨0x28, 0x0, 0, 0, 13⟩
/-- BR_CFG (01_bridge_modes.md, R43): address of instance 0. -/
def A.BR_CFG : Nat := 0x100000
def R.BR_CFG.NLEG_M1 : Fld := ⟨0x100000, 0x400, 0, 8, 2⟩
def R.BR_CFG.NPHASE : Fld := ⟨0x100000, 0x400, 0, 4, 3⟩
def R.BR_CFG.KIND : Fld := ⟨0x100000, 0x400, 0, 0, 2⟩
/-- BR_PHASE (01_bridge_modes.md, R43): address of instance 0. -/
def A.BR_PHASE : Nat := 0x100004
def R.BR_PHASE.P3_FIRST : Fld := ⟨0x100004, 0x400, 0, 24, 5⟩
def R.BR_PHASE.P2_FIRST : Fld := ⟨0x100004, 0x400, 0, 16, 5⟩
def R.BR_PHASE.P1_FIRST : Fld := ⟨0x100004, 0x400, 0, 8, 5⟩
def R.BR_PHASE.P0_FIRST : Fld := ⟨0x100004, 0x400, 0, 0, 5⟩
/-- BR_KON (01_bridge_modes.md, R43): address of instance 0. -/
def A.BR_KON : Nat := 0x100008
def R.BR_KON.MOTOR_POL : Fld := ⟨0x100008, 0x400, 0, 12, 4⟩
def R.BR_KON.MOTOR_KON : Fld := ⟨0x100008, 0x400, 0, 8, 4⟩
def R.BR_KON.SITE_KON : Fld := ⟨0x100008, 0x400, 0, 0, 4⟩
/-- BR_BAND (01_bridge_modes.md, R43): address of instance 0. -/
def A.BR_BAND : Nat := 0x10000c
def R.BR_BAND.FBAND : Fld := ⟨0x10000c, 0x400, 0, 16, 8⟩
def R.BR_BAND.VBAND : Fld := ⟨0x10000c, 0x400, 0, 8, 8⟩
def R.BR_BAND.DEAD_V : Fld := ⟨0x10000c, 0x400, 0, 0, 8⟩
/-- BR_TIMES (01_bridge_modes.md, R43): address of instance 0. -/
def A.BR_TIMES : Nat := 0x100010
def R.BR_TIMES.BS_TO : Fld := ⟨0x100010, 0x400, 0, 26, 6⟩
def R.BR_TIMES.SYNC_TO : Fld := ⟨0x100010, 0x400, 0, 20, 6⟩
def R.BR_TIMES.KON_WAIT : Fld := ⟨0x100010, 0x400, 0, 12, 8⟩
def R.BR_TIMES.RAMP_MS : Fld := ⟨0x100010, 0x400, 0, 0, 12⟩
/-- BR_STATUS (01_bridge_modes.md, R43): address of instance 0. -/
def A.BR_STATUS : Nat := 0x100020
def R.BR_STATUS.CFG_ERR : Fld := ⟨0x100020, 0x400, 0, 16, 4⟩
def R.BR_STATUS.MOTOR_CONN : Fld := ⟨0x100020, 0x400, 0, 12, 1⟩
def R.BR_STATUS.SITE_CLOSED : Fld := ⟨0x100020, 0x400, 0, 11, 1⟩
def R.BR_STATUS.LATCHED : Fld := ⟨0x100020, 0x400, 0, 10, 1⟩
def R.BR_STATUS.IMAGE_OK : Fld := ⟨0x100020, 0x400, 0, 9, 1⟩
def R.BR_STATUS.CFG_OK : Fld := ⟨0x100020, 0x400, 0, 8, 1⟩
def R.BR_STATUS.STEP : Fld := ⟨0x100020, 0x400, 0, 4, 3⟩
def R.BR_STATUS.MODE : Fld := ⟨0x100020, 0x400, 0, 0, 3⟩
/-- BR_REASON (01_bridge_modes.md, R43): address of instance 0. -/
def A.BR_REASON : Nat := 0x100024
def R.BR_REASON.REFUSE_TARGET : Fld := ⟨0x100024, 0x400, 0, 24, 3⟩
def R.BR_REASON.LAST_REFUSE : Fld := ⟨0x100024, 0x400, 0, 8, 8⟩
def R.BR_REASON.SEAL_REASON : Fld := ⟨0x100024, 0x400, 0, 0, 5⟩
/-- BR_COUNT (01_bridge_modes.md, R43): address of instance 0. -/
def A.BR_COUNT : Nat := 0x100028
def R.BR_COUNT.REFUSALS : Fld := ⟨0x100028, 0x400, 0, 16, 16⟩
def R.BR_COUNT.SEALS : Fld := ⟨0x100028, 0x400, 0, 0, 16⟩
/-- BR_MODE_MS (01_bridge_modes.md, R43): address of instance 0. -/
def A.BR_MODE_MS : Nat := 0x10002c
def R.BR_MODE_MS.MODE_MS : Fld := ⟨0x10002c, 0x400, 0, 0, 32⟩
/-- BR_CTRL (01_bridge_modes.md, R43): address of instance 0. -/
def A.BR_CTRL : Nat := 0x100030
def R.BR_CTRL.FAULT_CLR : Fld := ⟨0x100030, 0x400, 0, 0, 1⟩

/-- Registers of 01_bridge_modes.md. -/
def regs01_0 : List RegDef := [
  -- DEV_STATUS
  ⟨0x20, 0x0, 1, 0, 1, [⟨28, 4, .RO, 0, .fixed, []⟩, ⟨24, 4, .RO, 0, .fixed, []⟩, ⟨23, 1, .RO, 0, .fixed, []⟩, ⟨22, 1, .RO, 0, .fixed, []⟩, ⟨20, 2, .RO, 0, .fixed, []⟩, ⟨16, 4, .RO, 0, .option, []⟩, ⟨12, 3, .RO, 0, .fixed, []⟩, ⟨8, 3, .RO, 0, .fixed, []⟩, ⟨4, 3, .RO, 0, .fixed, []⟩, ⟨0, 3, .RO, 0, .fixed, []⟩]⟩,
  -- DEV_EVENT
  ⟨0x24, 0x0, 1, 0, 1, [⟨12, 1, .W1C, 0, .fixed, []⟩, ⟨8, 4, .W1C, 0, .fixed, []⟩, ⟨4, 4, .W1C, 0, .fixed, []⟩, ⟨0, 4, .W1C, 0, .fixed, []⟩]⟩,
  -- DEV_EVENT_EN
  ⟨0x28, 0x0, 1, 0, 1, [⟨0, 13, .RW, 4351, .fixed, []⟩]⟩,
  -- BR_CFG
  ⟨0x100000, 0x400, 4, 0, 1, [⟨8, 2, .WA, 0, .option, [2, 3, 4]⟩, ⟨4, 3, .WA, 0, .option, [2, 3, 4]⟩, ⟨0, 2, .WA, 0, .option, [2, 3, 4]⟩]⟩,
  -- BR_PHASE
  ⟨0x100004, 0x400, 4, 0, 1, [⟨24, 5, .WA, 0, .option, [2, 3, 4]⟩, ⟨16, 5, .WA, 0, .option, [2, 3, 4]⟩, ⟨8, 5, .WA, 0, .option, [2, 3, 4]⟩, ⟨0, 5, .WA, 0, .option, [2, 3, 4]⟩]⟩,
  -- BR_KON
  ⟨0x100008, 0x400, 4, 0, 1, [⟨12, 4, .WA, 0, .option, [2, 3, 4]⟩, ⟨8, 4, .WA, 0, .option, [2, 3, 4]⟩, ⟨0, 4, .WA, 0, .option, [2, 3, 4]⟩]⟩,
  -- BR_BAND
  ⟨0x10000c, 0x400, 4, 0, 1, [⟨16, 8, .RW, 20, .fixed, [2, 3, 4]⟩, ⟨8, 8, .RW, 50, .fixed, [2, 3, 4]⟩, ⟨0, 8, .RW, 10, .fixed, [2, 3, 4]⟩]⟩,
  -- BR_TIMES
  ⟨0x100010, 0x400, 4, 0, 1, [⟨26, 6, .RW, 10, .fixed, [2, 3, 4]⟩, ⟨20, 6, .RW, 10, .fixed, [2, 3, 4]⟩, ⟨12, 8, .RW, 20, .fixed, [2, 3, 4]⟩, ⟨0, 12, .RW, 500, .fixed, [2, 3, 4]⟩]⟩,
  -- BR_STATUS
  ⟨0x100020, 0x400, 4, 0, 1, [⟨16, 4, .RO, 0, .start, [3, 4]⟩, ⟨12, 1, .RO, 0, .fixed, []⟩, ⟨11, 1, .RO, 0, .fixed, []⟩, ⟨10, 1, .RO, 0, .fixed, [3, 4]⟩, ⟨9, 1, .RO, 0, .fixed, [2, 3, 4]⟩, ⟨8, 1, .RO, 0, .start, [3, 4]⟩, ⟨4, 3, .RO, 0, .fixed, []⟩, ⟨0, 3, .RO, 0, .fixed, []⟩]⟩,
  -- BR_REASON
  ⟨0x100024, 0x400, 4, 0, 1, [⟨24, 3, .RO, 0, .fixed, []⟩, ⟨8, 8, .RO, 0, .fixed, []⟩, ⟨0, 5, .RO, 0, .fixed, [3, 4]⟩]⟩,
  -- BR_COUNT
  ⟨0x100028, 0x400, 4, 0, 1, [⟨16, 16, .RC, 0, .fixed, [3, 4]⟩, ⟨0, 16, .RC, 0, .fixed, [3, 4]⟩]⟩,
  -- BR_MODE_MS
  ⟨0x10002c, 0x400, 4, 0, 1, [⟨0, 32, .RO, 0, .fixed, []⟩]⟩]
/-- Registers of 01_bridge_modes.md. -/
def regs01_1 : List RegDef := [
  -- BR_CTRL
  ⟨0x100030, 0x400, 4, 0, 1, [⟨0, 1, .WS, 0, .fixed, []⟩]⟩]

/-! ## 02_law_graphs.md -/

/-- GR_LIB (02_law_graphs.md, R78): address of instance 0. -/
def A.GR_LIB : Nat := 0x40
def R.GR_LIB.RAM_FREE : Fld := ⟨0x40, 0x0, 0, 10, 10⟩
/-- GR_LIBVER (02_law_graphs.md, R78): address of instance 0. -/
def A.GR_LIBVER : Nat := 0x44
def R.GR_LIBVER.LIB_VER : Fld := ⟨0x44, 0x0, 0, 0, 16⟩
/-- GR_STAGE (02_law_graphs.md, R78): address of instance 0. -/
def A.GR_STAGE : Nat := 0x48
def R.GR_STAGE.GRAPH : Fld := ⟨0x48, 0x0, 0, 30, 2⟩
def R.GR_STAGE.REC : Fld := ⟨0x48, 0x0, 0, 16, 12⟩
def R.GR_STAGE.GRAPH_ERR : Fld := ⟨0x48, 0x0, 0, 8, 8⟩
def R.GR_STAGE.STATE : Fld := ⟨0x48, 0x0, 0, 0, 3⟩
/-- GR_FILL (02_law_graphs.md, R78): address of instance 0. -/
def A.GR_FILL : Nat := 0x4c
def R.GR_FILL.FILL : Fld := ⟨0x4c, 0x0, 0, 0, 20⟩
/-- GR_STORE (02_law_graphs.md, R78): address of instance 0. -/
def A.GR_STORE : Nat := 0x50
def R.GR_STORE.SLOT1_OK : Fld := ⟨0x50, 0x0, 0, 3, 1⟩
def R.GR_STORE.SLOT0_OK : Fld := ⟨0x50, 0x0, 0, 2, 1⟩
def R.GR_STORE.START_SLOT : Fld := ⟨0x50, 0x0, 0, 0, 2⟩
/-- GR_ID (02_law_graphs.md, R79): address of instance 0. -/
def A.GR_ID : Nat := 0x100100
def R.GR_ID.IMAGE_ID : Fld := ⟨0x100100, 0x400, 0, 0, 32⟩
/-- GR_STATUS (02_law_graphs.md, R79): address of instance 0. -/
def A.GR_STATUS : Nat := 0x100104
def R.GR_STATUS.SOURCE : Fld := ⟨0x100104, 0x400, 0, 30, 2⟩
def R.GR_STATUS.REC : Fld := ⟨0x100104, 0x400, 0, 16, 12⟩
def R.GR_STATUS.GRAPH_ERR : Fld := ⟨0x100104, 0x400, 0, 0, 8⟩
/-- GR_BEAT (02_law_graphs.md, R79): address of instance 0. -/
def A.GR_BEAT : Nat := 0x100108
def R.GR_BEAT.BEAT_TICKS : Fld := ⟨0x100108, 0x400, 0, 0, 20⟩
/-- GR_BEATNO (02_law_graphs.md, R79): address of instance 0. -/
def A.GR_BEATNO : Nat := 0x10010c
def R.GR_BEATNO.BEATNO : Fld := ⟨0x10010c, 0x400, 0, 0, 32⟩
/-- GR_COUNT (02_law_graphs.md, R79): address of instance 0. -/
def A.GR_COUNT : Nat := 0x100110
def R.GR_COUNT.STALE_CNT : Fld := ⟨0x100110, 0x400, 0, 16, 16⟩
def R.GR_COUNT.SAT_CNT : Fld := ⟨0x100110, 0x400, 0, 0, 16⟩
/-- GR_EVENTS (02_law_graphs.md, R79): address of instance 0. -/
def A.GR_EVENTS : Nat := 0x100114
def R.GR_EVENTS.SWAPS : Fld := ⟨0x100114, 0x400, 0, 16, 16⟩
def R.GR_EVENTS.OVERRUN : Fld := ⟨0x100114, 0x400, 0, 0, 16⟩
/-- GR_DIGEST_LO (02_law_graphs.md, R79): address of instance 0. -/
def A.GR_DIGEST_LO : Nat := 0x100118
def R.GR_DIGEST_LO.DIGEST : Fld := ⟨0x100118, 0x400, 0, 0, 32⟩
/-- GR_DIGEST_HI (02_law_graphs.md, R79): address of instance 0. -/
def A.GR_DIGEST_HI : Nat := 0x10011c
def R.GR_DIGEST_HI.DIGEST : Fld := ⟨0x10011c, 0x400, 0, 0, 32⟩

/-- Registers of 02_law_graphs.md. -/
def regs02_0 : List RegDef := [
  -- GR_LIB
  ⟨0x40, 0x0, 1, 0, 1, [⟨10, 10, .RO, 512, .fixed, []⟩]⟩,
  -- GR_LIBVER
  ⟨0x44, 0x0, 1, 0, 1, [⟨0, 16, .RO, 0, .start, []⟩]⟩,
  -- GR_STAGE
  ⟨0x48, 0x0, 1, 0, 1, [⟨30, 2, .RO, 0, .fixed, []⟩, ⟨16, 12, .RO, 4095, .fixed, []⟩, ⟨8, 8, .RO, 0, .fixed, []⟩, ⟨0, 3, .RO, 0, .fixed, [3, 4]⟩]⟩,
  -- GR_FILL
  ⟨0x4c, 0x0, 1, 0, 1, [⟨0, 20, .RO, 0, .fixed, [3, 4]⟩]⟩,
  -- GR_STORE
  ⟨0x50, 0x0, 1, 0, 1, [⟨3, 1, .RO, 0, .start, []⟩, ⟨2, 1, .RO, 0, .start, []⟩, ⟨0, 2, .RO, 0, .option, []⟩]⟩,
  -- GR_ID
  ⟨0x100100, 0x400, 4, 0, 1, [⟨0, 32, .RO, 0, .fixed, [2, 3, 4]⟩]⟩,
  -- GR_STATUS
  ⟨0x100104, 0x400, 4, 0, 1, [⟨30, 2, .RO, 0, .fixed, [2, 3, 4]⟩, ⟨16, 12, .RO, 4095, .fixed, []⟩, ⟨0, 8, .RO, 0, .fixed, []⟩]⟩,
  -- GR_BEAT
  ⟨0x100108, 0x400, 4, 0, 1, [⟨0, 20, .RO, 0, .fixed, []⟩]⟩,
  -- GR_BEATNO
  ⟨0x10010c, 0x400, 4, 0, 1, [⟨0, 32, .RO, 0, .fixed, []⟩]⟩,
  -- GR_COUNT
  ⟨0x100110, 0x400, 4, 0, 1, [⟨16, 16, .RC, 0, .fixed, []⟩, ⟨0, 16, .RC, 0, .fixed, []⟩]⟩,
  -- GR_EVENTS
  ⟨0x100114, 0x400, 4, 0, 1, [⟨16, 16, .RC, 0, .fixed, []⟩, ⟨0, 16, .RC, 0, .fixed, []⟩]⟩,
  -- GR_DIGEST_LO
  ⟨0x100118, 0x400, 4, 0, 1, [⟨0, 32, .RO, 0, .fixed, [2, 3, 4]⟩]⟩]
/-- Registers of 02_law_graphs.md. -/
def regs02_1 : List RegDef := [
  -- GR_DIGEST_HI
  ⟨0x10011c, 0x400, 4, 0, 1, [⟨0, 32, .RO, 0, .fixed, [2, 3, 4]⟩]⟩]

/-! ## 04_grid_forming.md -/

/-- GF_CFG (04_grid_forming.md, R138): address of instance 0. -/
def A.GF_CFG : Nat := 0x100200
def R.GF_CFG.VTGT : Fld := ⟨0x100200, 0x400, 0, 16, 16⟩
def R.GF_CFG.RAMP_T : Fld := ⟨0x100200, 0x400, 0, 0, 11⟩
/-- GF_CTRL (04_grid_forming.md, R138): address of instance 0. -/
def A.GF_CTRL : Nat := 0x100204
def R.GF_CTRL.RESYNC : Fld := ⟨0x100204, 0x400, 0, 0, 1⟩
/-- GF_STATUS (04_grid_forming.md, R138): address of instance 0. -/
def A.GF_STATUS : Nat := 0x100208
def R.GF_STATUS.GF_ERR : Fld := ⟨0x100208, 0x400, 0, 24, 8⟩
def R.GF_STATUS.READY_BS : Fld := ⟨0x100208, 0x400, 0, 19, 1⟩
def R.GF_STATUS.READY_FORM : Fld := ⟨0x100208, 0x400, 0, 18, 1⟩
def R.GF_STATUS.SYNC_EN : Fld := ⟨0x100208, 0x400, 0, 17, 1⟩
def R.GF_STATUS.SYNC_OK : Fld := ⟨0x100208, 0x400, 0, 16, 1⟩
def R.GF_STATUS.DTH : Fld := ⟨0x100208, 0x400, 0, 0, 16⟩
/-- GF_INERTIA (04_grid_forming.md, R138): address of instance 0. -/
def A.GF_INERTIA : Nat := 0x10020c
def R.GF_INERTIA.FLOOR : Fld := ⟨0x10020c, 0x400, 0, 28, 1⟩
def R.GF_INERTIA.REDUCED : Fld := ⟨0x10020c, 0x400, 0, 27, 1⟩
def R.GF_INERTIA.H_EFF : Fld := ⟨0x10020c, 0x400, 0, 16, 11⟩
def R.GF_INERTIA.H_CFG : Fld := ⟨0x10020c, 0x400, 0, 0, 11⟩
/-- GF_ENERGY (04_grid_forming.md, R138): address of instance 0. -/
def A.GF_ENERGY : Nat := 0x100210
def R.GF_ENERGY.COMMITTED : Fld := ⟨0x100210, 0x400, 0, 16, 16⟩
def R.GF_ENERGY.RESERVE : Fld := ⟨0x100210, 0x400, 0, 0, 16⟩
/-- GF_RT (04_grid_forming.md, R138): address of instance 0. -/
def A.GF_RT : Nat := 0x100214
def R.GF_RT.ILIM : Fld := ⟨0x100214, 0x400, 0, 16, 16⟩
def R.GF_RT.TIN : Fld := ⟨0x100214, 0x400, 0, 0, 16⟩
/-- GF_COUNT (04_grid_forming.md, R138): address of instance 0. -/
def A.GF_COUNT : Nat := 0x100218
def R.GF_COUNT.H_RED_CNT : Fld := ⟨0x100218, 0x400, 0, 16, 16⟩
def R.GF_COUNT.RT_CNT : Fld := ⟨0x100218, 0x400, 0, 0, 16⟩
/-- GF_EVENT (04_grid_forming.md, R138): address of instance 0. -/
def A.GF_EVENT : Nat := 0x10021c
def R.GF_EVENT.REQ_IGN : Fld := ⟨0x10021c, 0x400, 0, 4, 1⟩
def R.GF_EVENT.RT_EXCEED : Fld := ⟨0x10021c, 0x400, 0, 3, 1⟩
def R.GF_EVENT.RT_RETURN : Fld := ⟨0x10021c, 0x400, 0, 2, 1⟩
def R.GF_EVENT.H_RESTORE : Fld := ⟨0x10021c, 0x400, 0, 1, 1⟩
def R.GF_EVENT.H_RED : Fld := ⟨0x10021c, 0x400, 0, 0, 1⟩

/-- Registers of 04_grid_forming.md. -/
def regs04_0 : List RegDef := [
  -- GF_CFG
  ⟨0x100200, 0x400, 4, 0, 1, [⟨16, 16, .RW, 8192, .fixed, [2, 3, 4]⟩, ⟨0, 11, .RW, 200, .fixed, [2, 3, 4]⟩]⟩,
  -- GF_CTRL
  ⟨0x100204, 0x400, 4, 0, 1, [⟨0, 1, .RW, 0, .fixed, []⟩]⟩,
  -- GF_STATUS
  ⟨0x100208, 0x400, 4, 0, 1, [⟨24, 8, .RO, 0, .fixed, []⟩, ⟨19, 1, .RO, 0, .fixed, []⟩, ⟨18, 1, .RO, 0, .fixed, []⟩, ⟨17, 1, .RO, 0, .fixed, []⟩, ⟨16, 1, .RO, 0, .fixed, []⟩, ⟨0, 16, .RO, 0, .fixed, []⟩]⟩,
  -- GF_INERTIA
  ⟨0x10020c, 0x400, 4, 0, 1, [⟨28, 1, .RO, 0, .fixed, []⟩, ⟨27, 1, .RO, 0, .fixed, []⟩, ⟨16, 11, .RO, 0, .fixed, []⟩, ⟨0, 11, .RO, 0, .fixed, []⟩]⟩,
  -- GF_ENERGY
  ⟨0x100210, 0x400, 4, 0, 1, [⟨16, 16, .RO, 0, .fixed, []⟩, ⟨0, 16, .RO, 0, .fixed, []⟩]⟩,
  -- GF_RT
  ⟨0x100214, 0x400, 4, 0, 1, [⟨16, 16, .RO, 0, .fixed, []⟩, ⟨0, 16, .RO, 0, .fixed, []⟩]⟩,
  -- GF_COUNT
  ⟨0x100218, 0x400, 4, 0, 1, [⟨16, 16, .RC, 0, .fixed, [3, 4]⟩, ⟨0, 16, .RC, 0, .fixed, [3, 4]⟩]⟩,
  -- GF_EVENT
  ⟨0x10021c, 0x400, 4, 0, 1, [⟨4, 1, .W1C, 0, .fixed, []⟩, ⟨3, 1, .W1C, 0, .fixed, []⟩, ⟨2, 1, .W1C, 0, .fixed, []⟩, ⟨1, 1, .W1C, 0, .fixed, []⟩, ⟨0, 1, .W1C, 0, .fixed, []⟩]⟩]

/-! ## 05_traction.md -/

/-- TR_ENC_CFG (05_traction.md, R150): address of instance 0. -/
def A.TR_ENC_CFG : Nat := 0x100280
def R.TR_ENC_CFG.ENC_EN : Fld := ⟨0x100280, 0x400, 0, 31, 1⟩
def R.TR_ENC_CFG.ENC_SEL : Fld := ⟨0x100280, 0x400, 0, 28, 2⟩
def R.TR_ENC_CFG.POLE_PAIRS : Fld := ⟨0x100280, 0x400, 0, 24, 4⟩
def R.TR_ENC_CFG.FILT : Fld := ⟨0x100280, 0x400, 0, 16, 8⟩
def R.TR_ENC_CFG.LINES_M1 : Fld := ⟨0x100280, 0x400, 0, 0, 16⟩
/-- TR_ENC_OFS (05_traction.md, R150): address of instance 0. -/
def A.TR_ENC_OFS : Nat := 0x100284
def R.TR_ENC_OFS.ZERO_T : Fld := ⟨0x100284, 0x400, 0, 24, 8⟩
def R.TR_ENC_OFS.DIR : Fld := ⟨0x100284, 0x400, 0, 18, 1⟩
def R.TR_ENC_OFS.Z_MODE : Fld := ⟨0x100284, 0x400, 0, 16, 2⟩
def R.TR_ENC_OFS.ANG_OFS : Fld := ⟨0x100284, 0x400, 0, 0, 16⟩
/-- TR_PULSE_CFG (05_traction.md, R150): address of instance 0. -/
def A.TR_PULSE_CFG : Nat := 0x100288
def R.TR_PULSE_CFG.PULSE_EN : Fld := ⟨0x100288, 0x400, 0, 31, 1⟩
def R.TR_PULSE_CFG.PULSE_SEL : Fld := ⟨0x100288, 0x400, 0, 28, 2⟩
def R.TR_PULSE_CFG.FILT : Fld := ⟨0x100288, 0x400, 0, 16, 8⟩
def R.TR_PULSE_CFG.PTO : Fld := ⟨0x100288, 0x400, 0, 8, 8⟩
def R.TR_PULSE_CFG.POL : Fld := ⟨0x100288, 0x400, 0, 0, 1⟩
/-- TR_PULSE_FS (05_traction.md, R150): address of instance 0. -/
def A.TR_PULSE_FS : Nat := 0x10028c
def R.TR_PULSE_FS.FS_HZ : Fld := ⟨0x10028c, 0x400, 0, 0, 17⟩
/-- TR_STATUS (05_traction.md, R150): address of instance 0. -/
def A.TR_STATUS : Nat := 0x100290
def R.TR_STATUS.TR_ERR : Fld := ⟨0x100290, 0x400, 0, 24, 8⟩
def R.TR_STATUS.READY_TR : Fld := ⟨0x100290, 0x400, 0, 19, 1⟩
def R.TR_STATUS.OBS_ACT : Fld := ⟨0x100290, 0x400, 0, 18, 1⟩
def R.TR_STATUS.REACT_REASON : Fld := ⟨0x100290, 0x400, 0, 8, 5⟩
def R.TR_STATUS.REACT_CODE : Fld := ⟨0x100290, 0x400, 0, 0, 4⟩
/-- TR_ENC_CNT (05_traction.md, R150): address of instance 0. -/
def A.TR_ENC_CNT : Nat := 0x100294
def R.TR_ENC_CNT.LOST : Fld := ⟨0x100294, 0x400, 0, 16, 16⟩
def R.TR_ENC_CNT.RATE_ERR : Fld := ⟨0x100294, 0x400, 0, 8, 8⟩
def R.TR_ENC_CNT.ILLEGAL : Fld := ⟨0x100294, 0x400, 0, 0, 8⟩
/-- TR_COUNT (05_traction.md, R150): address of instance 0. -/
def A.TR_COUNT : Nat := 0x100298
def R.TR_COUNT.OBS_CNT : Fld := ⟨0x100298, 0x400, 0, 16, 16⟩
def R.TR_COUNT.REACT_CNT : Fld := ⟨0x100298, 0x400, 0, 0, 16⟩
/-- TR_EVENT (05_traction.md, R150): address of instance 0. -/
def A.TR_EVENT : Nat := 0x10029c
def R.TR_EVENT.PULSE_LOST : Fld := ⟨0x10029c, 0x400, 0, 4, 1⟩
def R.TR_EVENT.ENC_ERR : Fld := ⟨0x10029c, 0x400, 0, 3, 1⟩
def R.TR_EVENT.REACT_SEAL : Fld := ⟨0x10029c, 0x400, 0, 2, 1⟩
def R.TR_EVENT.REACT_RAMP : Fld := ⟨0x10029c, 0x400, 0, 1, 1⟩
def R.TR_EVENT.OBS_ENTRY : Fld := ⟨0x10029c, 0x400, 0, 0, 1⟩
/-- TR_RAMP (05_traction.md, R150): address of instance 0. -/
def A.TR_RAMP : Nat := 0x1002a0
def R.TR_RAMP.RAMP_LEFT : Fld := ⟨0x1002a0, 0x400, 0, 16, 16⟩
def R.TR_RAMP.RAMP_K : Fld := ⟨0x1002a0, 0x400, 0, 0, 16⟩

/-- Registers of 05_traction.md. -/
def regs05_0 : List RegDef := [
  -- TR_ENC_CFG
  ⟨0x100280, 0x400, 4, 0, 1, [⟨31, 1, .RW, 0, .fixed, [2, 3, 4]⟩, ⟨28, 2, .RW, 0, .fixed, [2, 3, 4]⟩, ⟨24, 4, .RW, 1, .fixed, [2, 3, 4]⟩, ⟨16, 8, .RW, 4, .fixed, [2, 3, 4]⟩, ⟨0, 16, .RW, 1023, .fixed, [2, 3, 4]⟩]⟩,
  -- TR_ENC_OFS
  ⟨0x100284, 0x400, 4, 0, 1, [⟨24, 8, .RW, 20, .fixed, [2, 3, 4]⟩, ⟨18, 1, .RW, 0, .fixed, [2, 3, 4]⟩, ⟨16, 2, .RW, 0, .fixed, [2, 3, 4]⟩, ⟨0, 16, .RW, 0, .fixed, [2, 3, 4]⟩]⟩,
  -- TR_PULSE_CFG
  ⟨0x100288, 0x400, 4, 0, 1, [⟨31, 1, .RW, 0, .fixed, [2, 3, 4]⟩, ⟨28, 2, .RW, 0, .fixed, [2, 3, 4]⟩, ⟨16, 8, .RW, 4, .fixed, [2, 3, 4]⟩, ⟨8, 8, .RW, 50, .fixed, [2, 3, 4]⟩, ⟨0, 1, .RW, 0, .fixed, [2, 3, 4]⟩]⟩,
  -- TR_PULSE_FS
  ⟨0x10028c, 0x400, 4, 0, 1, [⟨0, 17, .RW, 1000, .fixed, [2, 3, 4]⟩]⟩,
  -- TR_STATUS
  ⟨0x100290, 0x400, 4, 0, 1, [⟨24, 8, .RO, 0, .fixed, []⟩, ⟨19, 1, .RO, 0, .fixed, []⟩, ⟨18, 1, .RO, 0, .fixed, []⟩, ⟨8, 5, .RO, 0, .fixed, [3, 4]⟩, ⟨0, 4, .RO, 0, .fixed, [3, 4]⟩]⟩,
  -- TR_ENC_CNT
  ⟨0x100294, 0x400, 4, 0, 1, [⟨16, 16, .RC, 0, .fixed, []⟩, ⟨8, 8, .RC, 0, .fixed, []⟩, ⟨0, 8, .RC, 0, .fixed, []⟩]⟩,
  -- TR_COUNT
  ⟨0x100298, 0x400, 4, 0, 1, [⟨16, 16, .RC, 0, .fixed, [3, 4]⟩, ⟨0, 16, .RC, 0, .fixed, [3, 4]⟩]⟩,
  -- TR_EVENT
  ⟨0x10029c, 0x400, 4, 0, 1, [⟨4, 1, .W1C, 0, .fixed, []⟩, ⟨3, 1, .W1C, 0, .fixed, []⟩, ⟨2, 1, .W1C, 0, .fixed, []⟩, ⟨1, 1, .W1C, 0, .fixed, []⟩, ⟨0, 1, .W1C, 0, .fixed, []⟩]⟩,
  -- TR_RAMP
  ⟨0x1002a0, 0x400, 4, 0, 1, [⟨16, 16, .RO, 0, .fixed, []⟩, ⟨0, 16, .RO, 8192, .fixed, []⟩]⟩]

/-! ## 06_canopy.md -/

/-- EN_STATUS (06_canopy.md, R189): address of instance 0. -/
def A.EN_STATUS : Nat := 0x300000
def R.EN_STATUS.OWNER : Fld := ⟨0x300000, 0x200, 0, 30, 2⟩
def R.EN_STATUS.NBLK : Fld := ⟨0x300000, 0x200, 0, 16, 12⟩
def R.EN_STATUS.STATE : Fld := ⟨0x300000, 0x200, 0, 8, 3⟩
def R.EN_STATUS.FAIL_CAUSE : Fld := ⟨0x300000, 0x200, 0, 4, 4⟩
/-- EN_LOAD (06_canopy.md, R189): address of instance 0. -/
def A.EN_LOAD : Nat := 0x300004
def R.EN_LOAD.PEAK_PM : Fld := ⟨0x300004, 0x200, 0, 16, 10⟩
def R.EN_LOAD.FOOT_KIB : Fld := ⟨0x300004, 0x200, 0, 0, 7⟩
/-- EN_COUNT (06_canopy.md, R189): address of instance 0. -/
def A.EN_COUNT : Nat := 0x300008
def R.EN_COUNT.BIST_FAIL : Fld := ⟨0x300008, 0x200, 0, 24, 8⟩
def R.EN_COUNT.ECC_UNC : Fld := ⟨0x300008, 0x200, 0, 16, 8⟩
def R.EN_COUNT.ECC_COR : Fld := ⟨0x300008, 0x200, 0, 0, 16⟩
/-- EN_BIST (06_canopy.md, R189): address of instance 0. -/
def A.EN_BIST : Nat := 0x30000c
def R.EN_BIST.BIST_RUNS : Fld := ⟨0x30000c, 0x200, 0, 16, 16⟩
def R.EN_BIST.BIST_AGO : Fld := ⟨0x30000c, 0x200, 0, 0, 16⟩
/-- CN_STATUS (06_canopy.md, R189): address of instance 0. -/
def A.CN_STATUS : Nat := 0x380000
def R.CN_STATUS.FALLOW : Fld := ⟨0x380000, 0x0, 0, 20, 4⟩
def R.CN_STATUS.NO_FALLOW : Fld := ⟨0x380000, 0x0, 0, 19, 1⟩
def R.CN_STATUS.HOLD_ACT : Fld := ⟨0x380000, 0x0, 0, 18, 1⟩
def R.CN_STATUS.HOLD_BR : Fld := ⟨0x380000, 0x0, 0, 16, 2⟩
def R.CN_STATUS.IN_SERVICE : Fld := ⟨0x380000, 0x0, 0, 0, 16⟩
/-- CN_COUNT (06_canopy.md, R189): address of instance 0. -/
def A.CN_COUNT : Nat := 0x380004
def R.CN_COUNT.EVACS : Fld := ⟨0x380004, 0x0, 0, 24, 8⟩
def R.CN_COUNT.HINGE_FAIL : Fld := ⟨0x380004, 0x0, 0, 16, 8⟩
def R.CN_COUNT.HINGES : Fld := ⟨0x380004, 0x0, 0, 0, 16⟩
/-- CN_RETRY (06_canopy.md, R189): address of instance 0. -/
def A.CN_RETRY : Nat := 0x380008
def R.CN_RETRY.ROT_SKIP : Fld := ⟨0x380008, 0x0, 0, 16, 16⟩
def R.CN_RETRY.HINGE_RETRY : Fld := ⟨0x380008, 0x0, 0, 0, 16⟩
/-- CN_EVENT (06_canopy.md, R189): address of instance 0. -/
def A.CN_EVENT : Nat := 0x38000c
def R.CN_EVENT.LEDGER_LOST : Fld := ⟨0x38000c, 0x0, 0, 5, 1⟩
def R.CN_EVENT.CP_FAIL : Fld := ⟨0x38000c, 0x0, 0, 4, 1⟩
def R.CN_EVENT.PLACE_FAIL : Fld := ⟨0x38000c, 0x0, 0, 3, 1⟩
def R.CN_EVENT.NO_FALLOW_EV : Fld := ⟨0x38000c, 0x0, 0, 2, 1⟩
def R.CN_EVENT.ENG_FAIL : Fld := ⟨0x38000c, 0x0, 0, 1, 1⟩
def R.CN_EVENT.EVAC : Fld := ⟨0x38000c, 0x0, 0, 0, 1⟩
/-- CN_LEDGER (06_canopy.md, R189): address of instance 0. -/
def A.CN_LEDGER : Nat := 0x380010
def R.CN_LEDGER.SINCE_CP : Fld := ⟨0x380010, 0x0, 0, 16, 16⟩
def R.CN_LEDGER.CP_BUSY : Fld := ⟨0x380010, 0x0, 0, 0, 1⟩
/-- CN_GEN (06_canopy.md, R189): address of instance 0. -/
def A.CN_GEN : Nat := 0x380014
def R.CN_GEN.GEN : Fld := ⟨0x380014, 0x0, 0, 0, 32⟩
/-- CN_BR_PLACE (06_canopy.md, R189): address of instance 0. -/
def A.CN_BR_PLACE : Nat := 0x380100
def R.CN_BR_PLACE.ENGINES : Fld := ⟨0x380100, 0x20, 0, 16, 16⟩
def R.CN_BR_PLACE.NENG : Fld := ⟨0x380100, 0x20, 0, 8, 4⟩
def R.CN_BR_PLACE.PLACE_ERR : Fld := ⟨0x380100, 0x20, 0, 0, 8⟩
/-- CN_BR_LOAD (06_canopy.md, R189): address of instance 0. -/
def A.CN_BR_LOAD : Nat := 0x380104
def R.CN_BR_LOAD.PATH_PM : Fld := ⟨0x380104, 0x20, 0, 16, 10⟩
def R.CN_BR_LOAD.PEAK_PM : Fld := ⟨0x380104, 0x20, 0, 0, 10⟩
/-- CN_STEER (06_canopy.md, R189): address of instance 0. -/
def A.CN_STEER : Nat := 0x380108
def R.CN_STEER.STEER_EN : Fld := ⟨0x380108, 0x20, 0, 31, 1⟩
def R.CN_STEER.SH_MIN : Fld := ⟨0x380108, 0x20, 0, 16, 14⟩
def R.CN_STEER.SH_MAX : Fld := ⟨0x380108, 0x20, 0, 0, 14⟩
/-- CN_STEER2 (06_canopy.md, R189): address of instance 0. -/
def A.CN_STEER2 : Nat := 0x38010c
def R.CN_STEER2.GAIN : Fld := ⟨0x38010c, 0x20, 0, 24, 8⟩
def R.CN_STEER2.STEP : Fld := ⟨0x38010c, 0x20, 0, 16, 8⟩
def R.CN_STEER2.DFLOOR : Fld := ⟨0x38010c, 0x20, 0, 0, 16⟩
/-- CN_DRAM (06_canopy.md, R189): address of instance 0. -/
def A.CN_DRAM : Nat := 0x380200
def R.CN_DRAM.QUAR : Fld := ⟨0x380200, 0x4, 0, 31, 1⟩
def R.CN_DRAM.COR_ERR : Fld := ⟨0x380200, 0x4, 0, 16, 8⟩
def R.CN_DRAM.FREE : Fld := ⟨0x380200, 0x4, 0, 8, 8⟩
/-- LG_DAMAGE (06_canopy.md, R189): address of instance 0. -/
def A.LG_DAMAGE : Nat := 0xa00000
def R.LG_DAMAGE.DAMAGE : Fld := ⟨0xa00000, 0x100, 0, 0, 32⟩
/-- LG_RATE (06_canopy.md, R189): address of instance 0. -/
def A.LG_RATE : Nat := 0xa00004
def R.LG_RATE.RATE : Fld := ⟨0xa00004, 0x100, 0, 0, 32⟩
/-- LG_CFG (06_canopy.md, R189): address of instance 0. -/
def A.LG_CFG : Nat := 0xa00008
def R.LG_CFG.NF_SEL : Fld := ⟨0xa00008, 0x100, 0, 0, 2⟩
/-- LG_STATUS (06_canopy.md, R189): address of instance 0. -/
def A.LG_STATUS : Nat := 0xa0000c
def R.LG_STATUS.VALID : Fld := ⟨0xa0000c, 0x100, 0, 31, 1⟩
def R.LG_STATUS.SAT : Fld := ⟨0xa0000c, 0x100, 0, 30, 1⟩
def R.LG_STATUS.PEAK : Fld := ⟨0xa0000c, 0x100, 0, 0, 16⟩
/-- LG_ENERGY_LO (06_canopy.md, R189): address of instance 0. -/
def A.LG_ENERGY_LO : Nat := 0xa00010
def R.LG_ENERGY_LO.ENERGY : Fld := ⟨0xa00010, 0x100, 0, 0, 32⟩
/-- LG_ENERGY_HI (06_canopy.md, R189): address of instance 0. -/
def A.LG_ENERGY_HI : Nat := 0xa00014
def R.LG_ENERGY_HI.ENERGY : Fld := ⟨0xa00014, 0x100, 0, 0, 32⟩
/-- LG_CYCLES (06_canopy.md, R189): address of instance 0. -/
def A.LG_CYCLES : Nat := 0xa00018
def R.LG_CYCLES.CYCLES : Fld := ⟨0xa00018, 0x100, 0, 0, 32⟩
/-- LG_ONTIME (06_canopy.md, R189): address of instance 0. -/
def A.LG_ONTIME : Nat := 0xa0001c
def R.LG_ONTIME.ONTIME : Fld := ⟨0xa0001c, 0x100, 0, 0, 32⟩
/-- LG_ROW_SEL (06_canopy.md, R189): address of instance 0. -/
def A.LG_ROW_SEL : Nat := 0xa00040
def R.LG_ROW_SEL.ROW : Fld := ⟨0xa00040, 0x100, 0, 0, 4⟩
/-- LG_ROW (06_canopy.md, R189): address of instance 0. -/
def A.LG_ROW : Nat := 0xa00044
def R.LG_ROW.COUNT : Fld := ⟨0xa00044, 0x100, 4, 0, 32⟩

/-- Registers of 06_canopy.md. -/
def regs06_0 : List RegDef := [
  -- EN_STATUS
  ⟨0x300000, 0x200, 16, 0, 1, [⟨30, 2, .RO, 0, .fixed, []⟩, ⟨16, 12, .RO, 0, .fixed, []⟩, ⟨8, 3, .RO, 0, .start, []⟩, ⟨4, 4, .RO, 0, .fixed, [2, 3, 4]⟩]⟩,
  -- EN_LOAD
  ⟨0x300004, 0x200, 16, 0, 1, [⟨16, 10, .RO, 0, .fixed, []⟩, ⟨0, 7, .RO, 0, .fixed, []⟩]⟩,
  -- EN_COUNT
  ⟨0x300008, 0x200, 16, 0, 1, [⟨24, 8, .RC, 0, .fixed, []⟩, ⟨16, 8, .RC, 0, .fixed, []⟩, ⟨0, 16, .RC, 0, .fixed, []⟩]⟩,
  -- EN_BIST
  ⟨0x30000c, 0x200, 16, 0, 1, [⟨16, 16, .RO, 0, .fixed, []⟩, ⟨0, 16, .RO, 0, .fixed, []⟩]⟩,
  -- CN_STATUS
  ⟨0x380000, 0x0, 1, 0, 1, [⟨20, 4, .RO, 0, .start, []⟩, ⟨19, 1, .RO, 0, .fixed, []⟩, ⟨18, 1, .RO, 0, .fixed, []⟩, ⟨16, 2, .RO, 0, .fixed, []⟩, ⟨0, 16, .RO, 0, .start, []⟩]⟩,
  -- CN_COUNT
  ⟨0x380004, 0x0, 1, 0, 1, [⟨24, 8, .RC, 0, .fixed, []⟩, ⟨16, 8, .RC, 0, .fixed, []⟩, ⟨0, 16, .RC, 0, .fixed, []⟩]⟩,
  -- CN_RETRY
  ⟨0x380008, 0x0, 1, 0, 1, [⟨16, 16, .RC, 0, .fixed, []⟩, ⟨0, 16, .RC, 0, .fixed, []⟩]⟩,
  -- CN_EVENT
  ⟨0x38000c, 0x0, 1, 0, 1, [⟨5, 1, .W1C, 0, .fixed, []⟩, ⟨4, 1, .W1C, 0, .fixed, []⟩, ⟨3, 1, .W1C, 0, .fixed, []⟩, ⟨2, 1, .W1C, 0, .fixed, []⟩, ⟨1, 1, .W1C, 0, .fixed, []⟩, ⟨0, 1, .W1C, 0, .fixed, []⟩]⟩,
  -- CN_LEDGER
  ⟨0x380010, 0x0, 1, 0, 1, [⟨16, 16, .RO, 0, .fixed, []⟩, ⟨0, 1, .RO, 0, .fixed, []⟩]⟩,
  -- CN_GEN
  ⟨0x380014, 0x0, 1, 0, 1, [⟨0, 32, .RO, 0, .start, []⟩]⟩,
  -- CN_BR_PLACE
  ⟨0x380100, 0x20, 4, 0, 1, [⟨16, 16, .RO, 0, .fixed, []⟩, ⟨8, 4, .RO, 0, .fixed, []⟩, ⟨0, 8, .RO, 0, .fixed, []⟩]⟩,
  -- CN_BR_LOAD
  ⟨0x380104, 0x20, 4, 0, 1, [⟨16, 10, .RO, 0, .fixed, []⟩, ⟨0, 10, .RO, 0, .fixed, []⟩]⟩]
/-- Registers of 06_canopy.md. -/
def regs06_1 : List RegDef := [
  -- CN_STEER
  ⟨0x380108, 0x20, 4, 0, 1, [⟨31, 1, .WA, 0, .fixed, [2, 3, 4]⟩, ⟨16, 14, .WA, 5734, .fixed, [2, 3, 4]⟩, ⟨0, 14, .WA, 10650, .fixed, [2, 3, 4]⟩]⟩,
  -- CN_STEER2
  ⟨0x38010c, 0x20, 4, 0, 1, [⟨24, 8, .WA, 20, .fixed, [2, 3, 4]⟩, ⟨16, 8, .WA, 10, .fixed, [2, 3, 4]⟩, ⟨0, 16, .WA, 16777, .fixed, [2, 3, 4]⟩]⟩,
  -- CN_DRAM
  ⟨0x380200, 0x4, 8, 0, 1, [⟨31, 1, .RO, 0, .fixed, [1, 2, 3, 4]⟩, ⟨16, 8, .RO, 0, .fixed, [1, 2, 3, 4]⟩, ⟨8, 8, .RO, 254, .fixed, []⟩]⟩,
  -- LG_DAMAGE
  ⟨0xa00000, 0x100, 48, 0, 1, [⟨0, 32, .RO, 0, .start, []⟩]⟩,
  -- LG_RATE
  ⟨0xa00004, 0x100, 48, 0, 1, [⟨0, 32, .RO, 0, .start, []⟩]⟩,
  -- LG_CFG
  ⟨0xa00008, 0x100, 48, 0, 1, [⟨0, 2, .WA, 0, .start, []⟩]⟩,
  -- LG_STATUS
  ⟨0xa0000c, 0x100, 48, 0, 1, [⟨31, 1, .RO, 0, .start, []⟩, ⟨30, 1, .RO, 0, .start, []⟩, ⟨0, 16, .RO, 0, .start, []⟩]⟩,
  -- LG_ENERGY_LO
  ⟨0xa00010, 0x100, 48, 0, 1, [⟨0, 32, .RO, 0, .start, []⟩]⟩,
  -- LG_ENERGY_HI
  ⟨0xa00014, 0x100, 48, 0, 1, [⟨0, 32, .RO, 0, .start, []⟩]⟩,
  -- LG_CYCLES
  ⟨0xa00018, 0x100, 48, 0, 1, [⟨0, 32, .RO, 0, .start, []⟩]⟩,
  -- LG_ONTIME
  ⟨0xa0001c, 0x100, 48, 0, 1, [⟨0, 32, .RO, 0, .start, []⟩]⟩,
  -- LG_ROW_SEL
  ⟨0xa00040, 0x100, 48, 0, 1, [⟨0, 4, .RW, 0, .fixed, []⟩]⟩]
/-- Registers of 06_canopy.md. -/
def regs06_2 : List RegDef := [
  -- LG_ROW
  ⟨0xa00044, 0x100, 48, 4, 8, [⟨0, 32, .RO, 0, .start, []⟩]⟩]

/-! ## 07_sash_pwm.md -/

/-- SH_CARRIER (07_sash_pwm.md, R219): address of instance 0. -/
def A.SH_CARRIER : Nat := 0x400000
def R.SH_CARRIER.CMODE : Fld := ⟨0x400000, 0x100, 0, 31, 1⟩
def R.SH_CARRIER.UPD : Fld := ⟨0x400000, 0x100, 0, 30, 1⟩
def R.SH_CARRIER.PER : Fld := ⟨0x400000, 0x100, 0, 0, 19⟩
/-- SH_DEAD (07_sash_pwm.md, R219): address of instance 0. -/
def A.SH_DEAD : Nat := 0x400004
def R.SH_DEAD.DT_LH : Fld := ⟨0x400004, 0x100, 0, 16, 16⟩
def R.SH_DEAD.DT_HL : Fld := ⟨0x400004, 0x100, 0, 0, 16⟩
/-- SH_PULSE (07_sash_pwm.md, R219): address of instance 0. -/
def A.SH_PULSE : Nat := 0x400008
def R.SH_PULSE.POLICY : Fld := ⟨0x400008, 0x100, 0, 31, 1⟩
def R.SH_PULSE.MINP : Fld := ⟨0x400008, 0x100, 0, 0, 16⟩
/-- SH_PHASE (07_sash_pwm.md, R219): address of instance 0. -/
def A.SH_PHASE : Nat := 0x40000c
def R.SH_PHASE.PHASE_OFS : Fld := ⟨0x40000c, 0x100, 0, 0, 25⟩
/-- SH_BOOT (07_sash_pwm.md, R219): address of instance 0. -/
def A.SH_BOOT : Nat := 0x400010
def R.SH_BOOT.BOOT_EN : Fld := ⟨0x400010, 0x100, 0, 31, 1⟩
def R.SH_BOOT.BOOT_INT : Fld := ⟨0x400010, 0x100, 0, 0, 10⟩
/-- SH_TRIP (07_sash_pwm.md, R219): address of instance 0. -/
def A.SH_TRIP : Nat := 0x400014
def R.SH_TRIP.TRIP_DRV : Fld := ⟨0x400014, 0x100, 0, 31, 1⟩
def R.SH_TRIP.TRIP_AIN_EN : Fld := ⟨0x400014, 0x100, 0, 30, 1⟩
def R.SH_TRIP.TRIP_AIN : Fld := ⟨0x400014, 0x100, 0, 16, 6⟩
def R.SH_TRIP.TRIP_N : Fld := ⟨0x400014, 0x100, 0, 8, 8⟩
def R.SH_TRIP.TRIP_WIN : Fld := ⟨0x400014, 0x100, 0, 0, 8⟩
/-- SH_ADC (07_sash_pwm.md, R219): address of instance 0. -/
def A.SH_ADC : Nat := 0x400018
def R.SH_ADC.TRIG_EDGE : Fld := ⟨0x400018, 0x100, 0, 16, 2⟩
def R.SH_ADC.TRIG_DLY : Fld := ⟨0x400018, 0x100, 0, 0, 11⟩
/-- SH_STRB (07_sash_pwm.md, R219): address of instance 0. -/
def A.SH_STRB : Nat := 0x40001c
def R.SH_STRB.STRB_GUARD : Fld := ⟨0x40001c, 0x100, 0, 0, 16⟩
/-- SH_STATUS (07_sash_pwm.md, R219): address of instance 0. -/
def A.SH_STATUS : Nat := 0x400020
def R.SH_STATUS.LATCH_OFF : Fld := ⟨0x400020, 0x100, 0, 31, 1⟩
def R.SH_STATUS.BOTH_OFF : Fld := ⟨0x400020, 0x100, 0, 30, 1⟩
def R.SH_STATUS.PULSES : Fld := ⟨0x400020, 0x100, 0, 29, 1⟩
def R.SH_STATUS.BOOT_FAIL : Fld := ⟨0x400020, 0x100, 0, 28, 1⟩
def R.SH_STATUS.PATH : Fld := ⟨0x400020, 0x100, 0, 27, 1⟩
def R.SH_STATUS.WIN_SUM : Fld := ⟨0x400020, 0x100, 0, 16, 8⟩
/-- SH_TON (07_sash_pwm.md, R219): address of instance 0. -/
def A.SH_TON : Nat := 0x400024
def R.SH_TON.TON : Fld := ⟨0x400024, 0x100, 0, 0, 25⟩
/-- SH_CARRY (07_sash_pwm.md, R219): address of instance 0. -/
def A.SH_CARRY : Nat := 0x400028
def R.SH_CARRY.CARRY : Fld := ⟨0x400028, 0x100, 0, 0, 26⟩
/-- SH_TRIPS (07_sash_pwm.md, R219): address of instance 0. -/
def A.SH_TRIPS : Nat := 0x40002c
def R.SH_TRIPS.TRIP_TOTAL : Fld := ⟨0x40002c, 0x100, 0, 16, 16⟩
def R.SH_TRIPS.TRIP_EXP : Fld := ⟨0x40002c, 0x100, 0, 0, 16⟩
/-- SH_CNT (07_sash_pwm.md, R219): address of instance 0. -/
def A.SH_CNT : Nat := 0x400030
def R.SH_CNT.DROPS : Fld := ⟨0x400030, 0x100, 0, 16, 16⟩
def R.SH_CNT.STRETCHES : Fld := ⟨0x400030, 0x100, 0, 0, 16⟩
/-- SH_CNT2 (07_sash_pwm.md, R219): address of instance 0. -/
def A.SH_CNT2 : Nat := 0x400034
def R.SH_CNT2.REFRESHES : Fld := ⟨0x400034, 0x100, 0, 16, 16⟩
def R.SH_CNT2.VS_DISC : Fld := ⟨0x400034, 0x100, 0, 0, 16⟩
/-- SH_CTRL (07_sash_pwm.md, R219): address of instance 0. -/
def A.SH_CTRL : Nat := 0x400038
def R.SH_CTRL.LATCH_CLR : Fld := ⟨0x400038, 0x100, 0, 0, 1⟩
/-- SH_EVENT (07_sash_pwm.md, R219): address of instance 0. -/
def A.SH_EVENT : Nat := 0x40003c
def R.SH_EVENT.BOOT_EV : Fld := ⟨0x40003c, 0x100, 0, 4, 1⟩
def R.SH_EVENT.LATCH_EV : Fld := ⟨0x40003c, 0x100, 0, 3, 1⟩
def R.SH_EVENT.TRIP_EV : Fld := ⟨0x40003c, 0x100, 0, 2, 1⟩
def R.SH_EVENT.DISC_EV : Fld := ⟨0x40003c, 0x100, 0, 1, 1⟩
def R.SH_EVENT.DROP_EV : Fld := ⟨0x40003c, 0x100, 0, 0, 1⟩
/-- SH_TB (07_sash_pwm.md, R220): address of instance 0. -/
def A.SH_TB : Nat := 0x401800
def R.SH_TB.DL_FAIL : Fld := ⟨0x401800, 0x0, 0, 31, 1⟩
def R.SH_TB.NCAL : Fld := ⟨0x401800, 0x0, 0, 16, 8⟩
def R.SH_TB.CAL_CNT : Fld := ⟨0x401800, 0x0, 0, 0, 16⟩
/-- SH_TB_EVENT (07_sash_pwm.md, R220): address of instance 0. -/
def A.SH_TB_EVENT : Nat := 0x401804
def R.SH_TB_EVENT.DL_FAIL_EV : Fld := ⟨0x401804, 0x0, 0, 0, 1⟩
/-- FB_PER (07_sash_pwm.md, R221): address of instance 0. -/
def A.FB_PER : Nat := 0x100300
def R.FB_PER.TAG : Fld := ⟨0x100300, 0x400, 0, 25, 7⟩
def R.FB_PER.PER : Fld := ⟨0x100300, 0x400, 0, 0, 19⟩
/-- FB_DUTY (07_sash_pwm.md, R221): address of instance 0. -/
def A.FB_DUTY : Nat := 0x100304
def R.FB_DUTY.TAG : Fld := ⟨0x100304, 0x400, 4, 25, 7⟩
def R.FB_DUTY.TON : Fld := ⟨0x100304, 0x400, 4, 0, 25⟩
/-- FB_STATUS (07_sash_pwm.md, R221): address of instance 0. -/
def A.FB_STATUS : Nat := 0x100344
def R.FB_STATUS.SPLITS : Fld := ⟨0x100344, 0x400, 0, 16, 16⟩
def R.FB_STATUS.FORCED : Fld := ⟨0x100344, 0x400, 0, 8, 8⟩
def R.FB_STATUS.SPLIT_AGE : Fld := ⟨0x100344, 0x400, 0, 1, 2⟩
def R.FB_STATUS.SPLIT : Fld := ⟨0x100344, 0x400, 0, 0, 1⟩

/-- Registers of 07_sash_pwm.md. -/
def regs07_0 : List RegDef := [
  -- SH_CARRIER
  ⟨0x400000, 0x100, 24, 0, 1, [⟨31, 1, .RW, 0, .option, [2, 3, 4]⟩, ⟨30, 1, .RW, 0, .option, [2, 3, 4]⟩, ⟨0, 19, .RW, 4000, .option, [2, 3, 4]⟩]⟩,
  -- SH_DEAD
  ⟨0x400004, 0x100, 24, 0, 1, [⟨16, 16, .RW, 0, .option, [2, 3, 4]⟩, ⟨0, 16, .RW, 0, .option, [2, 3, 4]⟩]⟩,
  -- SH_PULSE
  ⟨0x400008, 0x100, 24, 0, 1, [⟨31, 1, .RW, 0, .fixed, [2, 3, 4]⟩, ⟨0, 16, .RW, 0, .option, [2, 3, 4]⟩]⟩,
  -- SH_PHASE
  ⟨0x40000c, 0x100, 24, 0, 1, [⟨0, 25, .RW, 0, .fixed, [2, 3, 4]⟩]⟩,
  -- SH_BOOT
  ⟨0x400010, 0x100, 24, 0, 1, [⟨31, 1, .RW, 0, .fixed, [2, 3, 4]⟩, ⟨0, 10, .RW, 100, .fixed, [2, 3, 4]⟩]⟩,
  -- SH_TRIP
  ⟨0x400014, 0x100, 24, 0, 1, [⟨31, 1, .RW, 0, .fixed, [2, 3, 4]⟩, ⟨30, 1, .RW, 0, .fixed, [2, 3, 4]⟩, ⟨16, 6, .RW, 0, .fixed, [2, 3, 4]⟩, ⟨8, 8, .RW, 1, .fixed, [2, 3, 4]⟩, ⟨0, 8, .RW, 1, .fixed, [2, 3, 4]⟩]⟩,
  -- SH_ADC
  ⟨0x400018, 0x100, 24, 0, 1, [⟨16, 2, .RW, 0, .fixed, [2, 3, 4]⟩, ⟨0, 11, .RW, 0, .fixed, [2, 3, 4]⟩]⟩,
  -- SH_STRB
  ⟨0x40001c, 0x100, 24, 0, 1, [⟨0, 16, .RW, 1000, .fixed, [2, 3, 4]⟩]⟩,
  -- SH_STATUS
  ⟨0x400020, 0x100, 24, 0, 1, [⟨31, 1, .RO, 0, .fixed, [2, 3, 4]⟩, ⟨30, 1, .RO, 0, .fixed, []⟩, ⟨29, 1, .RO, 0, .fixed, []⟩, ⟨28, 1, .RO, 0, .fixed, []⟩, ⟨27, 1, .RO, 0, .fixed, []⟩, ⟨16, 8, .RO, 0, .fixed, []⟩]⟩,
  -- SH_TON
  ⟨0x400024, 0x100, 24, 0, 1, [⟨0, 25, .RO, 0, .fixed, []⟩]⟩,
  -- SH_CARRY
  ⟨0x400028, 0x100, 24, 0, 1, [⟨0, 26, .RO, 0, .fixed, []⟩]⟩,
  -- SH_TRIPS
  ⟨0x40002c, 0x100, 24, 0, 1, [⟨16, 16, .RO, 0, .fixed, []⟩, ⟨0, 16, .RO, 0, .fixed, []⟩]⟩]
/-- Registers of 07_sash_pwm.md. -/
def regs07_1 : List RegDef := [
  -- SH_CNT
  ⟨0x400030, 0x100, 24, 0, 1, [⟨16, 16, .RC, 0, .fixed, []⟩, ⟨0, 16, .RC, 0, .fixed, []⟩]⟩,
  -- SH_CNT2
  ⟨0x400034, 0x100, 24, 0, 1, [⟨16, 16, .RC, 0, .fixed, []⟩, ⟨0, 16, .RC, 0, .fixed, []⟩]⟩,
  -- SH_CTRL
  ⟨0x400038, 0x100, 24, 0, 1, [⟨0, 1, .WS, 0, .fixed, []⟩]⟩,
  -- SH_EVENT
  ⟨0x40003c, 0x100, 24, 0, 1, [⟨4, 1, .W1C, 0, .fixed, []⟩, ⟨3, 1, .W1C, 0, .fixed, []⟩, ⟨2, 1, .W1C, 0, .fixed, []⟩, ⟨1, 1, .W1C, 0, .fixed, []⟩, ⟨0, 1, .W1C, 0, .fixed, []⟩]⟩,
  -- SH_TB
  ⟨0x401800, 0x0, 1, 0, 1, [⟨31, 1, .RO, 0, .fixed, []⟩, ⟨16, 8, .RO, 0, .start, []⟩, ⟨0, 16, .RO, 0, .fixed, []⟩]⟩,
  -- SH_TB_EVENT
  ⟨0x401804, 0x0, 1, 0, 1, [⟨0, 1, .W1C, 0, .fixed, []⟩]⟩,
  -- FB_PER
  ⟨0x100300, 0x400, 4, 0, 1, [⟨25, 7, .RO, 0, .fixed, []⟩, ⟨0, 19, .RW, 0, .fixed, []⟩]⟩,
  -- FB_DUTY
  ⟨0x100304, 0x400, 4, 4, 16, [⟨25, 7, .RO, 0, .fixed, []⟩, ⟨0, 25, .RW, 0, .fixed, []⟩]⟩,
  -- FB_STATUS
  ⟨0x100344, 0x400, 4, 0, 1, [⟨16, 16, .RC, 0, .fixed, []⟩, ⟨8, 8, .RC, 0, .fixed, []⟩, ⟨1, 2, .RO, 0, .fixed, []⟩, ⟨0, 1, .RO, 0, .fixed, []⟩]⟩]

/-! ## 08_gate_drive.md -/

/-- DRV_CFG (08_gate_drive.md, R250): address of instance 0. -/
def A.DRV_CFG : Nat := 0x480000
def R.DRV_CFG.BOOSTER : Fld := ⟨0x480000, 0x40, 0, 31, 1⟩
def R.DRV_CFG.BOOT_SUP : Fld := ⟨0x480000, 0x40, 0, 30, 1⟩
def R.DRV_CFG.ADAPT_EN : Fld := ⟨0x480000, 0x40, 0, 29, 1⟩
def R.DRV_CFG.CLAMP_EN : Fld := ⟨0x480000, 0x40, 0, 28, 1⟩
def R.DRV_CFG.GS_TH : Fld := ⟨0x480000, 0x40, 0, 16, 8⟩
def R.DRV_CFG.STUCK_T : Fld := ⟨0x480000, 0x40, 0, 8, 8⟩
/-- DRV_LOUVRE (08_gate_drive.md, R250): address of instance 0. -/
def A.DRV_LOUVRE : Nat := 0x480004
def R.DRV_LOUVRE.ON_MIN_M1 : Fld := ⟨0x480004, 0x40, 0, 28, 4⟩
def R.DRV_LOUVRE.ON_MAX_M1 : Fld := ⟨0x480004, 0x40, 0, 24, 4⟩
def R.DRV_LOUVRE.OFF_MIN_M1 : Fld := ⟨0x480004, 0x40, 0, 20, 4⟩
def R.DRV_LOUVRE.OFF_MAX_M1 : Fld := ⟨0x480004, 0x40, 0, 16, 4⟩
def R.DRV_LOUVRE.ON_INIT_M1 : Fld := ⟨0x480004, 0x40, 0, 12, 4⟩
def R.DRV_LOUVRE.OFF_INIT_M1 : Fld := ⟨0x480004, 0x40, 0, 8, 4⟩
/-- DRV_TARGET (08_gate_drive.md, R250): address of instance 0. -/
def A.DRV_TARGET : Nat := 0x480008
def R.DRV_TARGET.T_ON_TGT : Fld := ⟨0x480008, 0x40, 0, 16, 16⟩
def R.DRV_TARGET.T_OFF_TGT : Fld := ⟨0x480008, 0x40, 0, 0, 16⟩
/-- DRV_DRAIN (08_gate_drive.md, R250): address of instance 0. -/
def A.DRV_DRAIN : Nat := 0x48000c
def R.DRV_DRAIN.HI_TH : Fld := ⟨0x48000c, 0x40, 0, 24, 8⟩
def R.DRV_DRAIN.LO_TH : Fld := ⟨0x48000c, 0x40, 0, 16, 8⟩
def R.DRV_DRAIN.DBAND : Fld := ⟨0x48000c, 0x40, 0, 8, 8⟩
def R.DRV_DRAIN.TMEAS_MAX : Fld := ⟨0x48000c, 0x40, 0, 0, 8⟩
/-- DRV_SC (08_gate_drive.md, R250): address of instance 0. -/
def A.DRV_SC : Nat := 0x480010
def R.DRV_SC.SC_TH : Fld := ⟨0x480010, 0x40, 0, 24, 8⟩
def R.DRV_SC.SC_BLANK : Fld := ⟨0x480010, 0x40, 0, 16, 8⟩
def R.DRV_SC.SC_FILT : Fld := ⟨0x480010, 0x40, 0, 8, 8⟩
def R.DRV_SC.SOFT_SEG_M1 : Fld := ⟨0x480010, 0x40, 0, 6, 2⟩
def R.DRV_SC.SOFT_T : Fld := ⟨0x480010, 0x40, 0, 0, 6⟩
/-- DRV_OC (08_gate_drive.md, R250): address of instance 0. -/
def A.DRV_OC : Nat := 0x480014
def R.DRV_OC.OC_TH : Fld := ⟨0x480014, 0x40, 0, 24, 8⟩
def R.DRV_OC.OC_FILT : Fld := ⟨0x480014, 0x40, 0, 16, 8⟩
/-- DRV_SUP (08_gate_drive.md, R250): address of instance 0. -/
def A.DRV_SUP : Nat := 0x480018
def R.DRV_SUP.VPOS_UV : Fld := ⟨0x480018, 0x40, 0, 24, 8⟩
def R.DRV_SUP.VNEG_UV : Fld := ⟨0x480018, 0x40, 0, 16, 8⟩
def R.DRV_SUP.UV_T : Fld := ⟨0x480018, 0x40, 0, 0, 10⟩
/-- DRV_NTC (08_gate_drive.md, R250): address of instance 0. -/
def A.DRV_NTC : Nat := 0x48001c
def R.DRV_NTC.NTC_B : Fld := ⟨0x48001c, 0x40, 0, 16, 16⟩
def R.DRV_NTC.NTC_R25 : Fld := ⟨0x48001c, 0x40, 0, 8, 8⟩
def R.DRV_NTC.OT_TH : Fld := ⟨0x48001c, 0x40, 0, 0, 8⟩
/-- DRV_STATUS (08_gate_drive.md, R250): address of instance 0. -/
def A.DRV_STATUS : Nat := 0x480020
def R.DRV_STATUS.STATE : Fld := ⟨0x480020, 0x40, 0, 30, 2⟩
def R.DRV_STATUS.FAULT_CAUSE : Fld := ⟨0x480020, 0x40, 0, 24, 3⟩
def R.DRV_STATUS.GATE : Fld := ⟨0x480020, 0x40, 0, 23, 1⟩
def R.DRV_STATUS.UV_POS : Fld := ⟨0x480020, 0x40, 0, 22, 1⟩
def R.DRV_STATUS.UV_NEG : Fld := ⟨0x480020, 0x40, 0, 21, 1⟩
def R.DRV_STATUS.OC_ACT : Fld := ⟨0x480020, 0x40, 0, 20, 1⟩
def R.DRV_STATUS.OT_WARN : Fld := ⟨0x480020, 0x40, 0, 19, 1⟩
def R.DRV_STATUS.NTC_ERR : Fld := ⟨0x480020, 0x40, 0, 18, 1⟩
def R.DRV_STATUS.NON_M1 : Fld := ⟨0x480020, 0x40, 0, 12, 4⟩
def R.DRV_STATUS.NOFF_M1 : Fld := ⟨0x480020, 0x40, 0, 8, 4⟩
/-- DRV_EDGE (08_gate_drive.md, R250): address of instance 0. -/
def A.DRV_EDGE : Nat := 0x480024
def R.DRV_EDGE.LAST_ON : Fld := ⟨0x480024, 0x40, 0, 16, 16⟩
def R.DRV_EDGE.LAST_OFF : Fld := ⟨0x480024, 0x40, 0, 0, 16⟩
/-- DRV_CNT (08_gate_drive.md, R250): address of instance 0. -/
def A.DRV_CNT : Nat := 0x480028
def R.DRV_CNT.SC_CNT : Fld := ⟨0x480028, 0x40, 0, 24, 8⟩
def R.DRV_CNT.STUCK_CNT : Fld := ⟨0x480028, 0x40, 0, 16, 8⟩
def R.DRV_CNT.OC_CNT : Fld := ⟨0x480028, 0x40, 0, 0, 16⟩
/-- DRV_CNT2 (08_gate_drive.md, R250): address of instance 0. -/
def A.DRV_CNT2 : Nat := 0x48002c
def R.DRV_CNT2.UV_HOLD : Fld := ⟨0x48002c, 0x40, 0, 16, 16⟩
def R.DRV_CNT2.INVALID : Fld := ⟨0x48002c, 0x40, 0, 0, 16⟩
/-- DRV_CTRL (08_gate_drive.md, R250): address of instance 0. -/
def A.DRV_CTRL : Nat := 0x480030
def R.DRV_CTRL.DRV_CLR : Fld := ⟨0x480030, 0x40, 0, 0, 1⟩
/-- DRV_EVENT (08_gate_drive.md, R250): address of instance 0. -/
def A.DRV_EVENT : Nat := 0x480034
def R.DRV_EVENT.OT_EV : Fld := ⟨0x480034, 0x40, 0, 4, 1⟩
def R.DRV_EVENT.LINK_EV : Fld := ⟨0x480034, 0x40, 0, 3, 1⟩
def R.DRV_EVENT.UV_EV : Fld := ⟨0x480034, 0x40, 0, 2, 1⟩
def R.DRV_EVENT.SC_EV : Fld := ⟨0x480034, 0x40, 0, 1, 1⟩
def R.DRV_EVENT.FAULT_EV : Fld := ⟨0x480034, 0x40, 0, 0, 1⟩
/-- DRV_ID (08_gate_drive.md, R250): address of instance 0. -/
def A.DRV_ID : Nat := 0x480038
def R.DRV_ID.DIE_REV : Fld := ⟨0x480038, 0x40, 0, 24, 8⟩
def R.DRV_ID.DIE_SER : Fld := ⟨0x480038, 0x40, 0, 0, 24⟩
/-- IL_CFG (08_gate_drive.md, R250): address of instance 0. -/
def A.IL_CFG : Nat := 0x480c00
def R.IL_CFG.PT_EN : Fld := ⟨0x480c00, 0x10, 0, 31, 1⟩
def R.IL_CFG.PT_SEL : Fld := ⟨0x480c00, 0x10, 0, 28, 2⟩
/-- IL_STATUS (08_gate_drive.md, R250): address of instance 0. -/
def A.IL_STATUS : Nat := 0x480c04
def R.IL_STATUS.CONFLICT : Fld := ⟨0x480c04, 0x10, 0, 31, 1⟩
def R.IL_STATUS.XCHK_TRIP : Fld := ⟨0x480c04, 0x10, 0, 30, 1⟩
/-- IL_COUNT (08_gate_drive.md, R250): address of instance 0. -/
def A.IL_COUNT : Nat := 0x480c08
def R.IL_COUNT.XCHK_CNT : Fld := ⟨0x480c08, 0x10, 0, 16, 16⟩
def R.IL_COUNT.CONFLICTS : Fld := ⟨0x480c08, 0x10, 0, 0, 16⟩

/-- Registers of 08_gate_drive.md. -/
def regs08_0 : List RegDef := [
  -- DRV_CFG
  ⟨0x480000, 0x40, 48, 0, 1, [⟨31, 1, .RW, 0, .option, [2, 3, 4]⟩, ⟨30, 1, .RW, 0, .option, [2, 3, 4]⟩, ⟨29, 1, .RW, 0, .option, [2, 3, 4]⟩, ⟨28, 1, .RW, 0, .option, [2, 3, 4]⟩, ⟨16, 8, .RW, 20, .option, [2, 3, 4]⟩, ⟨8, 8, .RW, 10, .option, [2, 3, 4]⟩]⟩,
  -- DRV_LOUVRE
  ⟨0x480004, 0x40, 48, 0, 1, [⟨28, 4, .RW, 0, .option, [2, 3, 4]⟩, ⟨24, 4, .RW, 0, .option, [2, 3, 4]⟩, ⟨20, 4, .RW, 0, .option, [2, 3, 4]⟩, ⟨16, 4, .RW, 0, .option, [2, 3, 4]⟩, ⟨12, 4, .RW, 0, .option, [2, 3, 4]⟩, ⟨8, 4, .RW, 0, .option, [2, 3, 4]⟩]⟩,
  -- DRV_TARGET
  ⟨0x480008, 0x40, 48, 0, 1, [⟨16, 16, .RW, 256, .option, [2, 3, 4]⟩, ⟨0, 16, .RW, 256, .option, [2, 3, 4]⟩]⟩,
  -- DRV_DRAIN
  ⟨0x48000c, 0x40, 48, 0, 1, [⟨24, 8, .RW, 2, .option, [2, 3, 4]⟩, ⟨16, 8, .RW, 1, .option, [2, 3, 4]⟩, ⟨8, 8, .RW, 0, .option, [2, 3, 4]⟩, ⟨0, 8, .RW, 5, .option, [2, 3, 4]⟩]⟩,
  -- DRV_SC
  ⟨0x480010, 0x40, 48, 0, 1, [⟨24, 8, .RW, 5, .option, [2, 3, 4]⟩, ⟨16, 8, .RW, 10, .option, [2, 3, 4]⟩, ⟨8, 8, .RW, 2, .option, [2, 3, 4]⟩, ⟨6, 2, .RW, 0, .option, [2, 3, 4]⟩, ⟨0, 6, .RW, 2, .option, [2, 3, 4]⟩]⟩,
  -- DRV_OC
  ⟨0x480014, 0x40, 48, 0, 1, [⟨24, 8, .RW, 2, .option, [2, 3, 4]⟩, ⟨16, 8, .RW, 2, .option, [2, 3, 4]⟩]⟩,
  -- DRV_SUP
  ⟨0x480018, 0x40, 48, 0, 1, [⟨24, 8, .RW, 110, .option, [2, 3, 4]⟩, ⟨16, 8, .RW, 0, .option, [2, 3, 4]⟩, ⟨0, 10, .RW, 1, .option, [2, 3, 4]⟩]⟩,
  -- DRV_NTC
  ⟨0x48001c, 0x40, 48, 0, 1, [⟨16, 16, .RW, 1000, .option, [2, 3, 4]⟩, ⟨8, 8, .RW, 1, .option, [2, 3, 4]⟩, ⟨0, 8, .RW, 0, .option, [2, 3, 4]⟩]⟩,
  -- DRV_STATUS
  ⟨0x480020, 0x40, 48, 0, 1, [⟨30, 2, .RO, 0, .start, []⟩, ⟨24, 3, .RO, 0, .fixed, []⟩, ⟨23, 1, .RO, 0, .fixed, []⟩, ⟨22, 1, .RO, 0, .fixed, []⟩, ⟨21, 1, .RO, 0, .fixed, []⟩, ⟨20, 1, .RO, 0, .fixed, []⟩, ⟨19, 1, .RO, 0, .fixed, []⟩, ⟨18, 1, .RO, 0, .fixed, []⟩, ⟨12, 4, .RO, 0, .start, []⟩, ⟨8, 4, .RO, 0, .start, []⟩]⟩,
  -- DRV_EDGE
  ⟨0x480024, 0x40, 48, 0, 1, [⟨16, 16, .RO, 0, .fixed, []⟩, ⟨0, 16, .RO, 0, .fixed, []⟩]⟩,
  -- DRV_CNT
  ⟨0x480028, 0x40, 48, 0, 1, [⟨24, 8, .RC, 0, .fixed, [2, 3, 4]⟩, ⟨16, 8, .RC, 0, .fixed, []⟩, ⟨0, 16, .RC, 0, .fixed, []⟩]⟩,
  -- DRV_CNT2
  ⟨0x48002c, 0x40, 48, 0, 1, [⟨16, 16, .RC, 0, .fixed, []⟩, ⟨0, 16, .RC, 0, .fixed, []⟩]⟩]
/-- Registers of 08_gate_drive.md. -/
def regs08_1 : List RegDef := [
  -- DRV_CTRL
  ⟨0x480030, 0x40, 48, 0, 1, [⟨0, 1, .WS, 0, .fixed, []⟩]⟩,
  -- DRV_EVENT
  ⟨0x480034, 0x40, 48, 0, 1, [⟨4, 1, .W1C, 0, .fixed, []⟩, ⟨3, 1, .W1C, 0, .fixed, []⟩, ⟨2, 1, .W1C, 0, .fixed, []⟩, ⟨1, 1, .W1C, 0, .fixed, []⟩, ⟨0, 1, .W1C, 0, .fixed, []⟩]⟩,
  -- DRV_ID
  ⟨0x480038, 0x40, 48, 0, 1, [⟨24, 8, .RO, 0, .start, []⟩, ⟨0, 24, .RO, 0, .start, []⟩]⟩,
  -- IL_CFG
  ⟨0x480c00, 0x10, 24, 0, 1, [⟨31, 1, .RW, 0, .fixed, [2, 3, 4]⟩, ⟨28, 2, .RW, 0, .fixed, [2, 3, 4]⟩]⟩,
  -- IL_STATUS
  ⟨0x480c04, 0x10, 24, 0, 1, [⟨31, 1, .RO, 0, .fixed, []⟩, ⟨30, 1, .W1C, 0, .fixed, [3, 4]⟩]⟩,
  -- IL_COUNT
  ⟨0x480c08, 0x10, 24, 0, 1, [⟨16, 16, .RC, 0, .fixed, []⟩, ⟨0, 16, .RC, 0, .fixed, []⟩]⟩]

/-! ## 09_measurement.md -/

/-- CV_CFG (09_measurement.md, R276): address of instance 0. -/
def A.CV_CFG : Nat := 0x500000
def R.CV_CFG.EN : Fld := ⟨0x500000, 0x80, 0, 31, 1⟩
def R.CV_CFG.LP : Fld := ⟨0x500000, 0x80, 0, 30, 1⟩
def R.CV_CFG.MODE : Fld := ⟨0x500000, 0x80, 0, 29, 1⟩
def R.CV_CFG.CONT_IN : Fld := ⟨0x500000, 0x80, 0, 16, 8⟩
def R.CV_CFG.TRIG_LEG : Fld := ⟨0x500000, 0x80, 0, 0, 8⟩
/-- CV_SLOTS0 (09_measurement.md, R276): address of instance 0. -/
def A.CV_SLOTS0 : Nat := 0x500004
def R.CV_SLOTS0.SLOT3 : Fld := ⟨0x500004, 0x80, 0, 24, 8⟩
def R.CV_SLOTS0.SLOT2 : Fld := ⟨0x500004, 0x80, 0, 16, 8⟩
def R.CV_SLOTS0.SLOT1 : Fld := ⟨0x500004, 0x80, 0, 8, 8⟩
def R.CV_SLOTS0.SLOT0 : Fld := ⟨0x500004, 0x80, 0, 0, 8⟩
/-- CV_SLOTS1 (09_measurement.md, R276): address of instance 0. -/
def A.CV_SLOTS1 : Nat := 0x500008
def R.CV_SLOTS1.SLOT7 : Fld := ⟨0x500008, 0x80, 0, 24, 8⟩
def R.CV_SLOTS1.SLOT6 : Fld := ⟨0x500008, 0x80, 0, 16, 8⟩
def R.CV_SLOTS1.SLOT5 : Fld := ⟨0x500008, 0x80, 0, 8, 8⟩
def R.CV_SLOTS1.SLOT4 : Fld := ⟨0x500008, 0x80, 0, 0, 8⟩
/-- CV_STATUS (09_measurement.md, R276): address of instance 0. -/
def A.CV_STATUS : Nat := 0x50000c
def R.CV_STATUS.STATE : Fld := ⟨0x50000c, 0x80, 0, 30, 2⟩
def R.CV_STATUS.LAST : Fld := ⟨0x50000c, 0x80, 0, 0, 16⟩
/-- CV_CNT (09_measurement.md, R276): address of instance 0. -/
def A.CV_CNT : Nat := 0x500010
def R.CV_CNT.OVERLAP : Fld := ⟨0x500010, 0x80, 0, 16, 16⟩
/-- TW_CFG (09_measurement.md, R276): address of instance 0. -/
def A.TW_CFG : Nat := 0x500040
def R.TW_CFG.CHK_SRC : Fld := ⟨0x500040, 0x100, 0, 24, 8⟩
def R.TW_CFG.CHK_TOL : Fld := ⟨0x500040, 0x100, 0, 16, 8⟩
def R.TW_CFG.CHK_N : Fld := ⟨0x500040, 0x100, 0, 8, 8⟩
def R.TW_CFG.CHK_WIN : Fld := ⟨0x500040, 0x100, 0, 0, 8⟩
/-- TW_STATUS (09_measurement.md, R276): address of instance 0. -/
def A.TW_STATUS : Nat := 0x500044
def R.TW_STATUS.FAIL : Fld := ⟨0x500044, 0x100, 0, 31, 1⟩
def R.TW_STATUS.SUSP_A : Fld := ⟨0x500044, 0x100, 0, 30, 1⟩
def R.TW_STATUS.SUSP_B : Fld := ⟨0x500044, 0x100, 0, 29, 1⟩
def R.TW_STATUS.DIFF : Fld := ⟨0x500044, 0x100, 0, 0, 16⟩
/-- TW_CNT (09_measurement.md, R276): address of instance 0. -/
def A.TW_CNT : Nat := 0x500048
def R.TW_CNT.MISMATCH : Fld := ⟨0x500048, 0x100, 0, 16, 16⟩
def R.TW_CNT.SKIP : Fld := ⟨0x500048, 0x100, 0, 0, 16⟩
/-- TW_CTRL (09_measurement.md, R276): address of instance 0. -/
def A.TW_CTRL : Nat := 0x50004c
def R.TW_CTRL.TW_CLR : Fld := ⟨0x50004c, 0x100, 0, 0, 1⟩
/-- TW_REF (09_measurement.md, R276): address of instance 0. -/
def A.TW_REF : Nat := 0x500050
def R.TW_REF.REF_NOM : Fld := ⟨0x500050, 0x100, 0, 0, 16⟩
/-- TD_CFG (09_measurement.md, R276): address of instance 0. -/
def A.TD_CFG : Nat := 0x500800
def R.TD_CFG.SRC : Fld := ⟨0x500800, 0x0, 0, 31, 1⟩
def R.TD_CFG.HOST_CODE : Fld := ⟨0x500800, 0x0, 0, 0, 12⟩
/-- CV_EVENT (09_measurement.md, R276): address of instance 0. -/
def A.CV_EVENT : Nat := 0x500804
def R.CV_EVENT.TWIN_EV : Fld := ⟨0x500804, 0x0, 0, 2, 1⟩
def R.CV_EVENT.SELF_FAIL : Fld := ⟨0x500804, 0x0, 0, 1, 1⟩
def R.CV_EVENT.CAL_LOST : Fld := ⟨0x500804, 0x0, 0, 0, 1⟩
/-- IN_OFS (09_measurement.md, R276): address of instance 0. -/
def A.IN_OFS : Nat := 0x510000
def R.IN_OFS.OFS : Fld := ⟨0x510000, 0x20, 0, 0, 20⟩
/-- IN_NEW_OFS (09_measurement.md, R276): address of instance 0. -/
def A.IN_NEW_OFS : Nat := 0x510010
def R.IN_NEW_OFS.OFS : Fld := ⟨0x510010, 0x20, 0, 0, 20⟩
/-- IN_GAIN (09_measurement.md, R276): address of instance 0. -/
def A.IN_GAIN : Nat := 0x510004
def R.IN_GAIN.GAIN : Fld := ⟨0x510004, 0x20, 0, 0, 32⟩
/-- IN_NEW_GAIN (09_measurement.md, R276): address of instance 0. -/
def A.IN_NEW_GAIN : Nat := 0x510014
def R.IN_NEW_GAIN.GAIN : Fld := ⟨0x510014, 0x20, 0, 0, 32⟩
/-- IN_WC (09_measurement.md, R276): address of instance 0. -/
def A.IN_WC : Nat := 0x510008
def R.IN_WC.WC_HI : Fld := ⟨0x510008, 0x20, 0, 16, 16⟩
def R.IN_WC.WC_LO : Fld := ⟨0x510008, 0x20, 0, 0, 16⟩
/-- IN_STATUS (09_measurement.md, R276): address of instance 0. -/
def A.IN_STATUS : Nat := 0x51000c
def R.IN_STATUS.CAL_OK : Fld := ⟨0x51000c, 0x20, 0, 31, 1⟩
def R.IN_STATUS.WC_OUT : Fld := ⟨0x51000c, 0x20, 0, 30, 1⟩
def R.IN_STATUS.CAND_OFS : Fld := ⟨0x51000c, 0x20, 0, 29, 1⟩
def R.IN_STATUS.CAND_GAIN : Fld := ⟨0x51000c, 0x20, 0, 28, 1⟩
def R.IN_STATUS.CAL_BUSY : Fld := ⟨0x51000c, 0x20, 0, 27, 1⟩
def R.IN_STATUS.CAL_ERR : Fld := ⟨0x51000c, 0x20, 0, 20, 4⟩
def R.IN_STATUS.RAW : Fld := ⟨0x51000c, 0x20, 0, 0, 16⟩
/-- IN_CAL_SPREAD (09_measurement.md, R276): address of instance 0. -/
def A.IN_CAL_SPREAD : Nat := 0x510018
def R.IN_CAL_SPREAD.SPREAD : Fld := ⟨0x510018, 0x20, 0, 0, 16⟩
/-- IN_CNT (09_measurement.md, R276): address of instance 0. -/
def A.IN_CNT : Nat := 0x51001c
def R.IN_CNT.WC_CNT : Fld := ⟨0x51001c, 0x20, 0, 0, 16⟩
/-- MS_IP (09_measurement.md, R276): address of instance 0. -/
def A.MS_IP : Nat := 0x100380
def R.MS_IP.IP : Fld := ⟨0x100380, 0x400, 0, 0, 16⟩
/-- MS_STATUS (09_measurement.md, R276): address of instance 0. -/
def A.MS_STATUS : Nat := 0x100384
def R.MS_STATUS.MS_ERR : Fld := ⟨0x100384, 0x400, 0, 0, 8⟩

/-- Registers of 09_measurement.md. -/
def regs09_0 : List RegDef := [
  -- CV_CFG
  ⟨0x500000, 0x80, 16, 0, 1, [⟨31, 1, .RW, 0, .option, [2, 3, 4]⟩, ⟨30, 1, .RW, 0, .option, [2, 3, 4]⟩, ⟨29, 1, .RW, 0, .option, [2, 3, 4]⟩, ⟨16, 8, .RW, 0, .option, [2, 3, 4]⟩, ⟨0, 8, .RW, 0, .option, [2, 3, 4]⟩]⟩,
  -- CV_SLOTS0
  ⟨0x500004, 0x80, 16, 0, 1, [⟨24, 8, .RW, 0, .option, [2, 3, 4]⟩, ⟨16, 8, .RW, 0, .option, [2, 3, 4]⟩, ⟨8, 8, .RW, 0, .option, [2, 3, 4]⟩, ⟨0, 8, .RW, 0, .option, [2, 3, 4]⟩]⟩,
  -- CV_SLOTS1
  ⟨0x500008, 0x80, 16, 0, 1, [⟨24, 8, .RW, 0, .option, [2, 3, 4]⟩, ⟨16, 8, .RW, 0, .option, [2, 3, 4]⟩, ⟨8, 8, .RW, 0, .option, [2, 3, 4]⟩, ⟨0, 8, .RW, 0, .option, [2, 3, 4]⟩]⟩,
  -- CV_STATUS
  ⟨0x50000c, 0x80, 16, 0, 1, [⟨30, 2, .RO, 0, .start, [1, 2, 3, 4]⟩, ⟨0, 16, .RO, 0, .fixed, []⟩]⟩,
  -- CV_CNT
  ⟨0x500010, 0x80, 16, 0, 1, [⟨16, 16, .RC, 0, .fixed, []⟩]⟩,
  -- TW_CFG
  ⟨0x500040, 0x100, 8, 0, 1, [⟨24, 8, .RW, 16, .fixed, [2, 3, 4]⟩, ⟨16, 8, .RW, 8, .fixed, [2, 3, 4]⟩, ⟨8, 8, .RW, 3, .fixed, [2, 3, 4]⟩, ⟨0, 8, .RW, 100, .fixed, [2, 3, 4]⟩]⟩,
  -- TW_STATUS
  ⟨0x500044, 0x100, 8, 0, 1, [⟨31, 1, .RO, 0, .fixed, [3, 4]⟩, ⟨30, 1, .RO, 0, .fixed, [3, 4]⟩, ⟨29, 1, .RO, 0, .fixed, [3, 4]⟩, ⟨0, 16, .RO, 0, .fixed, []⟩]⟩,
  -- TW_CNT
  ⟨0x500048, 0x100, 8, 0, 1, [⟨16, 16, .RC, 0, .fixed, []⟩, ⟨0, 16, .RC, 0, .fixed, []⟩]⟩,
  -- TW_CTRL
  ⟨0x50004c, 0x100, 8, 0, 1, [⟨0, 1, .WS, 0, .fixed, []⟩]⟩,
  -- TW_REF
  ⟨0x500050, 0x100, 8, 0, 1, [⟨0, 16, .RO, 0, .start, []⟩]⟩,
  -- TD_CFG
  ⟨0x500800, 0x0, 1, 0, 1, [⟨31, 1, .RW, 0, .fixed, []⟩, ⟨0, 12, .RW, 0, .fixed, []⟩]⟩,
  -- CV_EVENT
  ⟨0x500804, 0x0, 1, 0, 1, [⟨2, 1, .W1C, 0, .fixed, []⟩, ⟨1, 1, .W1C, 0, .fixed, []⟩, ⟨0, 1, .W1C, 0, .fixed, []⟩]⟩]
/-- Registers of 09_measurement.md. -/
def regs09_1 : List RegDef := [
  -- IN_OFS
  ⟨0x510000, 0x20, 64, 0, 1, [⟨0, 20, .RO, 0, .start, [1, 2, 3, 4]⟩]⟩,
  -- IN_NEW_OFS
  ⟨0x510010, 0x20, 64, 0, 1, [⟨0, 20, .RO, 0, .start, [1, 2, 3, 4]⟩]⟩,
  -- IN_GAIN
  ⟨0x510004, 0x20, 64, 0, 1, [⟨0, 32, .RO, 0, .start, [1, 2, 3, 4]⟩]⟩,
  -- IN_NEW_GAIN
  ⟨0x510014, 0x20, 64, 0, 1, [⟨0, 32, .RO, 0, .start, [1, 2, 3, 4]⟩]⟩,
  -- IN_WC
  ⟨0x510008, 0x20, 64, 0, 1, [⟨16, 16, .RW, 32767, .fixed, [2, 3, 4]⟩, ⟨0, 16, .RW, 32768, .fixed, [2, 3, 4]⟩]⟩,
  -- IN_STATUS
  ⟨0x51000c, 0x20, 64, 0, 1, [⟨31, 1, .RO, 0, .start, [1, 2, 3, 4]⟩, ⟨30, 1, .RO, 0, .fixed, []⟩, ⟨29, 1, .RO, 0, .fixed, []⟩, ⟨28, 1, .RO, 0, .fixed, []⟩, ⟨27, 1, .RO, 0, .fixed, []⟩, ⟨20, 4, .RO, 0, .fixed, []⟩, ⟨0, 16, .RO, 0, .fixed, []⟩]⟩,
  -- IN_CAL_SPREAD
  ⟨0x510018, 0x20, 64, 0, 1, [⟨0, 16, .RO, 0, .fixed, []⟩]⟩,
  -- IN_CNT
  ⟨0x51001c, 0x20, 64, 0, 1, [⟨0, 16, .RC, 0, .fixed, []⟩]⟩,
  -- MS_IP
  ⟨0x100380, 0x400, 4, 0, 1, [⟨0, 16, .RW, 2000, .fixed, [2, 3, 4]⟩]⟩,
  -- MS_STATUS
  ⟨0x100384, 0x400, 4, 0, 1, [⟨0, 8, .RO, 0, .fixed, []⟩]⟩]

/-! ## 10_capture.md -/

/-- CAP_CFG (10_capture.md, R302): address of instance 0. -/
def A.CAP_CFG : Nat := 0x700000
def R.CAP_CFG.MODE : Fld := ⟨0x700000, 0x100, 0, 30, 2⟩
def R.CAP_CFG.GROUP : Fld := ⟨0x700000, 0x100, 0, 29, 1⟩
def R.CAP_CFG.REARM : Fld := ⟨0x700000, 0x100, 0, 28, 1⟩
def R.CAP_CFG.BR : Fld := ⟨0x700000, 0x100, 0, 24, 2⟩
def R.CAP_CFG.CV : Fld := ⟨0x700000, 0x100, 0, 20, 4⟩
def R.CAP_CFG.NCH_M1 : Fld := ⟨0x700000, 0x100, 0, 8, 5⟩
def R.CAP_CFG.DIV_M1 : Fld := ⟨0x700000, 0x100, 0, 0, 8⟩
/-- CAP_ROWS (10_capture.md, R302): address of instance 0. -/
def A.CAP_ROWS : Nat := 0x700004
def R.CAP_ROWS.ROWS : Fld := ⟨0x700004, 0x100, 0, 0, 24⟩
/-- CAP_PRE (10_capture.md, R302): address of instance 0. -/
def A.CAP_PRE : Nat := 0x700008
def R.CAP_PRE.PRE : Fld := ⟨0x700008, 0x100, 0, 0, 24⟩
/-- CAP_TRIG (10_capture.md, R302): address of instance 0. -/
def A.CAP_TRIG : Nat := 0x70000c
def R.CAP_TRIG.SRC_EN : Fld := ⟨0x70000c, 0x100, 0, 0, 14⟩
/-- CAP_STATUS (10_capture.md, R302): address of instance 0. -/
def A.CAP_STATUS : Nat := 0x700010
def R.CAP_STATUS.STATE : Fld := ⟨0x700010, 0x100, 0, 0, 3⟩
/-- CAP_REC (10_capture.md, R302): address of instance 0. -/
def A.CAP_REC : Nat := 0x700014
def R.CAP_REC.REC_NO : Fld := ⟨0x700014, 0x100, 0, 0, 32⟩
/-- CAP_CNT (10_capture.md, R302): address of instance 0. -/
def A.CAP_CNT : Nat := 0x700018
def R.CAP_CNT.IGNORED : Fld := ⟨0x700018, 0x100, 0, 16, 16⟩
def R.CAP_CNT.LOST : Fld := ⟨0x700018, 0x100, 0, 0, 16⟩
/-- CAP_DEAD (10_capture.md, R302): address of instance 0. -/
def A.CAP_DEAD : Nat := 0x70001c
def R.CAP_DEAD.DEAD : Fld := ⟨0x70001c, 0x100, 0, 0, 32⟩
/-- CAP_EVENT (10_capture.md, R302): address of instance 0. -/
def A.CAP_EVENT : Nat := 0x700020
def R.CAP_EVENT.NO_PANE_EV : Fld := ⟨0x700020, 0x100, 0, 3, 1⟩
def R.CAP_EVENT.LOST_EV : Fld := ⟨0x700020, 0x100, 0, 2, 1⟩
def R.CAP_EVENT.FULL_EV : Fld := ⟨0x700020, 0x100, 0, 1, 1⟩
def R.CAP_EVENT.FIRED_EV : Fld := ⟨0x700020, 0x100, 0, 0, 1⟩
/-- CAP_CH (10_capture.md, R302): address of instance 0. -/
def A.CAP_CH : Nat := 0x700040
def R.CAP_CH.CH_ODD : Fld := ⟨0x700040, 0x100, 4, 16, 12⟩
def R.CAP_CH.CH_EVEN : Fld := ⟨0x700040, 0x100, 4, 0, 12⟩
/-- CAP_GROUP (10_capture.md, R302): address of instance 0. -/
def A.CAP_GROUP : Nat := 0x700800
def R.CAP_GROUP.MASTER : Fld := ⟨0x700800, 0x0, 0, 0, 3⟩
/-- CAP_PANES0 (10_capture.md, R302): address of instance 0. -/
def A.CAP_PANES0 : Nat := 0x700804
def R.CAP_PANES0.FILLING : Fld := ⟨0x700804, 0x0, 0, 16, 12⟩
def R.CAP_PANES0.FREE : Fld := ⟨0x700804, 0x0, 0, 0, 12⟩
/-- CAP_PANES1 (10_capture.md, R302): address of instance 0. -/
def A.CAP_PANES1 : Nat := 0x700808
def R.CAP_PANES1.READING : Fld := ⟨0x700808, 0x0, 0, 16, 12⟩
def R.CAP_PANES1.FULL : Fld := ⟨0x700808, 0x0, 0, 0, 12⟩
/-- CAP_XT (10_capture.md, R302): address of instance 0. -/
def A.CAP_XT : Nat := 0x70080c
def R.CAP_XT.XT_TX : Fld := ⟨0x70080c, 0x0, 0, 31, 1⟩
def R.CAP_XT.XLINE : Fld := ⟨0x70080c, 0x0, 0, 28, 2⟩
def R.CAP_XT.XLATE_CNT : Fld := ⟨0x70080c, 0x0, 0, 16, 12⟩
def R.CAP_XT.XLAT : Fld := ⟨0x70080c, 0x0, 0, 0, 16⟩
/-- CAP_PIN (10_capture.md, R302): address of instance 0. -/
def A.CAP_PIN : Nat := 0x700810
def R.CAP_PIN.DIR : Fld := ⟨0x700810, 0x0, 4, 31, 1⟩
def R.CAP_PIN.POL : Fld := ⟨0x700810, 0x0, 4, 30, 1⟩
def R.CAP_PIN.FILT : Fld := ⟨0x700810, 0x0, 4, 16, 8⟩
def R.CAP_PIN.LOST : Fld := ⟨0x700810, 0x0, 4, 0, 16⟩

/-- Registers of 10_capture.md. -/
def regs10_0 : List RegDef := [
  -- CAP_CFG
  ⟨0x700000, 0x100, 8, 0, 1, [⟨30, 2, .RW, 0, .fixed, [3, 4]⟩, ⟨29, 1, .RW, 0, .fixed, [3, 4]⟩, ⟨28, 1, .RW, 0, .fixed, [3, 4]⟩, ⟨24, 2, .RW, 0, .fixed, [3, 4]⟩, ⟨20, 4, .RW, 0, .fixed, [3, 4]⟩, ⟨8, 5, .RW, 0, .fixed, [3, 4]⟩, ⟨0, 8, .RW, 0, .fixed, [3, 4]⟩]⟩,
  -- CAP_ROWS
  ⟨0x700004, 0x100, 8, 0, 1, [⟨0, 24, .RW, 1, .fixed, [3, 4]⟩]⟩,
  -- CAP_PRE
  ⟨0x700008, 0x100, 8, 0, 1, [⟨0, 24, .RW, 0, .fixed, [3, 4]⟩]⟩,
  -- CAP_TRIG
  ⟨0x70000c, 0x100, 8, 0, 1, [⟨0, 14, .RW, 0, .fixed, [3, 4]⟩]⟩,
  -- CAP_STATUS
  ⟨0x700010, 0x100, 8, 0, 1, [⟨0, 3, .RO, 0, .fixed, []⟩]⟩,
  -- CAP_REC
  ⟨0x700014, 0x100, 8, 0, 1, [⟨0, 32, .RO, 0, .fixed, [1, 2, 3, 4]⟩]⟩,
  -- CAP_CNT
  ⟨0x700018, 0x100, 8, 0, 1, [⟨16, 16, .RC, 0, .fixed, []⟩, ⟨0, 16, .RC, 0, .fixed, []⟩]⟩,
  -- CAP_DEAD
  ⟨0x70001c, 0x100, 8, 0, 1, [⟨0, 32, .RO, 0, .fixed, []⟩]⟩,
  -- CAP_EVENT
  ⟨0x700020, 0x100, 8, 0, 1, [⟨3, 1, .W1C, 0, .fixed, []⟩, ⟨2, 1, .W1C, 0, .fixed, []⟩, ⟨1, 1, .W1C, 0, .fixed, []⟩, ⟨0, 1, .W1C, 0, .fixed, []⟩]⟩,
  -- CAP_CH
  ⟨0x700040, 0x100, 8, 4, 16, [⟨16, 12, .RW, 0, .fixed, [3, 4]⟩, ⟨0, 12, .RW, 0, .fixed, [3, 4]⟩]⟩,
  -- CAP_GROUP
  ⟨0x700800, 0x0, 1, 0, 1, [⟨0, 3, .RW, 0, .fixed, [3, 4]⟩]⟩,
  -- CAP_PANES0
  ⟨0x700804, 0x0, 1, 0, 1, [⟨16, 12, .RO, 16, .fixed, []⟩, ⟨0, 12, .RO, 2032, .fixed, []⟩]⟩]
/-- Registers of 10_capture.md. -/
def regs10_1 : List RegDef := [
  -- CAP_PANES1
  ⟨0x700808, 0x0, 1, 0, 1, [⟨16, 12, .RO, 0, .fixed, []⟩, ⟨0, 12, .RO, 0, .fixed, []⟩]⟩,
  -- CAP_XT
  ⟨0x70080c, 0x0, 1, 0, 1, [⟨31, 1, .RW, 0, .fixed, [3, 4]⟩, ⟨28, 2, .RW, 0, .fixed, [3, 4]⟩, ⟨16, 12, .RC, 0, .fixed, []⟩, ⟨0, 16, .RW, 4000, .fixed, [3, 4]⟩]⟩,
  -- CAP_PIN
  ⟨0x700810, 0x0, 1, 4, 4, [⟨31, 1, .RW, 0, .fixed, [3, 4]⟩, ⟨30, 1, .RW, 1, .fixed, [3, 4]⟩, ⟨16, 8, .RW, 4, .fixed, [3, 4]⟩, ⟨0, 16, .RC, 0, .fixed, []⟩]⟩]

/-! ## 11_vangat_commands.md -/

/-- VG_CAN_CFG (11_vangat_commands.md, R333): address of instance 0. -/
def A.VG_CAN_CFG : Nat := 0x80
def R.VG_CAN_CFG.CAN_EN : Fld := ⟨0x80, 0x0, 0, 31, 1⟩
def R.VG_CAN_CFG.IDE : Fld := ⟨0x80, 0x0, 0, 30, 1⟩
def R.VG_CAN_CFG.CAN_SEL : Fld := ⟨0x80, 0x0, 0, 28, 2⟩
def R.VG_CAN_CFG.SEG_TO : Fld := ⟨0x80, 0x0, 0, 0, 8⟩
/-- VG_CAN_CMD_ID (11_vangat_commands.md, R333): address of instance 0. -/
def A.VG_CAN_CMD_ID : Nat := 0x84
def R.VG_CAN_CMD_ID.ID : Fld := ⟨0x84, 0x0, 0, 0, 29⟩
/-- VG_CAN_RSP_ID (11_vangat_commands.md, R333): address of instance 0. -/
def A.VG_CAN_RSP_ID : Nat := 0x88
def R.VG_CAN_RSP_ID.ID : Fld := ⟨0x88, 0x0, 0, 0, 29⟩
/-- VG_ATTN_EN (11_vangat_commands.md, R333): address of instance 0. -/
def A.VG_ATTN_EN : Nat := 0x8c
def R.VG_ATTN_EN.EN : Fld := ⟨0x8c, 0x0, 0, 0, 5⟩
/-- VG_EVENT (11_vangat_commands.md, R333): address of instance 0. -/
def A.VG_EVENT : Nat := 0x90
def R.VG_EVENT.RX_OVF_EV : Fld := ⟨0x90, 0x0, 0, 4, 1⟩
def R.VG_EVENT.FRAME_EV : Fld := ⟨0x90, 0x0, 0, 3, 1⟩
def R.VG_EVENT.AUTHF_EV : Fld := ⟨0x90, 0x0, 0, 2, 1⟩
def R.VG_EVENT.ASYNC_EV : Fld := ⟨0x90, 0x0, 0, 1, 1⟩
def R.VG_EVENT.REPLY : Fld := ⟨0x90, 0x0, 0, 0, 1⟩
/-- VG_STATUS (11_vangat_commands.md, R333): address of instance 0. -/
def A.VG_STATUS : Nat := 0x94
def R.VG_STATUS.RPQ_SPI : Fld := ⟨0x94, 0x0, 0, 28, 4⟩
def R.VG_STATUS.RPQ_CAN : Fld := ⟨0x94, 0x0, 0, 24, 4⟩
def R.VG_STATUS.RXQ_SPI : Fld := ⟨0x94, 0x0, 0, 22, 2⟩
def R.VG_STATUS.RXQ_CAN : Fld := ⟨0x94, 0x0, 0, 20, 2⟩
def R.VG_STATUS.CAN_ON : Fld := ⟨0x94, 0x0, 0, 16, 1⟩
/-- VG_ERR (11_vangat_commands.md, R333): address of instance 0. -/
def A.VG_ERR : Nat := 0x98
def R.VG_ERR.LAST_OP : Fld := ⟨0x98, 0x0, 0, 16, 16⟩
def R.VG_ERR.LAST_ERR : Fld := ⟨0x98, 0x0, 0, 8, 8⟩
def R.VG_ERR.LAST_SRC : Fld := ⟨0x98, 0x0, 0, 7, 1⟩
/-- VG_ERR_ADDR (11_vangat_commands.md, R333): address of instance 0. -/
def A.VG_ERR_ADDR : Nat := 0x9c
def R.VG_ERR_ADDR.ADDR : Fld := ⟨0x9c, 0x0, 0, 0, 24⟩
/-- VG_COUNT (11_vangat_commands.md, R333): address of instance 0. -/
def A.VG_COUNT : Nat := 0xa0
def R.VG_COUNT.FRAME_ERR : Fld := ⟨0xa0, 0x0, 0, 16, 16⟩
def R.VG_COUNT.AUTH_FAILS : Fld := ⟨0xa0, 0x0, 0, 0, 16⟩
/-- VG_COUNT2 (11_vangat_commands.md, R333): address of instance 0. -/
def A.VG_COUNT2 : Nat := 0xa4
def R.VG_COUNT2.RX_OVF : Fld := ⟨0xa4, 0x0, 0, 24, 8⟩
def R.VG_COUNT2.RP_DROP : Fld := ⟨0xa4, 0x0, 0, 16, 8⟩
def R.VG_COUNT2.BAD_INS : Fld := ⟨0xa4, 0x0, 0, 8, 8⟩
def R.VG_COUNT2.DUPS : Fld := ⟨0xa4, 0x0, 0, 0, 8⟩
/-- VG_ASYNC (11_vangat_commands.md, R333): address of instance 0. -/
def A.VG_ASYNC : Nat := 0xa8
def R.VG_ASYNC.OPCODE : Fld := ⟨0xa8, 0x0, 0, 16, 16⟩
def R.VG_ASYNC.SEQ : Fld := ⟨0xa8, 0x0, 0, 8, 8⟩
def R.VG_ASYNC.RUNNING : Fld := ⟨0xa8, 0x0, 0, 4, 4⟩
def R.VG_ASYNC.RESULT : Fld := ⟨0xa8, 0x0, 0, 0, 2⟩

/-- Registers of 11_vangat_commands.md. -/
def regs11_0 : List RegDef := [
  -- VG_CAN_CFG
  ⟨0x80, 0x0, 1, 0, 1, [⟨31, 1, .WA, 0, .option, [2, 3, 4]⟩, ⟨30, 1, .WA, 0, .option, [2, 3, 4]⟩, ⟨28, 2, .WA, 0, .option, [2, 3, 4]⟩, ⟨0, 8, .WA, 1, .option, [2, 3, 4]⟩]⟩,
  -- VG_CAN_CMD_ID
  ⟨0x84, 0x0, 1, 0, 1, [⟨0, 29, .WA, 0, .option, [2, 3, 4]⟩]⟩,
  -- VG_CAN_RSP_ID
  ⟨0x88, 0x0, 1, 0, 1, [⟨0, 29, .WA, 0, .option, [2, 3, 4]⟩]⟩,
  -- VG_ATTN_EN
  ⟨0x8c, 0x0, 1, 0, 1, [⟨0, 5, .RW, 3, .fixed, [2, 3, 4]⟩]⟩,
  -- VG_EVENT
  ⟨0x90, 0x0, 1, 0, 1, [⟨4, 1, .W1C, 0, .fixed, []⟩, ⟨3, 1, .W1C, 0, .fixed, []⟩, ⟨2, 1, .W1C, 0, .fixed, []⟩, ⟨1, 1, .W1C, 0, .fixed, []⟩, ⟨0, 1, .RO, 0, .fixed, []⟩]⟩,
  -- VG_STATUS
  ⟨0x94, 0x0, 1, 0, 1, [⟨28, 4, .RO, 0, .fixed, []⟩, ⟨24, 4, .RO, 0, .fixed, []⟩, ⟨22, 2, .RO, 0, .fixed, []⟩, ⟨20, 2, .RO, 0, .fixed, []⟩, ⟨16, 1, .RO, 0, .fixed, []⟩]⟩,
  -- VG_ERR
  ⟨0x98, 0x0, 1, 0, 1, [⟨16, 16, .RO, 0, .fixed, []⟩, ⟨8, 8, .RO, 0, .fixed, []⟩, ⟨7, 1, .RO, 0, .fixed, []⟩]⟩,
  -- VG_ERR_ADDR
  ⟨0x9c, 0x0, 1, 0, 1, [⟨0, 24, .RO, 0, .fixed, []⟩]⟩,
  -- VG_COUNT
  ⟨0xa0, 0x0, 1, 0, 1, [⟨16, 16, .RC, 0, .fixed, []⟩, ⟨0, 16, .RC, 0, .fixed, [1, 2, 3, 4]⟩]⟩,
  -- VG_COUNT2
  ⟨0xa4, 0x0, 1, 0, 1, [⟨24, 8, .RC, 0, .fixed, []⟩, ⟨16, 8, .RC, 0, .fixed, []⟩, ⟨8, 8, .RC, 0, .fixed, []⟩, ⟨0, 8, .RC, 0, .fixed, []⟩]⟩,
  -- VG_ASYNC
  ⟨0xa8, 0x0, 1, 0, 1, [⟨16, 16, .RO, 0, .fixed, []⟩, ⟨8, 8, .RO, 0, .fixed, []⟩, ⟨4, 4, .RO, 0, .fixed, []⟩, ⟨0, 2, .RO, 0, .fixed, []⟩]⟩]

/-! ## 12_can_fd.md -/

/-- CF_NBT (12_can_fd.md, R357): address of instance 0. -/
def A.CF_NBT : Nat := 0x600000
def R.CF_NBT.NBRP_M1 : Fld := ⟨0x600000, 0x1000, 0, 24, 8⟩
def R.CF_NBT.NTSEG1_M1 : Fld := ⟨0x600000, 0x1000, 0, 16, 8⟩
def R.CF_NBT.NTSEG2_M1 : Fld := ⟨0x600000, 0x1000, 0, 8, 7⟩
def R.CF_NBT.NSJW_M1 : Fld := ⟨0x600000, 0x1000, 0, 0, 7⟩
/-- CF_DBT (12_can_fd.md, R357): address of instance 0. -/
def A.CF_DBT : Nat := 0x600004
def R.CF_DBT.DBRP_M1 : Fld := ⟨0x600004, 0x1000, 0, 24, 5⟩
def R.CF_DBT.DTSEG1_M1 : Fld := ⟨0x600004, 0x1000, 0, 16, 5⟩
def R.CF_DBT.DTSEG2_M1 : Fld := ⟨0x600004, 0x1000, 0, 8, 4⟩
def R.CF_DBT.DSJW_M1 : Fld := ⟨0x600004, 0x1000, 0, 0, 4⟩
/-- CF_TDC (12_can_fd.md, R357): address of instance 0. -/
def A.CF_TDC : Nat := 0x600008
def R.CF_TDC.TDC_EN : Fld := ⟨0x600008, 0x1000, 0, 31, 1⟩
def R.CF_TDC.TDCO : Fld := ⟨0x600008, 0x1000, 0, 16, 7⟩
def R.CF_TDC.TDCV : Fld := ⟨0x600008, 0x1000, 0, 0, 7⟩
/-- CF_MODE (12_can_fd.md, R357): address of instance 0. -/
def A.CF_MODE : Nat := 0x60000c
def R.CF_MODE.START : Fld := ⟨0x60000c, 0x1000, 0, 31, 1⟩
def R.CF_MODE.MON : Fld := ⟨0x60000c, 0x1000, 0, 30, 1⟩
def R.CF_MODE.RTRY_INF : Fld := ⟨0x60000c, 0x1000, 0, 29, 1⟩
def R.CF_MODE.RTRY_LIM : Fld := ⟨0x60000c, 0x1000, 0, 24, 4⟩
def R.CF_MODE.WAKE_MODE : Fld := ⟨0x60000c, 0x1000, 0, 23, 1⟩
def R.CF_MODE.WAKE_FILT : Fld := ⟨0x60000c, 0x1000, 0, 8, 8⟩
def R.CF_MODE.TM_EN : Fld := ⟨0x60000c, 0x1000, 0, 7, 1⟩
def R.CF_MODE.TS_EN : Fld := ⟨0x60000c, 0x1000, 0, 6, 1⟩
/-- CF_REF_ID (12_can_fd.md, R357): address of instance 0. -/
def A.CF_REF_ID : Nat := 0x600010
def R.CF_REF_ID.REF_IDE : Fld := ⟨0x600010, 0x1000, 0, 31, 1⟩
def R.CF_REF_ID.REF_ID : Fld := ⟨0x600010, 0x1000, 0, 0, 29⟩
/-- CF_REF_PER (12_can_fd.md, R357): address of instance 0. -/
def A.CF_REF_PER : Nat := 0x600014
def R.CF_REF_PER.REF_PER : Fld := ⟨0x600014, 0x1000, 0, 0, 10⟩
/-- CF_WK_ID (12_can_fd.md, R357): address of instance 0. -/
def A.CF_WK_ID : Nat := 0x600018
def R.CF_WK_ID.WK_IDE : Fld := ⟨0x600018, 0x1000, 0, 31, 1⟩
def R.CF_WK_ID.WK_ID : Fld := ⟨0x600018, 0x1000, 0, 0, 29⟩
/-- CF_WK_MASK (12_can_fd.md, R357): address of instance 0. -/
def A.CF_WK_MASK : Nat := 0x60001c
def R.CF_WK_MASK.WK_MASK : Fld := ⟨0x60001c, 0x1000, 0, 0, 29⟩
/-- CF_WK_DATA (12_can_fd.md, R357): address of instance 0. -/
def A.CF_WK_DATA : Nat := 0x600020
def R.CF_WK_DATA.WK_DATA : Fld := ⟨0x600020, 0x1000, 0, 0, 32⟩
/-- CF_WK_DMASK (12_can_fd.md, R357): address of instance 0. -/
def A.CF_WK_DMASK : Nat := 0x600024
def R.CF_WK_DMASK.WK_DMASK : Fld := ⟨0x600024, 0x1000, 0, 0, 32⟩
/-- CF_STATUS (12_can_fd.md, R357): address of instance 0. -/
def A.CF_STATUS : Nat := 0x600040
def R.CF_STATUS.STATE : Fld := ⟨0x600040, 0x1000, 0, 28, 3⟩
def R.CF_STATUS.TRIPLE : Fld := ⟨0x600040, 0x1000, 0, 27, 1⟩
def R.CF_STATUS.TEC : Fld := ⟨0x600040, 0x1000, 0, 16, 8⟩
def R.CF_STATUS.REC : Fld := ⟨0x600040, 0x1000, 0, 8, 8⟩
def R.CF_STATUS.LAST_ERR : Fld := ⟨0x600040, 0x1000, 0, 0, 3⟩
/-- CF_CNT (12_can_fd.md, R357): address of instance 0. -/
def A.CF_CNT : Nat := 0x600044
def R.CF_CNT.ABANDONED : Fld := ⟨0x600044, 0x1000, 0, 16, 16⟩
def R.CF_CNT.COLLISIONS : Fld := ⟨0x600044, 0x1000, 0, 0, 16⟩
/-- CF_CNT2 (12_can_fd.md, R357): address of instance 0. -/
def A.CF_CNT2 : Nat := 0x600048
def R.CF_CNT2.BUS_OFFS : Fld := ⟨0x600048, 0x1000, 0, 24, 8⟩
def R.CF_CNT2.RX_LOST : Fld := ⟨0x600048, 0x1000, 0, 16, 8⟩
def R.CF_CNT2.LOCK_TO : Fld := ⟨0x600048, 0x1000, 0, 8, 8⟩
/-- CF_EVENT (12_can_fd.md, R357): address of instance 0. -/
def A.CF_EVENT : Nat := 0x60004c
def R.CF_EVENT.REF_EV : Fld := ⟨0x60004c, 0x1000, 0, 6, 1⟩
def R.CF_EVENT.WAKE_EV : Fld := ⟨0x60004c, 0x1000, 0, 5, 1⟩
def R.CF_EVENT.LOCKTO_EV : Fld := ⟨0x60004c, 0x1000, 0, 4, 1⟩
def R.CF_EVENT.RXLOST_EV : Fld := ⟨0x60004c, 0x1000, 0, 3, 1⟩
def R.CF_EVENT.COLL_EV : Fld := ⟨0x60004c, 0x1000, 0, 2, 1⟩
def R.CF_EVENT.ABT_EV : Fld := ⟨0x60004c, 0x1000, 0, 1, 1⟩
def R.CF_EVENT.BUSOFF_EV : Fld := ⟨0x60004c, 0x1000, 0, 0, 1⟩
/-- CF_CTRL (12_can_fd.md, R357): address of instance 0. -/
def A.CF_CTRL : Nat := 0x600050
def R.CF_CTRL.CFG_REQ : Fld := ⟨0x600050, 0x1000, 0, 0, 1⟩
/-- MO_SEL (12_can_fd.md, R357): address of instance 0. -/
def A.MO_SEL : Nat := 0x600054
def R.MO_SEL.MO_SEL : Fld := ⟨0x600054, 0x1000, 0, 0, 6⟩
/-- CT_OFS (12_can_fd.md, R357): address of instance 0. -/
def A.CT_OFS : Nat := 0x600058
def R.CT_OFS.CT_OFS : Fld := ⟨0x600058, 0x1000, 0, 0, 32⟩
/-- CT_REF (12_can_fd.md, R357): address of instance 0. -/
def A.CT_REF : Nat := 0x60005c
def R.CT_REF.SEQ : Fld := ⟨0x60005c, 0x1000, 0, 8, 8⟩
def R.CT_REF.OFS_SAT : Fld := ⟨0x60005c, 0x1000, 0, 1, 1⟩
def R.CT_REF.NOT_ALIGNED : Fld := ⟨0x60005c, 0x1000, 0, 0, 1⟩
/-- MO_ID (12_can_fd.md, R357): address of instance 0. -/
def A.MO_ID : Nat := 0x600400
def R.MO_ID.IDE : Fld := ⟨0x600400, 0x1000, 16, 31, 1⟩
def R.MO_ID.ID : Fld := ⟨0x600400, 0x1000, 16, 0, 29⟩
/-- MO_MASK (12_can_fd.md, R357): address of instance 0. -/
def A.MO_MASK : Nat := 0x600404
def R.MO_MASK.MASK : Fld := ⟨0x600404, 0x1000, 16, 0, 29⟩
/-- MO_CFG (12_can_fd.md, R357): address of instance 0. -/
def A.MO_CFG : Nat := 0x600408
def R.MO_CFG.EN : Fld := ⟨0x600408, 0x1000, 16, 31, 1⟩
def R.MO_CFG.DIR : Fld := ⟨0x600408, 0x1000, 16, 30, 1⟩
/-- MO_STAT (12_can_fd.md, R357): address of instance 0. -/
def A.MO_STAT : Nat := 0x60040c
def R.MO_STAT.NEW : Fld := ⟨0x60040c, 0x1000, 16, 31, 1⟩
def R.MO_STAT.OVR : Fld := ⟨0x60040c, 0x1000, 16, 30, 1⟩
def R.MO_STAT.TX_PEND : Fld := ⟨0x60040c, 0x1000, 16, 29, 1⟩
def R.MO_STAT.TX_ABT : Fld := ⟨0x60040c, 0x1000, 16, 28, 1⟩
def R.MO_STAT.COLL : Fld := ⟨0x60040c, 0x1000, 16, 27, 1⟩
def R.MO_STAT.LOCK : Fld := ⟨0x60040c, 0x1000, 16, 26, 1⟩
def R.MO_STAT.HELD : Fld := ⟨0x60040c, 0x1000, 16, 25, 1⟩
def R.MO_STAT.ATTEMPTS : Fld := ⟨0x60040c, 0x1000, 16, 4, 4⟩
def R.MO_STAT.TX_REQ : Fld := ⟨0x60040c, 0x1000, 16, 0, 1⟩
/-- BUF_ID (12_can_fd.md, R357): address of instance 0. -/
def A.BUF_ID : Nat := 0x600800
def R.BUF_ID.IDE : Fld := ⟨0x600800, 0x1000, 0, 31, 1⟩
def R.BUF_ID.ID : Fld := ⟨0x600800, 0x1000, 0, 0, 29⟩
/-- BUF_CTL (12_can_fd.md, R357): address of instance 0. -/
def A.BUF_CTL : Nat := 0x600804
def R.BUF_CTL.FDF : Fld := ⟨0x600804, 0x1000, 0, 31, 1⟩
def R.BUF_CTL.BRS : Fld := ⟨0x600804, 0x1000, 0, 30, 1⟩
def R.BUF_CTL.ESI : Fld := ⟨0x600804, 0x1000, 0, 29, 1⟩
def R.BUF_CTL.DLC : Fld := ⟨0x600804, 0x1000, 0, 0, 4⟩
/-- BUF_TS_LO (12_can_fd.md, R357): address of instance 0. -/
def A.BUF_TS_LO : Nat := 0x600808
def R.BUF_TS_LO.TS : Fld := ⟨0x600808, 0x1000, 0, 0, 32⟩
/-- BUF_TS_HI (12_can_fd.md, R357): address of instance 0. -/
def A.BUF_TS_HI : Nat := 0x60080c
def R.BUF_TS_HI.TS : Fld := ⟨0x60080c, 0x1000, 0, 0, 32⟩
/-- BUF_DATA (12_can_fd.md, R357): address of instance 0. -/
def A.BUF_DATA : Nat := 0x600810
def R.BUF_DATA.DATA : Fld := ⟨0x600810, 0x1000, 4, 0, 32⟩

/-- Registers of 12_can_fd.md. -/
def regs12_0 : List RegDef := [
  -- CF_NBT
  ⟨0x600000, 0x1000, 4, 0, 1, [⟨24, 8, .RW, 0, .option, []⟩, ⟨16, 8, .RW, 1, .option, []⟩, ⟨8, 7, .RW, 0, .option, []⟩, ⟨0, 7, .RW, 0, .option, []⟩]⟩,
  -- CF_DBT
  ⟨0x600004, 0x1000, 4, 0, 1, [⟨24, 5, .RW, 0, .option, []⟩, ⟨16, 5, .RW, 0, .option, []⟩, ⟨8, 4, .RW, 0, .option, []⟩, ⟨0, 4, .RW, 0, .option, []⟩]⟩,
  -- CF_TDC
  ⟨0x600008, 0x1000, 4, 0, 1, [⟨31, 1, .RW, 0, .option, []⟩, ⟨16, 7, .RW, 0, .option, []⟩, ⟨0, 7, .RO, 0, .fixed, []⟩]⟩,
  -- CF_MODE
  ⟨0x60000c, 0x1000, 4, 0, 1, [⟨31, 1, .RW, 0, .option, []⟩, ⟨30, 1, .RW, 0, .option, []⟩, ⟨29, 1, .RW, 0, .option, []⟩, ⟨24, 4, .RW, 0, .option, []⟩, ⟨23, 1, .RW, 0, .option, []⟩, ⟨8, 8, .RW, 1, .option, []⟩, ⟨7, 1, .RW, 0, .option, []⟩, ⟨6, 1, .RW, 0, .option, []⟩]⟩,
  -- CF_REF_ID
  ⟨0x600010, 0x1000, 4, 0, 1, [⟨31, 1, .RW, 0, .option, []⟩, ⟨0, 29, .RW, 0, .option, []⟩]⟩,
  -- CF_REF_PER
  ⟨0x600014, 0x1000, 4, 0, 1, [⟨0, 10, .RW, 1, .option, []⟩]⟩,
  -- CF_WK_ID
  ⟨0x600018, 0x1000, 4, 0, 1, [⟨31, 1, .RW, 0, .option, []⟩, ⟨0, 29, .RW, 0, .option, []⟩]⟩,
  -- CF_WK_MASK
  ⟨0x60001c, 0x1000, 4, 0, 1, [⟨0, 29, .RW, 0, .option, []⟩]⟩,
  -- CF_WK_DATA
  ⟨0x600020, 0x1000, 4, 0, 1, [⟨0, 32, .RW, 0, .option, []⟩]⟩,
  -- CF_WK_DMASK
  ⟨0x600024, 0x1000, 4, 0, 1, [⟨0, 32, .RW, 0, .option, []⟩]⟩,
  -- CF_STATUS
  ⟨0x600040, 0x1000, 4, 0, 1, [⟨28, 3, .RO, 0, .start, []⟩, ⟨27, 1, .RO, 0, .start, []⟩, ⟨16, 8, .RO, 0, .fixed, []⟩, ⟨8, 8, .RO, 0, .fixed, []⟩, ⟨0, 3, .RO, 0, .fixed, []⟩]⟩,
  -- CF_CNT
  ⟨0x600044, 0x1000, 4, 0, 1, [⟨16, 16, .RC, 0, .fixed, []⟩, ⟨0, 16, .RC, 0, .fixed, []⟩]⟩]
/-- Registers of 12_can_fd.md. -/
def regs12_1 : List RegDef := [
  -- CF_CNT2
  ⟨0x600048, 0x1000, 4, 0, 1, [⟨24, 8, .RC, 0, .fixed, []⟩, ⟨16, 8, .RC, 0, .fixed, []⟩, ⟨8, 8, .RC, 0, .fixed, []⟩]⟩,
  -- CF_EVENT
  ⟨0x60004c, 0x1000, 4, 0, 1, [⟨6, 1, .W1C, 0, .fixed, []⟩, ⟨5, 1, .W1C, 0, .fixed, []⟩, ⟨4, 1, .W1C, 0, .fixed, []⟩, ⟨3, 1, .W1C, 0, .fixed, []⟩, ⟨2, 1, .W1C, 0, .fixed, []⟩, ⟨1, 1, .W1C, 0, .fixed, []⟩, ⟨0, 1, .W1C, 0, .fixed, []⟩]⟩,
  -- CF_CTRL
  ⟨0x600050, 0x1000, 4, 0, 1, [⟨0, 1, .WS, 0, .fixed, []⟩]⟩,
  -- MO_SEL
  ⟨0x600054, 0x1000, 4, 0, 1, [⟨0, 6, .RW, 0, .fixed, []⟩]⟩,
  -- CT_OFS
  ⟨0x600058, 0x1000, 4, 0, 1, [⟨0, 32, .RO, 0, .fixed, []⟩]⟩,
  -- CT_REF
  ⟨0x60005c, 0x1000, 4, 0, 1, [⟨8, 8, .RO, 0, .fixed, []⟩, ⟨1, 1, .RO, 0, .fixed, []⟩, ⟨0, 1, .RO, 0, .fixed, []⟩]⟩,
  -- MO_ID
  ⟨0x600400, 0x1000, 4, 16, 64, [⟨31, 1, .RW, 0, .option, []⟩, ⟨0, 29, .RW, 0, .option, []⟩]⟩,
  -- MO_MASK
  ⟨0x600404, 0x1000, 4, 16, 64, [⟨0, 29, .RW, 0, .option, []⟩]⟩,
  -- MO_CFG
  ⟨0x600408, 0x1000, 4, 16, 64, [⟨31, 1, .RW, 0, .option, []⟩, ⟨30, 1, .RW, 0, .option, []⟩]⟩,
  -- MO_STAT
  ⟨0x60040c, 0x1000, 4, 16, 64, [⟨31, 1, .W1C, 0, .fixed, []⟩, ⟨30, 1, .W1C, 0, .fixed, []⟩, ⟨29, 1, .RO, 0, .fixed, []⟩, ⟨28, 1, .W1C, 0, .fixed, []⟩, ⟨27, 1, .W1C, 0, .fixed, []⟩, ⟨26, 1, .RO, 0, .fixed, []⟩, ⟨25, 1, .RO, 0, .fixed, []⟩, ⟨4, 4, .RO, 0, .fixed, []⟩, ⟨0, 1, .WS, 0, .fixed, []⟩]⟩,
  -- BUF_ID
  ⟨0x600800, 0x1000, 4, 0, 1, [⟨31, 1, .RW, 0, .fixed, []⟩, ⟨0, 29, .RW, 0, .fixed, []⟩]⟩,
  -- BUF_CTL
  ⟨0x600804, 0x1000, 4, 0, 1, [⟨31, 1, .RW, 0, .fixed, []⟩, ⟨30, 1, .RW, 0, .fixed, []⟩, ⟨29, 1, .RO, 0, .fixed, []⟩, ⟨0, 4, .RW, 0, .fixed, []⟩]⟩]
/-- Registers of 12_can_fd.md. -/
def regs12_2 : List RegDef := [
  -- BUF_TS_LO
  ⟨0x600808, 0x1000, 4, 0, 1, [⟨0, 32, .RO, 0, .fixed, []⟩]⟩,
  -- BUF_TS_HI
  ⟨0x60080c, 0x1000, 4, 0, 1, [⟨0, 32, .RO, 0, .fixed, []⟩]⟩,
  -- BUF_DATA
  ⟨0x600810, 0x1000, 4, 4, 16, [⟨0, 32, .RW, 0, .fixed, []⟩]⟩]

/-! ## 13_shutter_safety.md -/

/-- SF_STATUS (13_shutter_safety.md, R381): address of instance 0. -/
def A.SF_STATUS : Nat := 0x800000
def R.SF_STATUS.CODE_OK : Fld := ⟨0x800000, 0x0, 0, 31, 1⟩
def R.SF_STATUS.ANY_FAULT : Fld := ⟨0x800000, 0x0, 0, 30, 1⟩
def R.SF_STATUS.TEST_DUE : Fld := ⟨0x800000, 0x0, 0, 24, 4⟩
def R.SF_STATUS.SCO_ACT : Fld := ⟨0x800000, 0x0, 0, 20, 4⟩
def R.SF_STATUS.SS1_ACT : Fld := ⟨0x800000, 0x0, 0, 16, 4⟩
def R.SF_STATUS.STO_ACT : Fld := ⟨0x800000, 0x0, 0, 12, 4⟩
def R.SF_STATUS.STO_REQ : Fld := ⟨0x800000, 0x0, 0, 0, 2⟩
/-- SF_INPUTS (13_shutter_safety.md, R381): address of instance 0. -/
def A.SF_INPUTS : Nat := 0x800004
def R.SF_INPUTS.SIN : Fld := ⟨0x800004, 0x0, 0, 16, 16⟩
def R.SF_INPUTS.SEAL : Fld := ⟨0x800004, 0x0, 0, 0, 16⟩
/-- SF_FAULT (13_shutter_safety.md, R381): address of instance 0. -/
def A.SF_FAULT : Nat := 0x800008
def R.SF_FAULT.DISC : Fld := ⟨0x800008, 0x0, 0, 24, 8⟩
def R.SF_FAULT.TP : Fld := ⟨0x800008, 0x0, 0, 16, 8⟩
def R.SF_FAULT.STO_DISC : Fld := ⟨0x800008, 0x0, 0, 15, 1⟩
def R.SF_FAULT.STO_TP : Fld := ⟨0x800008, 0x0, 0, 14, 1⟩
def R.SF_FAULT.SEAL_FAULT : Fld := ⟨0x800008, 0x0, 0, 13, 1⟩
def R.SF_FAULT.OSC_FAULT : Fld := ⟨0x800008, 0x0, 0, 12, 1⟩
def R.SF_FAULT.KON_FAULT : Fld := ⟨0x800008, 0x0, 0, 8, 4⟩
def R.SF_FAULT.SHT_FAULT : Fld := ⟨0x800008, 0x0, 0, 4, 4⟩
/-- SF_SIN_CFG (13_shutter_safety.md, R381): address of instance 0. -/
def A.SF_SIN_CFG : Nat := 0x800040
def R.SF_SIN_CFG.FUNC : Fld := ⟨0x800040, 0x0, 8, 29, 3⟩
def R.SF_SIN_CFG.REL : Fld := ⟨0x800040, 0x0, 8, 28, 1⟩
def R.SF_SIN_CFG.BR_MASK : Fld := ⟨0x800040, 0x0, 8, 24, 4⟩
def R.SF_SIN_CFG.KON_MASK : Fld := ⟨0x800040, 0x0, 8, 20, 4⟩
def R.SF_SIN_CFG.TPA : Fld := ⟨0x800040, 0x0, 8, 18, 2⟩
def R.SF_SIN_CFG.TPB : Fld := ⟨0x800040, 0x0, 8, 16, 2⟩
def R.SF_SIN_CFG.TP_EN : Fld := ⟨0x800040, 0x0, 8, 15, 1⟩
/-- SF_STO_CFG (13_shutter_safety.md, R381): address of instance 0. -/
def A.SF_STO_CFG : Nat := 0x800080
def R.SF_STO_CFG.FUNC : Fld := ⟨0x800080, 0x0, 0, 29, 3⟩
def R.SF_STO_CFG.REL : Fld := ⟨0x800080, 0x0, 0, 28, 1⟩
def R.SF_STO_CFG.BR_MASK : Fld := ⟨0x800080, 0x0, 0, 24, 4⟩
def R.SF_STO_CFG.KON_MASK : Fld := ⟨0x800080, 0x0, 0, 20, 4⟩
def R.SF_STO_CFG.TPA : Fld := ⟨0x800080, 0x0, 0, 18, 2⟩
def R.SF_STO_CFG.TPB : Fld := ⟨0x800080, 0x0, 0, 16, 2⟩
def R.SF_STO_CFG.TP_EN : Fld := ⟨0x800080, 0x0, 0, 15, 1⟩
/-- SF_SIN_TIME (13_shutter_safety.md, R381): address of instance 0. -/
def A.SF_SIN_TIME : Nat := 0x800044
def R.SF_SIN_TIME.DISC_T : Fld := ⟨0x800044, 0x0, 8, 16, 9⟩
def R.SF_SIN_TIME.FILT : Fld := ⟨0x800044, 0x0, 8, 0, 8⟩
/-- SF_STO_TIME (13_shutter_safety.md, R381): address of instance 0. -/
def A.SF_STO_TIME : Nat := 0x800084
def R.SF_STO_TIME.DISC_T : Fld := ⟨0x800084, 0x0, 0, 16, 9⟩
def R.SF_STO_TIME.FILT : Fld := ⟨0x800084, 0x0, 0, 0, 8⟩
/-- SF_TP (13_shutter_safety.md, R381): address of instance 0. -/
def A.SF_TP : Nat := 0x800088
def R.SF_TP.TP_PER : Fld := ⟨0x800088, 0x0, 0, 16, 10⟩
def R.SF_TP.TP_W : Fld := ⟨0x800088, 0x0, 0, 0, 11⟩
/-- SF_SS1 (13_shutter_safety.md, R381): address of instance 0. -/
def A.SF_SS1 : Nat := 0x80008c
def R.SF_SS1.SS1_T : Fld := ⟨0x80008c, 0x0, 0, 0, 12⟩
/-- SF_KON (13_shutter_safety.md, R381): address of instance 0. -/
def A.SF_KON : Nat := 0x800090
def R.SF_KON.KRB_POL : Fld := ⟨0x800090, 0x0, 0, 28, 4⟩
def R.SF_KON.KOFF_DLY : Fld := ⟨0x800090, 0x0, 0, 16, 8⟩
def R.SF_KON.KRB_T : Fld := ⟨0x800090, 0x0, 0, 0, 9⟩
/-- SF_SEAL (13_shutter_safety.md, R381): address of instance 0. -/
def A.SF_SEAL : Nat := 0x800094
def R.SF_SEAL.SEAL_MASK : Fld := ⟨0x800094, 0x0, 0, 16, 16⟩
def R.SF_SEAL.SEAL_TP : Fld := ⟨0x800094, 0x0, 0, 0, 2⟩
/-- SF_EXP_CODE (13_shutter_safety.md, R381): address of instance 0. -/
def A.SF_EXP_CODE : Nat := 0x800098
def R.SF_EXP_CODE.EXP_CODE : Fld := ⟨0x800098, 0x0, 0, 0, 32⟩
/-- SF_CODE (13_shutter_safety.md, R381): address of instance 0. -/
def A.SF_CODE : Nat := 0x80009c
def R.SF_CODE.CFG_CODE : Fld := ⟨0x80009c, 0x0, 0, 0, 32⟩
/-- SF_TEST (13_shutter_safety.md, R381): address of instance 0. -/
def A.SF_TEST : Nat := 0x8000a0
def R.SF_TEST.TEST_AGO_A : Fld := ⟨0x8000a0, 0x0, 0, 0, 8⟩
def R.SF_TEST.TEST_AGO_B : Fld := ⟨0x8000a0, 0x0, 0, 8, 8⟩
def R.SF_TEST.TEST_AGO_C : Fld := ⟨0x8000a0, 0x0, 0, 16, 8⟩
def R.SF_TEST.TEST_AGO_D : Fld := ⟨0x8000a0, 0x0, 0, 24, 8⟩
/-- SF_CNT (13_shutter_safety.md, R381): address of instance 0. -/
def A.SF_CNT : Nat := 0x8000a4
def R.SF_CNT.DEMANDS : Fld := ⟨0x8000a4, 0x0, 0, 16, 16⟩
def R.SF_CNT.DISC_CNT : Fld := ⟨0x8000a4, 0x0, 0, 8, 8⟩
def R.SF_CNT.TP_CNT : Fld := ⟨0x8000a4, 0x0, 0, 0, 8⟩
/-- SF_EVENT (13_shutter_safety.md, R381): address of instance 0. -/
def A.SF_EVENT : Nat := 0x8000a8
def R.SF_EVENT.TEST_DUE_EV : Fld := ⟨0x8000a8, 0x0, 0, 3, 1⟩
def R.SF_EVENT.CODE_EV : Fld := ⟨0x8000a8, 0x0, 0, 2, 1⟩
def R.SF_EVENT.FAULT_EV : Fld := ⟨0x8000a8, 0x0, 0, 1, 1⟩
def R.SF_EVENT.DEMAND_EV : Fld := ⟨0x8000a8, 0x0, 0, 0, 1⟩
/-- SF_LOG (13_shutter_safety.md, R381): address of instance 0. -/
def A.SF_LOG : Nat := 0x8000ac
def R.SF_LOG.LOG_COUNT : Fld := ⟨0x8000ac, 0x0, 0, 0, 16⟩
/-- SF_LOST (13_shutter_safety.md, R381): address of instance 0. -/
def A.SF_LOST : Nat := 0x8000b0
def R.SF_LOST.LOST : Fld := ⟨0x8000b0, 0x0, 4, 0, 16⟩

/-- Registers of 13_shutter_safety.md. -/
def regs13_0 : List RegDef := [
  -- SF_STATUS
  ⟨0x800000, 0x0, 1, 0, 1, [⟨31, 1, .RO, 0, .fixed, []⟩, ⟨30, 1, .RO, 0, .fixed, []⟩, ⟨24, 4, .RO, 0, .fixed, []⟩, ⟨20, 4, .RO, 0, .fixed, []⟩, ⟨16, 4, .RO, 0, .fixed, []⟩, ⟨12, 4, .RO, 15, .fixed, []⟩, ⟨0, 2, .RO, 0, .fixed, []⟩]⟩,
  -- SF_INPUTS
  ⟨0x800004, 0x0, 1, 0, 1, [⟨16, 16, .RO, 0, .fixed, []⟩, ⟨0, 16, .RO, 0, .fixed, []⟩]⟩,
  -- SF_FAULT
  ⟨0x800008, 0x0, 1, 0, 1, [⟨24, 8, .RO, 0, .fixed, []⟩, ⟨16, 8, .RO, 0, .fixed, []⟩, ⟨15, 1, .RO, 0, .fixed, []⟩, ⟨14, 1, .RO, 0, .fixed, []⟩, ⟨13, 1, .RO, 0, .fixed, []⟩, ⟨12, 1, .RO, 0, .fixed, []⟩, ⟨8, 4, .RO, 0, .fixed, []⟩, ⟨4, 4, .RO, 0, .fixed, []⟩]⟩,
  -- SF_SIN_CFG
  ⟨0x800040, 0x0, 1, 8, 8, [⟨29, 3, .WA, 0, .option, [2, 3, 4]⟩, ⟨28, 1, .WA, 0, .option, [2, 3, 4]⟩, ⟨24, 4, .WA, 0, .option, [2, 3, 4]⟩, ⟨20, 4, .WA, 0, .option, [2, 3, 4]⟩, ⟨18, 2, .WA, 0, .option, [2, 3, 4]⟩, ⟨16, 2, .WA, 0, .option, [2, 3, 4]⟩, ⟨15, 1, .WA, 0, .option, [2, 3, 4]⟩]⟩,
  -- SF_STO_CFG
  ⟨0x800080, 0x0, 1, 0, 1, [⟨29, 3, .RO, 1, .option, [2, 3, 4]⟩, ⟨28, 1, .WA, 0, .option, [2, 3, 4]⟩, ⟨24, 4, .WA, 15, .option, [2, 3, 4]⟩, ⟨20, 4, .RO, 0, .option, [2, 3, 4]⟩, ⟨18, 2, .WA, 0, .option, [2, 3, 4]⟩, ⟨16, 2, .WA, 0, .option, [2, 3, 4]⟩, ⟨15, 1, .WA, 0, .option, [2, 3, 4]⟩]⟩,
  -- SF_SIN_TIME
  ⟨0x800044, 0x0, 1, 8, 8, [⟨16, 9, .WA, 20, .option, [2, 3, 4]⟩, ⟨0, 8, .WA, 4, .option, [2, 3, 4]⟩]⟩,
  -- SF_STO_TIME
  ⟨0x800084, 0x0, 1, 0, 1, [⟨16, 9, .WA, 20, .option, [2, 3, 4]⟩, ⟨0, 8, .WA, 4, .option, [2, 3, 4]⟩]⟩,
  -- SF_TP
  ⟨0x800088, 0x0, 1, 0, 1, [⟨16, 10, .WA, 100, .option, [2, 3, 4]⟩, ⟨0, 11, .WA, 500, .option, [2, 3, 4]⟩]⟩,
  -- SF_SS1
  ⟨0x80008c, 0x0, 1, 0, 1, [⟨0, 12, .WA, 1000, .option, [2, 3, 4]⟩]⟩,
  -- SF_KON
  ⟨0x800090, 0x0, 1, 0, 1, [⟨28, 4, .WA, 0, .option, [2, 3, 4]⟩, ⟨16, 8, .WA, 20, .option, [2, 3, 4]⟩, ⟨0, 9, .WA, 100, .option, [2, 3, 4]⟩]⟩,
  -- SF_SEAL
  ⟨0x800094, 0x0, 1, 0, 1, [⟨16, 16, .WA, 0, .option, [2, 3, 4]⟩, ⟨0, 2, .WA, 0, .option, [2, 3, 4]⟩]⟩,
  -- SF_EXP_CODE
  ⟨0x800098, 0x0, 1, 0, 1, [⟨0, 32, .WA, 0, .option, [2, 3, 4]⟩]⟩]
/-- Registers of 13_shutter_safety.md. -/
def regs13_1 : List RegDef := [
  -- SF_CODE
  ⟨0x80009c, 0x0, 1, 0, 1, [⟨0, 32, .RO, 0, .fixed, []⟩]⟩,
  -- SF_TEST
  ⟨0x8000a0, 0x0, 1, 0, 1, [⟨0, 8, .RO, 0, .fixed, [2, 3, 4]⟩, ⟨8, 8, .RO, 0, .fixed, [2, 3, 4]⟩, ⟨16, 8, .RO, 0, .fixed, [2, 3, 4]⟩, ⟨24, 8, .RO, 0, .fixed, [2, 3, 4]⟩]⟩,
  -- SF_CNT
  ⟨0x8000a4, 0x0, 1, 0, 1, [⟨16, 16, .RC, 0, .fixed, []⟩, ⟨8, 8, .RC, 0, .fixed, []⟩, ⟨0, 8, .RC, 0, .fixed, []⟩]⟩,
  -- SF_EVENT
  ⟨0x8000a8, 0x0, 1, 0, 1, [⟨3, 1, .W1C, 0, .fixed, []⟩, ⟨2, 1, .W1C, 0, .fixed, []⟩, ⟨1, 1, .W1C, 0, .fixed, []⟩, ⟨0, 1, .W1C, 0, .fixed, []⟩]⟩,
  -- SF_LOG
  ⟨0x8000ac, 0x0, 1, 0, 1, [⟨0, 16, .RO, 0, .fixed, []⟩]⟩,
  -- SF_LOST
  ⟨0x8000b0, 0x0, 1, 4, 9, [⟨0, 16, .RC, 0, .fixed, []⟩]⟩]

/-! ## 14_security.md -/

/-- SEC_STATUS (14_security.md, R398): address of instance 0. -/
def A.SEC_STATUS : Nat := 0x900000
def R.SEC_STATUS.CERT : Fld := ⟨0x900000, 0x0, 0, 31, 1⟩
def R.SEC_STATUS.CERT_MISS : Fld := ⟨0x900000, 0x0, 0, 16, 6⟩
def R.SEC_STATUS.EPOCH : Fld := ⟨0x900000, 0x0, 0, 13, 3⟩
def R.SEC_STATUS.CTR_LOST : Fld := ⟨0x900000, 0x0, 0, 12, 1⟩
def R.SEC_STATUS.TRNG : Fld := ⟨0x900000, 0x0, 0, 10, 2⟩
def R.SEC_STATUS.RECOVERY : Fld := ⟨0x900000, 0x0, 0, 9, 1⟩
/-- SEC_FW (14_security.md, R398): address of instance 0. -/
def A.SEC_FW : Nat := 0x900004
def R.SEC_FW.BANK_RUN : Fld := ⟨0x900004, 0x0, 0, 30, 2⟩
def R.SEC_FW.STATE_A : Fld := ⟨0x900004, 0x0, 0, 28, 2⟩
def R.SEC_FW.STATE_B : Fld := ⟨0x900004, 0x0, 0, 26, 2⟩
def R.SEC_FW.TRIAL_STARTS : Fld := ⟨0x900004, 0x0, 0, 24, 2⟩
def R.SEC_FW.SVN_MIN : Fld := ⟨0x900004, 0x0, 0, 18, 6⟩
def R.SEC_FW.KGEN_MIN : Fld := ⟨0x900004, 0x0, 0, 16, 2⟩
def R.SEC_FW.FW_ERR : Fld := ⟨0x900004, 0x0, 0, 8, 8⟩
/-- SEC_EVENT (14_security.md, R398): address of instance 0. -/
def A.SEC_EVENT : Nat := 0x900008
def R.SEC_EVENT.EXHAUST_EV : Fld := ⟨0x900008, 0x0, 0, 5, 1⟩
def R.SEC_EVENT.KEY_EV : Fld := ⟨0x900008, 0x0, 0, 4, 1⟩
def R.SEC_EVENT.CERT_LOST_EV : Fld := ⟨0x900008, 0x0, 0, 3, 1⟩
def R.SEC_EVENT.TRNG_FAIL_EV : Fld := ⟨0x900008, 0x0, 0, 2, 1⟩
def R.SEC_EVENT.CTR_LOST_EV : Fld := ⟨0x900008, 0x0, 0, 1, 1⟩
def R.SEC_EVENT.ROLLBACK_EV : Fld := ⟨0x900008, 0x0, 0, 0, 1⟩
/-- SEC_SLOT (14_security.md, R398): address of instance 0. -/
def A.SEC_SLOT : Nat := 0x900040
def R.SEC_SLOT.STATE : Fld := ⟨0x900040, 0x0, 4, 29, 3⟩
def R.SEC_SLOT.USE : Fld := ⟨0x900040, 0x0, 4, 24, 3⟩
def R.SEC_SLOT.GEN : Fld := ⟨0x900040, 0x0, 4, 20, 4⟩
/-- SEC_CTR (14_security.md, R398): address of instance 0. -/
def A.SEC_CTR : Nat := 0x900080
def R.SEC_CTR.C : Fld := ⟨0x900080, 0x0, 4, 0, 32⟩
/-- SEC_CP (14_security.md, R398): address of instance 0. -/
def A.SEC_CP : Nat := 0x9000c0
def R.SEC_CP.CP : Fld := ⟨0x9000c0, 0x0, 4, 0, 32⟩

/-- Registers of 14_security.md. -/
def regs14_0 : List RegDef := [
  -- SEC_STATUS
  ⟨0x900000, 0x0, 1, 0, 1, [⟨31, 1, .RO, 0, .start, []⟩, ⟨16, 6, .RO, 0, .start, []⟩, ⟨13, 3, .RO, 0, .start, [0, 1, 2, 3, 4]⟩, ⟨12, 1, .RO, 0, .start, []⟩, ⟨10, 2, .RO, 1, .fixed, []⟩, ⟨9, 1, .RO, 0, .start, []⟩]⟩,
  -- SEC_FW
  ⟨0x900004, 0x0, 1, 0, 1, [⟨30, 2, .RO, 0, .start, []⟩, ⟨28, 2, .RO, 0, .start, [0, 1, 2, 3, 4]⟩, ⟨26, 2, .RO, 0, .start, [0, 1, 2, 3, 4]⟩, ⟨24, 2, .RO, 0, .start, [0, 1, 2, 3, 4]⟩, ⟨18, 6, .RO, 0, .start, [0, 1, 2, 3, 4]⟩, ⟨16, 2, .RO, 0, .start, [0, 1, 2, 3, 4]⟩, ⟨8, 8, .RO, 0, .fixed, []⟩]⟩,
  -- SEC_EVENT
  ⟨0x900008, 0x0, 1, 0, 1, [⟨5, 1, .W1C, 0, .fixed, []⟩, ⟨4, 1, .W1C, 0, .fixed, []⟩, ⟨3, 1, .W1C, 0, .fixed, []⟩, ⟨2, 1, .W1C, 0, .fixed, []⟩, ⟨1, 1, .W1C, 0, .fixed, []⟩, ⟨0, 1, .W1C, 0, .fixed, []⟩]⟩,
  -- SEC_SLOT
  ⟨0x900040, 0x0, 1, 4, 16, [⟨29, 3, .RO, 0, .start, [0, 1, 2, 3, 4]⟩, ⟨24, 3, .RO, 0, .start, [0, 1, 2, 3, 4]⟩, ⟨20, 4, .RO, 0, .start, [0, 1, 2, 3, 4]⟩]⟩,
  -- SEC_CTR
  ⟨0x900080, 0x0, 1, 4, 16, [⟨0, 32, .RO, 0, .start, [1, 2, 3, 4]⟩]⟩,
  -- SEC_CP
  ⟨0x9000c0, 0x0, 1, 4, 16, [⟨0, 32, .RO, 0, .start, [0, 1, 2, 3, 4]⟩]⟩]

/-! ## 15_reset_and_start.md -/

/-- RS_STATUS (15_reset_and_start.md, R426): address of instance 0. -/
def A.RS_STATUS : Nat := 0x10000
def R.RS_STATUS.HELD : Fld := ⟨0x10000, 0x0, 0, 16, 5⟩
def R.RS_STATUS.START_DONE : Fld := ⟨0x10000, 0x0, 0, 15, 1⟩
def R.RS_STATUS.LAST_LEVEL : Fld := ⟨0x10000, 0x0, 0, 12, 3⟩
def R.RS_STATUS.SHUTDOWN : Fld := ⟨0x10000, 0x0, 0, 8, 1⟩
def R.RS_STATUS.MAP_BAD : Fld := ⟨0x10000, 0x0, 0, 4, 1⟩
def R.RS_STATUS.RET_LOST : Fld := ⟨0x10000, 0x0, 0, 3, 1⟩
/-- RS_CAUSE (15_reset_and_start.md, R426): address of instance 0. -/
def A.RS_CAUSE : Nat := 0x10004
def R.RS_CAUSE.CAUSE : Fld := ⟨0x10004, 0x0, 0, 0, 32⟩
/-- RS_COUNT (15_reset_and_start.md, R426): address of instance 0. -/
def A.RS_COUNT : Nat := 0x10008
def R.RS_COUNT.L1_CNT : Fld := ⟨0x10008, 0x0, 0, 24, 8⟩
def R.RS_COUNT.L2_CNT : Fld := ⟨0x10008, 0x0, 0, 16, 8⟩
def R.RS_COUNT.L3_CNT : Fld := ⟨0x10008, 0x0, 0, 8, 8⟩
def R.RS_COUNT.L4_CNT : Fld := ⟨0x10008, 0x0, 0, 0, 8⟩
/-- RS_FMAP (15_reset_and_start.md, R426): address of instance 0. -/
def A.RS_FMAP : Nat := 0x10010
def R.RS_FMAP.LEVEL0 : Fld := ⟨0x10010, 0x0, 4, 0, 3⟩
def R.RS_FMAP.LEVEL1 : Fld := ⟨0x10010, 0x0, 4, 3, 3⟩
def R.RS_FMAP.LEVEL2 : Fld := ⟨0x10010, 0x0, 4, 6, 3⟩
def R.RS_FMAP.LEVEL3 : Fld := ⟨0x10010, 0x0, 4, 9, 3⟩
def R.RS_FMAP.LEVEL4 : Fld := ⟨0x10010, 0x0, 4, 12, 3⟩
def R.RS_FMAP.LEVEL5 : Fld := ⟨0x10010, 0x0, 4, 15, 3⟩
def R.RS_FMAP.LEVEL6 : Fld := ⟨0x10010, 0x0, 4, 18, 3⟩
def R.RS_FMAP.LEVEL7 : Fld := ⟨0x10010, 0x0, 4, 21, 3⟩
def R.RS_FMAP.LEVEL8 : Fld := ⟨0x10010, 0x0, 4, 24, 3⟩
def R.RS_FMAP.LEVEL9 : Fld := ⟨0x10010, 0x0, 4, 27, 3⟩
/-- RS_OPT (15_reset_and_start.md, R426): address of instance 0. -/
def A.RS_OPT : Nat := 0x10020
def R.RS_OPT.VALID1 : Fld := ⟨0x10020, 0x0, 0, 31, 1⟩
def R.RS_OPT.VALID2 : Fld := ⟨0x10020, 0x0, 0, 30, 1⟩
def R.RS_OPT.OPT_BUSY : Fld := ⟨0x10020, 0x0, 0, 29, 1⟩
def R.RS_OPT.NREC : Fld := ⟨0x10020, 0x0, 0, 0, 12⟩
/-- RS_OPT_GEN1 (15_reset_and_start.md, R426): address of instance 0. -/
def A.RS_OPT_GEN1 : Nat := 0x10024
def R.RS_OPT_GEN1.GEN : Fld := ⟨0x10024, 0x0, 0, 0, 32⟩
/-- RS_OPT_GEN2 (15_reset_and_start.md, R426): address of instance 0. -/
def A.RS_OPT_GEN2 : Nat := 0x10028
def R.RS_OPT_GEN2.GEN : Fld := ⟨0x10028, 0x0, 0, 0, 32⟩
/-- RS_OPT_WEAR (15_reset_and_start.md, R426): address of instance 0. -/
def A.RS_OPT_WEAR : Nat := 0x1002c
def R.RS_OPT_WEAR.WEAR2 : Fld := ⟨0x1002c, 0x0, 0, 16, 16⟩
def R.RS_OPT_WEAR.WEAR1 : Fld := ⟨0x1002c, 0x0, 0, 0, 16⟩
/-- RS_MIN (15_reset_and_start.md, R426): address of instance 0. -/
def A.RS_MIN : Nat := 0x10030
def R.RS_MIN.TRIM : Fld := ⟨0x10030, 0x0, 0, 5, 1⟩
def R.RS_MIN.CORE1 : Fld := ⟨0x10030, 0x0, 0, 4, 1⟩
def R.RS_MIN.DRAM : Fld := ⟨0x10030, 0x0, 0, 3, 1⟩
def R.RS_MIN.ENGINES : Fld := ⟨0x10030, 0x0, 0, 2, 1⟩
def R.RS_MIN.PWM_ADC : Fld := ⟨0x10030, 0x0, 0, 1, 1⟩
def R.RS_MIN.PLLA : Fld := ⟨0x10030, 0x0, 0, 0, 1⟩
/-- RS_START (15_reset_and_start.md, R426): address of instance 0. -/
def A.RS_START : Nat := 0x10034
def R.RS_START.START_MS : Fld := ⟨0x10034, 0x0, 0, 0, 16⟩
/-- RS_EVENT (15_reset_and_start.md, R426): address of instance 0. -/
def A.RS_EVENT : Nat := 0x10038
def R.RS_EVENT.DEFAULTS_EV : Fld := ⟨0x10038, 0x0, 0, 2, 1⟩
def R.RS_EVENT.LOAD_EV : Fld := ⟨0x10038, 0x0, 0, 1, 1⟩
def R.RS_EVENT.OPT_WR_EV : Fld := ⟨0x10038, 0x0, 0, 0, 1⟩

/-- Registers of 15_reset_and_start.md. -/
def regs15_0 : List RegDef := [
  -- RS_STATUS
  ⟨0x10000, 0x0, 1, 0, 1, [⟨16, 5, .RO, 0, .fixed, []⟩, ⟨15, 1, .RO, 0, .fixed, []⟩, ⟨12, 3, .RO, 0, .start, []⟩, ⟨8, 1, .RO, 0, .fixed, []⟩, ⟨4, 1, .RO, 0, .start, []⟩, ⟨3, 1, .RO, 0, .start, []⟩]⟩,
  -- RS_CAUSE
  ⟨0x10004, 0x0, 1, 0, 1, [⟨0, 32, .W1C, 1, .fixed, [1, 2, 3, 4]⟩]⟩,
  -- RS_COUNT
  ⟨0x10008, 0x0, 1, 0, 1, [⟨24, 8, .RC, 0, .fixed, [1, 2, 3, 4]⟩, ⟨16, 8, .RC, 0, .fixed, [1, 2, 3, 4]⟩, ⟨8, 8, .RC, 0, .fixed, [1, 2, 3, 4]⟩, ⟨0, 8, .RC, 0, .fixed, [1, 2, 3, 4]⟩]⟩,
  -- RS_FMAP
  ⟨0x10010, 0x0, 1, 4, 4, [⟨0, 3, .RO, 0, .start, []⟩, ⟨3, 3, .RO, 0, .start, []⟩, ⟨6, 3, .RO, 0, .start, []⟩, ⟨9, 3, .RO, 0, .start, []⟩, ⟨12, 3, .RO, 0, .start, []⟩, ⟨15, 3, .RO, 0, .start, []⟩, ⟨18, 3, .RO, 0, .start, []⟩, ⟨21, 3, .RO, 0, .start, []⟩, ⟨24, 3, .RO, 0, .start, []⟩, ⟨27, 3, .RO, 0, .start, []⟩]⟩,
  -- RS_OPT
  ⟨0x10020, 0x0, 1, 0, 1, [⟨31, 1, .RO, 0, .start, []⟩, ⟨30, 1, .RO, 0, .start, []⟩, ⟨29, 1, .RO, 0, .fixed, []⟩, ⟨0, 12, .RO, 0, .start, []⟩]⟩,
  -- RS_OPT_GEN1
  ⟨0x10024, 0x0, 1, 0, 1, [⟨0, 32, .RO, 0, .start, []⟩]⟩,
  -- RS_OPT_GEN2
  ⟨0x10028, 0x0, 1, 0, 1, [⟨0, 32, .RO, 0, .start, []⟩]⟩,
  -- RS_OPT_WEAR
  ⟨0x1002c, 0x0, 1, 0, 1, [⟨16, 16, .RO, 0, .start, [0, 1, 2, 3, 4]⟩, ⟨0, 16, .RO, 0, .start, [0, 1, 2, 3, 4]⟩]⟩,
  -- RS_MIN
  ⟨0x10030, 0x0, 1, 0, 1, [⟨5, 1, .RO, 0, .start, []⟩, ⟨4, 1, .RO, 0, .start, []⟩, ⟨3, 1, .RO, 0, .start, []⟩, ⟨2, 1, .RO, 0, .start, []⟩, ⟨1, 1, .RO, 0, .start, []⟩, ⟨0, 1, .RO, 0, .start, []⟩]⟩,
  -- RS_START
  ⟨0x10034, 0x0, 1, 0, 1, [⟨0, 16, .RO, 0, .start, []⟩]⟩,
  -- RS_EVENT
  ⟨0x10038, 0x0, 1, 0, 1, [⟨2, 1, .W1C, 0, .fixed, []⟩, ⟨1, 1, .W1C, 0, .fixed, []⟩, ⟨0, 1, .W1C, 0, .fixed, []⟩]⟩]

/-! ## 16_clocks_islands.md -/

/-- CK_CFG (16_clocks_islands.md, R451): address of instance 0. -/
def A.CK_CFG : Nat := 0x20000
def R.CK_CFG.REF_SEL : Fld := ⟨0x20000, 0x0, 0, 31, 1⟩
def R.CK_CFG.REF_FREQ : Fld := ⟨0x20000, 0x0, 0, 30, 1⟩
def R.CK_CFG.REF_FB : Fld := ⟨0x20000, 0x0, 0, 29, 1⟩
def R.CK_CFG.PPS_EN : Fld := ⟨0x20000, 0x0, 0, 28, 1⟩
def R.CK_CFG.RDIV_A : Fld := ⟨0x20000, 0x0, 0, 24, 2⟩
def R.CK_CFG.RDIV_B : Fld := ⟨0x20000, 0x0, 0, 16, 2⟩
/-- CK_STATUS (16_clocks_islands.md, R451): address of instance 0. -/
def A.CK_STATUS : Nat := 0x20004
def R.CK_STATUS.PLLA_LOCK : Fld := ⟨0x20004, 0x0, 0, 31, 1⟩
def R.CK_STATUS.PLLB_LOCK : Fld := ⟨0x20004, 0x0, 0, 30, 1⟩
def R.CK_STATUS.PLLB_GATED : Fld := ⟨0x20004, 0x0, 0, 29, 1⟩
def R.CK_STATUS.REF_ACT : Fld := ⟨0x20004, 0x0, 0, 28, 1⟩
def R.CK_STATUS.BYPASS : Fld := ⟨0x20004, 0x0, 0, 27, 1⟩
/-- CK_EVENT (16_clocks_islands.md, R451): address of instance 0. -/
def A.CK_EVENT : Nat := 0x20008
def R.CK_EVENT.XG_EV : Fld := ⟨0x20008, 0x0, 0, 3, 1⟩
def R.CK_EVENT.PLLB_LOCK_EV : Fld := ⟨0x20008, 0x0, 0, 2, 1⟩
def R.CK_EVENT.PLLB_LOST_EV : Fld := ⟨0x20008, 0x0, 0, 1, 1⟩
def R.CK_EVENT.REF_SW_EV : Fld := ⟨0x20008, 0x0, 0, 0, 1⟩
/-- TS_LO (16_clocks_islands.md, R451): address of instance 0. -/
def A.TS_LO : Nat := 0x20010
def R.TS_LO.TS : Fld := ⟨0x20010, 0x0, 0, 0, 32⟩
/-- TS_HI (16_clocks_islands.md, R451): address of instance 0. -/
def A.TS_HI : Nat := 0x20014
def R.TS_HI.TS : Fld := ⟨0x20014, 0x0, 0, 0, 32⟩
/-- TS_STATUS (16_clocks_islands.md, R451): address of instance 0. -/
def A.TS_STATUS : Nat := 0x20018
def R.TS_STATUS.NOT_ALIGNED : Fld := ⟨0x20018, 0x0, 0, 31, 1⟩
def R.TS_STATUS.COAST : Fld := ⟨0x20018, 0x0, 0, 30, 1⟩
def R.TS_STATUS.LOADED : Fld := ⟨0x20018, 0x0, 0, 29, 1⟩
def R.TS_STATUS.EPOCH : Fld := ⟨0x20018, 0x0, 0, 16, 8⟩
/-- TS_ERR (16_clocks_islands.md, R451): address of instance 0. -/
def A.TS_ERR : Nat := 0x2001c
def R.TS_ERR.ERR : Fld := ⟨0x2001c, 0x0, 0, 0, 32⟩
/-- TS_HOLD (16_clocks_islands.md, R451): address of instance 0. -/
def A.TS_HOLD : Nat := 0x20020
def R.TS_HOLD.HOLD_PPB : Fld := ⟨0x20020, 0x0, 0, 0, 32⟩
/-- TS_CNT (16_clocks_islands.md, R451): address of instance 0. -/
def A.TS_CNT : Nat := 0x20024
def R.TS_CNT.LOADS : Fld := ⟨0x20024, 0x0, 0, 24, 8⟩
def R.TS_CNT.COASTS : Fld := ⟨0x20024, 0x0, 0, 16, 8⟩
/-- XG_SEL (16_clocks_islands.md, R451): address of instance 0. -/
def A.XG_SEL : Nat := 0x20040
def R.XG_SEL.ID : Fld := ⟨0x20040, 0x0, 0, 0, 5⟩
/-- XG_STAT (16_clocks_islands.md, R451): address of instance 0. -/
def A.XG_STAT : Nat := 0x20044
def R.XG_STAT.XG_BAD : Fld := ⟨0x20044, 0x0, 0, 31, 1⟩
def R.XG_STAT.INFLT : Fld := ⟨0x20044, 0x0, 0, 4, 4⟩
def R.XG_STAT.AVAIL : Fld := ⟨0x20044, 0x0, 0, 0, 4⟩
/-- XG_STALL (16_clocks_islands.md, R451): address of instance 0. -/
def A.XG_STALL : Nat := 0x20048
def R.XG_STALL.STALLS : Fld := ⟨0x20048, 0x0, 0, 0, 32⟩
/-- DL_CFG (16_clocks_islands.md, R451): address of instance 0. -/
def A.DL_CFG : Nat := 0x780000
def R.DL_CFG.HEAD : Fld := ⟨0x780000, 0x0, 0, 31, 1⟩
def R.DL_CFG.DL_EN : Fld := ⟨0x780000, 0x0, 0, 30, 1⟩
/-- DL_STATUS (16_clocks_islands.md, R451): address of instance 0. -/
def A.DL_STATUS : Nat := 0x780004
def R.DL_STATUS.POS : Fld := ⟨0x780004, 0x0, 0, 28, 4⟩
def R.DL_STATUS.POS_OK : Fld := ⟨0x780004, 0x0, 0, 27, 1⟩
def R.DL_STATUS.CHAIN_ERR : Fld := ⟨0x780004, 0x0, 0, 26, 1⟩
def R.DL_STATUS.SYM_LOST : Fld := ⟨0x780004, 0x0, 0, 25, 1⟩
def R.DL_STATUS.REF_LOST : Fld := ⟨0x780004, 0x0, 0, 24, 1⟩
def R.DL_STATUS.IN_STATE : Fld := ⟨0x780004, 0x0, 0, 16, 3⟩
def R.DL_STATUS.OUT_STATE : Fld := ⟨0x780004, 0x0, 0, 8, 3⟩
/-- DL_HOP (16_clocks_islands.md, R451): address of instance 0. -/
def A.DL_HOP : Nat := 0x780008
def R.DL_HOP.OUT_HOP : Fld := ⟨0x780008, 0x0, 0, 16, 16⟩
def R.DL_HOP.IN_HOP : Fld := ⟨0x780008, 0x0, 0, 0, 16⟩
/-- DL_DLAST (16_clocks_islands.md, R451): address of instance 0. -/
def A.DL_DLAST : Nat := 0x78000c
def R.DL_DLAST.D_LAST : Fld := ⟨0x78000c, 0x0, 0, 0, 20⟩
/-- DL_CTRL (16_clocks_islands.md, R451): address of instance 0. -/
def A.DL_CTRL : Nat := 0x780010
def R.DL_CTRL.RETRAIN : Fld := ⟨0x780010, 0x0, 0, 0, 1⟩
/-- DL_CNT (16_clocks_islands.md, R451): address of instance 0. -/
def A.DL_CNT : Nat := 0x780014
def R.DL_CNT.CRC_ERR : Fld := ⟨0x780014, 0x0, 0, 24, 8⟩
def R.DL_CNT.DROPPED : Fld := ⟨0x780014, 0x0, 0, 16, 8⟩
def R.DL_CNT.ABANDONED : Fld := ⟨0x780014, 0x0, 0, 8, 8⟩
def R.DL_CNT.TRAINS : Fld := ⟨0x780014, 0x0, 0, 0, 8⟩
/-- DL_EVENT (16_clocks_islands.md, R451): address of instance 0. -/
def A.DL_EVENT : Nat := 0x780018
def R.DL_EVENT.CHAIN_EV : Fld := ⟨0x780018, 0x0, 0, 3, 1⟩
def R.DL_EVENT.ALIGN_EV : Fld := ⟨0x780018, 0x0, 0, 2, 1⟩
def R.DL_EVENT.TRAIN_EV : Fld := ⟨0x780018, 0x0, 0, 1, 1⟩
def R.DL_EVENT.LINK_EV : Fld := ⟨0x780018, 0x0, 0, 0, 1⟩

/-- Registers of 16_clocks_islands.md. -/
def regs16_0 : List RegDef := [
  -- CK_CFG
  ⟨0x20000, 0x0, 1, 0, 1, [⟨31, 1, .RW, 0, .option, [2, 3, 4]⟩, ⟨30, 1, .RW, 0, .option, [2, 3, 4]⟩, ⟨29, 1, .RW, 0, .option, [2, 3, 4]⟩, ⟨28, 1, .RW, 0, .option, [2, 3, 4]⟩, ⟨24, 2, .RW, 1, .option, [2, 3, 4]⟩, ⟨16, 2, .RW, 1, .option, [2, 3, 4]⟩]⟩,
  -- CK_STATUS
  ⟨0x20004, 0x0, 1, 0, 1, [⟨31, 1, .RO, 0, .fixed, []⟩, ⟨30, 1, .RO, 0, .fixed, []⟩, ⟨29, 1, .RO, 1, .fixed, []⟩, ⟨28, 1, .RO, 0, .start, []⟩, ⟨27, 1, .RO, 0, .start, []⟩]⟩,
  -- CK_EVENT
  ⟨0x20008, 0x0, 1, 0, 1, [⟨3, 1, .W1C, 0, .fixed, []⟩, ⟨2, 1, .W1C, 0, .fixed, []⟩, ⟨1, 1, .W1C, 0, .fixed, []⟩, ⟨0, 1, .W1C, 0, .fixed, []⟩]⟩,
  -- TS_LO
  ⟨0x20010, 0x0, 1, 0, 1, [⟨0, 32, .RO, 0, .fixed, [2, 3, 4]⟩]⟩,
  -- TS_HI
  ⟨0x20014, 0x0, 1, 0, 1, [⟨0, 32, .RO, 0, .fixed, [2, 3, 4]⟩]⟩,
  -- TS_STATUS
  ⟨0x20018, 0x0, 1, 0, 1, [⟨31, 1, .RO, 1, .fixed, []⟩, ⟨30, 1, .RO, 0, .fixed, []⟩, ⟨29, 1, .RO, 0, .fixed, []⟩, ⟨16, 8, .RO, 0, .fixed, [2, 3, 4]⟩]⟩,
  -- TS_ERR
  ⟨0x2001c, 0x0, 1, 0, 1, [⟨0, 32, .RO, 0, .fixed, []⟩]⟩,
  -- TS_HOLD
  ⟨0x20020, 0x0, 1, 0, 1, [⟨0, 32, .RO, 0, .fixed, [2, 3, 4]⟩]⟩,
  -- TS_CNT
  ⟨0x20024, 0x0, 1, 0, 1, [⟨24, 8, .RC, 0, .fixed, []⟩, ⟨16, 8, .RC, 0, .fixed, []⟩]⟩,
  -- XG_SEL
  ⟨0x20040, 0x0, 1, 0, 1, [⟨0, 5, .RW, 0, .fixed, []⟩]⟩,
  -- XG_STAT
  ⟨0x20044, 0x0, 1, 0, 1, [⟨31, 1, .RO, 0, .fixed, []⟩, ⟨4, 4, .RO, 0, .fixed, []⟩, ⟨0, 4, .RO, 8, .fixed, []⟩]⟩,
  -- XG_STALL
  ⟨0x20048, 0x0, 1, 0, 1, [⟨0, 32, .RC, 0, .fixed, []⟩]⟩]
/-- Registers of 16_clocks_islands.md. -/
def regs16_1 : List RegDef := [
  -- DL_CFG
  ⟨0x780000, 0x0, 1, 0, 1, [⟨31, 1, .RW, 0, .option, [2, 3, 4]⟩, ⟨30, 1, .RW, 0, .option, [2, 3, 4]⟩]⟩,
  -- DL_STATUS
  ⟨0x780004, 0x0, 1, 0, 1, [⟨28, 4, .RO, 0, .fixed, []⟩, ⟨27, 1, .RO, 0, .fixed, []⟩, ⟨26, 1, .RO, 0, .fixed, []⟩, ⟨25, 1, .RO, 0, .fixed, []⟩, ⟨24, 1, .RO, 0, .fixed, []⟩, ⟨16, 3, .RO, 0, .fixed, []⟩, ⟨8, 3, .RO, 0, .fixed, []⟩]⟩,
  -- DL_HOP
  ⟨0x780008, 0x0, 1, 0, 1, [⟨16, 16, .RO, 0, .fixed, []⟩, ⟨0, 16, .RO, 0, .fixed, []⟩]⟩,
  -- DL_DLAST
  ⟨0x78000c, 0x0, 1, 0, 1, [⟨0, 20, .RO, 0, .fixed, []⟩]⟩,
  -- DL_CTRL
  ⟨0x780010, 0x0, 1, 0, 1, [⟨0, 1, .WS, 0, .fixed, []⟩]⟩,
  -- DL_CNT
  ⟨0x780014, 0x0, 1, 0, 1, [⟨24, 8, .RC, 0, .fixed, []⟩, ⟨16, 8, .RC, 0, .fixed, []⟩, ⟨8, 8, .RC, 0, .fixed, []⟩, ⟨0, 8, .RC, 0, .fixed, []⟩]⟩,
  -- DL_EVENT
  ⟨0x780018, 0x0, 1, 0, 1, [⟨3, 1, .W1C, 0, .fixed, []⟩, ⟨2, 1, .W1C, 0, .fixed, []⟩, ⟨1, 1, .W1C, 0, .fixed, []⟩, ⟨0, 1, .W1C, 0, .fixed, []⟩]⟩]

/-! ## 17_background.md -/

/-- BG_DRAM (17_background.md, R463): address of instance 0. -/
def A.BG_DRAM : Nat := 0xc0
def R.BG_DRAM.PASS_S : Fld := ⟨0xc0, 0x0, 0, 16, 16⟩
def R.BG_DRAM.PASSES : Fld := ⟨0xc0, 0x0, 0, 0, 16⟩
/-- BG_ECC (17_background.md, R463): address of instance 0. -/
def A.BG_ECC : Nat := 0xc4
def R.BG_ECC.DRAM_UNC : Fld := ⟨0xc4, 0x0, 0, 24, 8⟩
def R.BG_ECC.SRAM_COR : Fld := ⟨0xc4, 0x0, 0, 0, 16⟩
/-- BG_FLASH (17_background.md, R463): address of instance 0. -/
def A.BG_FLASH : Nat := 0xc8
def R.BG_FLASH.PATROL_BUSY : Fld := ⟨0xc8, 0x0, 0, 31, 1⟩
def R.BG_FLASH.FAIL : Fld := ⟨0xc8, 0x0, 0, 16, 8⟩
def R.BG_FLASH.SINCE_H : Fld := ⟨0xc8, 0x0, 0, 0, 16⟩
/-- BG_WEAR (17_background.md, R463): address of instance 0. -/
def A.BG_WEAR : Nat := 0xcc
def R.BG_WEAR.LEDGER_PCT : Fld := ⟨0xcc, 0x0, 0, 24, 8⟩
def R.BG_WEAR.SEC_PCT : Fld := ⟨0xcc, 0x0, 0, 16, 8⟩
def R.BG_WEAR.LOG_PCT : Fld := ⟨0xcc, 0x0, 0, 8, 8⟩
def R.BG_WEAR.CAL_PCT : Fld := ⟨0xcc, 0x0, 0, 0, 8⟩
/-- LOG_HEAD (17_background.md, R463): address of instance 0. -/
def A.LOG_HEAD : Nat := 0xd0
def R.LOG_HEAD.SEQ : Fld := ⟨0xd0, 0x0, 0, 0, 32⟩
/-- LOG_COUNT (17_background.md, R463): address of instance 0. -/
def A.LOG_COUNT : Nat := 0xd4
def R.LOG_COUNT.COUNT : Fld := ⟨0xd4, 0x0, 0, 0, 18⟩
/-- LOG_STAT (17_background.md, R463): address of instance 0. -/
def A.LOG_STAT : Nat := 0xd8
def R.LOG_STAT.DROPS : Fld := ⟨0xd8, 0x0, 0, 16, 16⟩
def R.LOG_STAT.PENDING : Fld := ⟨0xd8, 0x0, 0, 0, 9⟩
/-- TLM_STATUS (17_background.md, R463): address of instance 0. -/
def A.TLM_STATUS : Nat := 0xdc
def R.TLM_STATUS.CONFIGURED : Fld := ⟨0xdc, 0x0, 0, 8, 8⟩
def R.TLM_STATUS.RUNNING : Fld := ⟨0xdc, 0x0, 0, 0, 8⟩
/-- TLM_SKIP (17_background.md, R463): address of instance 0. -/
def A.TLM_SKIP : Nat := 0xe0
def R.TLM_SKIP.SKIP : Fld := ⟨0xe0, 0x0, 0, 0, 32⟩
/-- BG_EVENT (17_background.md, R463): address of instance 0. -/
def A.BG_EVENT : Nat := 0xe4
def R.BG_EVENT.DRAM_UNC_EV : Fld := ⟨0xe4, 0x0, 0, 3, 1⟩
def R.BG_EVENT.LOG_DROP_EV : Fld := ⟨0xe4, 0x0, 0, 2, 1⟩
def R.BG_EVENT.PATROL_EV : Fld := ⟨0xe4, 0x0, 0, 1, 1⟩
def R.BG_EVENT.WEAR_EV : Fld := ⟨0xe4, 0x0, 0, 0, 1⟩

/-- Registers of 17_background.md. -/
def regs17_0 : List RegDef := [
  -- BG_DRAM
  ⟨0xc0, 0x0, 1, 0, 1, [⟨16, 16, .RO, 0, .fixed, []⟩, ⟨0, 16, .RO, 0, .fixed, []⟩]⟩,
  -- BG_ECC
  ⟨0xc4, 0x0, 1, 0, 1, [⟨24, 8, .RC, 0, .fixed, []⟩, ⟨0, 16, .RC, 0, .fixed, []⟩]⟩,
  -- BG_FLASH
  ⟨0xc8, 0x0, 1, 0, 1, [⟨31, 1, .RO, 0, .fixed, []⟩, ⟨16, 8, .RO, 0, .fixed, []⟩, ⟨0, 16, .RO, 0, .fixed, []⟩]⟩,
  -- BG_WEAR
  ⟨0xcc, 0x0, 1, 0, 1, [⟨24, 8, .RO, 0, .start, []⟩, ⟨16, 8, .RO, 0, .start, []⟩, ⟨8, 8, .RO, 0, .start, []⟩, ⟨0, 8, .RO, 0, .start, []⟩]⟩,
  -- LOG_HEAD
  ⟨0xd0, 0x0, 1, 0, 1, [⟨0, 32, .RO, 0, .start, [2, 3, 4]⟩]⟩,
  -- LOG_COUNT
  ⟨0xd4, 0x0, 1, 0, 1, [⟨0, 18, .RO, 0, .start, []⟩]⟩,
  -- LOG_STAT
  ⟨0xd8, 0x0, 1, 0, 1, [⟨16, 16, .RC, 0, .fixed, []⟩, ⟨0, 9, .RO, 0, .fixed, []⟩]⟩,
  -- TLM_STATUS
  ⟨0xdc, 0x0, 1, 0, 1, [⟨8, 8, .RO, 0, .fixed, [2, 3, 4]⟩, ⟨0, 8, .RO, 0, .fixed, [2, 3, 4]⟩]⟩,
  -- TLM_SKIP
  ⟨0xe0, 0x0, 1, 0, 1, [⟨0, 32, .RC, 0, .fixed, []⟩]⟩,
  -- BG_EVENT
  ⟨0xe4, 0x0, 1, 0, 1, [⟨3, 1, .W1C, 0, .fixed, []⟩, ⟨2, 1, .W1C, 0, .fixed, []⟩, ⟨1, 1, .W1C, 0, .fixed, []⟩, ⟨0, 1, .W1C, 0, .fixed, []⟩]⟩]

/-- Every register of the window, in the order of the chapters. -/
def regTable : List RegDef :=
  regs00_0 ++
  regs01_0 ++
  regs01_1 ++
  regs02_0 ++
  regs02_1 ++
  regs04_0 ++
  regs05_0 ++
  regs06_0 ++
  regs06_1 ++
  regs06_2 ++
  regs07_0 ++
  regs07_1 ++
  regs08_0 ++
  regs08_1 ++
  regs09_0 ++
  regs09_1 ++
  regs10_0 ++
  regs10_1 ++
  regs11_0 ++
  regs12_0 ++
  regs12_1 ++
  regs12_2 ++
  regs13_0 ++
  regs13_1 ++
  regs14_0 ++
  regs15_0 ++
  regs16_0 ++
  regs16_1 ++
  regs17_0

/-- The ranges of the fields whose range is narrower than their width: address of instance 0, lowest bit, least and
greatest value (the Meaning columns). -/
def rangeTable : List (Nat × Nat × Nat × Nat) :=
  [(0x100000, 4, 0, 4)  /- BR_CFG.NPHASE -/,
   (0x100004, 24, 0, 23)  /- BR_PHASE.P3_FIRST -/,
   (0x100004, 16, 0, 23)  /- BR_PHASE.P2_FIRST -/,
   (0x100004, 8, 0, 23)  /- BR_PHASE.P1_FIRST -/,
   (0x100004, 0, 0, 23)  /- BR_PHASE.P0_FIRST -/,
   (0x10000c, 16, 5, 200)  /- BR_BAND.FBAND -/,
   (0x10000c, 8, 10, 200)  /- BR_BAND.VBAND -/,
   (0x10000c, 0, 1, 40)  /- BR_BAND.DEAD_V -/,
   (0x100010, 26, 1, 60)  /- BR_TIMES.BS_TO -/,
   (0x100010, 20, 1, 60)  /- BR_TIMES.SYNC_TO -/,
   (0x100010, 12, 1, 100)  /- BR_TIMES.KON_WAIT -/,
   (0x100010, 0, 1, 4000)  /- BR_TIMES.RAMP_MS -/,
   (0x50, 0, 0, 2)  /- GR_STORE.START_SLOT -/,
   (0x100200, 16, 4096, 9011)  /- GF_CFG.VTGT -/,
   (0x100200, 0, 20, 2000)  /- GF_CFG.RAMP_T -/,
   (0x100280, 24, 1, 15)  /- TR_ENC_CFG.POLE_PAIRS -/,
   (0x100280, 0, 15, 65535)  /- TR_ENC_CFG.LINES_M1 -/,
   (0x100284, 24, 1, 255)  /- TR_ENC_OFS.ZERO_T -/,
   (0x100284, 16, 0, 2)  /- TR_ENC_OFS.Z_MODE -/,
   (0x100288, 8, 1, 255)  /- TR_PULSE_CFG.PTO -/,
   (0x10028c, 0, 1, 100000)  /- TR_PULSE_FS.FS_HZ -/,
   (0x380108, 16, 5734, 8192)  /- CN_STEER.SH_MIN -/,
   (0x380108, 0, 8192, 10650)  /- CN_STEER.SH_MAX -/,
   (0x38010c, 24, 0, 80)  /- CN_STEER2.GAIN -/,
   (0x38010c, 16, 1, 255)  /- CN_STEER2.STEP -/,
   (0x38010c, 0, 1, 65535)  /- CN_STEER2.DFLOOR -/,
   (0x400000, 0, 4000, 400000)  /- SH_CARRIER.PER -/,
   (0x400004, 16, 0, 64000)  /- SH_DEAD.DT_LH -/,
   (0x400004, 0, 0, 64000)  /- SH_DEAD.DT_HL -/,
   (0x400008, 0, 0, 64000)  /- SH_PULSE.MINP -/] ++
  [(0x400010, 0, 10, 1000)  /- SH_BOOT.BOOT_INT -/,
   (0x400014, 8, 1, 255)  /- SH_TRIP.TRIP_N -/,
   (0x400014, 0, 1, 255)  /- SH_TRIP.TRIP_WIN -/,
   (0x400018, 0, 0, 1999)  /- SH_ADC.TRIG_DLY -/,
   (0x40001c, 0, 64, 40000)  /- SH_STRB.STRB_GUARD -/,
   (0x100300, 0, 4000, 400000)  /- FB_PER.PER -/,
   (0x480000, 16, 20, 150)  /- DRV_CFG.GS_TH -/,
   (0x480000, 8, 10, 200)  /- DRV_CFG.STUCK_T -/,
   (0x480008, 16, 256, 16383)  /- DRV_TARGET.T_ON_TGT -/,
   (0x480008, 0, 256, 16383)  /- DRV_TARGET.T_OFF_TGT -/,
   (0x48000c, 24, 2, 255)  /- DRV_DRAIN.HI_TH -/,
   (0x48000c, 16, 1, 254)  /- DRV_DRAIN.LO_TH -/,
   (0x48000c, 0, 5, 64)  /- DRV_DRAIN.TMEAS_MAX -/,
   (0x480010, 24, 5, 200)  /- DRV_SC.SC_TH -/,
   (0x480010, 16, 10, 200)  /- DRV_SC.SC_BLANK -/,
   (0x480010, 8, 2, 50)  /- DRV_SC.SC_FILT -/,
   (0x480010, 0, 2, 50)  /- DRV_SC.SOFT_T -/,
   (0x480014, 24, 2, 199)  /- DRV_OC.OC_TH -/,
   (0x480014, 16, 2, 50)  /- DRV_OC.OC_FILT -/,
   (0x480018, 24, 110, 200)  /- DRV_SUP.VPOS_UV -/,
   (0x480018, 16, 0, 100)  /- DRV_SUP.VNEG_UV -/,
   (0x480018, 0, 1, 1000)  /- DRV_SUP.UV_T -/,
   (0x48001c, 16, 1000, 10000)  /- DRV_NTC.NTC_B -/,
   (0x48001c, 8, 1, 255)  /- DRV_NTC.NTC_R25 -/,
   (0x48001c, 0, 0, 200)  /- DRV_NTC.OT_TH -/,
   (0x500040, 16, 1, 255)  /- TW_CFG.CHK_TOL -/,
   (0x500040, 8, 1, 255)  /- TW_CFG.CHK_N -/,
   (0x500040, 0, 1, 255)  /- TW_CFG.CHK_WIN -/,
   (0x100380, 0, 40, 40000)  /- MS_IP.IP -/,
   (0x700000, 30, 0, 2)  /- CAP_CFG.MODE -/] ++
  [(0x700004, 0, 1, 16776960)  /- CAP_ROWS.ROWS -/,
   (0x700008, 0, 0, 16776959)  /- CAP_PRE.PRE -/,
   (0x70080c, 0, 400, 40000)  /- CAP_XT.XLAT -/,
   (0x80, 0, 1, 255)  /- VG_CAN_CFG.SEG_TO -/,
   (0x600000, 16, 1, 255)  /- CF_NBT.NTSEG1_M1 -/,
   (0x60000c, 8, 1, 255)  /- CF_MODE.WAKE_FILT -/,
   (0x600014, 0, 1, 1000)  /- CF_REF_PER.REF_PER -/,
   (0x800040, 29, 0, 4)  /- SF_SIN_CFG.FUNC -/,
   (0x800080, 29, 1, 1)  /- SF_STO_CFG.FUNC -/,
   (0x800080, 20, 0, 0)  /- SF_STO_CFG.KON_MASK -/,
   (0x800088, 16, 10, 1000)  /- SF_TP.TP_PER -/,
   (0x800088, 0, 100, 2000)  /- SF_TP.TP_W -/,
   (0x80008c, 0, 10, 4000)  /- SF_SS1.SS1_T -/,
   (0x800090, 16, 0, 100)  /- SF_KON.KOFF_DLY -/,
   (0x800090, 0, 10, 500)  /- SF_KON.KRB_T -/,
   (0x20000, 24, 0, 2)  /- CK_CFG.RDIV_A -/,
   (0x20000, 16, 1, 2)  /- CK_CFG.RDIV_B -/,
   (0x20040, 0, 0, 27)  /- XG_SEL.ID -/]

end Sys2Proof.Machine
end

