-- ==== Sys2Proof/Machine/State.lean ====
section
/-! DEFINITION. The state of the block as plain data: everything the spec gives the machine, and the queue of waiting
commands. A sparse map (a list of key and value pairs) holds an entry only where the value differs from the default of
its key; `swf` in Machine/Ops.lean is its canonical form. -/

namespace Sys2Proof.Machine

open Sys2Proof

/-- Why the block stops with a fault. No rule of the spec stops the block, and no meaning of this model answers a fault:
the interface asks for the type, and this constructor is raised by nothing. Safe. -/
inductive Fault where
  | neverRaised
  deriving DecidableEq, Repr

/-- Why a command is turned away by the model. -/
inductive Refusal where
  /-- raised by exec for a command that has no meaning yet; safe -/
  | notModelled (mnemonic : String)
  deriving DecidableEq, Repr

/-! ### Host port (11_vangat_commands.md) -/

/-- A packet waiting in a receive queue, with when its last byte arrived (R323, R324). -/
structure RxPkt where
  at_     : Nat
  bytes   : List Byte
  deriving DecidableEq, Repr

/-- The memory of R324: the last packet executed, its reply as queued, and when it was accepted. -/
structure LastPkt where
  bytes : List Byte
  reply : List Byte
  at_   : Nat
  deriving DecidableEq, Repr

/-- One transport: receive queue (two), reply queue (eight), memory of R324. -/
structure Transport where
  rx   : List RxPkt := []
  rp   : List (List Byte) := []
  last : Option LastPkt := none
  deriving DecidableEq, Repr

/-- A CAN packet in reception: its bytes so far, the next segment index and when the last segment came (R318). -/
structure SegRx where
  bytes : List Byte
  next  : Nat
  at_   : Nat
  deriving DecidableEq, Repr

/-- An ACCEPTED command that still runs: opcode, SEQ and the object it acts on (R322). -/
structure Run where
  op  : Nat
  seq : Nat
  obj : Nat
  deriving DecidableEq, Repr

/-- A reply held back until every bridge of a swap or a SASH_LOAD has switched (R74, R209): the transport, the opcode, the
command, its reply, and the reply INTERNAL that takes its place in the end (R332). -/
structure Held where
  can   : Bool
  op    : Nat
  cmd   : List Byte
  reply : List Byte
  internal : List Byte
  /-- when the command was accepted (R324) -/
  at_   : Nat
  deriving DecidableEq, Repr

/-- The host port. `spiOut` holds the bytes the last SPI transaction shifted out. -/
structure HostPort where
  spi      : Transport := {}
  can      : Transport := {}
  seg      : Option SegRx := none
  /-- the segments of the next CAN reply that have been transmitted (R318) -/
  segSent  : Nat := 0
  running  : List Run := []
  spiOut   : List Byte := []
  /-- the interpreter serves: from the application of the option image (R316, R420) -/
  serving  : Bool := false
  /-- what a reply held back still waits for: bit b the swap of bridge b (R74), bit 4 + b its SASH_LOAD (R209), bit 8 the
  revocation and bit 9 the load of a key that follow a checkpoint (R397) -/
  heldMask : Nat := 0
  /-- its reply, and when it completes with INTERNAL instead (R332) -/
  held     : Option Held := none
  heldDue  : Nat := 0
  deriving DecidableEq, Repr

/-! ### Security (14_security.md) -/

/-- A KEY_LOAD under way: SEQ, slot, use and the new key (R385). -/
structure KeyLoad where
  seq  : Nat
  slot : Nat
  use  : Nat
  key  : List Byte
  deriving DecidableEq, Repr

/-- Key material, counter checkpoints, and the two firmware banks with their staging. -/
structure Sec where
  /-- key of slot s, generation g (1 to 4), at 8 × s + g; unlisted: as shipped -/
  keys    : List (Nat × List Byte) := []
  /-- the checkpoint record being written: slot and value -/
  cpRun   : Option (List (Nat × Nat)) := none
  /-- a COUNTER_RESYNC whose record waits for the flash: the slot and the value (R390, R457) -/
  resync  : Option (Nat × Nat) := none
  /-- the slots whose revocation follows that record (R397) -/
  revokes : List Nat := []
  /-- CP of each slot in the older checkpoint copy; unlisted 0 -/
  cpOld   : List (Nat × Nat) := []
  /-- the checkpoint copies whose CRC fails: bit 0 the newer, bit 1 the older (R389, R458) -/
  cpBad   : Nat := 0
  /-- counter-loss fuses blown (R388) -/
  epoch   : Nat := 0
  load    : Option KeyLoad := none
  /-- firmware staging: declared length, bytes so far -/
  fwLen   : Option Nat := none
  fwData  : List Byte := []
  /-- the firmware images of bank A and bank B; none: the image the module is shipped with -/
  bankA   : Option (List Byte) := none
  bankB   : Option (List Byte) := none
  /-- the banks whose bytes in flash have decayed: bit 0 bank A, bit 1 bank B (R458) -/
  bankBad : Nat := 0
  /-- a FW_COMMIT under way: its SEQ -/
  commit  : Option Nat := none
  /-- the bank the last start chose: 0 bank A, 1 bank B (R395) -/
  ran     : Nat := 0
  /-- CERT as last evaluated (R396) -/
  certWas : Bool := false
  /-- random bytes drawn from the TRNG so far -/
  trngN   : Nat := 0
  /-- the DBG_LOCK fuse is blown (R396, R417) -/
  dbgLock : Bool := false
  deriving DecidableEq, Repr

/-! ### Law graphs (02_law_graphs.md) -/

/-- A signal declaration (R66). -/
structure SigDecl where
  index : Nat
  kind  : Nat
  loss  : Nat
  init  : Nat
  deriving DecidableEq, Repr

/-- A block record with its port words (R67). -/
structure BlockRec where
  op     : Nat
  tver   : Nat
  rate   : Nat
  phase  : Nat
  cls    : Nat
  coloc  : Nat
  nin    : Nat
  nout   : Nat
  npar   : Nat
  stateW : Nat
  parIdx : Nat
  ins    : List Nat
  outs   : List Nat
  deriving DecidableEq, Repr

/-- A graph section read into its parts (R65 to R67). -/
structure Graph where
  bridge   : Nat
  kind     : Nat
  nphase   : Nat
  nleg     : Nat
  nblock   : Nat
  nsig     : Nat
  beatHalf : Nat
  beatEdge : Nat
  beatMin  : Nat
  beatMax  : Nat
  vb       : Nat
  ib       : Nat
  fb       : Nat
  vdcb     : Nat
  sigOff   : Nat
  blkOff   : Nat
  parOff   : Nat
  parLen   : Nat
  iniOff   : Nat
  iniLen   : Nat
  sigs     : List SigDecl
  blocks   : List BlockRec
  par      : List Nat
  ini      : List Nat
  deriving DecidableEq, Repr

/-- A loaded graph as image RAM holds it: its section and the two digests stored with it (R68, R77). -/
structure RamGraph where
  bytes : List Byte
  gdig  : List Byte
  sdig  : List Byte
  /-- image RAM has changed unseen since it was loaded (R77) -/
  differs : Bool := false
  deriving DecidableEq, Repr

/-- Hinges that run (R164): a rotation step empties engine `src` into the fallow engine `tgt` (R169); with no `tgt` a running
bridge moves to one engine less, which frees `src` (R174). `moves` gives record, source and target of each hinge, `done` how
many of the executions k, k+1, k+2 of a record have passed, `retry` the restarts of its hinge (R166). -/
structure Hinge where
  src  : Nat
  tgt  : Option Nat
  moves : List (Nat × Nat × Nat)
  done : List (Nat × Nat) := []
  retry : List (Nat × Nat) := []
  deriving DecidableEq, Repr

/-- An engine to be evacuated (R172): the record whose memory holds the bad word, whether that is a state word, whether the
error has been found, its FAIL_CAUSE, and once found the engine that takes over (R173). -/
structure Evac where
  engine : Nat
  record : Nat
  state_ : Bool
  found  : Bool
  cause  : Nat
  tgt    : Option Nat
  deriving DecidableEq, Repr

/-- A graph as Canopy holds it placed: the records and parameters copied to the engines, where each record runs, its
phase and its state (R60, R61, R64, 06_canopy.md). -/
structure Placed where
  graph   : Graph
  /-- the engine and the phase of each record -/
  engines : List Nat
  phases  : List Nat
  /-- the state words of each record -/
  states  : List (List Nat)
  /-- the input point at which each record last ran -/
  lastRun : List (Option Nat)
  /-- the word at the end of the previous beat of each signal the graph writes (PREV) -/
  prev    : List (Nat × Word) := []
  /-- the snapshot of the present beat -/
  snap    : List (Nat × Word) := []
  /-- the last input point -/
  lastIp  : Option Nat := none
  /-- the input point of the first beat -/
  firstIp : Option Nat := none
  /-- the carrier edge at which the next beat starts: 2k for master valley k, 2k + 1 for the peak after it (R57) -/
  nextEdge : Nat := 0
  /-- the carrier edge at which the present beat ends -/
  endEdge : Nat := 0
  /-- the blocks of this beat have run and its output point is yet to come -/
  ranBeat : Bool := false
  /-- the latest strobe point of this beat has passed without its duties (R63, R202) -/
  late    : Bool := false
  /-- a duty sink was left unwritten in this beat (R172) -/
  noDuty  : Bool := false
  /-- the last beat was an overrun (R63) -/
  overrun : Bool := false
  /-- the parameters and bases a swap waits to put in force (R74) -/
  swap    : Option Graph := none
  hinge   : Option Hinge := none
  evacs   : List Evac := []
  /-- the copies that have changed unseen, by record and engine (R77) -/
  differs : List (Nat × Nat) := []
  deriving DecidableEq, Repr

/-- The staging buffer and the image store. -/
structure GraphStore where
  /-- declared length and bytes of the staging buffer -/
  declared : Nat := 0
  staged   : List Byte := []
  slot0    : Option (List Byte) := none
  slot1    : Option (List Byte) := none
  /-- the slots whose bytes in flash have decayed: bit k slot k (R458) -/
  slotBad  : Nat := 0
  /-- the slot a GRAPH_STORE is writing, and STATE before the command -/
  storing  : Option (Nat × Nat) := none
  deriving DecidableEq, Repr

/-! ### Bridges -/

/-- A ramp of a bridge to SEALED (R34, R141, R365). `reason` is the seal reason at its end; `latch` says that a reaction
is part of it (R148, R149). -/
structure Ramp where
  /-- 0 host ramp, 1 reaction ramp, 2 SS1-t ramp -/
  kind   : Nat
  /-- the first input point of the ramp -/
  tr     : Option Nat
  /-- its length, ticks -/
  len    : Nat
  reason : Nat
  latch  : Bool
  deriving DecidableEq, Repr

/-- What a bridge holds beside its registers. -/
structure Bridge where
  ram     : Option RamGraph := none
  placed  : Option Placed := none
  /-- the Shutter line is not asserted (R358) -/
  open_   : Bool := false
  /-- when MODE last changed, and when the present STEP began -/
  modeAt  : Nat := 0
  stepAt  : Nat := 0
  /-- the end of the dead-bus check (R26) -/
  due     : Nat := 0
  /-- the first beat of RAMP (R125) -/
  rampAt  : Option Nat := none
  /-- the last sample of RAMP or HOLD was in band, and the first in-band beat of HOLD (R124) -/
  inBand  : Bool := false
  holdAt  : Option Nat := none
  /-- SYNC_CHECK's OK in a beat whose strobe found the isolation confirmed (R35, R129) -/
  syncOk  : Bool := false
  /-- the last strobe found the motor isolation confirmed -/
  isoOk   : Bool := false
  ramp    : Option Ramp := none
  /-- the Sill monitor's assertion of an SS1-t (R365) -/
  sillDue : Option Nat := none
  /-- the end condition of the present step has held in this beat: the next step begins at the beat boundary (R124) -/
  stepOver : Bool := false
  /-- the time of the present step has run out in this beat: at the beat boundary the bridge seals with this reason, unless the
  end condition has held in the beat (R124) -/
  failDue : Option Nat := none
  /-- HOLD has returned to RAMP: the next in-band beat starts it again (R125) -/
  back    : Bool := false
  /-- the current ceiling of the mode, Q15 (R27) -/
  ceiling : Option Nat := none
  /-- the end of the beat in which a seal or a reaction refuses every SET_MODE (R37, R149) -/
  refuseTill : Nat := 0
  /-- the reaction code acted on last since the placement, and the mask of all the codes acted on (R148) -/
  acted   : Nat := 0
  actedMask : Nat := 0
  /-- ticks in modes 2 to 5 since the last Shutter test passed, up to `opFrom` (R360) -/
  opAcc   : Nat := 0
  opFrom  : Option Nat := none
  /-- ticks with pulses in modes 2 to 5 that no ledger pass has taken yet (R177) -/
  onAcc   : Nat := 0
  onFrom  : Option Nat := none
  /-- the master carrier (R194, R196): its first valley, the number of its last valley, and the last four valleys, newest
  first, each with the period that begins there, ticks -/
  first   : Nat := 0
  valN    : Nat := 0
  vals    : List (Nat × Nat) := []
  /-- a period strobed and the carrier edge at which its beat ends (R202, R205) -/
  strobePer : Option (Nat × Nat) := none
  /-- the period tag: valleys of the master carrier modulo 128 (R206) -/
  tag     : Nat := 0
  /-- the pending fall-back registers (R206) -/
  fbPer   : Bool := false
  fbDuty  : List Nat := []
  /-- a SASH_LOAD waits for the next master valley (R209) -/
  sashLoad : Bool := false
  deriving DecidableEq, Repr

/-! ### Sash units and interlock (07_sash_pwm.md, 08_gate_drive.md) -/

/-- A gate edge of a sash unit (R190, R198): the switch, the level it takes, and its ideal place in fine steps. -/
structure GateEdge where
  high : Bool
  on_  : Bool
  time : Nat
  deriving DecidableEq, Repr

/-- The gate commands of a leg after some of its edges: both levels, the last edge of each switch, where the refresh timer
starts (R210), and whether a low-side pulse has ended since the release (R242). -/
structure Gates where
  hi      : Bool := false
  lo      : Bool := false
  hiAt    : Nat := 0
  loAt    : Nat := 0
  lowEnd  : Option Nat := none
  lowSeen : Bool := false
  deriving DecidableEq, Repr

/-- A switch that trips hold off: high side or low side, and the period of the leg in which it tripped (R212). -/
structure Tripped where
  high   : Bool
  source : Nat
  period : Nat
  deriving DecidableEq, Repr

/-- What a leg's sash unit and interlock hold beside their registers. -/
structure Leg where
  /-- the carrier period most recently applied, and the one in force, ticks; 0 while no carrier runs (R196) -/
  per    : Nat := 0
  perF   : Nat := 0
  /-- the shadow duty, the strobed duty with the carrier edge at which its beat ends, and the duty in force, Q15 (R202,
  R203) -/
  shadow : Nat := 0
  pend   : Option (Nat × Nat) := none
  duty   : Option Nat := none
  /-- an on-time applied on the fall-back path and the master valley of its set, fine steps (R207) -/
  pendT  : Option (Nat × Nat) := none
  /-- the on-time before R200, and the one that governed the interval before the present point while pulses ran -/
  ton    : Nat := 0
  held   : Option Nat := none
  /-- the number of the first update point still to come (2k for valley k, 2k + 1 for the peak after it), the last one,
  fine steps, and the number of the valley at which the trip window moves next (R194, R213) -/
  upN    : Nat := 0
  upAt   : Option Nat := none
  winN   : Nat := 0
  /-- the gate commands up to the last update point, the edges after it in time order, and whether they are placed at whole
  ticks (R192) -/
  gates  : Gates := {}
  edges  : List GateEdge := []
  coarse : Bool := false
  /-- the switches whose pulse a trip ended (R212) -/
  trips  : List Tripped := []
  /-- the instant, fine steps, of the undervoltage check of a refresh pulse (R211) -/
  refresh : Option Nat := none
  /-- the slots of the trip window, the current one first (R213) -/
  slots  : List Nat := []
  /-- NCAL in use by the leg (R191) -/
  ncal   : Nat := 0
  /-- the end of the conflict whose surviving command waits (R225) -/
  wait   : Option Nat := none
  /-- the present overlap of the reported gate states has tripped the cross-check (R228) -/
  xchk   : Bool := false
  /-- a low-side pulse of the pass-through commands has ended since the release of the pulses (R242) -/
  ptLow  : Bool := false
  /-- when the pulses were blocked last (R249) -/
  blockedAt : Option Nat := none
  deriving DecidableEq, Repr

/-- What the control die and a driver die hold beside the registers of the channel. -/
structure Die where
  /-- consecutive status frames whose Shutter state differs from the line (R359) -/
  shtBad : Nat := 0
  /-- the state that the die last reported against its line, where it has not reported the other one since (R360) -/
  shtStuck : Option Bool := none
  /-- command frames to the die have been stopped (R359) -/
  stopped : Bool := false
  /-- the start of the last turn-on, and whether its on-interval has shown the warning and latched a short circuit (R237,
  R238, R240) -/
  onAt   : Nat := 0
  /-- when the gate was last reported off, and whether it has fallen below GS_TH after a turn-off with no turn-on since (R236,
  R249) -/
  offAt  : Option Nat := none
  fell   : Bool := false
  ocSeen : Bool := false
  scSeen : Bool := false
  /-- SENSE is above SC_TH (R239) -/
  scHigh : Bool := false
  /-- a soft turn-off runs, since when, and when the last one ended (R230, R238) -/
  soft   : Bool := false
  softAt : Nat := 0
  softEnd : Option Nat := none
  /-- since when an undervoltage of VPOS and of VNEG has lasted while the monitor is armed (R242) -/
  uvPos  : Option Nat := none
  uvNeg  : Option Nat := none
  /-- the link is lost (R243) -/
  linkLost : Bool := false
  /-- when the die was last reported above 150 °C (R243, R246) -/
  hotAt  : Option Nat := none
  /-- the last reading of the NTC input (R244) -/
  ntc    : Option NtcReading := none
  /-- when the die entered FAULT, and a further cause that arose in FAULT with its instant (R249) -/
  faultAt : Nat := 0
  again  : Option (Nat × Nat) := none
  deriving DecidableEq, Repr

/-! ### Measurement (09_measurement.md) -/

/-- A converter: its last check result (sampling instant, raw code) not yet compared, and the run of off-reference codes. -/
structure Conv where
  chk    : Option (Nat × Int) := none
  offN   : Nat := 0
  /-- the next slot of the list that runs (R256) -/
  slot   : Option Nat := none
  /-- the trigger of the list; in continuous mode the last result (R257, R259) -/
  trig   : Nat := 0
  /-- the tick of the last trigger that came, taken or not (R215, R256) -/
  trigAt : Option Nat := none
  /-- the last result of an external input: its sampling instant, its slot code and WC_OUT before it (R261) -/
  last   : Option (Nat × (Nat × Bool)) := none
  deriving DecidableEq, Repr

/-- A twin pair: consecutive disagreements, and whether the last comparison agreed (R266). -/
structure Pair where
  badN   : Nat := 0
  agreed : Bool := false
  deriving DecidableEq, Repr

/-- An average that runs on an input (R272): CAL_FULL with REFQ, or CAL_ZERO. -/
structure CalRun where
  full  : Option Int
  n     : Nat
  got   : Nat := 0
  sum   : Int := 0
  lo    : Int := 0
  hi    : Int := 0
  clip  : Bool := false
  start : Nat
  deriving DecidableEq, Repr

/-- A calibration record: the OFS, GAIN and CAL_OK of each input (R274). -/
structure CalRec where
  gen  : Nat
  vals : List (Nat × (Nat × Nat × Bool))
  ok   : Bool := true
  deriving DecidableEq, Repr

/-- The calibration beside the input registers. -/
structure Cal where
  runs   : List (Nat × CalRun) := []
  /-- the inputs whose candidates a CAL_STORE is writing -/
  store  : Option (List Nat) := none
  /-- the two copies in flash, the newer first (R274) -/
  copies : List CalRec := []
  /-- the code the test DAC holds (R255) -/
  dac    : Nat := 0
  /-- the pair (OFS, GAIN) of an input before its last store and the instant of that store: a conversion sampled up to then
  uses it (R275) -/
  old    : List (Nat × (Nat × (Nat × Nat))) := []
  deriving DecidableEq, Repr

/-! ### Encoders and pulse inputs (05_traction.md) -/

/-- An encoder interface: the count, the accepted levels, the edges of R143 and the marks of R145. `prev` is what the last
single edge of A or B did: whether it was A, and its step. -/
structure Enc where
  count  : Int := 0
  lvl    : Nat := 0
  last   : Option (Int × Nat) := none
  prev   : Option (Bool × Int) := none
  base   : Option (Int × Nat) := none
  baseIp : Nat := 0
  fresh  : Bool := false
  index  : Nat := 0
  ref    : Bool := false
  idxErr : Bool := false
  lost   : Bool := false
  illegal : Bool := false
  rate   : Bool := false
  deriving DecidableEq, Repr

/-- A pulse input: its level, the last rising edge and fall, and the last complete period with its high time. -/
structure Pulse where
  lvl   : Bool := false
  rise  : Option Nat := none
  fall  : Option Nat := none
  per   : Option (Nat × Nat) := none
  deriving DecidableEq, Repr

/-! ### Canopy and the ring ledger (06_canopy.md) -/

/-- What Canopy knows of an engine beside EN_STATUS: its last passed self-test, and whether its last completed one passed. -/
structure Eng where
  passAt : Nat := 0
  lastOk : Bool := false
  /-- FAILED before the present start -/
  failed : Bool := false
  /-- the self-test a warm start began on it still runs (R419) -/
  testing : Bool := false
  deriving DecidableEq, Repr

/-- Canopy beside its registers. -/
structure Canopy where
  engines  : List (Nat × Eng) := []
  holdEnd  : Nat := 0
  /-- the end of the last hold of each bridge (R171) -/
  lastHold : List (Nat × Nat) := []
  /-- a rotation step waits for the fallow engine (R169 step 1) -/
  rotWait  : Bool := false
  /-- the present share of each leg, Q15; unlisted 0x2000 (R186) -/
  shares   : List (Nat × Nat) := []
  deriving DecidableEq, Repr

/-- A ledger entry (R177); `count` lists the non-zero counts. -/
structure Entry where
  count  : List (Nat × Nat) := []
  energy : Nat := 0
  damage : Nat := 0
  cycles : Nat := 0
  ontime : Nat := 0
  rate   : Nat := 0
  peak   : Nat := 0
  nfSel  : Nat := 0
  valid  : Bool := false
  sat    : Bool := false
  deriving DecidableEq, Repr

/-- A ledger checkpoint: generation, cause, entries, cycles-to-failure tables, and whether its CRCs hold (R181, R182). -/
structure Checkpoint where
  gen     : Nat
  cause   : Nat
  entries : List (Nat × Entry)
  nf      : List (Nat × Nat)
  ok      : Bool := true
  deriving DecidableEq, Repr

/-- The ring ledger: entries and tables in RAM, (DAMAGE, ONTIME) of the last 16 checkpoints by switch, the checkpoints in
flash with the newer first, and the one being written. -/
structure Ledger where
  entries : List (Nat × Entry) := []
  /-- NF of table t, bin k, at 128 × t + k -/
  nf      : List (Nat × Nat) := []
  hist    : List (List (Nat × Nat × Nat)) := []
  copies  : List Checkpoint := []
  run     : Option Checkpoint := none
  /-- the causes of the checkpoints that wait for the one being written to end, first in, first out -/
  next    : List Nat := []
  /-- when the last checkpoint ended (R188) -/
  cpAt    : Option Nat := none
  /-- what SINCE_CP and the period of R181 count from: that instant, or a later reset (R9) -/
  cpFrom  : Nat := 0
  deriving DecidableEq, Repr

/-! ### Capture (10_capture.md) -/

/-- An accepted trigger (R281). -/
structure Fire where
  time   : Nat
  source : Nat
  origin : Nat
  xcomp  : Int
  late   : Bool
  /-- the number of the trigger row, once taken -/
  row    : Option Nat := none
  /-- the fire time as a timestamp, taken when the group fired (R300, R436) -/
  ts     : Nat := 0
  deriving DecidableEq, Repr

/-- A row of a ring: its number since arming, its time on the PWM time base and as a timestamp, whether the timestamp was
not aligned at the row and at an instant between the row before it and the row (R440), and its bytes. -/
structure Row where
  n     : Nat
  time  : Nat
  ts    : Nat
  na    : Bool
  gap   : Bool := false
  bytes : List Byte
  deriving DecidableEq, Repr

/-- A capture unit beside its registers: rows taken since arming, the number and time of each, newest first, the ring (a row by
its position), the rows of the last lap that were taken and lost (R292), whether NOT_ALIGNED has been 1 since the last row
(R440), when its row clock last struck (R277, R278), its panes, the accepted trigger, and what the
next header carries. -/
structure Unit_ where
  taken   : Nat := 0
  times   : List (Nat × Nat) := []
  naGap   : Bool := false
  ring    : List (Nat × Row) := []
  gone    : List Row := []
  clockAt : Option Nat := none
  panes   : List Nat := []
  /-- its record is full and the unit waits, still FIRED, for the other members of its group (R281, R286) -/
  full    : Bool := false
  fire    : Option Fire := none
  /-- where DEAD starts to count, and DEAD of the present record (R283) -/
  deadFrom : Nat := 0
  dead    : Nat := 0
  ignored : Nat := 0
  /-- what the header of the present record carries of triggers ignored before it -/
  hdrIgn  : Nat := 0
  lost    : Nat := 0
  noPane  : Bool := false
  /-- input points since arming, for DIV (R277) -/
  div     : Nat := 0
  /-- the graph sink waits for VALUE 0 (R293) -/
  sinkOn  : Bool := false
  /-- CAP_REC counts from 0 after a cold start: a record number has been used -/
  used    : Bool := false
  deriving DecidableEq, Repr

/-- A record that is full or being read (R290). -/
structure Rec_ where
  unit  : Nat
  recNo : Nat
  reading : Bool
  bytes : List Byte
  panes : List Nat
  deriving DecidableEq, Repr

/-- The capture common block beside its registers. -/
structure Capture where
  units   : List (Nat × Unit_) := []
  records : List Rec_ := []
  /-- a fire accepted and waiting for its fire time: the units it fires, those of them that enable its source, and the fire
  (R283, R299) -/
  due     : List (List Nat × List Nat × Fire) := []
  /-- the accepted level of each TRIG pin, the pins that drive a pulse, and when that pulse ends (R294) -/
  pins    : Nat := 0
  pulsing : Nat := 0
  pulseTill : Nat := 0
  /-- the unit served last in the round-robin for panes (R176) -/
  lastWin : Nat := 7
  deriving DecidableEq, Repr

/-! ### Background (17_background.md) -/

/-- An event-log entry (R459). -/
structure LogEntry where
  seq   : Nat
  start : Nat
  code  : Nat
  ts    : Nat
  obj   : Nat
  data  : List Byte
  deriving DecidableEq, Repr

/-- A ring of records in flash (R456): the place of the next record, and the bytes before it back to the start of the oldest sector
that is not erased. -/
structure Ring where
  pos  : Nat := 0
  used : Nat := 0
  deriving DecidableEq, Repr

/-- The event log: the RAM buffer and the ring in flash, both oldest first. -/
structure EvLog where
  buf    : List LogEntry := []
  flash  : List LogEntry := []
  next   : Nat := 0
  starts : Nat := 0
  /-- when the buffer was flushed last (R452) -/
  flushAt : Nat := 0
  /-- entries dropped since the last one accepted -/
  dropped : Nat := 0
  /-- when the entries of the last second were accepted -/
  recent : List Nat := []
  /-- of each memory the time of its last corrected-error entry and the errors since -/
  corAt  : List (Nat × (Option Nat × Nat)) := []
  deriving DecidableEq, Repr

/-- A telemetry stream (R460): its configuration, and while it runs the timestamp of TLM_START and the next sample. -/
structure Stream where
  set    : Bool := false
  can    : Bool := false
  period : Nat := 0
  sigs   : List Nat := []
  on_    : Bool := false
  start  : Nat := 0
  next   : Nat := 0
  deriving DecidableEq, Repr

/-- Telemetry, the flash operation that runs and the one it suspended (R457), the erase counts of the flash sectors (at
1024 × area + sector; area 0 ledger, 1 security, 2 event log, 3 calibration) and the end of the last complete flash patrol. -/
structure Background where
  streams  : List (Nat × Stream) := []
  /-- the rings of records: ledger, security, event log, calibration (R456) -/
  rings    : List (Nat × Ring) := []
  /-- the structure that the flash patrol reads next (R458) -/
  patrolNext : Nat := 0
  flashRun  : Option Nat := none
  flashSusp : Option Nat := none
  wear     : List (Nat × Nat) := []
  patrolAt : Nat := 0
  deriving DecidableEq, Repr

/-! ### Clocks (16_clocks_islands.md) -/

/-- A training of the output hop: the round trips so far, the CNT that comes next, and whether 16 symbols in a row had no
reply (R448). -/
structure Training where
  sum  : Nat := 0
  n    : Nat := 0
  next : Nat := 0
  gap  : Bool := false
  deriving DecidableEq, Repr

/-- A symbol of the Dellan output: its TYPE, its scheduling instant in fine steps of the time base, its length in bits, and its
fields: LINE, ORIGIN and D of a TRIGGER, SEQ and D of a SYNC, SEQ, EPOCH and TS of a TIME (R445, R446). -/
structure OutSym where
  kind  : Nat
  sched : Int
  bits  : Nat
  a     : Nat := 0
  b     : Nat := 0
  d     : Nat := 0
  deriving DecidableEq, Repr

/-- A SYNC received: SEQ, the local timestamp at its receipt instant in fine steps, D, and `tsOff` then (R438). -/
structure SyncSeen where
  seqNo  : Nat
  local_ : Int
  d      : Nat
  off    : Int
  deriving DecidableEq, Repr

/-- A transom crossing: credits available, entries in flight, credits in the synchroniser, since when the count has been
broken, XG_BAD and STALLS (R433, R435). -/
structure Crossing where
  avail  : Nat := 8
  flight : Nat := 0
  sync   : Nat := 0
  broken : Option Nat := none
  bad    : Bool := false
  stalls : Nat := 0
  /-- the sends that wait for a credit, and the instant up to which STALLS counts their cycles (R434) -/
  waits  : Nat := 0
  waitAt : Nat := 0
  /-- the last drain (R434), and the instant of the last credit return with the credits that came in its cycle (R433) -/
  drainAt : Nat := 0
  retAt  : Nat := 0
  retN   : Nat := 0
  deriving DecidableEq, Repr

/-- The Dellan/timestamp island and the crossings. -/
structure Clk where
  /-- the timestamp in fine steps is 64 × now + tsOff (R436) -/
  tsOff : Int := 0
  /-- CK_CFG and DL_CFG as the last start of Level 0 or 1 took them (R427, R451) -/
  ck    : Word := 0
  dl    : Word := 0
  /-- the last symbols sent: TRIGGER (line, chain position of its sender, D), SYNC (SEQ, D), TIME, final TRAIN (position,
  hop), TRAIN_REPLY (position, CNT), TRAIN_REQ (R297, R445, R448) -/
  trigOut  : Option (Nat × Nat × Nat) := none
  syncOut  : Option (Nat × Nat) := none
  timeOut  : Option TimeSymbol := none
  trainOut : Option (Nat × Nat) := none
  replyOut : Option (Nat × Nat) := none
  reqOut   : Bool := false
  /-- the symbols scheduled at the output that have not ended (R446) -/
  out      : List OutSym := []
  /-- the number of the head's next millisecond, whose low byte is SEQ of its SYNC -/
  seqNo    : Nat := 0
  /-- the last SYNC received -/
  sync     : Option SyncSeen := none
  /-- the first measurement after the start is still to come (R439) -/
  loadDue  : Bool := true
  /-- what is left of e, fine steps, and the last fine step taken (R438) -/
  err      : Int := 0
  stepAt   : Option Nat := none
  stepUp   : Bool := false
  /-- the last 16 rates (R441), the beginning of coasting and the steps taken since -/
  rates    : List Int := []
  coastAt  : Nat := 0
  coastN   : Nat := 0
  /-- the last valid TIME, or the lock of PLL B (R449) -/
  timeAt   : Nat := 0
  training : Option Training := none
  /-- when the output hop went DOWN (R448), and a training that a lost reference abandoned restarts at its return (R450) -/
  downAt   : Nat := 0
  retrain  : Bool := false
  /-- since when DLN_CKI is present again (R449) -/
  backAt   : Option Nat := none
  xings    : List (Nat × Crossing) := []
  deriving DecidableEq, Repr

/-! ### The reset controller (15_reset_and_start.md) -/

/-- A reset source that is asserted: its number, its acting level, and since when (R404, R406). -/
structure Asserted where
  source : Nat
  level  : Nat
  at_    : Nat
  deriving DecidableEq, Repr

/-- A FUSE_PROGRAM that runs: word and value (R417). -/
structure FuseRun where
  word  : Nat
  value : Nat
  deriving DecidableEq, Repr

/-- A start in progress that has come as far as the interpreter serving (R418 step 4): whether it is warm, when it began, and
whether the converter trims passed (R412). -/
structure StartRun where
  warm   : Bool
  began  : Nat
  trims  : Bool
  deriving DecidableEq, Repr

/-- A RESET of level 1 or 4 whose reply is queued: transport, level, when it was queued, and the reply (R405). -/
structure ResetCmd where
  can   : Bool
  level : Nat
  at_   : Nat
  reply : List Byte
  deriving DecidableEq, Repr

/-- The reset controller, the fuses it programs, and the option array. -/
structure ResetCtl where
  /-- the asserted sources -/
  asserted : List Asserted := []
  /-- the level of the reset whose start is still to come (R400) -/
  owed     : Option Nat := some 0
  /-- that start is in progress, and the interpreter serves (R418 step 4, R420) -/
  starting : Option StartRun := none
  /-- retention is not intact: an uncorrectable error in retention RAM (R402) -/
  retBad   : Bool := false
  /-- the reset came of a watchdog or a lockstep mismatch (R395) -/
  fatal    : Bool := false
  /-- the parts of Level 2 that a source still holds: the kind of their start, 1 warm, and what it shows (R407) -/
  joint    : Option (Bool × StartEnv) := none
  /-- the RESET commands of level 1 and 4 that wait for their replies to be read out, oldest first (R405) -/
  cmds     : List ResetCmd := []
  /-- the hold of an orderly shutdown, and RST_N has been low for 1 µs since (R424) -/
  hold     : Bool := false
  holdLow  : Bool := false
  /-- the fuse map words and DBG_LOCK word as blown, and the map the last start read (R403, R417) -/
  fuses    : List (Nat × Nat) := []
  map      : List (Nat × Nat) := []
  fuseRun  : Option FuseRun := none
  /-- the two option copies and the retained RAM image, as bytes (R408, R409) -/
  copy1    : List Byte := []
  copy2    : List Byte := []
  retained : Option (List Byte) := none
  /-- an OPTION_WRITE that runs: the copy (0 for copy 1) and the image (R415) -/
  optRun   : Option (Nat × List Byte) := none
  /-- the copy that the last GRAPH_START rewrote, and the end of that rewrite (R416) -/
  rewrite  : Option (Nat × Nat) := none
  deriving DecidableEq, Repr

/-! ### Safety (13_shutter_safety.md) -/

/-- A safety input beside its registers (SINi is i, STO_REQ is 8). -/
structure SafeIn where
  /-- consecutive samples of each channel that show the level not yet accepted (R368) -/
  runA : Nat := 0
  runB : Nat := 0
  /-- both channels have been accepted at the run level together since a Level 0 or 1 reset -/
  seen : Bool := false
  /-- the demand that stands: function, bridges, contactors and the instant of its detection (R363, R378) -/
  act  : Option (Nat × Nat × Nat × Nat) := none
  /-- KOFF_DLY after the assertion the contactors of an SCO are forced off (R366) -/
  forced : Bool := false
  /-- the discrepancy count, and both channels seen safe since DISC latched (R370) -/
  d    : Nat := 0
  discSafe : Bool := false
  /-- TP fault of each channel, whether its last test passed, and whether it is blanked (R369) -/
  tpA  : Bool := false
  tpB  : Bool := false
  tpOkA : Bool := false
  tpOkB : Bool := false
  blankA : Bool := false
  blankB : Bool := false
  /-- samples with both channels at the run level, samples with both safe, and the input is armed (R373) -/
  press : Nat := 0
  idle  : Nat := 0
  armed : Bool := false
  /-- the channels have differed since `press` was counted: they are no longer at the run level together (R373) -/
  mixed : Bool := false
  deriving DecidableEq, Repr

/-- A contactor output as it last was, and since when its readback has differed from it: from the later of the last change of the
output and the onset of the difference (R374). -/
structure KonSeen where
  out   : Bool := false
  since : Option Nat := none
  deriving DecidableEq, Repr

/-- A test-pulse output: the start of the pulse whose channels are blanked, and the Sill tick of the last pulse (R369). -/
structure TestOut where
  start : Option Nat := none
  tick  : Option Nat := none
  deriving DecidableEq, Repr

/-- The Sill monitor beside the safety block. -/
structure Sill where
  ins    : List (Nat × SafeIn) := []
  /-- Sill ticks since the last Level 0 or 1 reset -/
  ticks  : Nat := 0
  /-- accepted levels of KRB3 to KRB0 (R374) -/
  krb    : Nat := 0
  /-- the outputs KON0 to KON3 against their readbacks (R374) -/
  kons   : List (Nat × KonSeen) := []
  /-- the test-pulse outputs TPO0 to TPO3 (R369) -/
  tpos   : List (Nat × TestOut) := []
  /-- the pattern of the last seal-switch reads, how many agreed, and whether the last full read passed (R375) -/
  pat    : Nat := 0
  patN   : Nat := 0
  sealOk : Bool := false
  /-- comparisons of the oscillator passed since the last failure (R361) -/
  oscOk  : Nat := 0
  /-- the bridges on which the test-due rule demands SS1-t (R360) -/
  overdue : Nat := 0
  /-- the safety log, newest first: 16-byte entries (R379) -/
  log    : List (List Byte) := []
  deriving DecidableEq, Repr

/-! ### CAN controllers (12_can_fd.md) -/

/-- A message object beside its registers: the 20 words of its buffer window, a frame in a hold slot, its receive mapping
(byte order and pairs), the failed attempts of the running transmission, and the bit position of the last attempt's bit
error (R344). Object 64 stands for the transport's next reply, 65 for the reference message. -/
structure CanObj where
  buf  : List Nat := List.replicate 20 0
  held : Option (List Nat) := none
  map  : Option (Bool × List (Nat × Nat)) := none
  fails : Nat := 0
  errPos : Option Nat := none
  deriving DecidableEq, Repr

/-- A controller beside its registers. -/
structure CanCtl where
  objs : List (Nat × CanObj) := []
  /-- the object whose read lock is held, and since when (R347) -/
  lock : Option (Nat × Nat) := none
  /-- CFG_REQ, CAN_SLEEP wait for the next bus idle (R338, R354) -/
  cfgWait   : Bool := false
  sleepWait : Bool := false
  /-- time master: SEQ of the last message queued, whether it is pending, and the SOF of the last one transmitted since the
  controller went on the bus (R352) -/
  refSeq  : Nat := 0
  refPend : Bool := false
  /-- when the last reference message fell due -/
  refAt   : Option Nat := none
  refSent : Option Nat := none
  /-- time slave: SEQ and SOF timestamp of the previous reference message (R353) -/
  refGot  : Option (Nat × Nat) := none
  /-- the frame transmitted last -/
  sent    : Option CanFrame := none
  deriving DecidableEq, Repr

structure State where
  /-- the commands that wait, first in, first out -/
  pending : List Instr := []
  /-- the PWM time base, ticks of 2.5 ns since power-on -/
  now     : Nat := 0
  /-- the registers of the window, unlisted at their Level 0 reset value -/
  regs    : List (Nat × Word) := []
  /-- the signal board, unlisted as after reset -/
  board   : List (Nat × Word) := []
  /-- when each signal was last written or aged (R53) -/
  aged    : List (Nat × Nat) := []
  host    : HostPort := {}
  sec     : Sec := {}
  graphs  : GraphStore := {}
  bridges : List (Nat × Bridge) := []
  legs    : List (Nat × Leg) := []
  dies    : List (Nat × Die) := []
  convs   : List (Nat × Conv) := []
  pairs   : List (Nat × Pair) := []
  cal     : Cal := {}
  encs    : List (Nat × Enc) := []
  pulses  : List (Nat × Pulse) := []
  /-- the levels at PTH0 to PTH7 -/
  pth     : Nat := 0
  canopy  : Canopy := {}
  ledger  : Ledger := {}
  capture : Capture := {}
  log     : EvLog := {}
  clk     : Clk := {}
  bg      : Background := {}
  rst     : ResetCtl := {}
  sill    : Sill := {}
  cans    : List (Nat × CanCtl) := []
  /-- the upper half latched by the last read of the lower register of each pair, by the address of the lower; unlisted:
  none (R13) -/
  latched : List (Nat × Word) := []
  /-- the model's own counter of free values drawn -/
  freeCtr : Nat := 0
  deriving DecidableEq, Repr

/-- The block right after the release of a Level 0 reset, before its cold start: every register at its Level 0 value,
the key slots as shipped (R384), bank A confirmed, nothing staged, nothing queued. -/
def State.reset : State :=
  { regs := [(0x900004, 0x10000000), (0x900040, 0x22100000), (0x90007C, 0x23400000)] }

end Sys2Proof.Machine
end

