-- ==== Sys2Proof/Machine/Ops.lean ====
section
/-! DEFINITION. The named operations over the state: sparse maps in one canonical form, registers and their fields. -/

namespace Sys2Proof.Machine

open Sys2Proof

/-! ### Sparse maps: keys strictly rising, no entry equal to the default of its key -/

/-- What a sparse map holds at `k`: its entry, or the default of that key. -/
def sget {α : Type} (d : Nat → α) : List (Nat × α) → Nat → α
  | [], k => d k
  | (j, v) :: t, k => if k = j then v else sget d t k

/-- The map without an entry for `k`. -/
def serase {α : Type} (m : List (Nat × α)) (k : Nat) : List (Nat × α) := m.filter (fun e => e.1 != k)

/-- The map with an entry for `k` put before the first larger key. -/
def sins {α : Type} (k : Nat) (v : α) : List (Nat × α) → List (Nat × α)
  | [] => [(k, v)]
  | (j, u) :: t => if k < j then (k, v) :: (j, u) :: t else (j, u) :: sins k v t

/-- The map holding `v` at `k`: an entry, or none where `v` is the default of `k`. -/
def sput {α : Type} [DecidableEq α] (d : Nat → α) (m : List (Nat × α)) (k : Nat) (v : α) : List (Nat × α) :=
  if v = d k then serase m k else sins k v (serase m k)

/-- The canonical form: keys strictly rising and above `lo`, and no entry equal to its default. -/
def swfFrom {α : Type} [DecidableEq α] (d : Nat → α) : Option Nat → List (Nat × α) → Bool
  | _, [] => true
  | lo, (j, v) :: t => (match lo with | none => true | some l => decide (l < j)) && decide (v ≠ d j) && swfFrom d (some j) t

/-- The canonical form of a sparse map. -/
def swf {α : Type} [DecidableEq α] (d : Nat → α) (m : List (Nat × α)) : Bool := swfFrom d none m

/-! ### Registers -/

/-- The definition and the instance (i, j) of the register at an address, if the window has one there (R7, R10). -/
def regFind (a : Nat) : List RegDef → Option (RegDef × Nat × Nat)
  | [] => none
  | r :: t =>
    if r.base ≤ a then
      let d := a - r.base
      let i := if r.count ≤ 1 then 0 else d / r.stride
      let e := d - i * r.stride
      let j := if r.count2 ≤ 1 then 0 else e / r.stride2
      if i < r.count ∧ j < r.count2 ∧ e = j * r.stride2 then some (r, i, j) else regFind a t
    else regFind a t

/-- The register at an address of the window. -/
def regAt (a : Nat) : Option (RegDef × Nat × Nat) := regFind a regTable

/-- The Level 0 reset value of a register (R9). -/
def regDefReset (r : RegDef) : Nat := r.fields.foldl (fun n f => n + (f.rst % 2 ^ f.width) * 2 ^ f.lo) 0

/-- What a register reads when nothing has written it: its Level 0 reset value; 0 at a reserved address (R10). -/
def regReset (a : Nat) : Word :=
  match regAt a with
  | some (r, _, _) => BitVec.ofNat 32 (regDefReset r)
  | none => 0

/-- The stored word of the register at address `a`. -/
def State.reg (s : State) (a : Nat) : Word := sget regReset s.regs a

/-- `s` with the stored word of the register at `a` replaced. -/
def State.setReg (s : State) (a : Nat) (w : Word) : State := { s with regs := sput regReset s.regs a w }

/-- The address of instance (i, j) of a field's register (R7). -/
def fldAddr (f : Fld) (i j : Nat) : Nat := f.base + i * f.stride + j * f.stride2

/-- A field of a word. -/
def fldOf (f : Fld) (w : Word) : Nat := bitsOf w.toNat f.lo f.width

/-- A word with one field replaced. -/
def fldSet (f : Fld) (w : Word) (v : Nat) : Word := BitVec.ofNat 32 (setBits w.toNat f.lo f.width v)

/-- A field of a word that shows state kept elsewhere. -/
def put (f : Fld) (v : Nat) (w : Word) : Word := fldSet f w v

/-- A value held to the greatest of its width. -/
def satur (w v : Nat) : Nat := min (2 ^ w - 1) v

/-- Field `f` of instance `i`. -/
def State.rd (s : State) (f : Fld) (i : Nat := 0) (j : Nat := 0) : Nat := fldOf f (s.reg (fldAddr f i j))

/-- Field `f` of instance `i` set to `v`. -/
def State.wr (s : State) (f : Fld) (i : Nat) (v : Nat) : State :=
  s.setReg (fldAddr f i 0) (fldSet f (s.reg (fldAddr f i 0)) v)

/-- Field `f` of instance (i, j) set to `v`. -/
def State.wr2 (s : State) (f : Fld) (i j : Nat) (v : Nat) : State :=
  s.setReg (fldAddr f i j) (fldSet f (s.reg (fldAddr f i j)) v)

/-- Field `f` of instance `i`, one bit, read as a truth value. -/
def State.flag (s : State) (f : Fld) (i : Nat := 0) (j : Nat := 0) : Bool := s.rd f i j != 0

/-! ### Instances that are not registers -/

/-- Bridge `b` (0 to 3 for A to D). -/
def State.br (s : State) (b : Nat) : Bridge := sget (fun _ => ({} : Bridge)) s.bridges b

/-- Bridge `b` replaced. -/
def State.setBr (s : State) (b : Nat) (v : Bridge) : State :=
  { s with bridges := sput (fun _ => ({} : Bridge)) s.bridges b v }

/-- Leg `n` (0 to 23) -/
def State.leg (s : State) (n : Nat) : Leg := sget (fun _ => ({} : Leg)) s.legs n

/-- Leg `n` (0 to 23) replaced. -/
def State.setLeg (s : State) (n : Nat) (v : Leg) : State :=
  { s with legs := sput (fun _ => ({} : Leg)) s.legs n v }

/-- The die of switch `n` (0 to 47) -/
def State.die (s : State) (n : Nat) : Die := sget (fun _ => ({} : Die)) s.dies n

/-- The die of switch `n` (0 to 47) replaced. -/
def State.setDie (s : State) (n : Nat) (v : Die) : State :=
  { s with dies := sput (fun _ => ({} : Die)) s.dies n v }

/-- Converter `n` (0 to 15) -/
def State.conv (s : State) (n : Nat) : Conv := sget (fun _ => ({} : Conv)) s.convs n

/-- Converter `n` (0 to 15) replaced. -/
def State.setConv (s : State) (n : Nat) (v : Conv) : State :=
  { s with convs := sput (fun _ => ({} : Conv)) s.convs n v }

/-- Twin pair `n` (0 to 7) -/
def State.pair (s : State) (n : Nat) : Pair := sget (fun _ => ({} : Pair)) s.pairs n

/-- Twin pair `n` (0 to 7) replaced. -/
def State.setPair (s : State) (n : Nat) (v : Pair) : State :=
  { s with pairs := sput (fun _ => ({} : Pair)) s.pairs n v }

/-- Encoder interface `n` (0 to 3) -/
def State.enc (s : State) (n : Nat) : Enc := sget (fun _ => ({} : Enc)) s.encs n

/-- Encoder interface `n` (0 to 3) replaced. -/
def State.setEnc (s : State) (n : Nat) (v : Enc) : State :=
  { s with encs := sput (fun _ => ({} : Enc)) s.encs n v }

/-- Pulse input `n` (0 to 3) -/
def State.pul (s : State) (n : Nat) : Pulse := sget (fun _ => ({} : Pulse)) s.pulses n

/-- Pulse input `n` (0 to 3) replaced. -/
def State.setPul (s : State) (n : Nat) (v : Pulse) : State :=
  { s with pulses := sput (fun _ => ({} : Pulse)) s.pulses n v }

/-- Engine `e` (0 to 15) as Canopy knows it. -/
def State.eng (s : State) (e : Nat) : Eng := sget (fun _ => ({} : Eng)) s.canopy.engines e

/-- Engine `e` replaced. -/
def State.setEng (s : State) (e : Nat) (v : Eng) : State :=
  { s with canopy := { s.canopy with engines := sput (fun _ => ({} : Eng)) s.canopy.engines e v } }

/-- Ledger entry of switch `k` (0 to 47). -/
def State.entry (s : State) (k : Nat) : Entry := sget (fun _ => ({} : Entry)) s.ledger.entries k

/-- Ledger entry of switch `k` replaced. -/
def State.setEntry (s : State) (k : Nat) (v : Entry) : State :=
  { s with ledger := { s.ledger with entries := sput (fun _ => ({} : Entry)) s.ledger.entries k v } }

/-- Capture unit `u` (0 to 7). -/
def State.unit (s : State) (u : Nat) : Unit_ := sget (fun _ => ({} : Unit_)) s.capture.units u

/-- Capture unit `u` replaced. -/
def State.setUnit (s : State) (u : Nat) (v : Unit_) : State :=
  { s with capture := { s.capture with units := sput (fun _ => ({} : Unit_)) s.capture.units u v } }

/-- Safety input `i` (0 to 8). -/
def State.sin (s : State) (i : Nat) : SafeIn := sget (fun _ => ({} : SafeIn)) s.sill.ins i

/-- Safety input `i` replaced. -/
def State.setSin (s : State) (i : Nat) (v : SafeIn) : State :=
  { s with sill := { s.sill with ins := sput (fun _ => ({} : SafeIn)) s.sill.ins i v } }

/-- CAN controller `c` (0 to 3). -/
def State.can (s : State) (c : Nat) : CanCtl := sget (fun _ => ({} : CanCtl)) s.cans c

/-- CAN controller `c` replaced. -/
def State.setCan (s : State) (c : Nat) (v : CanCtl) : State :=
  { s with cans := sput (fun _ => ({} : CanCtl)) s.cans c v }

/-- Message object `k` of controller `c`. -/
def State.obj (s : State) (c k : Nat) : CanObj := sget (fun _ => ({} : CanObj)) (s.can c).objs k

/-- Message object `k` of controller `c` replaced. -/
def State.setObj (s : State) (c k : Nat) (v : CanObj) : State :=
  s.setCan c { s.can c with objs := sput (fun _ => ({} : CanObj)) (s.can c).objs k v }

/-- The timestamp in ticks (R436). -/
def tsNow (s : State) : Nat := ((64 * (s.now : Int) + s.clk.tsOff) / 64).toNat % 2 ^ 64

/-- `s` with one value for each of a list. -/
def State.each {α : Type} (s : State) (l : List α) (f : State → α → State) : State := l.foldl f s

/-- The time `t`, reached at the latest now: the PWM time base never runs back. -/
def reachTime (t : Nat) (s : State) : State := { s with now := max s.now t }

end Sys2Proof.Machine
end

