-- ==== Sys2Proof/Machine/Flags.lean ====
section
/-! DEFINITION. Event bits, saturating and wrapping counters, and the free values. -/

namespace Sys2Proof.Machine

open Sys2Proof

/-- Count `n` more in a counter that saturates at the greatest value of its field. -/
def State.countUp (s : State) (f : Fld) (i : Nat := 0) (n : Nat := 1) : State :=
  s.wr f i (min (2 ^ f.width - 1) (s.rd f i + n))

/-- Count `n` more in a saturating counter of instance (i, j). -/
def State.countUp2 (s : State) (f : Fld) (i j : Nat) (n : Nat := 1) : State :=
  s.wr2 f i j (min (2 ^ f.width - 1) (s.rd f i j + n))

/-- Count one in a counter that wraps. -/
def State.countWrap (s : State) (f : Fld) (i : Nat := 0) : State := s.wr f i (s.rd f i + 1)

/-- Set a one-bit event or status field. -/
def State.raise (s : State) (f : Fld) (i : Nat := 0) : State := s.wr f i 1

/-- Clear a field. -/
def State.clear (s : State) (f : Fld) (i : Nat := 0) : State := s.wr f i 0

/-- Set bit `k` of a field that holds a mask. -/
def State.raiseBit (s : State) (f : Fld) (k : Nat) (i : Nat := 0) : State := s.wr f i (s.rd f i ||| 2 ^ k)

/-- Clear bit `k` of a field that holds a mask. -/
def State.clearBit (s : State) (f : Fld) (k : Nat) (i : Nat := 0) : State :=
  s.wr f i (if bitAt (s.rd f i) k then s.rd f i - 2 ^ k else s.rd f i)

/-- Set bit `k` of a mask field to `v`. -/
def State.putBit (s : State) (f : Fld) (k : Nat) (v : Bool) (i : Nat := 0) : State :=
  if v then s.raiseBit f k i else s.clearBit f k i

/-- A fresh free value, and the state that has drawn it. -/
def drawFree (s : State) : Nat × State := (Config.freeNat s.freeCtr, { s with freeCtr := s.freeCtr + 1 })

end Sys2Proof.Machine
end

