-- ==== Sys2Proof/Machine/Board.lean ====
section
/-! DEFINITION. The signal board (R50 to R56): regions, the word of a signal, its writes and its ageing. -/

namespace Sys2Proof.Machine

open Sys2Proof

/-! ### Regions (R50) -/

/-- The constant signals. -/
def isConst (i : Nat) : Bool := decide (i < 4)
/-- The reserved signals, which read 0x0000 and are never stale. The system signals that no chapter lists, 0x100 to 0x10F, 0x118 to
0x11F, and 0x132 + 4b and 0x133 + 4b, count as reserved (DESIGN CHOICE, log entry 113). -/
def isReservedSig (i : Nat) : Bool :=
  decide (4 ≤ i ∧ i ≤ 0x00F) || decide (0x05C ≤ i ∧ i ≤ 0x05F) || decide (0x078 ≤ i ∧ i ≤ 0x07F)
    || decide (0x0F8 ≤ i ∧ i ≤ 0x0FF) || decide (0xF18 ≤ i ∧ i ≤ 0xF3F) || decide (0xF44 ≤ i ∧ i ≤ 0xF4F)
    || decide (0xF58 ≤ i ∧ i ≤ 0xF5F) || decide (0xF61 ≤ i)
    || (decide (0x100 ≤ i ∧ i ≤ 0x13F) && !(decide (0x110 ≤ i ∧ i ≤ 0x117) || decide (0x120 ≤ i ∧ i ≤ 0x12F)
        || (decide (0x130 ≤ i) && decide (i % 4 < 2))))
def isHostSig (i : Nat) : Bool := decide (0x140 ≤ i ∧ i ≤ 0x1BF)
def isCanSig (i : Nat) : Bool := decide (0x1C0 ≤ i ∧ i ≤ 0x1FF)
def isGraphSig (i : Nat) : Bool := decide (0x200 ≤ i ∧ i ≤ 0xEFF)
def isSinkSig (i : Nat) : Bool :=
  decide (0xF00 ≤ i ∧ i ≤ 0xF17) || decide (0xF40 ≤ i ∧ i ≤ 0xF43) || decide (0xF50 ≤ i ∧ i ≤ 0xF57) || decide (i = 0xF60)

/-! ### The word (R51) -/

/-- The fields of a board word. -/
structure Sig where
  val   : Nat
  seq   : Nat
  age   : Nat
  sat   : Bool
  taint : Bool
  deriving DecidableEq, Repr

/-- The bits of a board word below PAR. -/
def Sig.low (g : Sig) : Nat :=
  g.val % 65536 + 65536 * (g.seq % 256) + 16777216 * (g.age % 16) + 268435456 * b2n g.taint + 536870912 * b2n g.sat

/-- The word of a signal, with the PAR bit that makes its parity even. -/
def Sig.word (g : Sig) : Word := BitVec.ofNat 32 (g.low + 2147483648 * (popCount 31 g.low % 2))

/-- The fields of a word. -/
def sigOf (w : Word) : Sig :=
  ⟨bitsOf w.toNat 0 16, bitsOf w.toNat 16 8, bitsOf w.toNat 24 4, bitAt w.toNat 29, bitAt w.toNat 28⟩

/-- Whether the parity of a word is even (R51, R56). -/
def parityOk (w : Word) : Bool := decide (popCount 32 w.toNat % 2 = 0)

/-- The word of a signal after a reset of Level 2 or deeper: the constants (R50), 0 for a reserved signal, and AGE 15
for every other one (R399). -/
def boardReset (i : Nat) : Word :=
  if i = 1 then (⟨0x2000, 0, 0, false, false⟩ : Sig).word
  else if i = 2 then (⟨0x7FFF, 0, 0, false, false⟩ : Sig).word
  else if i = 3 then (⟨0x8000, 0, 0, false, false⟩ : Sig).word
  else if i = 0 ∨ isReservedSig i then 0
  else (⟨0, 0, 15, false, false⟩ : Sig).word

/-- The word of signal `i`. -/
def State.sigWord (s : State) (i : Nat) : Word := sget boardReset s.board i

/-- Every word of a list of signals has even parity (R56). -/
def wordsSound (s : State) (l : List Nat) : Bool := l.all (fun i => parityOk (s.sigWord i))

/-- The fields of signal `i`. -/
def State.sig (s : State) (i : Nat) : Sig := sigOf (s.sigWord i)

/-- The word of signal `i` replaced. -/
def State.setSig (s : State) (i : Nat) (g : Sig) : State := { s with board := sput boardReset s.board i g.word }

/-- When signal `i` was last written or aged (R53). -/
def State.agedAt (s : State) (i : Nat) : Nat := sget (fun _ => 0) s.aged i

/-- Signal `i` written or aged now. -/
def State.stamp (s : State) (i : Nat) : State := { s with aged := sput (fun _ => 0) s.aged i s.now }

/-- A write by a signal's writer: VALUE, SEQ + 1, AGE 0, SAT and TAINT as they apply (R52). -/
def State.sigWrite (s : State) (i val : Nat) (sat : Bool := false) (taint : Bool := false) : State :=
  (s.setSig i ⟨val % 65536, ((s.sig i).seq + 1) % 256, 0, sat, taint⟩).stamp i

/-- A period of the writer's rate without a write (R52): AGE counts one period after the last write or count. Constants
and reserved signals do not age (R50, R52). -/
def sigAge (i period : Nat) (s : State) : State :=
  if isConst i ∨ isReservedSig i ∨ 4096 ≤ i then s
  else
    let s1 := reachTime (s.agedAt i + period) s
    (s1.setSig i { s1.sig i with age := min 15 ((s1.sig i).age + 1) }).stamp i

/-- Whether a signal is stale under a loss limit (R54); constants and reserved signals never are. -/
def staleWord (limit i : Nat) (w : Word) : Bool :=
  !(isConst i || isReservedSig i) && decide (limit ≤ (sigOf w).age)

/-- The Q15 scalar a signal holds, as a signed code. -/
def State.sigInt (s : State) (i : Nat) : Int := toSigned 16 (s.sig i).val

end Sys2Proof.Machine
end

