-- ==== Sys2Proof/Machine/BridgeCfg.lean ====
section
/-! DEFINITION. What the bridge configuration says: kind, phases, legs and switches of a bridge, the bridge of a leg, and
the contactors (R15 to R22). -/

namespace Sys2Proof.Machine

open Sys2Proof

/-- KIND, NPHASE and legs per phase of a bridge (R15). -/
def kindOf (s : State) (b : Nat) : Nat := s.rd R.BR_CFG.KIND b
def nphaseOf (s : State) (b : Nat) : Nat := s.rd R.BR_CFG.NPHASE b
def nlegOf (s : State) (b : Nat) : Nat := s.rd R.BR_CFG.NLEG_M1 b + 1

/-- The first leg of a phase. -/
def phaseFirst (s : State) (b : Nat) : Nat → Nat
  | 0 => s.rd R.BR_PHASE.P0_FIRST b
  | 1 => s.rd R.BR_PHASE.P1_FIRST b
  | 2 => s.rd R.BR_PHASE.P2_FIRST b
  | _ => s.rd R.BR_PHASE.P3_FIRST b

/-- The legs of one phase (R16). -/
def phaseLegs (s : State) (b p : Nat) : List Nat := (List.range (nlegOf s b)).map (fun k => phaseFirst s b p + k)

/-- The legs of a bridge: leg i is position k of phase p with i = p × NLEG + k (R206). -/
def legsOf (s : State) (b : Nat) : List Nat :=
  if kindOf s b = 0 then [] else (List.range (nphaseOf s b)).flatMap (fun p => phaseLegs s b p)

/-- The master leg: the first leg of phase 0 (R57). -/
def masterLeg (s : State) (b : Nat) : Nat := phaseFirst s b 0

/-- CFG_OK and IMAGE_OK of a bridge. -/
def cfgOk (s : State) (b : Nat) : Bool := s.flag R.BR_STATUS.CFG_OK b
def imageOk (s : State) (b : Nat) : Bool := s.flag R.BR_STATUS.IMAGE_OK b

/-- MODE and STEP of a bridge (R24, R42). -/
def modeOf (s : State) (b : Nat) : Nat := s.rd R.BR_STATUS.MODE b
def stepOf (s : State) (b : Nat) : Nat := s.rd R.BR_STATUS.STEP b

/-- The bridge a leg belongs to, among those whose configuration is valid (R22). -/
def bridgeOfLeg (s : State) (n : Nat) : Option Nat :=
  (List.range 4).find? (fun b => cfgOk s b && (legsOf s b).contains n)

/-- The switches of a bridge: leg n has the high-side switch 2n and the low-side switch 2n + 1. -/
def switchesOf (s : State) (b : Nat) : List Nat := (legsOf s b).flatMap (fun n => [2 * n, 2 * n + 1])

/-- The masks of a bridge (R17). -/
def siteKon (s : State) (b : Nat) : Nat := s.rd R.BR_KON.SITE_KON b
def motorKon (s : State) (b : Nat) : Nat := s.rd R.BR_KON.MOTOR_KON b
def motorPol (s : State) (b : Nat) : Nat := s.rd R.BR_KON.MOTOR_POL b

/-- Two bridges share a bus, or a motor contactor (R20). -/
def sharesBus (s : State) (b c : Nat) : Bool := siteKon s b &&& siteKon s c != 0
def sharesMotor (s : State) (b c : Nat) : Bool := motorKon s b &&& motorKon s c != 0

end Sys2Proof.Machine
end

