-- ==== Sys2Proof/Machine/GraphImage.lean ====
section
/-! DEFINITION. A law image and a graph section read into their parts (R65 to R68). -/

namespace Sys2Proof.Machine

open Sys2Proof

/-- The little-endian 32-bit words of a byte string; a remainder below four bytes is left out. -/
def wordsOf : List Byte → List Nat
  | a :: b :: c :: d :: t => ofLe [a, b, c, d] :: wordsOf t
  | _ => []

/-- The little-endian 16-bit words of a byte string. -/
def halvesOf : List Byte → List Nat
  | a :: b :: t => ofLe [a, b] :: halvesOf t
  | _ => []

/-- SIG and PREV of a port word (R67). -/
def portSig (p : Nat) : Nat := p % 4096
def portPrev (p : Nat) : Bool := bitAt p 12

/-- One signal declaration (R66). -/
def parseSig (bs : List Byte) : SigDecl := ⟨leAt bs 0 2, byteAt bs 2, byteAt bs 3, leAt bs 4 2⟩

/-- `n` signal declarations. -/
def parseSigs : Nat → List Byte → List SigDecl
  | 0, _ => []
  | n + 1, bs => if bs = [] then [] else parseSig bs :: parseSigs n (bs.drop 8)

/-- The length of a record with its ports and its padding (R67). -/
def recordLen (nin nout : Nat) : Nat := 16 + (2 * (nin + nout) + 3) / 4 * 4

/-- One block record (R67). -/
def parseRec (bs : List Byte) : BlockRec :=
  let nin := byteAt bs 6
  let nout := byteAt bs 7
  { op := byteAt bs 0, tver := byteAt bs 1, rate := byteAt bs 2, phase := byteAt bs 3, cls := byteAt bs 4
    coloc := byteAt bs 5, nin := nin, nout := nout, npar := leAt bs 8 2, stateW := leAt bs 10 2, parIdx := leAt bs 12 4
    ins := halvesOf (slice bs 16 (2 * nin)), outs := halvesOf (slice bs (16 + 2 * nin) (2 * nout)) }

/-- `n` block records and how many bytes they take. -/
def parseRecs : Nat → List Byte → List BlockRec × Nat
  | 0, _ => ([], 0)
  | n + 1, bs =>
    if bs = [] then ([], 16)
    else
      let r := parseRec bs
      let l := recordLen r.nin r.nout
      let t := parseRecs n (bs.drop l)
      (r :: t.1, l + t.2)

/-- The bytes the block record table takes. -/
def recordsLen (sec : List Byte) : Nat := (parseRecs (leAt sec 4 2) (sec.drop (leAt sec 0x28 4))).2

/-- A graph section read into its parts (R65 to R67). -/
def parseGraph (sec : List Byte) : Graph :=
  { bridge := byteAt sec 0, kind := byteAt sec 1, nphase := byteAt sec 2, nleg := byteAt sec 3
    nblock := leAt sec 4 2, nsig := leAt sec 6 2, beatHalf := byteAt sec 8, beatEdge := byteAt sec 9
    beatMin := leAt sec 0x0C 4, beatMax := leAt sec 0x10 4, vb := leAt sec 0x14 4, ib := leAt sec 0x18 4
    fb := leAt sec 0x1C 4, vdcb := leAt sec 0x20 4, sigOff := leAt sec 0x24 4, blkOff := leAt sec 0x28 4
    parOff := leAt sec 0x2C 4, parLen := leAt sec 0x30 4, iniOff := leAt sec 0x34 4, iniLen := leAt sec 0x38 4
    sigs := parseSigs (leAt sec 6 2) (sec.drop (leAt sec 0x24 4))
    blocks := (parseRecs (leAt sec 4 2) (sec.drop (leAt sec 0x28 4))).1
    par := wordsOf (slice sec (leAt sec 0x2C 4) (leAt sec 0x30 4))
    ini := wordsOf (slice sec (leAt sec 0x34 4) (leAt sec 0x38 4)) }

/-- The graph digest of a section (R68). -/
def graphDigest (sec : List Byte) : List Byte := Config.sha256 sec

/-- The structure digest of a section (R68). -/
def structDigest (sec : List Byte) : List Byte :=
  Config.sha256 (sec.take 0x14 ++ slice sec (leAt sec 0x24 4) (8 * leAt sec 6 2)
    ++ slice sec (leAt sec 0x28 4) (recordsLen sec))

/-- The parameter words of a record (R67). -/
def recPars (g : Graph) (r : BlockRec) : List Nat := (g.par.drop r.parIdx).take r.npar

/-- The initial state of the record at index `i` (R67). -/
def recInit (g : Graph) (i : Nat) : List Nat :=
  let off := ((g.blocks.take i).map (·.stateW)).foldl (· + ·) 0
  (g.ini.drop off).take ((g.blocks.map (·.stateW)).getD i 0)

/-- A record of a graph. -/
def Graph.recAt (g : Graph) (i : Nat) : BlockRec := g.blocks.getD i ⟨0, 0, 0, 0, 0, 0, 0, 0, 0, 0, 0, [], []⟩

/-- The signal an input or an output of a record is on. -/
def BlockRec.inSig (r : BlockRec) (k : Nat) : Nat := portSig (r.ins.getD k 0)
def BlockRec.outSig (r : BlockRec) (k : Nat) : Nat := portSig (r.outs.getD k 0)

/-- The signals a graph writes (R67: an output on 0x000 discards its result). -/
def Graph.writes (g : Graph) : List Nat := (g.blocks.flatMap (fun r => r.outs.map portSig)).filter (· ≠ 0)

/-- The declaration of a signal in a graph (R66). -/
def Graph.decl (g : Graph) (i : Nat) : Option SigDecl := g.sigs.find? (fun d => d.index = i)

/-- The record indices of a type. -/
def Graph.ofType (g : Graph) (op : Nat) : List Nat := (List.range g.blocks.length).filter (fun i => (g.recAt i).op = op)

/-- The first record of a type. -/
def Graph.typed (g : Graph) (op : Nat) : Option BlockRec := g.blocks.find? (fun r => r.op = op)

/-- The records the record `i` reads from within the beat (R60). -/
def Graph.deps (g : Graph) (i : Nat) : List Nat :=
  let sigs := ((g.recAt i).ins.filter (fun p => !portPrev p && portSig p != 0)).map portSig
  (List.range g.blocks.length).filter (fun j => (g.recAt j).outs.any (fun p => sigs.contains (portSig p)))

/-- Records in an order that respects every same-beat dependency, the lowest ready index first (R60). -/
def orderFrom (deps : List (List Nat)) : Nat → List Nat → List Nat
  | 0, done => done
  | k + 1, done =>
    match (List.range deps.length).find? (fun i => !done.contains i && (deps.getD i []).all (fun j => done.contains j)) with
    | some i => orderFrom deps k (done ++ [i])
    | none => done

/-- The order of a graph's records within a beat. -/
def Graph.order (g : Graph) : List Nat :=
  orderFrom ((List.range g.blocks.length).map g.deps) g.blocks.length []

/-- The records reachable through same-beat reads in at most `k` more steps. -/
def reachFrom (deps : List (List Nat)) : Nat → List Nat → List Nat
  | 0, set => set
  | k + 1, set => reachFrom deps k ((set ++ set.flatMap (fun i => deps.getD i [])).eraseDups)

/-- Whether a record lies on a cycle of same-beat reads. -/
def Graph.onCycle (g : Graph) (i : Nat) : Bool :=
  let deps := (List.range g.blocks.length).map g.deps
  (reachFrom deps g.blocks.length (deps.getD i [])).contains i

/-- The rate divider N of R70. -/
def rateDiv (r : Nat) : Nat := if r ≤ 4 then 2 ^ r else 1

/-- The fixed-rate grid period of a rate code, ticks (R61). -/
def gridOf (r : Nat) : Nat := if r = 5 then 40000 else if r = 6 then 400000 else 4000000

/-- Σ cost / N over some records, in sixteenths of a cycle (R70). -/
def load16 (rs : List BlockRec) : Nat := (rs.map (fun r => (blockType r.op).cost * 16 / rateDiv r.rate)).foldl (· + ·) 0

/-! ### Image RAM -/

/-- The graph that image RAM holds for a bridge. -/
def loadedGraph (s : State) (b : Nat) : Option Graph := (s.br b).ram.map (fun r => parseGraph r.bytes)

/-- Bytes of image RAM that are taken: each section and its two digests (R78). -/
def ramUsed (s : State) : Nat :=
  ((List.range 4).map (fun b => match (s.br b).ram with | some r => r.bytes.length + 64 | none => 0)).foldl (· + ·) 0

/-- The block library version of the running firmware (R81). -/
def libVer : Nat := min 0xFFFF (0x0100 + Config.libVerExtra)

/-! ### Conditions of use (R115, R139) -/

/-- A signal reaches the bridge's reaction sink directly, or through one REACT_MUX whose REQ is the sink. -/
def reachesSink (g : Graph) (i : Nat) : Bool :=
  let sink := 0xF40 + g.bridge
  i != 0 && (decide (i = sink) ||
    g.blocks.any (fun r => decide (r.op = 0x2E) && decide (r.outSig 0 = sink) && (r.ins.map portSig).contains i))

/-- The first failing condition of R115, codes 1 to 7; 0 none. -/
def gfErr7 (g : Graph) : Nat :=
  match g.typed 0x1C, g.typed 0x20, g.typed 0x21 with
  | some v, some l, some e =>
    if (g.ofType 0x1C).length ≠ 1 then 1
    else if (g.typed 0x1B).isNone then 2
    else if l.outSig 0 = 0 ∨ v.inSig 2 ≠ l.outSig 0 ∨ (recPars g v).head? ≠ (recPars g l).head? then 5
    else if v.inSig 4 ≠ 0x121 + 4 * g.bridge then 6
    else if reachesSink g (e.outSig 0) = false then 7
    else 0
  | v, l, e =>
    if v.isNone ∨ (g.ofType 0x1C).length ≠ 1 then 1 else if (g.typed 0x1B).isNone then 2 else if e.isNone then 3
    else if l.isNone then 4 else 0

/-- The first failing condition of R115, codes 1 to 8; 0 none. -/
def gfErr8 (g : Graph) : Nat :=
  if gfErr7 g ≠ 0 then gfErr7 g
  else if g.blocks.any (fun r => decide (r.op = 0x23) && decide (r.inSig 0 = 0x120 + 4 * g.bridge)) then 0
  else 8

/-- The first failing condition of R139; 0 none. -/
def trErrOf (g : Graph) : Nat :=
  let fs := g.blocks.filter (fun r => r.op = 0x25)
  let fe := g.blocks.filter (fun r => r.op = 0x24)
  if fs = [] then 1
  else if fe = [] then 2
  else if !(fs.all (fun r => reachesSink g (r.outSig 1)) && fe.all (fun r => reachesSink g (r.outSig 0))) then 3
  else if !(g.blocks.any (fun r => (r.ins.map portSig).contains (0x130 + 4 * g.bridge))) then 4
  else if fs.any (fun r => decide ((recPars g r).head? = some 3) && decide (r.inSig 2 = 0)) then 5
  else 0

end Sys2Proof.Machine
end

