-- ==== Sys2Proof/Machine/Flash.lean ====
section
/-! DEFINITION. The flash: one operation at a time, in the order of precedence of R457. The operations with a start and an
end of their own are 1 counter checkpoint, 2 calibration record, 3 ledger checkpoint, 4 firmware bank, 5 image store. -/

namespace Sys2Proof.Machine

open Sys2Proof

/-- Operation `k` has been asked for and has not ended. -/
def flashPending (s : State) : Nat → Bool
  | 1 => s.sec.cpRun.isSome || s.sec.resync.isSome
  | 2 => s.cal.store.isSome
  | 3 => s.ledger.run.isSome
  | 4 => s.sec.commit.isSome
  | 5 => s.graphs.storing.isSome
  | _ => false

/-- The rank of an operation (R457): a firmware bank and an image store share one. -/
def flashRank (k : Nat) : Nat := min k 4

/-- The operation that runs: the one that began, while it has not ended; then the waiting one of the lowest rank, of which
a suspended one resumes first. -/
def flashNow (s : State) : Option Nat :=
  let waits := fun (k : Nat) => flashPending s k
  match s.bg.flashRun.filter waits with
  | some k => some k
  | none =>
    match [1, 2, 3].find? waits with
    | some k => some k
    | none =>
      match s.bg.flashSusp.filter waits with
      | some k => some k
      | none => [4, 5].find? waits

/-- Operation `k` is asked for in a state in which it is not yet pending: it runs at once where none does, suspends one of a
lower rank where its own is 1 to 3, and waits otherwise (R457). -/
def flashBegin (k : Nat) (s : State) : State :=
  match flashNow s with
  | none => { s with bg := { s.bg with flashRun := some k } }
  | some j =>
    if k ≤ 3 ∧ 4 ≤ flashRank j then { s with bg := { s.bg with flashRun := some k, flashSusp := some j } }
    else { s with bg := { s.bg with flashRun := some j } }

/-- The parts that Levels 0 and 1 alone reach are up: no such reset is in force, or its start has gone past them (R418, R452). -/
def systemUp (s : State) : Bool :=
  match s.rst.owed with | some l => decide (2 ≤ l) || s.rst.starting.isSome | none => true

/-- The parts of Level 2 are up (R418, R452). -/
def controlUp (s : State) : Bool := s.rst.owed.isNone && s.rst.joint.isNone

/-- No operation of rank 1 to 4 runs or waits: a flush, an erase ahead or a patrol read may take the flash (R457). -/
def flashFree (s : State) : Bool := (flashNow s).isNone

end Sys2Proof.Machine
end

