-- ==== Sys2Proof/Machine/Packet.lean ====
section
/-! DEFINITION. Vangat packets as bytes: building and reading a command or a reply (R303 to R307, R309, R311). -/

namespace Sys2Proof.Machine

open Sys2Proof

/-- A packet taken apart (R303). -/
structure Packet where
  seq    : Nat
  opcode : Nat
  flags  : Nat
  params : List Byte
  auth   : Option Auth
  deriving DecidableEq, Repr

/-- LENGTH of a packet (R303). -/
def packetLength (p : Packet) : Nat :=
  p.params.length + (if p.auth.isSome then 24 else 11)

/-- The bytes from SYNC to the end of PARAMS (R303). -/
def packetHead (p : Packet) : List Byte :=
  [0xA5] ++ le 2 (packetLength p) ++ le 1 p.seq ++ le 2 p.opcode ++ le 1 p.flags ++ p.params

/-- The bytes of KEY_SLOT and COUNTER. -/
def authHead (a : Auth) : List Byte := le 1 a.slot ++ le 4 a.counter

/-- The bytes of a packet before its CRC. -/
def packetBody (p : Packet) : List Byte :=
  packetHead p ++ (match p.auth with | some a => authHead a ++ padTo 8 (a.tag.take 8) | none => [])

/-- A packet as bytes, its CRC at the end (R303, R304). -/
def packetBytes (p : Packet) : List Byte := packetBody p ++ le 4 (crc32c (packetBody p))

/-- The message a tag covers: the serial, the direction byte, and the packet from SYNC to the end of COUNTER (R309). -/
def tagMessage (dir : Byte) (p : Packet) : List Byte :=
  le 8 Config.serial.toNat ++ [dir] ++ packetHead p ++ (match p.auth with | some a => authHead a | none => [])

/-- Check 1 of R307. -/
def frameOk (bs : List Byte) : Bool :=
  decide (11 ≤ bs.length) && decide (byteAt bs 0 = 0xA5) && decide (leAt bs 1 2 = bs.length) && decide (bs.length ≤ 1280)
    && decide (byteAt bs 6 ≤ 1) && (decide (byteAt bs 6 = 0) || decide (24 ≤ bs.length))

/-- Check 2 of R307. -/
def crcOk (bs : List Byte) : Bool := decide (leAt bs (bs.length - 4) 4 = crc32c (bs.take (bs.length - 4)))

/-- The packet that bytes passing checks 1 and 2 of R307 spell. -/
def parsePacket (bs : List Byte) : Packet :=
  let n := bs.length
  let a := byteAt bs 6 % 2 = 1
  { seq := byteAt bs 3, opcode := leAt bs 4 2, flags := byteAt bs 6,
    params := slice bs 7 (if a then n - 24 else n - 11),
    auth := if a then some ⟨byteAt bs (n - 17), leAt bs (n - 16) 4, slice bs (n - 12) 8⟩ else none }

/-- The command packet a header, an opcode and parameters stand for. -/
def commandPacket (h : Hdr) (op : Nat) (params : List Byte) : Packet :=
  ⟨h.seq, op, b2n h.auth.isSome, params, h.auth⟩

end Sys2Proof.Machine
end

