-- ==== Sys2Proof/Machine/HostPort.lean ====
section
/-! DEFINITION. What every host command shares: the authentication step (R309), the counters of the key slots (R387),
the reply (R303, R311), the end of an ACCEPTED command (R321), and the acceptance of a command (R307, R323, R420). -/

namespace Sys2Proof.Machine

open Sys2Proof

/-! ### Status codes (R306) -/
def stDone : Nat := 0x00
def stAccepted : Nat := 0x01
def stBadFrame : Nat := 0x10
def stBadCrc : Nat := 0x11
def stUnknownOpcode : Nat := 0x12
def stBadParam : Nat := 0x13
def stAuthRequired : Nat := 0x20
def stAuthFail : Nat := 0x21
def stCounterStale : Nat := 0x22
def stWrongMode : Nat := 0x30
def stBusy : Nat := 0x31
def stDeferred : Nat := 0x32
def stSafetyRefused : Nat := 0x40
def stNoResource : Nat := 0x50
def stInternal : Nat := 0x60

/-- What a command's own checks and effect come to: status, reply data, the key of a passed authentication step, and
the state. -/
structure Res where
  status : Nat
  data   : List Byte
  key    : Option (List Byte)
  st     : State
  deriving DecidableEq, Repr

/-- A refusal: no reply data, nothing changed (R305, R306). -/
def refuse (status : Nat) (s : State) : Res := ⟨status, [], none, s⟩

/-- DONE with reply data. -/
def doneWith (data : List Byte) (s : State) : Res := ⟨stDone, data, none, s⟩

/-- DONE without reply data. -/
def done (s : State) : Res := doneWith [] s

/-! ### Key slots and counters (R382, R387, R388) -/

/-- The key of a slot's newest generation. -/
def slotKey (s : State) (slot : Nat) : List Byte :=
  sget (fun k => Config.factoryKey k) s.sec.keys (8 * slot + s.rd R.SEC_SLOT.GEN 0 slot)

/-- Who may pass an authentication step (R383). -/
inductive AuthRule where
  | any
  | adminOnly
  /-- any ADMIN slot, or the CMD slot the command names -/
  | resync (slot : Nat)
  deriving DecidableEq, Repr

/-- Whether a slot is ACTIVE with a use that permits the command (R309 step 2, R382, R383). -/
def slotUsable (s : State) (rule : AuthRule) (slot : Nat) : Bool :=
  decide (slot ≤ 15) && decide (s.rd R.SEC_SLOT.STATE 0 slot = 1) &&
  (decide (s.rd R.SEC_SLOT.USE 0 slot = 2) ||
    (decide (s.rd R.SEC_SLOT.USE 0 slot = 1) &&
      (match rule with | .any => true | .adminOnly => false | .resync k => decide (k = slot))))

/-- Whether a slot has a counter: use CMD or ADMIN (14_security.md, Counters). -/
def hasCounter (s : State) (slot : Nat) : Bool :=
  decide (s.rd R.SEC_SLOT.USE 0 slot = 1) || decide (s.rd R.SEC_SLOT.USE 0 slot = 2)

/-- The limit at which a slot is exhausted (R387). -/
def epochLimit (s : State) : Nat := (s.sec.epoch + 1) * 0x20000000 - 256

/-- The epoch base (R388). -/
def epochBase (s : State) : Nat := s.sec.epoch * 0x20000000

/-- A slot whose counter has reached the epoch limit becomes EXHAUSTED (R387). -/
def exhaustSlot (slot : Nat) (s : State) : State :=
  if hasCounter s slot ∧ s.rd R.SEC_SLOT.STATE 0 slot = 1 ∧ epochLimit s ≤ s.rd R.SEC_CTR.C 0 slot then
    (s.wr2 R.SEC_SLOT.STATE 0 slot 2).raise R.SEC_EVENT.EXHAUST_EV
  else s

/-- The slots a checkpoint is due for: C − CP at least 768 (R387). -/
def checkpointDue (s : State) : List Nat :=
  (List.range 16).filter (fun k => hasCounter s k && decide (s.rd R.SEC_CP.CP 0 k + 768 ≤ s.rd R.SEC_CTR.C 0 k))

/-- Start a counter checkpoint of the given slots where none is being written (R387, R397). -/
def startCheckpoint (slots : List Nat) (s : State) : State :=
  if s.sec.cpRun.isSome ∨ slots = [] then s
  else
    let s1 := flashBegin 1 s
    { s1 with sec := { s.sec with cpRun := some (slots.map (fun k => (k, s.rd R.SEC_CTR.C 0 k))) } }

/-- What follows a change of a counter: exhaustion and the start of a checkpoint (R387). -/
def afterCounter (slot : Nat) (s : State) : State :=
  let s := exhaustSlot slot s
  startCheckpoint (checkpointDue s) s

/-- The status of the authentication step; DONE where it passes (R309, R387 guard). -/
def authStatus (h : Hdr) (op : Nat) (params : List Byte) (rule : AuthRule) (s : State) : Nat :=
  match h.auth with
  | none => stAuthRequired
  | some a =>
    if slotUsable s rule a.slot = false then stAuthFail
    else if a.tag ≠ (Config.cmac (slotKey s a.slot) (tagMessage 0 (commandPacket h op params))).take 8 then stAuthFail
    else if a.counter ≤ s.rd R.SEC_CTR.C 0 a.slot ∨ s.rd R.SEC_CTR.C 0 a.slot + 256 < a.counter then stCounterStale
    else if s.rd R.SEC_CP.CP 0 a.slot + 1024 ≤ a.counter then stBusy
    else stDone

/-- The state after an authentication step: a passed step consumes the counter (R309 step 5), a failed one counts
AUTH_FAIL alone (VG_COUNT) and sets AUTHF_EV. -/
def authConsume (h : Hdr) (status : Nat) (s : State) : State :=
  match h.auth with
  | some a =>
    if status = stDone then afterCounter a.slot (s.wr2 R.SEC_CTR.C 0 a.slot a.counter)
    else if status = stAuthFail then (s.countUp R.VG_COUNT.AUTH_FAILS).raise R.VG_EVENT.AUTHF_EV
    else s
  | none => s

/-- The key of the slot that authenticates a command. -/
def authKey (h : Hdr) (s : State) : List Byte := slotKey s (match h.auth with | some a => a.slot | none => 0)

/-- A command's checks after its authentication step: the step, then `k` (R309 to R311). -/
def withAuth (h : Hdr) (op : Nat) (params : List Byte) (rule : AuthRule) (s : State) (k : State → Res) : Res :=
  let status := authStatus h op params rule s
  if status = stDone then
    { k (authConsume h status s) with key := some (authKey h s) }
  else refuse status (authConsume h status s)

/-! ### Replies -/

/-- The reply to a command (R303, R305, R311). `dup` is the DUP flag of R324. -/
def replyBytes (h : Hdr) (op : Nat) (r : Res) (dup : Bool) : List Byte :=
  let params := le 1 r.status ++ (if r.status = stDone ∨ r.status = stAccepted then r.data else [])
  match r.key, h.auth with
  | some key, some a =>
    let p : Packet := ⟨h.seq, op, 3 + 4 * b2n dup, params, some ⟨a.slot, a.counter, []⟩⟩
    packetBytes { p with auth := some ⟨a.slot, a.counter, (Config.cmac key (tagMessage 1 p)).take 8⟩ }
  | _, _ => packetBytes ⟨h.seq, op, 2 + 4 * b2n dup, params, none⟩

/-- The transport a command came by. -/
def State.transport (s : State) (can : Bool) : Transport := if can then s.host.can else s.host.spi

/-- One transport replaced. -/
def State.setTransport (s : State) (can : Bool) (t : Transport) : State :=
  { s with host := if can then { s.host with can := t } else { s.host with spi := t } }

/-- A reply put at the end of a transport's reply queue. -/
def queueReply (can : Bool) (bytes : List Byte) (s : State) : State :=
  s.setTransport can { s.transport can with rp := (s.transport can).rp ++ [bytes] }

/-- Whether a transport's reply queue has room (R315, R319). -/
def replyRoom (s : State) (can : Bool) : Bool := decide ((s.transport can).rp.length < 8)

/-- VG_ERR takes a command that completes with neither DONE nor ACCEPTED (R333). -/
def recordError (can : Bool) (op status : Nat) (s : State) : State :=
  ((s.wr R.VG_ERR.LAST_OP 0 op).wr R.VG_ERR.LAST_ERR 0 status).wr R.VG_ERR.LAST_SRC 0 (b2n can)

/-- The last refused command, for VG_ERR (R333). -/
def recordRefusal (h : Hdr) (op status : Nat) (s : State) : State :=
  if status = stDone ∨ status = stAccepted then s else recordError h.can op status s

/-! ### ACCEPTED commands (R321, R322) -/

/-- An ACCEPTED command begins to run. -/
def beginRun (op seq obj : Nat) (s : State) : State :=
  { s with host := { s.host with running := s.host.running ++ [⟨op, seq, obj⟩] } }

/-- Whether a command of an opcode runs on an object. -/
def isRunning (s : State) (op obj : Nat) : Bool :=
  s.host.running.any (fun r => decide (r.op = op) && decide (r.obj = obj))

/-- An ACCEPTED command ends: VG_ASYNC takes OPCODE, SEQ and RESULT, and ASYNC_EV sets (R321). -/
def endRun (op obj result : Nat) (s : State) : State :=
  match s.host.running.find? (fun r => decide (r.op = op) && decide (r.obj = obj)) with
  | none => s
  | some r =>
    let s1 := { s with host := { s.host with running := s.host.running.erase r } }
    (((s1.wr R.VG_ASYNC.OPCODE 0 r.op).wr R.VG_ASYNC.SEQ 0 r.seq).wr R.VG_ASYNC.RESULT 0 result).raise
      R.VG_EVENT.ASYNC_EV

/-! ### Acceptance -/

/-- The opcodes with the least and greatest parameter lengths (R331, R71, R188, R270, R301). -/
def opTable : List (Nat × Nat × Nat) :=
  [(0x0101, 0, 0), (0x0102, 0, 0), (0x0103, 2, 2), (0x0104, 0, 0), (0x0105, 0, 0), (0x0106, 6, 6),
   (0x0201, 3, 3), (0x0202, 1, 1), (0x0203, 1, 1),
   (0x0301, 4, 4), (0x0302, 5, 1028), (0x0303, 0, 0), (0x0304, 2, 2), (0x0305, 1, 1), (0x0306, 1, 1), (0x0307, 1, 1),
   (0x0308, 1, 1), (0x0309, 1, 1),
   (0x0401, 6, 6), (0x0402, 10, 1030),
   (0x0501, 1, 1), (0x0502, 1, 1), (0x0503, 1, 1), (0x0504, 0, 0), (0x0505, 11, 11), (0x0506, 5, 5),
   (0x0601, 2, 2), (0x0602, 4, 4), (0x0603, 8, 8), (0x0604, 8, 8), (0x0605, 1, 1),
   (0x0701, 0, 0), (0x0702, 0, 0), (0x0703, 2, 2)] ++
  [(0x0801, 1, 1), (0x0802, 5, 5), (0x0803, 2, 161), (0x0804, 1, 1), (0x0805, 1, 1), (0x0806, 4, 4), (0x0807, 5, 1028),
   (0x0808, 0, 0), (0x0809, 0, 0), (0x080A, 1, 1),
   (0x0901, 5, 65), (0x0902, 1, 1), (0x0903, 1, 1), (0x0904, 4, 4),
   (0x0A01, 1, 1), (0x0A02, 2, 33), (0x0A03, 1, 1), (0x0A04, 1, 1),
   (0x0B01, 1, 1), (0x0B02, 3, 3), (0x0B03, 2, 2),
   (0x0C01, 1, 1), (0x0C02, 513, 513), (0x0C03, 1, 1), (0x0C04, 0, 0), (0x0C05, 6, 6)]

/-- Check 5 of R307: P lies within the parameter length of the opcode. -/
def lengthOk (op p : Nat) : Bool := opTable.any (fun e => e.1 == op && decide (e.2.1 ≤ p) && decide (p ≤ e.2.2))

/-- The commands R420 admits before START_DONE. -/
def admittedEarly (op : Nat) : Bool :=
  op ∈ [0x0101, 0x0102, 0x0203, 0x0401, 0x0801, 0x0809, 0x0701, 0x0702, 0x0703]

/-- The commands the recovery loader accepts (R395). -/
def admittedRecovery (op : Nat) : Bool := op ∈ [0x0101, 0x0102, 0x0801, 0x0809, 0x0806, 0x0807, 0x0808]

/-- CAN_ON: the CAN transport runs (R318, R319). -/
def canOn (s : State) : Bool :=
  s.host.serving && s.flag R.VG_CAN_CFG.CAN_EN && decide (s.rd R.ID_STATUS.OPT_SRC ≠ 3) && !s.flag R.ID_STATUS.MIN_SERVICE

/-- The commands the interpreter takes at all: it serves, it holds no reply back, the reply queue has room, and the
transport runs (R316, R319, R323, R74). -/
def takes (s : State) (can : Bool) : Bool :=
  s.host.serving && decide (s.host.heldMask = 0) && (replyRoom s can && (!can || canOn s))

/-- A stored reply with DUP set, its TAG where it has one and its CRC computed afresh (R311, R324). -/
def dupReply (reply : List Byte) (s : State) : List Byte :=
  let p := { parsePacket reply with flags := byteAt reply 6 % 4 + 4 }
  match p.auth with
  | some a => packetBytes { p with auth := some { a with tag := (Config.cmac (slotKey s a.slot) (tagMessage 1 p)).take 8 } }
  | none => packetBytes p

/-- The packet is the last one its transport executed, within 1 s of its acceptance (R324). -/
def isRepeat (m : Option LastPkt) (x : RxPkt) : Bool :=
  match m with
  | some l => decide (l.bytes = x.bytes) && decide (x.at_ ≤ l.at_ + tSec)
  | none => false

/-- A command that arrives now repeats the last packet of its transport (R324). -/
def repeatsLast (h : Hdr) (op : Nat) (params : List Byte) (s : State) : Bool :=
  isRepeat (s.transport h.can).last ⟨s.now, packetBytes (commandPacket h op params)⟩

/-- A repeat is not executed: its stored reply is queued again, and counted (R324). -/
def answerRepeat (can : Bool) (s : State) : State :=
  match (s.transport can).last with
  | some l => queueReply can (dupReply l.reply s) (s.countUp R.VG_COUNT2.DUPS)
  | none => s

/-- The status check 5 and the first part of check 6 of R307 end a command with, DONE where its own checks follow. -/
def admission (op plen : Nat) (s : State) : Nat :=
  if lengthOk op plen = false then stBadParam
  else if s.rd R.RS_STATUS.START_DONE = 0 ∧ admittedEarly op = false then stBusy
  else if s.rd R.SEC_STATUS.RECOVERY = 1 ∧ admittedRecovery op = false then stWrongMode
  else stDone

/-- A reply queued, and the memory of R324. -/
def sendReply (can : Bool) (cmd reply : List Byte) (s : State) : State :=
  let s1 := queueReply can reply s
  s1.setTransport can { s1.transport can with last := some ⟨cmd, reply, s.now⟩ }

/-- A reply sent at once, or held back while a swap or a SASH_LOAD waits for a bridge (R74, R209) or a key operation for a
checkpoint (R397). A command that a reset of the host port has met gets none (R325). -/
def giveReply (h : Hdr) (op : Nat) (cmd : List Byte) (r : Res) (s : State) : State :=
  if s.host.serving = false then s
  else if s.host.heldMask = 0 then sendReply h.can cmd (replyBytes h op r false) s
  else { s with host := { s.host with
    held := some ⟨h.can, op, cmd, replyBytes h op r false, replyBytes h op ⟨stInternal, [], r.key, s⟩ false, s.now⟩ } }

/-- The reply held back until bridge mask bit `k` falls, and at the latest until `due` plus the second of R332. -/
def holdReply (k due : Nat) (s : State) : State :=
  { s with host := { s.host with heldMask := s.host.heldMask ||| 2 ^ k, heldDue := max s.host.heldDue (due + 400000000) } }

/-- Nothing is held back any more. -/
def dropHeld (s : State) : State := { s with host := { s.host with heldMask := 0, held := none, heldDue := 0 } }

/-- A reply that was held back goes out; its command counts from its acceptance (R324). -/
def sendHeld (r : Held) (reply : List Byte) (s : State) : State :=
  let s1 := sendReply r.can r.cmd reply (dropHeld s)
  s1.setTransport r.can { s1.transport r.can with last := some ⟨r.cmd, reply, r.at_⟩ }

/-- A reply held back for 1 s more than the maximum of its command goes out as INTERNAL (R332). -/
def expireHeld (s : State) : State :=
  match s.host.held with
  | some r =>
    if s.host.heldMask ≠ 0 ∧ s.host.heldDue ≤ s.now then recordError r.can r.op stInternal (sendHeld r r.internal s) else s
  | none => s

/-- Bit `b` of what a reply waits for falls; the reply held back goes out with the last one (R74, R397). -/
def swapSettled (b : Nat) (s0 : State) : State :=
  let s := expireHeld s0
  if bitAt s.host.heldMask b then
    let m := s.host.heldMask - 2 ^ b
    match m, s.host.held with
    | 0, some r => sendHeld r r.reply s
    | _, _ => { s with host := { s.host with heldMask := m } }
  else s

/-! ### COUNTER_RESYNC (R387, R390, R457) -/

/-- CP of every slot as a checkpoint copy holds it. -/
def cpValues (s : State) : List (Nat × Nat) :=
  (List.range 16).foldl (fun m k => sput (fun _ => 0) m k (s.rd R.SEC_CP.CP 0 k)) []

/-- A checkpoint record with the values given stands as the newer copy; the newest valid one before it becomes the older
(R387, R456). -/
def applyCheckpoint (l : List (Nat × Nat)) (s : State) : State :=
  let sec := if bitAt s.sec.cpBad 0 then { s.sec with cpBad := s.sec.cpBad - 1 } else { s.sec with cpOld := cpValues s, cpBad := 0 }
  l.foldl (fun s kv => s.wr2 R.SEC_CP.CP 0 kv.1 kv.2) { s with sec := sec }

/-- The record of a COUNTER_RESYNC is written, and the slot's counter takes its value; a counter that has gone past it while the
record waited stays (R390). -/
def writeResync (slot value : Nat) (s : State) : State :=
  (applyCheckpoint [(slot, value)] s).wr2 R.SEC_CTR.C 0 slot (max value (s.rd R.SEC_CTR.C 0 slot))

/-- A command of a known opcode with its parameters, taken by the interpreter: a repeat is answered as one (R324), any other
goes through checks 5 and 6 of R307, the command's own checks and effect, its reply, and the memory of R324. A command that
is not taken changes nothing. -/
def acceptCmd (h : Hdr) (op : Nat) (params : List Byte) (body : State → Res) (s0 : State) : State :=
  let s := expireHeld s0
  if takes s h.can = false then s
  else if repeatsLast h op params s then answerRepeat h.can s
  else
    let a := admission op params.length s
    let r := if a = stDone then body s else refuse a s
    giveReply h op (packetBytes (commandPacket h op params)) r (recordRefusal h op r.status r.st)

/-- The command is taken, is no repeat, and its own checks decide: what a completion of a host command asks of the
state. -/
def ready (s : State) (h : Hdr) (op : Nat) (params : List Byte) : Bool :=
  takes s h.can && !repeatsLast h op params s && decide (admission op params.length s = stDone)

/-- The timing islands beside those of the minimum service set are held in reset: the device runs on its reference clock, or
in the recovery loader (R395, R429). -/
def islandsHeld (s : State) : Bool := s.flag R.CK_STATUS.BYPASS || s.flag R.SEC_STATUS.RECOVERY

/-! ### Attention (R320) -/

/-- VG_EVENT with its REPLY bit, which shows whether the SPI reply queue is empty. -/
def vgEvent (s : State) : Nat := setBits (s.reg A.VG_EVENT).toNat 0 1 (b2n (decide (s.host.spi.rp ≠ [])))

/-- Whether ATTN_N is driven low (R320); the pin is high-impedance until the interpreter serves (R421). -/
def attn (s : State) : Bool :=
  s.host.serving && ((s.reg A.DEV_EVENT).toNat &&& s.rd R.DEV_EVENT_EN.EN != 0 || vgEvent s &&& s.rd R.VG_ATTN_EN.EN != 0)

end Sys2Proof.Machine
end

