-- ==== Sys2Proof/Machine/ConvCfg.lean ====
section
/-! DEFINITION. What the measurement configuration says: owners, slot lists, times (R256 to R263), and the measurement
conditions of a mode entry (R269). -/

namespace Sys2Proof.Machine

open Sys2Proof

/-- The owner of converter `c` (R260). -/
def convOwner (s : State) (c : Nat) : Option Nat :=
  if s.rd R.CV_CFG.TRIG_LEG c < 24 then bridgeOfLeg s (s.rd R.CV_CFG.TRIG_LEG c) else none

/-- The eight slot codes of a converter. -/
def slotCodes (s : State) (c : Nat) : List Nat :=
  [s.rd R.CV_SLOTS0.SLOT0 c, s.rd R.CV_SLOTS0.SLOT1 c, s.rd R.CV_SLOTS0.SLOT2 c, s.rd R.CV_SLOTS0.SLOT3 c,
   s.rd R.CV_SLOTS1.SLOT4 c, s.rd R.CV_SLOTS1.SLOT5 c, s.rd R.CV_SLOTS1.SLOT6 c, s.rd R.CV_SLOTS1.SLOT7 c]

/-- The slots a trigger converts: those before the first 0xFF (R256, R263). -/
def slotList (s : State) (c : Nat) : List Nat := (slotCodes s c).takeWhile (· ≠ 0xFF)

/-- TCONV, ticks (R257, R268). -/
def tConv (s : State) (c : Nat) : Nat := if s.flag R.CV_CFG.LP c then 400 else 40

/-- A converter in continuous mode (R259). -/
def isContinuous (s : State) (c : Nat) : Bool := s.flag R.CV_CFG.MODE c

/-- A converter converts: enabled and not FAILED (R268). -/
def convLive (s : State) (c : Nat) : Bool := s.flag R.CV_CFG.EN c && decide (s.rd R.CV_STATUS.STATE c ≠ 2)

/-- The slot codes a converter converts in its mode. -/
def convCodes (s : State) (c : Nat) : List Nat := if isContinuous s c then [s.rd R.CV_CFG.CONT_IN c] else slotList s c

/-- The external input of slot code `k` on converter `c` (R256). -/
def codeInput (c k : Nat) : Option Nat := if k < 8 then some (8 * (c / 2) + k) else none

/-- The signal a slot code of converter `c` is written to (R252, R254); none for the check slot. -/
def codeSignal (c k : Nat) : Option Nat :=
  if k < 8 then some (0x010 + 8 * (c / 2) + k) else if 0x10 ≤ k ∧ k ≤ 0x1B then some (0x050 + k - 0x10) else none

/-- The slot code whose result comes next from converter `c`, and its tick: in continuous mode once every TCONV, in a list slot
after slot (R256, R257, R259). -/
def resultDue (s : State) (c : Nat) : Option (Nat × Nat) :=
  let v := s.conv c
  if isContinuous s c then some (s.rd R.CV_CFG.CONT_IN c, v.trig + tConv s c)
  else
    match v.slot with
    | none => none
    | some k => ((slotList s c)[k]?).map (fun code => (code, v.trig + 2 + k * tConv s c + (tConv s c + 8)))

/-- The converters that convert input `n`. -/
def inputConvs (s : State) (n : Nat) : List Nat :=
  [2 * (n / 8), 2 * (n / 8) + 1].filter (fun c => s.flag R.CV_CFG.EN c && (convCodes s c).contains (n % 8))

/-- The tick at which the window comparator of leg `n`'s TRIP_AIN is valid for the conversion that runs: TCONV + 4 after its sampling
instant, 4 ticks before its result (R257, R264); none where the comparator already asserts. -/
def windowDue (s : State) (n : Nat) : Option Nat :=
  let x := s.rd R.SH_TRIP.TRIP_AIN n
  if s.flag R.SH_TRIP.TRIP_AIN_EN n && !s.flag R.IN_STATUS.WC_OUT x then
    ((inputConvs s x).filter (convLive s)).findSome? (fun c =>
      match resultDue s c with
      | some (code, t) => if codeInput c code = some x then some (t - 4) else none
      | none => none)
  else none

/-- The comparator of leg `n`'s TRIP_AIN asserts for the conversion that runs, ahead of its result (R264). -/
def windowRises (n : Nat) (s : State) : State :=
  match windowDue s n with
  | some t =>
    let x := s.rd R.SH_TRIP.TRIP_AIN n
    ((reachTime t s).raise R.IN_STATUS.WC_OUT x).countUp R.IN_CNT.WC_CNT x
  | none => s

/-- The owners of some converters, each once. -/
def ownersOf (s : State) (cs : List Nat) : List Nat := (cs.filterMap (convOwner s)).eraseDups

/-- The owner of input `n`: that of the converters that convert it (R260). -/
def inputOwner (s : State) (n : Nat) : Option Nat := (ownersOf s (inputConvs s n)).head?

/-- The owner of pair `p` (R260). -/
def pairOwner (s : State) (p : Nat) : Option Nat := (ownersOf s [2 * p, 2 * p + 1]).head?

/-- Two owners of one pair or of one converted input (R260). -/
def twoOwners (s : State) : Bool :=
  (List.range 8).any (fun p => decide (1 < (ownersOf s [2 * p, 2 * p + 1]).length)) ||
  (List.range 64).any (fun n => decide (1 < (ownersOf s (inputConvs s n)).length))

/-- t_last of a sequenced converter (R263). -/
def tLast (s : State) (c : Nat) : Nat :=
  let n := s.rd R.CV_CFG.TRIG_LEG c
  (s.rd R.SH_PHASE.PHASE_OFS n + 63) / 64 + s.rd R.SH_ADC.TRIG_DLY n + 2 + (slotList s c).length * tConv s c + 8

/-- The AIN inputs a graph reads. -/
def ainReads (g : Graph) : List Nat :=
  ((g.blocks.flatMap (fun r => r.ins.map portSig)).filter (fun i => decide (0x010 ≤ i ∧ i ≤ 0x04F))).map (· - 0x010)

/-- The first failing condition of R269 for a bridge and its graph; 0 none. Condition 3 asks disabled converters too, whose STATE
is kept (DEDUCED, log entry 18). -/
def msError (s : State) (b : Nat) (g : Graph) : Nat :=
  let ip := s.rd R.MS_IP.IP b
  let own := (List.range 16).filter (fun c => convOwner s c = some b)
  let reads := ainReads g
  if (g.beatMin : Int) - (s.rd R.SH_STRB.STRB_GUARD (masterLeg s b) : Int) ≤ (ip : Int) then 1
  else if own.any (fun c => !isContinuous s c && decide (ip < tLast s c)) then 2
  else if own.any (fun c => decide (s.rd R.CV_STATUS.STATE c = 2)) then 3
  else if reads.any (fun n => !(inputConvs s n).any (convLive s)) then 4
  else if reads.any (fun n => !s.flag R.IN_STATUS.CAL_OK n) then 5
  else if twoOwners s then 6
  else 0

/-! ### Averages (R272) -/

/-- The run of an average on input `n`. -/
def calRun (s : State) (n : Nat) : Option CalRun := (s.cal.runs.find? (fun e => e.1 = n)).map (·.2)

/-- An average ends: SPREAD, CAL_ERR, CAL_BUSY and the ACCEPTED command (R272, R321). -/
def endAverage (n err : Nat) (s : State) : State :=
  match calRun s n with
  | none => s
  | some r =>
    let s1 := { s with cal := { s.cal with runs := s.cal.runs.filter (fun e => e.1 != n) } }
    let s2 := s1 |>.wr R.IN_CAL_SPREAD.SPREAD n (min 65535 (r.hi - r.lo).toNat)
      |>.wr R.IN_STATUS.CAL_ERR n err
      |>.clear R.IN_STATUS.CAL_BUSY n
    endRun (if r.full.isSome then 0x0602 else 0x0601) n (if err = 0 then 1 else 2) s2

/-- A bridge goes into modes 2 to 4: the averages on its inputs end with CAL_ERR 7 (R275). -/
def endAverages (b : Nat) (s : State) : State :=
  s.each ((s.cal.runs.map (·.1)).filter (fun n => inputOwner s n = some b)) (fun s n => endAverage n 7 s)

end Sys2Proof.Machine
end

