-- ==== Sys2Proof/Machine/BlockMath.lean ====
section
/-! DEFINITION. The numbers of the law graphs: Q15, A40 and angles, and the library's table functions
(R44 to R47, R82 to R84, R490). -/

namespace Sys2Proof.Machine

open Sys2Proof

/-- π as a rational, off by less than 10⁻³⁰ (DESIGN CHOICE, log entry 10). -/
def ratPi : Rat := 3141592653589793238462643383279 / 1000000000000000000000000000000

/-- `x` held to the range from `lo` to `hi` (R84); the upper end wins where they cross. -/
def clampR (x lo hi : Rat) : Rat := min (max x lo) hi

/-- |x|. -/
def absR (x : Rat) : Rat := if x < 0 then -x else x

/-- The rounding of R83: one half of the destination step added, then an arithmetic shift. -/
def roundHalfUp (q : Rat) : Int := (q + 1 / 2).floor

/-- wrap(): an angle in fractions of π reduced into [−1, 1) (R84). -/
def wrapR (x : Rat) : Rat := x - 2 * (((x + 1) / 2).floor : Int)

/-- The pu value of a Q15 scalar (R44): 0x2000 is 1 pu. -/
def puOf (n : Nat) : Rat := (toSigned 16 n : Rat) / 8192

/-- The angle of a Q15 angle, in fractions of π (R44). -/
def angOf (n : Nat) : Rat := (toSigned 16 n : Rat) / 32768

/-- The pu value of an A40 state of two words, low word first (R85, R490). -/
def a40Of (lo hi : Nat) : Rat := (toSigned 40 (lo + 2 ^ 32 * hi) : Rat) / 2 ^ 29

/-- Whether a pu value lies outside the A40 range (R46). -/
def a40Sat (x : Rat) : Bool := decide (1024 - 1 / 2 ^ 29 < x) || decide (x < -1024)

/-- A pu value saturated to the A40 range (R46). -/
def sat40 (x : Rat) : Rat := clampR x (-1024) (1024 - 1 / 2 ^ 29)

/-- The A40 code of a pu value, rounded and saturated (R46, R84). -/
def a40Code (x : Rat) : Int := clampInt (-(2 ^ 39)) (2 ^ 39 - 1) (roundHalfUp (x * 2 ^ 29))

/-- The two words of an A40 state: the low 32 bits, then the sign-extended rest (R85). -/
def a40Words (x : Rat) : List Nat :=
  [ofSigned 64 (a40Code x) % 2 ^ 32, ofSigned 64 (a40Code x) / 2 ^ 32]

/-- The angle of a two-word angle state, in fractions of π, reduced modulo 2 (R490). -/
def angStateOf (lo : Nat) : Rat := (toSigned 32 lo : Rat) / 2 ^ 31

/-- The two words of an angle state (R490). -/
def angWords (x : Rat) : List Nat :=
  let n := ofSigned 64 (toSigned 32 (ofSigned 32 (roundHalfUp (x * 2 ^ 31))))
  [n % 2 ^ 32, n / 2 ^ 32]

/-- The square root to 2⁻⁴⁰. -/
def sqrtApprox (x : Rat) : Rat :=
  if x ≤ 0 then 0 else (isqrt (x * 2 ^ 80).floor.toNat : Rat) / 2 ^ 40

/-- The Taylor sum Σ (−1)^j t^(2j+o) / (2j+o)! over n terms, from term `u`. -/
def taylorAlt : Nat → Rat → Rat → Nat → Rat
  | 0, _, _, _ => 0
  | n + 1, t2, u, k => u - taylorAlt n t2 (u * t2 / ((k + 1) * (k + 2))) (k + 2)

/-- sin of an angle in fractions of π, reduced to [−π/2, π/2], to better than 2⁻⁴⁰. -/
def sinApprox (a : Rat) : Rat :=
  let w := wrapR a
  let r := if 1 / 2 < w then 1 - w else if w < -1 / 2 then -1 - w else w
  let t := (roundHalfUp (r * ratPi * 2 ^ 48) : Rat) / 2 ^ 48
  taylorAlt 14 (t * t) t 1

/-- cos of an angle in fractions of π. -/
def cosApprox (a : Rat) : Rat := sinApprox (a + 1 / 2)

/-- Σ t^k / k! over n terms, from term `u`. -/
def expSum : Nat → Rat → Rat → Nat → Rat
  | 0, _, _, _ => 0
  | n + 1, t, u, k => u + expSum n t (u * t / (k + 1)) (k + 1)

/-- Square n times, to 2⁻⁶⁰ each time. -/
def squareTimes : Nat → Rat → Rat
  | 0, x => x
  | n + 1, x => squareTimes n ((roundHalfUp (x * x * 2 ^ 60) : Rat) / 2 ^ 60)

/-- exp(−x) for x ≥ 0; 0 beyond 40. -/
def expNegApprox (x : Rat) : Rat :=
  if 40 < x then 0 else squareTimes 7 (expSum 18 (-(x / 128)) 1 0)

/-- Σ (−1)^j t^(2j+1) / (2j+1) over n terms, from power `u`. -/
def atanSum : Nat → Rat → Rat → Nat → Rat
  | 0, _, _, _ => 0
  | n + 1, t2, u, k => u / k - atanSum n t2 (u * t2) (k + 2)

/-- arctan of t for 0 ≤ t ≤ 1, in radians: two halvings, then the series. -/
def atanApprox (t : Rat) : Rat :=
  let half := fun (y : Rat) => (roundHalfUp (y / (1 + sqrtApprox (1 + y * y)) * 2 ^ 48) : Rat) / 2 ^ 48
  let u := half (half t)
  4 * atanSum 20 (u * u) u 1

/-- atan2 in fractions of π; atan2(0, 0) is 0. -/
def atan2Approx (y x : Rat) : Rat :=
  let ax := absR x
  let ay := absR y
  if ax = 0 ∧ ay = 0 then 0
  else
    let base := if ay ≤ ax then atanApprox (ay / ax) / ratPi else 1 / 2 - atanApprox (ax / ay) / ratPi
    let q := if x < 0 then 1 - base else base
    if y < 0 then -q else q

/-- A table function of the library (R83): the true value and an error of at most `2 × lsb`, which is the same for the
same arguments. The error is a free value (log entry 9). -/
def libFn (k : Nat) (a b exact lsb : Rat) : Rat := exact + clampR (Config.libErr k a b) (-2 * lsb) (2 * lsb)

/-- One Q15 LSB of a scalar, pu. -/
def lsbS : Rat := 1 / 8192

/-- One Q15 LSB of an angle, fractions of π. -/
def lsbA : Rat := 1 / 32768

def libSqrt (x : Rat) : Rat := if x ≤ 0 then 0 else libFn 0 x 0 (sqrtApprox x) lsbS
def libSin (a : Rat) : Rat := libFn 1 (wrapR a) 0 (sinApprox a) lsbS
def libCos (a : Rat) : Rat := libFn 2 (wrapR a) 0 (cosApprox a) lsbS
def libAtan2 (y x : Rat) : Rat := libFn 3 y x (atan2Approx y x) lsbA
def libExpNeg (x : Rat) : Rat := libFn 4 x 0 (expNegApprox x) lsbS

/-- A value held in the A40 accumulator, and whether it had to saturate (R46). -/
def hold40 (x : Rat) : Rat × Bool := (sat40 x, a40Sat x)

/-- A quotient of signals and its SAT mark: x/0 is the largest value of the sign of x, 0/0 is 0, both with SAT (R83). A quotient
beyond the A40 range saturates with SAT (R46). -/
def libDiv (x y : Rat) : Rat × Bool :=
  if y = 0 then (sat40 (if x = 0 then 0 else if 0 < x then 1024 else -1024), true)
  else hold40 (libFn 5 x y (x / y) lsbS)

/-- √3 to 2⁻⁴⁰ (DESIGN CHOICE, log entry 10). -/
def ratSqrt3 : Rat := sqrtApprox 3

end Sys2Proof.Machine
end

