-- ==== Sys2Proof/Machine/Blocks.lean ====
section
/-! DEFINITION. What each of the 48 block types computes in one execution (03_block_library.md, R86 to R114, R490). -/

namespace Sys2Proof.Machine

open Sys2Proof

/-- One input of an execution: the word as read, and what R54 and R55 say of it. -/
structure BIn where
  val   : Nat
  age   : Nat
  seq   : Nat
  stale : Bool
  taint : Bool
  deriving DecidableEq, Repr

/-- What an execution knows beside its inputs, parameters and state (R61, R83, R84). -/
structure BCtx where
  /-- DT, ticks since the previous execution -/
  dt      : Nat
  vb      : Nat
  ib      : Nat
  fb      : Nat
  vdcb    : Nat
  kind    : Nat
  beatMin : Nat
  rate    : Nat
  /-- MODE and STEP of the bridge (R102) -/
  mode    : Nat
  step    : Nat
  /-- the VALUE each output signal holds on the board -/
  prev    : List Nat
  deriving DecidableEq, Repr

/-- An output before it is rounded: a scalar in pu with a SAT mark, an angle in fractions of π, or a word. -/
inductive OutV where
  | s (v : Rat) (sat : Bool)
  | a (v : Rat)
  | w (n : Nat)
  deriving DecidableEq, Repr

/-- The result of an execution; `over` says that a state word left the A40 range (R46). -/
structure BRes where
  outs : List OutV
  st   : List Nat
  ovf : Bool
  deriving DecidableEq, Repr

/-- An output as it is written: the 16-bit value, SAT and TAINT. -/
structure OutW where
  val   : Nat
  sat   : Bool
  taint : Bool
  deriving DecidableEq, Repr

/-! ### Reading inputs, parameters and state -/

def inp (x : List BIn) (k : Nat) : BIn := (x[k]?).getD ⟨0, 0, 0, false, false⟩
def xS (x : List BIn) (k : Nat) : Rat := puOf (inp x k).val
def xA (x : List BIn) (k : Nat) : Rat := angOf (inp x k).val
def xW (x : List BIn) (k : Nat) : Nat := (inp x k).val
def pU (p : List Nat) (k : Nat) : Nat := p.getD k 0
/-- A gain (format G). -/
def pG (p : List Nat) (k : Nat) : Rat := (toSigned 32 (pU p k) : Rat) / 65536
/-- A coefficient (format C). -/
def pC (p : List Nat) (k : Nat) : Rat := (toSigned 32 (pU p k) : Rat) / 2 ^ 30
/-- A Q15 scalar (format Q). -/
def pQ (p : List Nat) (k : Nat) : Rat := puOf (pU p k)
def stW (st : List Nat) (k : Nat) : Nat := st.getD k 0
def stA (st : List Nat) (k : Nat) : Rat := a40Of (stW st k) (stW st (k + 1))
def stTh (st : List Nat) (k : Nat) : Rat := angStateOf (stW st k)
/-- The words from `k` on replaced by `ws`. -/
def setWs (st : List Nat) (k : Nat) (ws : List Nat) : List Nat := st.take k ++ ws ++ st.drop (k + ws.length)
/-- An A40 state as it is once assigned (R84). -/
def rA (x : Rat) : Rat := (a40Code x : Rat) / 2 ^ 29
/-- An angle state as it is once assigned. -/
def rTh (x : Rat) : Rat := angStateOf ((angWords x).headD 0)
/-- A Q15 code, rounded and saturated. -/
def qCode (x : Rat) : Nat := ofSigned 16 (clampInt (-32768) 32767 (roundHalfUp (x * 8192)))
/-- A state word of format Q: bits 31:16 equal bit 15 (R82, R490). -/
def qWord (x : Rat) : Nat := ofSigned 32 (toSigned 16 (qCode x))
/-- A value beyond the ends of the Q15 range (R45). -/
def qOver (x : Rat) : Bool := decide (32767 < roundHalfUp (x * 8192)) || decide (roundHalfUp (x * 8192) < -32768)

/-- A result whose A40 states are assigned at the word offsets given. -/
def resA (outs : List OutV) (st : List Nat) (l : List (Nat × Rat)) : BRes :=
  ⟨outs, l.foldl (fun st kx => setWs st kx.1 (a40Words kx.2)) st, l.any (fun kx => a40Sat kx.2)⟩

/-- The result with SAT where one of the values `l`, each on its way to an output or a state word and not yet clamped,
left the A40 range (R46; log entry 64). -/
def BRes.sats (r : BRes) (l : List Rat) : BRes := { r with ovf := r.ovf || l.any a40Sat }

/-- The result with SAT where a flag of R46 or R83 is raised. -/
def BRes.satIf (r : BRes) (b : Bool) : BRes := { r with ovf := r.ovf || b }

/-- Terms summed in the order given in the A40 accumulator: every term and every partial sum saturates, and either raises the
flag (R46; log entry 64). -/
def acc (l : List Rat) : Rat × Bool :=
  l.foldl (fun a x => (sat40 (a.1 + sat40 x), a.2 || a40Sat x || a40Sat (a.1 + sat40 x))) (0, false)

def resT (r : BRes) (k : Nat) (th : Rat) : BRes := { r with st := setWs r.st k (angWords th) }
def resW (r : BRes) (k : Nat) (w : Nat) : BRes := { r with st := setWs r.st k [w % 2 ^ 32] }

def dts (c : BCtx) : Rat := (c.dt : Rat) * 25 / 10000000000
/-- FB in Hz. -/
def fbHz (c : BCtx) : Rat := (c.fb : Rat) / 1000
/-- ωB in rad/s (R49). -/
def omB (c : BCtx) : Rat := 2 * ratPi * fbHz c
/-- ωB·DTs in fractions of π. -/
def omDt (c : BCtx) : Rat := 2 * fbHz c * dts c
/-- SB in VA (R49). -/
def sbVA (c : BCtx) : Rat := (if c.kind = 1 then 3 / 2 else 1 / 2) * (c.vb : Rat) * c.ib / 1000000
/-- The first-order weight DT/(T + DT), T in ticks. -/
def lagW (c : BCtx) (t : Nat) : Rat := if t + c.dt = 0 then 1 else (c.dt : Rat) / (t + c.dt : Nat)
def tickMs (n : Nat) : Nat := n * 400000
def sc (v : Rat) : OutV := .s v false
def qw (x : Rat × Bool) : OutV := .s x.1 x.2

/-! ### R93, R94: transforms and modulation -/

def bClarke (x : List BIn) : List OutV :=
  [sc ((2 * xS x 0 - xS x 1 - xS x 2) / 3), sc ((xS x 1 - xS x 2) / ratSqrt3), sc ((xS x 0 + xS x 1 + xS x 2) / 3)]

def invClarke (al be z : Rat) : Rat × Rat × Rat :=
  (al + z, -al / 2 + ratSqrt3 / 2 * be + z, -al / 2 - ratSqrt3 / 2 * be + z)

def bInvClarke (x : List BIn) : List OutV :=
  let r := invClarke (xS x 0) (xS x 1) (xS x 2)
  [sc r.1, sc r.2.1, sc r.2.2]

def bPark (x : List BIn) : List OutV :=
  let s := libSin (xA x 2)
  let k := libCos (xA x 2)
  [sc (xS x 0 * k + xS x 1 * s), sc (-xS x 0 * s + xS x 1 * k)]

def bInvPark (x : List BIn) : List OutV :=
  let s := libSin (xA x 2)
  let k := libCos (xA x 2)
  [sc (xS x 0 * k - xS x 1 * s), sc (xS x 0 * s + xS x 1 * k)]

def bSincos (x : List BIn) : List OutV := [sc (libSin (xA x 0)), sc (libCos (xA x 0))]

/-- A duty held to [DMIN, DMAX], with SAT where it is clamped (R94). -/
def dutyOut (p : List Nat) (d : Rat × Bool) : OutV :=
  .s (clampR d.1 (pQ p 3) (pQ p 4)) (d.2 || decide (d.1 < pQ p 3) || decide (pQ p 4 < d.1))

def bSvpwm (x : List BIn) (p : List Nat) : List OutV :=
  let vdc := max (xS x 2) (pQ p 2)
  if pU p 0 = 2 then
    let q := libDiv (xS x 0 * pG p 1) (2 * vdc)
    [dutyOut p (1 / 2 + q.1, q.2), dutyOut p (1 / 2 - q.1, q.2), dutyOut p (0, false)]
  else
    let v := invClarke (xS x 0) (xS x 1) 0
    let off := if pU p 0 = 0 then 0
      else -(max (max v.1 v.2.1) v.2.2 + min (min v.1 v.2.1) v.2.2) / 2
    let d := fun (u : Rat) => let q := libDiv ((u + off) * pG p 1) vdc; (1 / 2 + q.1, q.2)
    [dutyOut p (d v.1), dutyOut p (d v.2.1), dutyOut p (d v.2.2)]

/-! ### R95: regulators -/

/-- The integrator and output limiting shared by PI and PID: the new integrator and the output. -/
def piLimit (i iNew u e hi lo : Rat) : Rat × Rat :=
  let u1 := if hi < u then hi else u
  let i1 := if hi < u ∧ 0 < e then i else iNew
  let u2 := if u1 < lo then lo else u1
  let i2 := if u1 < lo ∧ e < 0 then i else i1
  (clampR i2 lo hi, u2)

def bPi (c : BCtx) (x : List BIn) (p st : List Nat) : BRes :=
  let e := xS x 0 - xS x 1
  let i := stA st 0
  let iNew := acc [i, pG p 1 * e * dts c]
  let u := acc [pG p 0 * e, iNew.1, xS x 2]
  let r := piLimit i iNew.1 u.1 e (pQ p 2) (pQ p 3)
  (resA [sc r.2] st [(0, r.1)]).satIf (iNew.2 || u.2)

def bPid (c : BCtx) (x : List BIn) (p st : List Nat) : BRes :=
  let e := xS x 0 - xS x 1
  let i := stA st 0
  let iNew := acc [i, pG p 1 * e * dts c]
  let de := e - stA st 4
  let rate := acc [if c.dt = 0 then 0 else de / dts c, -stA st 2]
  let dd := stA st 2 + rate.1 * lagW c (pU p 3)
  let u := acc [pG p 0 * e, iNew.1, xS x 2, pG p 2 * rA dd]
  let r := piLimit i iNew.1 u.1 e (pQ p 4) (pQ p 5)
  (resA [sc r.2] st [(0, r.1), (2, dd), (4, e)]).satIf (iNew.2 || rate.2 || u.2)

def bPr (c : BCtx) (x : List BIn) (p st : List Nat) : BRes :=
  let e := xS x 0 - xS x 1
  let wh := (pU p 3 : Rat) * xS x 2 * omB c
  let d := acc [pG p 1 * e, -stA st 0]
  let g := acc [2 * pG p 2 * d.1, -(wh * stA st 2)]
  let r1 := acc [stA st 0, dts c * g.1]
  let r2 := acc [stA st 2, dts c * wh * rA r1.1]
  let u := acc [pG p 0 * e, rA r1.1]
  (resA [sc (clampR u.1 (pQ p 5) (pQ p 4))] st [(0, r1.1), (2, r2.1)]).satIf (d.2 || g.2 || r1.2 || r2.2 || u.2)

/-- The limiting step of DQ_PI and VEC_LIMIT: the vector, its SAT mark and whether it was limited. -/
def vecLimit (vd vq vmax : Rat) (prio : Nat) : (Rat × Bool) × (Rat × Bool) × Bool :=
  let m := libSqrt (vd * vd + vq * vq)
  if vmax < m then
    if prio = 0 then (libDiv (vd * vmax) m, libDiv (vq * vmax) m, true)
    else
      let d := clampR vd (-vmax) vmax
      let q := libSqrt (vmax * vmax - d * d)
      ((d, false), (clampR vq (-q) q, false), true)
  else ((vd, false), (vq, false), false)

def bDqPi (c : BCtx) (x : List BIn) (p st : List Nat) : BRes :=
  let ed := xS x 0 - xS x 2
  let eq := xS x 1 - xS x 3
  let xd := acc [stA st 0, pG p 1 * ed * dts c]
  let xq := acc [stA st 2, pG p 1 * eq * dts c]
  let vd := acc [pG p 0 * ed, xd.1, -(xS x 4 * pQ p 2 * xS x 3)]
  let vq := acc [pG p 0 * eq, xq.1, xS x 4 * pQ p 2 * xS x 2]
  let l := vecLimit vd.1 vq.1 (pQ p 3) (pU p 4)
  BRes.satIf (if l.2.2 then ⟨[qw l.1, qw l.2.1, .w 1], st, false⟩
    else resA [sc vd.1, sc vq.1, .w 0] st [(0, xd.1), (2, xq.1)]) (xd.2 || xq.2 || vd.2 || vq.2)

/-! ### R96: arithmetic -/

def us (n : Nat) : Rat := (n : Rat) / 1000000

/-- LEAD_LAG. y1 keeps Y before the rounding of the output to Q15: the state format of y1 is A40 (R84, R490; DESIGN CHOICE, log
entry 110). -/
def bLeadLag (c : BCtx) (x : List BIn) (p st : List Nat) : BRes :=
  let t1 := 2 * us (pU p 1)
  let t2 := 2 * us (pU p 2)
  let a := acc [(t1 + dts c) * xS x 0, (dts c - t1) * stA st 0]
  let n := acc [pG p 0 * a.1, -((dts c - t2) * stA st 2)]
  let y := n.1 / (t2 + dts c)
  (resA [sc (sat40 y)] st [(0, xS x 0), (2, y)]).satIf (a.2 || n.2)

def bSum (x : List BIn) (p : List Nat) : List OutV :=
  [qw (acc (pQ p 8 :: (List.range 8).map (fun k => pG p k * xS x k)))]

def bProduct (x : List BIn) (p : List Nat) : List OutV :=
  if pU p 0 = 0 then [sc (xS x 0 * xS x 1)] else [qw (libDiv (xS x 0 * xS x 1) (xS x 2))]

def bLimit (x : List BIn) (p : List Nat) : List OutV :=
  let hi := if bitAt (pU p 2) 0 then min (pQ p 0) (xS x 1) else pQ p 0
  let lo0 := if bitAt (pU p 2) 1 then max (pQ p 1) (xS x 2) else pQ p 1
  let lo := if hi < lo0 then hi else lo0
  [sc (clampR (xS x 0) lo hi), .w (b2n (decide (xS x 0 < lo) || decide (hi < xS x 0)))]

def bSlew (c : BCtx) (x : List BIn) (p st : List Nat) : BRes :=
  let y := puOf (stW st 0)
  let y' := y + clampR (xS x 0 - y) (-(pG p 1 * dts c)) (pG p 0 * dts c)
  ⟨[sc y'], setWs st 0 [qWord y'], false⟩

def bVecLimit (x : List BIn) (p : List Nat) : List OutV :=
  if xS x 2 ≤ 0 then [sc 0, sc 0, .w 1]
  else
    let l := vecLimit (xS x 0) (xS x 1) (xS x 2) (pU p 0)
    [qw l.1, qw l.2.1, .w (b2n l.2.2)]

def bHyst (x : List BIn) (p st : List Nat) : BRes :=
  let y := if pQ p 0 ≤ xS x 0 then 1 else if xS x 0 ≤ pQ p 1 then 0 else (if stW st 0 = 0 then 0 else 1)
  ⟨[.w y], setWs st 0 [y], false⟩

/-! ### R97: filters -/

def bLpf1 (c : BCtx) (x : List BIn) (p st : List Nat) : BRes :=
  let y := rA (stA st 0 + (xS x 0 - stA st 0) * lagW c (pU p 0))
  resA [sc y] st [(0, y)]

def bRms (c : BCtx) (x : List BIn) (p st : List Nat) : BRes :=
  let s := rA (stA st 0 + (xS x 0 * xS x 0 - stA st 0) * lagW c (pU p 0))
  resA [sc (libSqrt s)] st [(0, s)]

/-- The direct form I step shared by BIQUAD and NOTCH. -/
def biquadStep (x : Rat) (b0 b1 b2 a1 a2 : Rat) (st : List Nat) : BRes :=
  let y := acc [b0 * x, b1 * stA st 0, b2 * stA st 2, -(a1 * stA st 4), -(a2 * stA st 6)]
  (resA [sc y.1] st [(2, stA st 0), (0, x), (6, stA st 4), (4, y.1)]).satIf y.2

def bBiquad (x : List BIn) (p st : List Nat) : BRes :=
  biquadStep (xS x 0) (pC p 0) (pC p 1) (pC p 2) (pC p 3) (pC p 4) st

/-- NOTCH: t is tan(w0·DTs/2), and each coefficient a quotient by n, which is computed from a signal (R83). -/
def bNotch (c : BCtx) (x : List BIn) (p st : List Nat) : BRes :=
  let a := (pU p 0 : Rat) * xS x 1 * fbHz c * dts c
  let d := libDiv (libSin a) (libCos a)
  let t := d.1
  let q := t / pG p 1
  let n := acc [1, q, t * t]
  let by_ := fun (l : List Rat) => let m := acc l; let k := libDiv m.1 n.1; (k.1, m.2 || k.2)
  let b0 := by_ [1, pG p 2 * q, t * t]
  let b1 := by_ [2 * (t * t), -2]
  let b2 := by_ [1, -(pG p 2 * q), t * t]
  let a2 := by_ [1, -q, t * t]
  (biquadStep (xS x 0) b0.1 b1.1 b2.1 b1.1 a2.1 st).satIf (d.2 || n.2 || b0.2 || b1.2 || b2.2 || a2.2)

/-- Value `k` of a ring of Q15 values packed two in a word (R490). -/
def ringGet (st : List Nat) (base k : Nat) : Nat :=
  if k % 2 = 0 then stW st (base + k / 2) % 65536 else stW st (base + k / 2) / 65536

/-- Value `k` of such a ring replaced. -/
def ringSet (st : List Nat) (base k v : Nat) : List Nat :=
  let w := stW st (base + k / 2)
  setWs st (base + k / 2) [if k % 2 = 0 then w / 65536 * 65536 + v % 65536 else w % 65536 + v % 65536 * 65536]

def bMavg (x : List BIn) (p st : List Nat) : BRes :=
  let n := pU p 0
  let pos := bitsOf (stW st 130) 16 8
  let seen := min n (bitsOf (stW st 130) 0 9 + 1)
  let st1 := ringSet st 0 pos (xW x 0)
  let sum := (List.range seen).foldl (fun s k => s + puOf (ringGet st1 0 ((pos + 256 - k) % 256))) 0
  resW (resA [sc (if seen = 0 then 0 else sum / (seen : Rat))] st1 [(128, sum)]) 130 (seen + (pos + 1) % 256 * 65536)

/-! ### R98, R99: synchronisation and power -/

def bAngleInt (c : BCtx) (x : List BIn) (st : List Nat) : BRes :=
  let th := rTh (stTh st 0 + xS x 0 * omDt c)
  ⟨[.a (wrapR (th + xA x 1))], setWs st 0 (angWords th), false⟩

def bPll (c : BCtx) (x : List BIn) (p st : List Nat) : BRes :=
  let th := stTh st 2
  let m := libSqrt (xS x 0 * xS x 0 + xS x 1 * xS x 1)
  let vq := -xS x 0 * libSin th + xS x 1 * libCos th
  let e := (libDiv vq (max m (1 / 64))).1
  let i0 := stA st 0 + pG p 1 * e * dts c
  let i := rA (clampR i0 (pQ p 3 - pQ p 2) (pQ p 4 - pQ p 2))
  let w0 := pQ p 2 + pG p 0 * e + i
  let w := clampR w0 (pQ p 3) (pQ p 4)
  let th' := rTh (th + w * omDt c)
  (resT (resA [.a th', sc w, sc m] st [(0, i)]) 2 th').sats [i0, w0]

/-- The nominal period of a rate in ticks (R61). -/
def ratePeriod (rate beatMin : Nat) : Nat :=
  if rate ≤ 4 then beatMin * 2 ^ rate else if rate = 5 then 40000 else if rate = 6 then 400000 else 4000000

/-- The delay of SEQ_SPLIT in executions (R98). -/
def seqSplitDelay (fb rate beatMin : Nat) : Nat :=
  (roundHalfUp (1 / (4 * ((fb : Rat) / 1000) * ((ratePeriod rate beatMin : Nat) : Rat) * 25 / 10000000000))).toNat

def bSeqSplit (c : BCtx) (x : List BIn) (st : List Nat) : BRes :=
  let d := seqSplitDelay c.fb c.rate c.beatMin
  let pos := stW st 512 % 512
  let seen := stW st 513
  let ald := if seen < d then 0 else if d = 0 then xS x 0 else puOf (ringGet st 0 ((pos + 1024 - d) % 512))
  let bed := if seen < d then 0 else if d = 0 then xS x 1 else puOf (ringGet st 256 ((pos + 1024 - d) % 512))
  let st1 := ringSet (ringSet st 0 pos (xW x 0)) 256 pos (xW x 1)
  resW (resW ⟨[sc ((xS x 0 - bed) / 2), sc ((xS x 1 + ald) / 2), sc ((xS x 0 + bed) / 2), sc ((xS x 1 - ald) / 2)],
    st1, false⟩ 512 ((pos + 1) % 512)) 513 (min 512 (seen + 1))

def bPqCalc (c : BCtx) (x : List BIn) (p st : List Nat) : BRes :=
  let pw := xS x 0 * xS x 2 + xS x 1 * xS x 3
  let qv := xS x 1 * xS x 2 - xS x 0 * xS x 3
  let a := rA (stA st 0 + (pw - stA st 0) * lagW c (pU p 0))
  let b := rA (stA st 2 + (qv - stA st 2) * lagW c (pU p 0))
  resA [sc a, sc b] st [(0, a), (2, b)]

def bSyncCheck (c : BCtx) (x : List BIn) (p st : List Nat) (stale : Bool) : BRes :=
  let d := wrapR (xA x 0 - xA x 1)
  let inside := decide (absR d * 32768 ≤ (pU p 0 : Rat)) && decide (absR (xS x 2 - xS x 3) * c.fb ≤ (pU p 1 : Rat))
    && decide (absR (xS x 4 - xS x 5) ≤ (pU p 2 : Rat) / 1000)
  let t := if inside && !stale then min (2 ^ 32 - 1) (stW st 0 + c.dt) else 0
  ⟨[.w (b2n (inside && !stale && decide (tickMs (pU p 3) ≤ t))), .a d], setWs st 0 [t], false⟩

/-! ### R100 to R103: grid forming -/

/-- The phase correction of VSM towards THB, held to ±`lim` (R100). A negative speed makes `lim` negative and crosses the
ends of clamp(), of which R84 gives no value: there the correction is a free value within |lim| (log entry 65). -/
def vsmCorrect (d lim : Rat) : Rat :=
  if lim < 0 then clampR (Config.libErr 6 d lim) lim (-lim) else clampR d (-lim) lim

def bVsm (c : BCtx) (x : List BIn) (p st : List Nat) : BRes :=
  let h := if xW x 2 = 0 then pU p 0 else min (pU p 0) (xW x 2)
  let hs := (h : Rat) / 100
  let w0 := stA st 0
  let pm := acc [xS x 0, (pQ p 3 - w0) / ((pU p 2 : Rat) / 10000)]
  let dp := acc [pm.1, -xS x 1, -(pG p 1 * (w0 - pQ p 3))]
  let w1 := w0 + dp.1 * dts c / (2 * hs)
  let w := rA (clampR w1 (pQ p 4) (pQ p 5))
  let lim := (pU p 6 : Rat) / 100 / 180 * w * fbHz c * dts c
  let step := w * omDt c + (if xW x 4 = 0 then 0 else vsmCorrect (wrapR (xA x 3 - stTh st 2)) lim)
  let th := rTh (stTh st 2 + step)
  ((resT (resA [.a th, sc w, sc pm.1] st [(0, w)]) 2 th).sats [w1]).satIf (pm.2 || dp.2)

def bDroopPf (x : List BIn) (p : List Nat) : List OutV :=
  let q := acc [xS x 0, (pQ p 1 - xS x 1) / ((pU p 0 : Rat) / 10000)]
  [.s (clampR q.1 (pQ p 3) (pQ p 2)) q.2]

def bDroopQv (x : List BIn) (p : List Nat) : List OutV :=
  [sc (clampR (xS x 0 - (pU p 0 : Rat) / 10000 * (xS x 1 - xS x 2)) (pQ p 2) (pQ p 1))]

def bVirtZ (x : List BIn) (p st : List Nat) : BRes :=
  let m := libSqrt (xS x 2 * xS x 2 + xS x 3 * xS x 3)
  let q := if 0 < xS x 4 ∧ xS x 4 < m then libDiv m (xS x 4) else (1, false)
  let k := min q.1 16
  ⟨[sc (xS x 0 - k * (pQ p 0 * xS x 2 - pQ p 1 * xS x 3)), sc (xS x 1 - k * (pQ p 0 * xS x 3 + pQ p 1 * xS x 2)),
    .w (b2n (decide (1 < k)))], st, q.2⟩

/-- The inertia steps in use: HCFG, then STEP0 to STEP(NSTEP − 1) (R101). -/
def inertiaSteps (p : List Nat) : List Nat := pU p 0 :: (p.drop 6).take (pU p 5)

/-- Energy, pu, that an inertia constant of `h` × 10 ms asks for (R101). -/
def inertiaReq (p : List Nat) (h : Nat) : Rat := 2 * ((h : Rat) / 100) * pQ p 4

def bInertiaLedger (c : BCtx) (x : List BIn) (p st : List Nat) (stale : Bool) : BRes :=
  let soc := if stale then pQ p 2 else xS x 0
  let eSoc := acc [max 0 (soc - pQ p 2) * (pU p 1 : Rat) * 3600000 / sbVA c]
  let eHead := acc [max 0 (xS x 1 - xS x 2) * (pU p 3 : Rat) / 1000]
  let avail := min eSoc.1 eHead.1
  let fit := (inertiaSteps p).find? (fun h => decide (inertiaReq p h ≤ avail))
  let h := match fit with | some h => h | none => (inertiaSteps p).getLastD 0
  let red := (if h < pU p 0 then 1 else 0) + (if fit.isNone then 2 else 0)
  ⟨[.w h, sc (avail - inertiaReq p h), .w red], setWs st 0 [h, red], eSoc.2 || eHead.2⟩

/-- The least voltage of the last point whose time is not after `t` ticks (R102). -/
def rtLeast (p : List Nat) (t : Nat) : Rat :=
  puOf (((((p.drop 9).take (pU p 8)).filter (fun w => decide (tickMs (w / 65536) ≤ t))).getLastD (pU p 9)) % 65536)

def bRtEnvelope (c : BCtx) (x : List BIn) (p st : List Nat) : BRes :=
  if ¬((c.mode = 4 ∧ c.step = 0) ∨ c.mode = 5) then
    resW (resW (resA [.w 0, sc (pQ p 4), .w 0] st [(2, pQ p 4)]) 0 0) 1 0
  else
    let v := xS x 0
    let i := xS x 1
    let il := stA st 2
    let fault := decide (v < pQ p 0) || decide (pQ p 1 < v) || decide (pQ p 3 < i)
    if stW st 0 = 0 then
      if fault then resW (resW (resA [.w 0x0004, sc (pQ p 5), .w 0] st [(2, pQ p 5)]) 0 1) 1 0
      else
        let il' := rA (il + clampR (pQ p 4 - il) (-(pG p 6 * dts c)) (pG p 6 * dts c))
        resA [.w 0, sc il', .w (min 65535 ((stW st 1 + 200000) / 400000))] st [(2, il')]
    else
      let t := min (2 ^ 32 - 1) (stW st 1 + c.dt)
      let tin := OutV.w (min 65535 ((t + 200000) / 400000))
      let st1 := setWs st 1 [t]
      if tickMs (pU p 7) ≤ t ∨ v < rtLeast p t then ⟨[.w 0x0B06, sc il, tin], setWs st1 0 [0], false⟩
      else if pQ p 0 + pQ p 2 ≤ v ∧ v ≤ pQ p 1 - pQ p 2 ∧ i ≤ pQ p 5 then
        ⟨[.w 0x0005, sc il, tin], setWs st1 0 [0], false⟩
      else ⟨[.w 0, sc il, tin], st1, false⟩

def bInrushLim (x : List BIn) (p : List Nat) : List OutV :=
  let ovf := max 0 (xS x 1 - pQ p 0)
  [sc (max 0 (xS x 0 - pG p 1 * ovf)), .w (b2n (decide (0 < ovf)))]

/-! ### R104 to R111: profile, set-points, observers, supervisors -/

def bProfile (c : BCtx) (x : List BIn) (p st : List Nat) : BRes :=
  let x0 := stA st 0
  let goal := if xW x 1 = 0 then xS x 0 else x0
  let e := acc [goal, -x0]
  let mag := hold40 (min (pG p 0) (libSqrt (2 * pG p 1 * absR e.1)))
  let vg := if e.1 < 0 then -mag.1 else if e.1 = 0 then 0 else mag.1
  let dv := acc [vg, -stA st 2]
  let qv := hold40 (if c.dt = 0 then 0 else dv.1 / dts c)
  let ag := clampR qv.1 (-(pG p 1)) (pG p 1)
  let da := acc [ag, -stA st 4]
  let a0 := acc [stA st 4, clampR da.1 (-(pG p 2 * dts c)) (pG p 2 * dts c)]
  let a := rA a0.1
  let v0 := acc [stA st 2, a * dts c]
  let v := rA (clampR v0.1 (-(pG p 0)) (pG p 0))
  let xn := acc [x0, v * dts c]
  let x1 := rA xn.1
  let left := acc [goal, -x1]
  BRes.satIf (if absR left.1 ≤ pQ p 3 ∧ absR v ≤ pG p 1 * dts c then
      resA [sc goal, sc 0, sc 0] st [(0, goal), (2, 0), (4, 0)]
    else resA [sc x1, sc v, sc a] st [(0, x1), (2, v), (4, a)])
    (e.2 || mag.2 || dv.2 || qv.2 || da.2 || a0.2 || v0.2 || xn.2 || left.2)

def bSetpointSel (c : BCtx) (x : List BIn) (p st : List Nat) (stale : Bool) : BRes :=
  if stale then
    let y := stA st 0
    let d := pG p 6 * dts c
    let y' := y + clampR (-y) (-d) d
    resA [sc y'] st [(0, y')]
  else
    let v := xS x (pU p 0)
    let y := if v - pQ p 1 < pQ p 5 then (pQ p 3, false)
      else acc [pQ p 3, (v - pQ p 1) * (pQ p 4 - pQ p 3) / (pQ p 2 - pQ p 1)]
    let r := clampR y.1 (min (pQ p 3) (pQ p 4)) (max (pQ p 3) (pQ p 4))
    (resA [sc r] st [(0, r)]).satIf y.2

def bTorqueRef (x : List BIn) (p : List Nat) : List OutV :=
  let q := libDiv (xS x 0) (pG p 0 * max (xS x 1) (pQ p 2))
  [.s (clampR q.1 (-(pQ p 1)) (pQ p 1)) q.2]

def bFieldWeaken (c : BCtx) (x : List BIn) (p st : List Nat) : BRes :=
  let y0 := stA st 0 + pG p 0 * (pG p 1 * xS x 1 - xS x 0) * dts c
  let y := rA (clampR y0 (pQ p 2) 0)
  (resA [sc y] st [(0, y)]).sats [y0]

def bObsPm (c : BCtx) (x : List BIn) (p st : List Nat) : BRes :=
  let f := fun (psi v i : Rat) =>
    let d := acc [(v - pQ p 0 * i) * omB c, -(pG p 2 * psi)]
    let n := acc [psi, d.1 * dts c]
    (rA n.1, d.2 || n.2)
  let pa := f (stA st 0) (xS x 0) (xS x 2)
  let pb := f (stA st 2) (xS x 1) (xS x 3)
  let ra := acc [pa.1, -(pQ p 1 * xS x 2)]
  let rb := acc [pb.1, -(pQ p 1 * xS x 3)]
  let e := libSin (libAtan2 rb.1 ra.1 - stTh st 6)
  let i := acc [stA st 4, pG p 4 * e * dts c]
  let w := acc [pG p 3 * e, rA i.1]
  let th := rTh (stTh st 6 + w.1 * omDt c)
  let ok := decide (pQ p 5 ≤ absR w.1) && decide (pQ p 6 / 2 ≤ libSqrt (ra.1 * ra.1 + rb.1 * rb.1))
  (resT (resA [.a th, sc w.1, .w (b2n ok)] st [(0, pa.1), (2, pb.1), (4, i.1)]) 6 th).satIf
    (pa.2 || pb.2 || ra.2 || rb.2 || i.2 || w.2)

def bObsIm (c : BCtx) (x : List BIn) (p st : List Nat) : BRes :=
  let tr := us (pU p 1)
  let d := acc [pQ p 0 * xS x 0, -stA st 0]
  let n := acc [stA st 0, d.1 * dts c / tr]
  let psi := rA n.1
  let wsl := libDiv (pQ p 0 * xS x 1) (tr * max psi (pQ p 2) * omB c)
  let w := acc [xS x 2, wsl.1]
  let th := rTh (stTh st 2 + w.1 * omDt c)
  (resT (resA [.a th, sc psi, qw wsl] st [(0, psi)]) 2 th).satIf (d.2 || n.2 || wsl.2 || w.2)

/-- FOLLOW_ERR. |ERR| is compared with LIMIT before ERR saturates at its output, so a LIMIT of 0x7FFF can be passed (DESIGN
CHOICE, log entry 111). -/
def bFollowErr (c : BCtx) (x : List BIn) (p st : List Nat) : BRes :=
  let e := xS x 0 - xS x 1
  let t := if pQ p 0 < absR e then min (2 ^ 32 - 1) (stW st 0 + c.dt) else 0
  let fired := stW st 1 != 0 || decide (tickMs (pU p 1) ≤ t)
  ⟨[.w (if fired then 0x0700 + pU p 2 else 0), sc e], setWs st 0 [t, b2n fired], false⟩

/-- FRESH_SUP (R108): the outputs FBO, REQ and STAT with their TAINT, and the state. -/
def bFreshSup (c : BCtx) (x : List BIn) (p st : List Nat) : List OutW × List Nat :=
  let fb := inp x 0
  let obs := inp x 2
  let lost := decide (2 ≤ fb.age)
  let cnt := if fb.val = stW st 1 % 65536 ∧ pQ p 2 < absR (xS x 1) then min (2 ^ 32 - 1) (stW st 0 + 1) else 0
  let frozen := decide (pU p 1 ≤ cnt)
  let twin := xW x 3 != 0
  let obsOk := decide (obs.age < 2)
  let s0 := stW st 2 % 4
  let start := s0 == 0 && (lost || frozen || twin)
  let s1 := if start then (if pU p 0 = 3 ∧ obsOk then 1 else if pU p 0 = 1 then 2 else 3) else s0
  let t0 := if start && s1 == 1 then 0 else stW st 3
  let t1 := if s1 = 1 then min (2 ^ 32 - 1) (t0 + c.dt) else t0
  let s2 := if s1 = 1 ∧ (tickMs (pU p 3) ≤ t1 ∨ ¬obsOk) then 3 else s1
  let odd := (inp x 1).stale || (inp x 3).stale
  let fboTaint := if s2 = 1 then obs.stale else if s2 = 0 then odd else true
  let req := if s2 = 2 then 0x0601 else if s2 = 3 then 0x0602 else if s2 = 1 then 0x0603 else 0
  ([⟨if s2 = 1 then obs.val else fb.val, false, fboTaint⟩, ⟨req, false, odd⟩,
    ⟨b2n lost + 2 * b2n frozen + 4 * b2n twin + 16 * s2, false, odd⟩],
   setWs st 0 [cnt, fb.val, s2, t1])

/-- The rank of a request code in REACT_MUX, 0 first (R109). -/
def reactRank (w : Nat) : Nat :=
  match w % 16 with
  | 1 => 0 | 6 => 0 | 2 => 1 | 4 => 2 | 5 => 3 | 3 => 4 | _ => 5

def bReactMux (x : List BIn) (st : List Nat) : BRes :=
  if stW st 0 ≠ 0 then ⟨[.w (stW st 0)], st, false⟩
  else
    let ws := (List.range 8).map (fun k => xW x k)
    let best := ws.foldl (fun b w => if reactRank w < reactRank b then w else b) 0
    let req := if reactRank best = 5 then 0 else best &&& 0x1F0F
    ⟨[.w req], setWs st 0 [if req % 16 = 1 ∨ req % 16 = 2 ∨ req % 16 = 6 then req else 0], false⟩

def bCaptureTrig (x : List BIn) (p st : List Nat) (stale : Bool) : BRes :=
  let v := xS x 0
  let on := if pU p 0 = 0 then decide (pQ p 1 ≤ v) else if pU p 0 = 1 then decide (v ≤ pQ p 1) else decide (pQ p 1 ≤ absR v)
  let off := if pU p 0 = 0 then decide (v < pQ p 1 - pQ p 2) else if pU p 0 = 1 then decide (pQ p 1 + pQ p 2 < v)
    else decide (absR v < pQ p 1 - pQ p 2)
  let t := if stale then false else if stW st 0 = 0 then on else !off
  ⟨[.w (b2n t)], setWs st 0 [b2n t], false⟩

/-! ### R112 to R114: wear and current sharing -/

/-- THERMAL_NET (R112). Temperatures are kept at the scale of R89: 1 is 100 °C. -/
def bThermalNet (c : BCtx) (x : List BIn) (p st : List Nat) : BRes :=
  let ne := ((inp x 4).seq + 256 - stW st 11 % 256) % 256
  let i := absR (xS x 0) * (c.ib : Rat) / 1000
  let f := if pU p 0 % 2 = 0 then xS x 1 else 1 - xS x 1
  let tc := puOf (stW st 12) * 100 - 25
  let pc := us (pU p 1) * (1 + us (pU p 2) * tc) * i * i * f
  let ps := if c.dt = 0 then 0 else (ne : Rat) * us (pU p 3) * absR (xS x 0) * xS x 2 * (1 + us (pU p 4) * tc) / dts c
  let w := pc + ps
  let z := fun (k : Nat) =>
    let z0 := stA st (2 * k)
    if pU p (5 + k) = 0 then 0
    else rA (z0 + (w * us (pU p (5 + k)) / 100 - z0) * (1 - libExpNeg (dts c / us (pU p (9 + k)))))
  let tj := xS x 3 + z 0 + z 1 + z 2 + z 3
  let e0 : Nat := stW st 8 + 2 ^ 32 * stW st 9
  let e1 := ((e0 : Int) + roundHalfUp (w * dts c * 1000)).toNat % 2 ^ 64
  let peak := if toSigned 16 (stW st 10) < toSigned 16 (qWord tj) then qWord tj else stW st 10
  let r := resA [sc tj, sc (w / 1000)] st [(0, z 0), (2, z 1), (4, z 2), (6, z 3)]
  { r with st := setWs r.st 8 [e1 % 2 ^ 32, e1 / 2 ^ 32, peak, (inp x 4).seq, qWord tj] }

/-- The rainflow counter's working data: counts, stack of turning points (oldest first), half-cycles, and the last
counted ΔT and mean. -/
structure Rain where
  st    : List Nat
  stack : List Nat
  h     : Nat
  dt    : Nat
  tm    : Nat
  /-- the ΔT and the mean counted last were beyond the Q15 range -/
  satT  : Bool := false
  satM  : Bool := false
  deriving DecidableEq, Repr

/-- count(dT, tm, n) of R113. -/
def rainCount (p : List Nat) (r : Rain) (dT tm : Rat) (n : Nat) : Rain :=
  if dT < pQ p 2 then r
  else
    let b := min 15 ((dT - pQ p 2) / pQ p 3).floor.toNat
    let m := (clampInt 0 7 ((tm - pQ p 4) / pQ p 5).floor).toNat
    let k := 8 * b + m
    { r with st := setWs r.st k [min (2 ^ 32 - 1) (stW r.st k + n)], dt := qCode dT, tm := qCode tm,
             satT := qOver dT, satM := qOver tm, h := (r.h + n) % 2 ^ 32 }

/-- The four-point loop of R113 over the stack held newest first. -/
def rainClose (p : List Nat) : Nat → List Nat → Rain → List Nat × Rain
  | 0, l, r => (l, r)
  | n + 1, d :: c :: b :: a :: t, r =>
    let bc := absR (puOf b - puOf c)
    if bc ≤ absR (puOf a - puOf b) ∧ bc ≤ absR (puOf c - puOf d) then
      rainClose p n (d :: a :: t) (rainCount p r bc ((puOf b + puOf c) / 2) 2)
    else (d :: c :: b :: a :: t, r)
  | _ + 1, l, r => (l, r)

/-- Push a turning point and count what it closes (R113). -/
def rainPush (p : List Nat) (r : Rain) (v : Nat) : Rain :=
  let cl := rainClose p 16 (v :: r.stack.reverse) r
  let stk := cl.1.reverse
  match decide (stk.length = 32), stk with
  | true, p0 :: p1 :: t =>
    { rainCount p cl.2 (absR (puOf p0 - puOf p1)) ((puOf p0 + puOf p1) / 2) 1 with stack := p1 :: t }
  | _, _ => { cl.2 with stack := stk }

/-- RAINFLOW (R113). Word 160 holds the depth of the stack, word 161 the direction (0 none, 1 rising, 2 falling), word
162 the extreme since the last stored point and word 163 whether a value was seen (DESIGN CHOICE, log entry 11). -/
def bRainflow (c : BCtx) (x : List BIn) (p st : List Nat) : BRes :=
  let v := xW x 0
  let t := xS x 0
  let ext := stW st 162
  let e := puOf ext
  let dir := stW st 161
  let r0 : Rain := ⟨st, ((st.drop 128).take (min 32 (stW st 160))), stW st 175, c.prev.getD 0 0, c.prev.getD 1 0, false, false⟩
  let rev := stW st 163 ≠ 0 ∧
    ((dir ≠ 1 ∧ pQ p 1 < t - e ) ∨ (dir ≠ 2 ∧ pQ p 1 < e - t))
  let r := if rev then rainPush p r0 ext else r0
  let dir' := if rev then (if e < t then 1 else 2) else dir
  let ext' := if stW st 163 = 0 ∨ rev ∨ (dir = 1 ∧ e < t) ∨ (dir = 2 ∧ t < e) then v else ext
  let st1 := setWs r.st 128 (r.stack ++ List.replicate (32 - r.stack.length) 0)
  ⟨[.s (puOf r.dt) r.satT, .s (puOf r.tm) r.satM, .w (r.h / 2)],
   setWs (setWs st1 160 [r.stack.length, dir', ext', 1]) 175 [r.h], false⟩

/-- CURRENT_STEER (R114). -/
def bCurrentSteer (c : BCtx) (x : List BIn) (p st : List Nat) : BRes :=
  let n := pU p 0
  let ks := List.range n
  let s := fun (k : Nat) => clampR (xS x (5 + k)) (puOf 0x1666) (puOf 0x299A)
  let i := fun (k : Nat) => xS x (1 + k)
  let ip := ks.foldl (fun a k => a + i k) 0
  let ss := ks.foldl (fun a k => a + s k) 0
  let e := fun (k : Nat) => (libDiv (ip * s k) ss).1 - i k
  let y0 := fun (k : Nat) => stA st (2 * k) + pG p 2 * e k * dts c
  let y := fun (k : Nat) => rA (clampR (y0 k) (-(pQ p 3)) (pQ p 3))
  let q := fun (k : Nat) => acc [pG p 1 * e k, y k]
  let t := acc (ks.map (fun k => (q k).1))
  let m := if n = 0 then 0 else t.1 / (n : Rat)
  (resA ((List.range 4).map (fun k =>
      if k < n then sc (clampR (xS x 0 + clampR ((q k).1 - m) (-(pQ p 3)) (pQ p 3)) 0 1) else sc 0))
    st (ks.map (fun k => (2 * k, y k)))).sats (ks.map y0) |>.satIf (t.2 || ks.any (fun k => (q k).2))

/-! ### One execution -/

/-- The stale behaviours of R86. -/
inductive StaleB where
  | H | F | Z | N
  deriving DecidableEq, Repr

/-- The stale behaviour of a type (R91). -/
def staleOf (op : Nat) : StaleB :=
  if op ∈ [0x07, 0x08, 0x09, 0x0A, 0x0B, 0x0F, 0x11, 0x12, 0x13, 0x14, 0x15, 0x16, 0x19, 0x23, 0x24, 0x26, 0x27, 0x28,
    0x2C, 0x2D] then .F
  else if op ∈ [0x1B, 0x20, 0x29, 0x2F] then .Z
  else if op ∈ [0x25, 0x2B] then .N
  else .H

/-- The arithmetic of a type (R93 to R114) apart from FRESH_SUP; `stale` is for the types of behaviour Z. -/
def blockFn (op : Nat) (c : BCtx) (x : List BIn) (p st : List Nat) (stale : Bool) : BRes :=
  let pure := fun (o : List OutV) => (⟨o, st, false⟩ : BRes)
  match op with
  | 0x01 => pure (bClarke x)
  | 0x02 => pure (bInvClarke x)
  | 0x03 => pure (bPark x)
  | 0x04 => pure (bInvPark x)
  | 0x05 => pure (bSincos x)
  | 0x06 => pure (bSvpwm x p)
  | 0x07 => bPi c x p st
  | 0x08 => bPid c x p st
  | 0x09 => bPr c x p st
  | 0x0A => bDqPi c x p st
  | 0x0B => bLeadLag c x p st
  | 0x0C => pure (bSum x p)
  | 0x0D => pure (bProduct x p)
  | 0x0E => pure (bLimit x p)
  | 0x0F => bSlew c x p st
  | 0x10 => pure (bVecLimit x p)
  | 0x11 => bHyst x p st
  | 0x12 => bLpf1 c x p st
  | 0x13 => bBiquad x p st
  | 0x14 => bNotch c x p st
  | 0x15 => bMavg x p st
  | 0x16 => bRms c x p st
  | 0x17 => bAngleInt c x st
  | 0x18 => bPll c x p st
  | 0x19 => bSeqSplit c x st
  | 0x1A => bPqCalc c x p st
  | 0x1B => bSyncCheck c x p st stale
  | 0x1C => bVsm c x p st
  | 0x1D => pure (bDroopPf x p)
  | 0x1E => pure (bDroopQv x p)
  | 0x1F => bVirtZ x p st
  | 0x20 => bInertiaLedger c x p st stale
  | 0x21 => bRtEnvelope c x p st
  | 0x22 => pure (bInrushLim x p)
  | 0x23 => bProfile c x p st
  | 0x24 => bFollowErr c x p st
  | 0x26 => bFieldWeaken c x p st
  | 0x27 => bObsPm c x p st
  | 0x28 => bObsIm c x p st
  | 0x29 => bSetpointSel c x p st stale
  | 0x2A => pure (bTorqueRef x p)
  | 0x2B => bThermalNet c x p st
  | 0x2C => bRainflow c x p st
  | 0x2D => bCurrentSteer c x p st
  | 0x2E => bReactMux x st
  | 0x2F => bCaptureTrig x p st stale
  | 0x30 => pure [.w (xW x (1 + min 7 (xW x 0)))]
  | _ => pure []

/-- An output rounded by its kind, with SAT (R45, R47, R84). -/
def outRound : OutV → Nat × Bool
  | .s v sat =>
    let z := roundHalfUp (v * 8192)
    (ofSigned 16 (clampInt (-32768) 32767 z), sat || decide (32767 < z) || decide (z < -32768))
  | .a v => (ofSigned 16 (roundHalfUp (v * 32768)), false)
  | .w n => (n % 65536, false)

/-- Whether a scalar output left the A40 range before rounding (R46). -/
def outOver : OutV → Bool
  | .s v _ => a40Sat v
  | _ => false

/-- The inputs whose staleness counts: SETPOINT_SEL reads only the input SRC selects (R105), and THERMAL_NET applies N
to EDGE (R112). -/
def countedIns (op : Nat) (x : List BIn) (p : List Nat) : List BIn :=
  if op = 0x29 then [inp x (pU p 0)] else if op = 0x2B then x.take 4 else x

/-- One execution of a block: the writes of its outputs and its new state (R55, R83, R86). -/
def runBlock (op : Nat) (c : BCtx) (x : List BIn) (p st : List Nat) : List OutW × List Nat :=
  if op = 0x25 then bFreshSup c x p st
  else
    let stale := (countedIns op x p).any (fun i => i.stale)
    let taint := stale || (op != 0x24 && (if op = 0x29 then countedIns op x p else x).any (fun i => i.taint))
    if stale ∧ staleOf op = .F then (c.prev.map (fun v => ⟨v, false, true⟩), st)
    else
      let r := blockFn op c x p st stale
      let ovf := r.ovf || r.outs.any outOver
      (r.outs.map (fun o => ⟨(outRound o).1, ovf || (outRound o).2, taint⟩), r.st)

end Sys2Proof.Machine
end

