-- ==== Sys2Proof/Machine/Carrier.lean ====
section
/-! DEFINITION. The carriers (R57, R193 to R196) and the gate edges of the legs (R190, R192, R198). A carrier edge has a
number: 2k for master valley k, 2k + 1 for the peak after it. -/

namespace Sys2Proof.Machine

open Sys2Proof

/-! ### The master carrier (R194, R196) -/

/-- The carrier period in force of a bridge's master leg, ticks; 0 while no carrier runs. -/
def masterPer (s : State) (b : Nat) : Nat := (s.leg (masterLeg s b)).perF

/-- The next master valley. -/
def nextValley (x : Bridge) : Nat := match x.vals with | (v, p) :: _ => v + p | [] => x.first

/-- Master valley `k` with the period that begins there, while it is remembered. -/
def valleyOf (x : Bridge) (k : Nat) : Option (Nat × Nat) := if x.valN < k then none else x.vals[x.valN - k]?

/-- Carrier edge `h` lies in a period that has begun. -/
def edgeBegun (x : Bridge) (h : Nat) : Bool := decide (1 ≤ h / 2) && decide (h / 2 ≤ x.valN)

/-- The master's present carrier period: the one most recently applied, in force or due at the next master valley (R196). -/
def presentPer (s : State) (b : Nat) : Nat :=
  match (s.br b).strobePer with
  | some (p, e) => if e ≤ 2 * ((s.br b).valN + 1) then p else (s.leg (masterLeg s b)).per
  | none => (s.leg (masterLeg s b)).per

/-- The tick of carrier edge `h`: as it was, or as the present period puts it; 0 for one no longer remembered. -/
def edgeTick (s : State) (b h : Nat) : Nat :=
  let x := s.br b
  if edgeBegun x h then
    match valleyOf x (h / 2) with
    | some (v, p) => v + (h % 2) * (p / 2)
    | none => 0
  else nextValley x + (h - 2 * (x.valN + 1)) * presentPer s b / 2

/-- The carrier edge at which the first beat after a placement starts (R57): the next peak or valley, as BEAT_EDGE says. -/
def firstEdge (s : State) (b beatEdge : Nat) : Nat :=
  let n := (s.br b).valN
  if beatEdge ≠ 0 then 2 * n + 2
  else if edgeBegun (s.br b) (2 * n + 1) ∧ s.now ≤ edgeTick s b (2 * n + 1) then 2 * n + 1
  else 2 * n + 3

/-- The end of the present beat of a placed graph: the next carrier edge at which one starts. -/
def beatEnds (s : State) (b : Nat) (p : Placed) : Nat :=
  if s.now < edgeTick s b p.nextEdge then edgeTick s b p.nextEdge else edgeTick s b (p.nextEdge + p.graph.beatHalf)

/-- The master's CMODE and UPD (R193, R194). -/
def sawtooth (s : State) (b : Nat) : Bool := s.flag R.SH_CARRIER.CMODE (masterLeg s b)
def updBoth (s : State) (b : Nat) : Bool := s.flag R.SH_CARRIER.UPD (masterLeg s b) && !sawtooth s b

/-! ### A leg's carrier (R195) -/

/-- PHASE_OFS of a leg; the master's own is ignored. -/
def phaseOfs (s : State) (b n : Nat) : Nat := if n = masterLeg s b then 0 else s.rd R.SH_PHASE.PHASE_OFS n

/-- Edge `h` of the carrier of leg `n`, fine steps, while its master valley is remembered. -/
def legEdge (s : State) (b n h : Nat) : Option Nat :=
  (valleyOf (s.br b) (h / 2)).map (fun e => 64 * e.1 + (h % 2) * (32 * e.2) + phaseOfs s b n)

/-- The carrier period in force at the fine step `t`: that of the last master valley at or before it (R196, R203). -/
def periodAt (x : Bridge) (t : Nat) : Nat :=
  match x.vals.find? (fun v => decide (64 * v.1 ≤ t)) with | some v => v.2 | none => 0

/-- The edges of leg `n` with a number of at least `h`, in the periods of the master that have begun and are remembered:
number and fine step, in time order. -/
def legEdges (s : State) (b n h : Nat) : List (Nat × Nat) :=
  let x := s.br b
  let lo := 2 * (x.valN + 1 - x.vals.length)
  ((List.range (2 * x.vals.length)).map (fun i => lo + i)).filterMap (fun i =>
    if h ≤ i then (legEdge s b n i).map (fun t => (i, t)) else none)

/-- The next update point of a leg: its valleys, and its peaks where UPD is 1 (R194). -/
def nextPoint (s : State) (b n : Nat) : Option (Nat × Nat) :=
  (legEdges s b n (s.leg n).upN).find? (fun e => decide (e.1 % 2 = 0) || updBoth s b)

/-- The tick at which a fine step has passed. -/
def tickOf (t : Nat) : Nat := (t + 63) / 64

/-! ### Gate edges (R190, R192, R198) -/

/-- The place of an edge: a whole tick and the taps of its fine code under NCAL; while fine codes are not used a turn-on
moves to the next later whole tick and a turn-off to the next earlier one. -/
def placement (l : Leg) (e : GateEdge) : Nat × Nat :=
  if l.coarse then (if e.on_ then tickOf e.time else e.time / 64, 0)
  else (e.time / 64, (2 * (e.time % 64) * l.ncal + 64) / 128)

/-- An edge has been made by tick `now`: its taps end within the tick that follows its whole tick. -/
def edgeMade (l : Leg) (now : Nat) (e : GateEdge) : Bool :=
  let p := placement l e
  decide (p.1 < now) || (decide (p.1 = now) && decide (p.2 = 0))

/-- One edge: the refresh timer starts at the end of every low-side pulse, and at the first turn-on of the high side
without one (R210). -/
def Gates.take (g : Gates) (e : GateEdge) : Gates :=
  if e.high then
    if g.hi = e.on_ then g
    else { g with hi := e.on_, hiAt := e.time, lowEnd := if e.on_ ∧ g.lowEnd.isNone then some e.time else g.lowEnd }
  else if g.lo = e.on_ then g
  else if e.on_ then { g with lo := true, loAt := e.time }
  else { g with lo := false, loAt := e.time, lowEnd := some e.time, lowSeen := true }

/-- The gate commands of a leg's sash unit at tick `now`. -/
def gatesAt (l : Leg) (now : Nat) : Gates := (l.edges.filter (edgeMade l now)).foldl Gates.take l.gates

/-- An edge put into a list in time order, after those of its own instant. -/
def insertEdge (e : GateEdge) : List GateEdge → List GateEdge
  | [] => [e]
  | f :: t => if e.time < f.time then e :: f :: t else f :: insertEdge e t

/-- The high-side command changes at `t` (R198): the switch that was on goes off, a turn-on of it that has not come is not
made, and the other one turns on after its dead time. -/
def commandEdge (dtLh dtHl : Nat) (up : Bool) (t : Nat) (es : List GateEdge) : List GateEdge :=
  let es1 := es.filter (fun e => !(e.on_ && e.high != up && decide (t ≤ e.time)))
  insertEdge ⟨up, true, t + (if up then dtLh else dtHl)⟩ (insertEdge ⟨!up, false, t⟩ es1)

/-- A leg without pulses: both gates off, CARRY's partner values and the refresh timer at rest (R216). -/
def Leg.block (l : Leg) : Leg :=
  { l with held := none, gates := {}, edges := [], trips := [], refresh := none, ptLow := false }

end Sys2Proof.Machine
end

