-- ==== Sys2Proof/Machine/Log.lean ====
section
/-! DEFINITION. The event log (R457, R459): accepting an entry, flushing the buffer, and LOG_READ. -/

namespace Sys2Proof.Machine

open Sys2Proof

/-- The 32 bytes of an entry (R459). -/
def logBytes (e : LogEntry) : List Byte :=
  let body := le 4 e.seq ++ le 2 e.start ++ le 2 e.code ++ le 8 e.ts ++ le 2 e.obj ++ le 2 0 ++ padTo 8 e.data
  body ++ le 4 (crc32c body)

/-- One entry put into the buffer. -/
def logPut (code obj : Nat) (data : List Byte) (s : State) : State :=
  let e : LogEntry := ⟨s.log.next % 2 ^ 32, s.log.starts % 2 ^ 16, code, tsNow s, obj, data⟩
  { s with log := { s.log with buf := s.log.buf ++ [e], next := s.log.next + 1, recent := s.now :: s.log.recent } }

/-- The entries accepted in the last second. -/
def logRecent (s : State) : List Nat := s.log.recent.filter (fun t => decide (s.now < t + tSec))

/-- An event offered to the log: accepted within the rate and the buffer, otherwise dropped and counted (R459). -/
def logEvent (code obj : Nat) (data : List Byte) (s : State) : State :=
  let s1 := { s with log := { s.log with recent := logRecent s } }
  let need := if s1.log.dropped = 0 then 1 else 2
  if 1000 < s1.log.recent.length + need ∨ 256 < s1.log.buf.length + need then
    (({ s1 with log := { s1.log with dropped := s1.log.dropped + 1 } }).countUp R.LOG_STAT.DROPS).raise
      R.BG_EVENT.LOG_DROP_EV
  else if s1.log.dropped = 0 then logPut code obj data s1
  else
    let s2 := logPut 0x00FF 0 (le 4 s1.log.dropped) s1
    logPut code obj data { s2 with log := { s2.log with dropped := 0 } }

/-- A corrected-error entry, at most one per memory and second; it carries the errors since the last entry accepted: one that is dropped
keeps its count and its second (R459). -/
def logCorrected (memory : Nat) (s : State) : State :=
  let last := (s.log.corAt.find? (fun e => e.1 = memory)).map (·.2)
  let n := match last with | some e => e.2 | none => 0
  let rest := s.log.corAt.filter (fun e => e.1 ≠ memory)
  let keep := fun (t : Option Nat) (s : State) => { s with log := { s.log with corAt := (memory, t, n + 1) :: rest } }
  let entry := fun (s : State) =>
    let s1 := logEvent 0x0040 memory (le 4 (n + 1)) s
    if s1.log.dropped = 0 then { s1 with log := { s1.log with corAt := (memory, some s.now, 0) :: rest } }
    else keep (last.bind (·.1)) s1
  match last.bind (·.1) with
  | some t => if s.now < t + tSec then keep (some t) s else entry s
  | none => entry s

/-! ### Ring areas and wear (R456, R458) -/

/-- The bytes of each ring, whole records: ledger 73, security 2,048, event log 131,072, calibration 32; and of its record. -/
def ringBytes (area : Nat) : Nat := [73 * 28672, 262144, 4194304, 131072].getD area 0
def ringRecord (area : Nat) : Nat := [28672, 128, 32, 4096].getD area 0

/-- Ring `area`. -/
def ring (s : State) (area : Nat) : Ring := sget (fun _ => ({} : Ring)) s.bg.rings area

/-- The erased bytes ahead of a ring's next record. -/
def ringRoom (s : State) (area : Nat) : Nat := ringBytes area - (ring s area).used

/-- The sector of a ring that is erased next: the oldest one that is not erased. -/
def oldestSector (s : State) (area : Nat) : Nat :=
  ((ring s area).pos + ringBytes area - (ring s area).used) % ringBytes area / 4096

/-- The highest erase count of a sector of an area: a ring area by its number, 4 the firmware banks, 5 the image store (R458; the
numbers DESIGN CHOICE, log entry 130). -/
def areaWear (s : State) (area : Nat) : Nat :=
  ((s.bg.wear.filter (fun e => decide (e.1 / 1024 = area))).map (fun e => e.2)).foldl max 0

/-- The share of 100,000 erases, in percent. -/
def wearPct (s : State) (area : Nat) : Nat := satur 8 (divOpen 10 (areaWear s area) 1000)

/-- BG_WEAR: the highest sector erase count of each ring area. -/
def wearWord (s : State) : Word :=
  0 |> put R.BG_WEAR.LEDGER_PCT (wearPct s 0) |> put R.BG_WEAR.SEC_PCT (wearPct s 1)
    |> put R.BG_WEAR.LOG_PCT (wearPct s 2) |> put R.BG_WEAR.CAL_PCT (wearPct s 3)

/-- One more erase of sector `sector` of an area; WEAR_EV and its entry when the area's highest count reaches 90,000 (R458, R459). A
write in place erases from the first sector of its bank or slot on, whose count is that of the bank or slot. -/
def countErase (area sector : Nat) (s : State) : State :=
  let k := 1024 * area + sector
  let s1 := { s with bg := { s.bg with wear := sput (fun _ => 0) s.bg.wear k (sget (fun _ => 0) s.bg.wear k + 1) } }
  if areaWear s area < 90000 ∧ 90000 ≤ areaWear s1 area then
    logEvent 0x0054 area (le 4 (wearWord s1).toNat) (s1.raise R.BG_EVENT.WEAR_EV)
  else s1

def setRing (area : Nat) (x : Ring) (s : State) : State :=
  { s with bg := { s.bg with rings := sput (fun _ => ({} : Ring)) s.bg.rings area x } }

/-- The oldest sector of a ring is erased; of the event log its 128 entries are dropped together (R456, R459). -/
def eraseSector (area : Nat) (s : State) : State :=
  let r := ring s area
  let s1 := countErase area (oldestSector s area) (setRing area { r with used := r.used - 4096 } s)
  if area = 2 then { s1 with log := { s1.log with flash := s1.log.flash.drop 128 } } else s1

/-- Room for a record that leaves two erased records ahead of it (R456). -/
def makeRoom (area : Nat) (s : State) : State :=
  s.each (List.range 21) (fun s _ =>
    if ringRoom s area < 3 * ringRecord area ∧ 4096 ≤ (ring s area).used then eraseSector area s else s)

/-- A record is written at the ring's next erased position (R456). -/
def ringWrite (area : Nat) (s : State) : State :=
  let s1 := makeRoom area s
  let r := ring s1 area
  setRing area ⟨(r.pos + ringRecord area) % ringBytes area, r.used + ringRecord area⟩ s1

/-- A COUNTER_RESYNC that waited for a record of rank 2 or 3 is written as that ends, and its reply goes out (R390, R457). -/
def settleResync (s : State) : State :=
  match s.sec.resync with
  | some (slot, value) =>
    swapSettled 10 (ringWrite 1 (writeResync slot value { s with sec := { s.sec with resync := none } }))
  | none => s

/-- One entry of the event log written to its ring. -/
def flushEntry (e : LogEntry) (s : State) : State :=
  let s1 := ringWrite 2 s
  { s1 with log := { s1.log with flash := s1.log.flash ++ [e] } }

/-- A flush is due: 64 entries wait, or some do 10 s after the last flush (R452). -/
def flushDue (s : State) : Bool :=
  decide (64 ≤ s.log.buf.length) || (decide (s.log.buf ≠ []) && decide (s.log.flushAt + 10 * tSec ≤ s.now))

/-- EVENT_LOG_FLUSH: the buffer goes to flash, 10 s after the last flush or at 64 pending entries; a flush that did not end, or that
waits for the flash, leaves it (R452, R457, R459). -/
def eventLogFlush (ok : Bool) (s : State) : State :=
  if ok ∧ flashFree s ∧ systemUp s then
    let s1 := if 64 ≤ s.log.buf.length then s else reachTime (s.log.flushAt + 10 * tSec) s
    let s2 := s.log.buf.foldl (fun s e => flushEntry e s) { s1 with log := { s1.log with buf := [], flushAt := s1.now } }
    s2
  else s

def execEventLogFlush (ok : Bool) (s : State) : Host.Outcome State Fault Refusal := .next (eventLogFlush ok s)

/-- The entries held, in flash and in the buffer. -/
def logHeld (s : State) : List LogEntry := s.log.flash ++ s.log.buf

/-- LOG_READ (R459). -/
def logReadBody (entry : Nat) (s : State) : Res :=
  match (logHeld s).find? (fun e => e.seq = entry) with
  | some e => doneWith (logBytes e) s
  | none => refuse stBadParam s

def execLogRead (h : Hdr) (entry : Nat) (s : State) : Host.Outcome State Fault Refusal :=
  .next (acceptCmd h 0x0904 (le 4 entry) (logReadBody entry) s)

end Sys2Proof.Machine
end

