-- ==== Sys2Proof/Machine/Ledger.lean ====
section
/-! DEFINITION. The ring ledger (R177 to R184) and current steering (R185 to R187): passes, damage, checkpoints, shares,
and the ledger commands. -/

namespace Sys2Proof.Machine

open Sys2Proof

/-! ### Entries (R177 to R180) -/

/-- COUNT of bin k = 8b + m. -/
def Entry.countAt (e : Entry) (k : Nat) : Nat := sget (fun _ => 0) e.count k

/-- NF of table t, bin k. -/
def nfAt (s : State) (t k : Nat) : Nat := sget (fun _ => 0) s.ledger.nf (128 * t + k)

/-- DAMAGE by Miner's rule over the whole table, formed exactly and rounded once (R179). -/
def damageOf (s : State) (e : Entry) : Nat :=
  let sum : Rat := (List.range 128).foldl (fun q k =>
    if nfAt s e.nfSel k = 0 then q else q + (e.countAt k : Rat) / (nfAt s e.nfSel k : Rat)) 0
  min 0xFFFFFFFF (roundHalfUp (8388608 * sum)).toNat

/-- CYCLES and DAMAGE recomputed, and SAT (R177, R178). -/
def recomputeEntry (s : State) (e : Entry) : Entry :=
  { e with
    cycles := min 0xFFFFFFFF (((List.range 128).map e.countAt).foldl (· + ·) 0)
    damage := damageOf s e
    sat := e.sat || (List.range 128).any (fun k => decide (e.countAt k = 0xFFFFFFFF)) }

/-- The 544 bytes of an entry (R177). -/
def entryBytes (e : Entry) : List Byte :=
  let body := (List.range 128).flatMap (fun k => le 4 (e.countAt k)) ++ le 8 e.energy ++ le 4 e.damage ++ le 4 e.cycles
    ++ le 4 e.ontime ++ le 4 e.rate ++ le 2 e.peak ++ le 1 e.nfSel ++ le 1 (b2n e.valid + 2 * b2n e.sat)
  body ++ le 4 (crc32c body)

/-! ### Passes (R178) -/

/-- The persistent words of one placed block read into its switch's entry (R112, R113, R178). -/
def pullBlock (g : Graph) (states : List (List Nat)) (i : Nat) (s : State) : State :=
  let r := g.recAt i
  let sw := (recPars g r).getD 0 0
  let st := states.getD i []
  if r.op = 0x2B then
    s.setEntry sw { s.entry sw with energy := st.getD 8 0 + 2 ^ 32 * st.getD 9 0, peak := st.getD 10 0 % 65536, valid := true }
  else if r.op = 0x2C then
    s.setEntry sw { s.entry sw with
      count := (List.range 128).foldl (fun m k => sput (fun _ => 0) m k (st.getD k 0)) [], valid := true }
  else s

/-- Ticks of ONTIME of a bridge that no pass has taken. -/
def onTicks (s : State) (b : Nat) : Nat :=
  (s.br b).onAcc + (match (s.br b).onFrom with | some t => s.now - t | none => 0)

/-- The pull of one bridge's persistent blocks, with the ONTIME of every switch of the bridge (R161, R177, R178). -/
def pullBridge (b : Nat) (s : State) : State :=
  match (s.br b).placed with
  | none => s
  | some p =>
    let s1 := s.each (List.range p.graph.blocks.length) (fun s i => pullBlock p.graph p.states i s)
    let t := onTicks s1 b
    let s2 := s1.each (switchesOf s1 b) (fun s sw =>
      s.setEntry sw { s.entry sw with ontime := (s.entry sw).ontime + t / tSec })
    let s3 := s2.setBr b { s2.br b with onAcc := t % tSec, onFrom := (s2.br b).onFrom.map (fun _ => s2.now) }
    s3.each (s3.ledger.entries.map (·.1)) (fun s sw => s.setEntry sw (recomputeEntry s (s.entry sw)))

/-! ### Current steering (R185 to R187) -/

/-- The share of leg `n`, Q15. -/
def shareOf (s : State) (n : Nat) : Nat := sget (fun _ => 0x2000) s.canopy.shares n

/-- The share of leg `n` set. -/
def setShare (n v : Nat) (s : State) : State :=
  { s with canopy := { s.canopy with shares := sput (fun _ => 0x2000) s.canopy.shares n v } }

/-- The damage of a leg: the larger of its two switches. -/
def legDamage (s : State) (n : Nat) : Nat := max (s.entry (2 * n)).damage (s.entry (2 * n + 1)).damage

/-- The shares with the offset c: t_k = clamp(w_k + c). -/
def shareClamp (lo hi c : Rat) (ws : List Rat) : List Rat := ws.map (fun w => max lo (min hi (w + c)))

/-- The sum of some rationals. -/
def ratSum (l : List Rat) : Rat := l.foldl (· + ·) 0

/-- c with Σ t_k = n: the sum grows piecewise linearly between the breakpoints (R186). -/
def shareOffset (lo hi n : Rat) (ws : List Rat) : Rat :=
  let bps := sortBy (fun a b => decide (a ≤ b)) ((ws.map (lo - ·)) ++ (ws.map (hi - ·)))
  let f := fun c => ratSum (shareClamp lo hi c ws)
  match (bps.zip bps.tail).find? (fun ab => decide (f ab.1 ≤ n) && decide (n ≤ f ab.2)) with
  | some (a, b) => if f a = f b then a else a + (n - f a) * (b - a) / (f b - f a)
  | none => 0

/-- The new shares of one phase (R186). -/
def steerPhase (b : Nat) (ls : List Nat) (s : State) : State :=
  let n : Rat := (ls.length : Rat)
  let lo : Rat := (s.rd R.CN_STEER.SH_MIN b : Rat) / 8192
  let hi : Rat := (s.rd R.CN_STEER.SH_MAX b : Rat) / 8192
  let gain : Rat := (s.rd R.CN_STEER2.GAIN b : Rat) / 10
  let ds := ls.map (fun k => ((legDamage s k : Nat) : Rat))
  let dm := ratSum ds / n
  let ws := ds.map (fun d => if (s.rd R.CN_STEER2.DFLOOR b : Rat) ≤ dm then 1 + gain * (dm - d) / dm else 1)
  let ts := shareClamp lo hi (shareOffset lo hi n ws) ws
  let ss := ls.map (fun k => (shareOf s k : Rat) / 8192)
  let far := (ts.zip ss).foldl (fun m x => max m (if x.1 < x.2 then x.2 - x.1 else x.1 - x.2)) 0
  let step : Rat := (s.rd R.CN_STEER2.STEP b : Rat) / 1000
  let al : Rat := if far ≤ step then 1 else step / far
  let qs := (ts.zip ss).map (fun x => roundHalfUp (8192 * (x.2 + al * (x.1 - x.2))))
  let diff := 8192 * (ls.length : Int) - qs.foldl (· + ·) 0
  let top := qs.foldl max (qs.headD 0)
  let at_ := qs.findIdx (fun q => decide (q = top))
  s.each (ls.zip ((List.range qs.length).map (fun k => qs.getD k 0 + (if k = at_ then diff else 0))))
    (fun s x => setShare x.1 x.2.toNat s)

/-- The shares after a ledger pass: each phase of two to four legs of a bridge with STEER_EN at 1 (R186). -/
def steerAll (s : State) : State :=
  s.each (List.range 4) (fun s b =>
    if s.flag R.CN_STEER.STEER_EN b && cfgOk s b && decide (2 ≤ nlegOf s b) then
      s.each (List.range (nphaseOf s b)) (fun s p => steerPhase b (phaseLegs s b p) s)
    else s)

/-- The share signal of leg `n` (R185). -/
def shareSignal (s : State) (n : Nat) : Nat :=
  match bridgeOfLeg s n with
  | some b => if s.flag R.CN_STEER.STEER_EN b && decide (2 ≤ nlegOf s b) then shareOf s n else 0x2000
  | none => 0x2000

/-- LEDGER_PASS: every placed bridge is pulled, every entry recomputed, and the shares follow (R178, R179, R186). -/
def ledgerPass (s : State) : State :=
  if systemUp s = false then s else
  let s1 := s.each (List.range 4) (fun s b => pullBridge b s)
  steerAll (s1.each (s1.ledger.entries.map (·.1)) (fun s k => s.setEntry k (recomputeEntry s (s.entry k))))

def execLedgerPass (s : State) : Host.Outcome State Fault Refusal := .next (ledgerPass s)

/-! ### Checkpoints (R180 to R184) -/

/-- The oldest (DAMAGE, ONTIME) of a switch that the history holds. -/
def oldestOf (s : State) (k : Nat) : Option (Nat × Nat) :=
  s.ledger.hist.reverse.findSome? (fun l => (l.find? (fun e => e.1 = k)).map (fun e => e.2))

/-- RATE of one entry at a checkpoint (R180). -/
def rateOf (s : State) (k : Nat) (e : Entry) : Nat :=
  match oldestOf s k with
  | none => 0
  | some (d, t) =>
    if e.ontime < t + 600 then e.rate
    else
      let q := divOpen 2 ((e.damage - d) * 3600000) (e.ontime - t)
      if e.damage < d ∨ 2 ^ 32 ≤ q then Config.rateOpen e.damage d (e.ontime - t) % 2 ^ 32 else q

/-- The copies in flash whose CRCs hold: the two newest valid records of the ring (R181, R456). -/
def validCopies (s : State) : List Checkpoint := s.ledger.copies.filter (fun c => c.ok)

/-- The entries and the tables of a checkpoint as bytes (R181). -/
def checkpointBody (c : Checkpoint) : List Byte :=
  (List.range 48).flatMap (fun k => entryBytes (sget (fun _ => ({} : Entry)) c.entries k))
    ++ (List.range 512).flatMap (fun k => le 4 (sget (fun _ => 0) c.nf k))

/-- A checkpoint as flash holds it (R181). -/
def checkpointBytes (c : Checkpoint) : List Byte :=
  let head := le 4 0x47524C5A ++ le 2 1 ++ le 2 48 ++ le 4 c.gen ++ le 4 c.cause ++ le 4 (crc32c (checkpointBody c))
    ++ List.replicate 8 0
  head ++ le 4 (crc32c head) ++ checkpointBody c

/-- A checkpoint begins: RATE of every entry, the history, and the copy of ledger RAM; its write takes the flash in its turn
(R180, R181, R457). -/
def beginCheckpoint (cause : Nat) (s0 : State) : State :=
  let s := flashBegin 3 s0
  let s1 := s.each (List.range 48) (fun s k => s.setEntry k { s.entry k with rate := rateOf s k (s.entry k) })
  let hist := ((List.range 48).map (fun k => (k, (s1.entry k).damage, (s1.entry k).ontime))) :: s1.ledger.hist
  let gen := (match (validCopies s1).head? with | some c => c.gen + 1 | none => s1.rd R.CN_GEN.GEN + 1) % 2 ^ 32
  ({ s1 with ledger := { s1.ledger with
      hist := hist.take 16, run := some ⟨gen, cause, s1.ledger.entries, s1.ledger.nf, true⟩ } }).wr
    R.CN_LEDGER.CP_BUSY 0 1

/-- A checkpoint on demand: at once, or after the one being written and those that wait. -/
def demandCheckpoint (cause : Nat) (s : State) : State :=
  if s.ledger.run.isSome then { s with ledger := { s.ledger with next := s.ledger.next ++ [cause] } } else beginCheckpoint cause s

/-- LEDGER_CHECKPOINT: 600 s have passed since the last one, and the start has brought Canopy's parts up (R181, R452). -/
def ledgerCheckpoint (s : State) : State :=
  if s.ledger.run.isSome ∨ systemUp s = false then s else beginCheckpoint 0 (reachTime (s.ledger.cpFrom + 600 * tSec) s)

def execLedgerCheckpoint (s : State) : Host.Outcome State Fault Refusal := .next (ledgerCheckpoint s)

/-- The opcode of the command a checkpoint's cause ends (R188). -/
def causeOp (cause : Nat) : Nat := if cause = 2 then 0x0C04 else if cause = 4 then 0x0C02 else 0

/-- LEDGER_CHECKPOINT_DONE: the copy stands, or CP_FAIL sets and the previous one stands (R181); a write that waits for
the flash has not ended (R457). -/
def ledgerCheckpointDone (ok : Bool) (s : State) : State :=
  match s.ledger.run with
  | none => s
  | some c =>
    if flashNow s ≠ some 3 then s else
    let s1 := settleResync (ringWrite 0 { s with ledger := { s.ledger with run := none } }) |>.clear R.CN_LEDGER.CP_BUSY
    let s2 := if ok then
        { s1 with ledger := { s1.ledger with copies := (c :: validCopies s1).take 2, cpAt := some s1.now, cpFrom := s1.now } }
          |>.wr R.CN_GEN.GEN 0 c.gen
      else logEvent 0x0052 0 (le 1 c.cause ++ le 4 c.gen) (s1.raise R.CN_EVENT.CP_FAIL)
    let s3 := endRun (causeOp c.cause) 0 (if ok then 1 else 2) s2
    match s3.ledger.next with
    | cause :: rest => beginCheckpoint cause { s3 with ledger := { s3.ledger with next := rest } }
    | [] => s3

def execLedgerCheckpointDone (ok : Bool) (s : State) : Host.Outcome State Fault Refusal := .next (ledgerCheckpointDone ok s)

/-- Where two checkpoints are compared by GEN modulo 2³²: `a` is the newer. -/
def genNewer (a b : Nat) : Bool := decide ((a + 2 ^ 32 - b % 2 ^ 32) % 2 ^ 32 < 2 ^ 31)

/-- At a cold start the newer checkpoint whose CRCs hold is restored; where none is, every entry starts at zero (R182). -/
def restoreLedger (s : State) : State :=
  let best := (validCopies s).foldl (fun (m : Option Checkpoint) c => match m with
    | some d => if genNewer d.gen c.gen then some d else some c
    | none => some c) none
  match best with
  | some c => { s with ledger := { s.ledger with entries := c.entries, nf := c.nf, hist := [], run := none, next := [] } }
      |>.wr R.CN_GEN.GEN 0 c.gen
  | none => { s with ledger := { s.ledger with entries := [], nf := [], hist := [], run := none, next := [] } }
      |>.raise R.CN_EVENT.LEDGER_LOST

/-! ### Commands (R184, R188) -/

def ledgerReadBody (k : Nat) (s : State) : Res :=
  if 47 < k then refuse stBadParam s else doneWith (entryBytes (s.entry k)) s

def execLedgerRead (h : Hdr) (switch : Nat) (s : State) : Host.Outcome State Fault Refusal :=
  .next (acceptCmd h 0x0C01 (le 1 switch) (ledgerReadBody switch) s)

/-- LEDGER_NF after its authentication step (R188); one that runs makes another BUSY (R322). -/
def ledgerNfChecks (h : Hdr) (t : Nat) (words : List Word) (s : State) : Res :=
  if 3 < t then refuse stBadParam s
  else if isRunning s 0x0C02 0 then refuse stBusy s
  else
    let s1 := { s with ledger := { s.ledger with
      nf := (List.range 128).foldl (fun m k => sput (fun _ => 0) m (128 * t + k) ((words.getD k 0).toNat)) s.ledger.nf } }
    let s2 := demandCheckpoint 4 s1
    let gen := match s2.ledger.run with | some c => c.gen | none => 0
    ⟨stAccepted, [], none, beginRun 0x0C02 h.seq 0 (logEvent 0x0052 0 (le 1 4 ++ le 4 gen) s2)⟩

/-- The bytes of some register words. -/
def wordBytes (ws : List Word) : List Byte := ws.flatMap (fun w => le 4 w.toNat)

def ledgerNfBody (h : Hdr) (t : Nat) (words : List Word) (s : State) : Res :=
  withAuth h 0x0C02 (le 1 t ++ wordBytes words) .any s (ledgerNfChecks h t words)

def execLedgerNf (h : Hdr) (table : Nat) (words : List Word) (s : State) : Host.Outcome State Fault Refusal :=
  .next (acceptCmd h 0x0C02 (le 1 table ++ wordBytes words) (ledgerNfBody h table words) s)

def ledgerNfReadBody (t : Nat) (s : State) : Res :=
  if 3 < t then refuse stBadParam s else doneWith ((List.range 128).flatMap (fun k => le 4 (nfAt s t k))) s

def execLedgerNfRead (h : Hdr) (table : Nat) (s : State) : Host.Outcome State Fault Refusal :=
  .next (acceptCmd h 0x0C03 (le 1 table) (ledgerNfReadBody table) s)

def ledgerSaveBody (h : Hdr) (s : State) : Res :=
  if isRunning s 0x0C04 0 ∨ s.ledger.cpAt.any (fun t => decide (s.now < t + 60 * tSec)) then refuse stBusy s
  else ⟨stAccepted, [], none, beginRun 0x0C04 h.seq 0 (demandCheckpoint 2 s)⟩

def execLedgerSave (h : Hdr) (s : State) : Host.Outcome State Fault Refusal :=
  .next (acceptCmd h 0x0C04 [] (ledgerSaveBody h) s)

/-- LEDGER_RESET after its authentication step (R184). -/
def ledgerResetChecks (mask : Nat) (s : State) : Res :=
  if (maskBits 48 mask).any (fun k => match bridgeOfLeg s (k / 2) with
      | some b => decide (modeOf s b ≠ 0) | none => false) then refuse stWrongMode s
  else if s.ledger.run.isSome then refuse stBusy s
  else
    let s1 := s.each (maskBits 48 mask) (fun s k => s.setEntry k { nfSel := (s.entry k).nfSel })
    let s2 := { s1 with ledger := { s1.ledger with
      hist := s1.ledger.hist.map (fun l => l.filter (fun e => !bitAt mask e.1)) } }
    let s3 := beginCheckpoint 3 s2
    let gen := match s3.ledger.run with | some c => c.gen | none => 0
    done (logEvent 0x0052 0 (le 1 3 ++ le 4 gen) s3)

def ledgerResetBody (h : Hdr) (mask : Nat) (s : State) : Res :=
  withAuth h 0x0C05 (le 6 mask) .any s (ledgerResetChecks mask)

def execLedgerReset (h : Hdr) (mask : Nat) (s : State) : Host.Outcome State Fault Refusal :=
  .next (acceptCmd h 0x0C05 (le 6 mask) (ledgerResetBody h mask) s)

end Sys2Proof.Machine
end

