-- ==== Sys2Proof/Machine/Canopy.lean ====
section
/-! DEFINITION. Canopy (06_canopy.md): the cost model, placement, the hinge and the rotation, evacuation, and the
Canopy commands. -/

namespace Sys2Proof.Machine

open Sys2Proof

/-! ### The cost model (R155 to R157) -/

/-- A record assigned to an engine with its phase. -/
structure Asg where
  rcd   : Nat
  eng   : Nat
  phase : Nat
  deriving DecidableEq, Repr

/-- A record of a rate and phase is due in slot `t` (R61, R155). -/
def dueIn (rate phase t : Nat) : Bool := decide (4 < rate) || decide (t % 2 ^ rate = phase % 2 ^ rate)

/-- The signals a record reads, and those it writes. -/
def BlockRec.reads (r : BlockRec) : List Nat := ((r.ins.map portSig).filter (· ≠ 0)).eraseDups
def BlockRec.wrote (r : BlockRec) : List Nat := ((r.outs.map portSig).filter (· ≠ 0)).eraseDups

/-- The engines of an assignment. -/
def asgEngines (a : List Asg) : List Nat := (a.map (·.eng)).eraseDups

/-- The signals that the blocks of an engine read: its local copies (R163). -/
def localCopies (g : Graph) (a : List Asg) (e : Nat) : List Nat :=
  ((a.filter (fun x => x.eng = e)).flatMap (fun x => (g.recAt x.rcd).reads)).eraseDups

/-- The remote copies that one execution pushes (R155, R163). -/
def pushCount (g : Graph) (a : List Asg) (x : Asg) : Nat :=
  ((g.recAt x.rcd).wrote.map (fun sig =>
    ((asgEngines a).filter (fun e => e != x.eng && (localCopies g a e).contains sig)).length)).foldl (· + ·) 0

/-- The cycles of one execution with its pushes. -/
def asgCycles (g : Graph) (a : List Asg) (x : Asg) : Nat := (blockType (g.recAt x.rcd).op).cost + 2 * pushCount g a x

/-- L(e, s) (R155). -/
def slotLoad (g : Graph) (a : List Asg) (e t : Nat) : Nat :=
  120 + ((a.filter (fun x => decide (x.eng = e) && dueIn (g.recAt x.rcd).rate x.phase t)).map (asgCycles g a)).foldl
    (· + ·) 0

/-- The highest L(e, s) over the 16 slots. -/
def peakLoad (g : Graph) (a : List Asg) (e : Nat) : Nat := ((List.range 16).map (slotLoad g a e)).foldl max 0

/-- The order of the timelines: the work of classes 0 and 1 with what it depends on, then the rest (R60, R162). -/
def timeOrder (g : Graph) : List Nat :=
  let deps := (List.range g.blocks.length).map g.deps
  let need := reachFrom deps g.blocks.length ((List.range g.blocks.length).filter (fun i => (g.recAt i).cls ≤ 1))
  (g.order.filter (fun i => need.contains i)) ++ (g.order.filter (fun i => !need.contains i))

/-- The end of each execution in slot `t`, and the clock of each engine (R156). -/
structure Timeline where
  ends   : List (Nat × Nat)
  clocks : List (Nat × Nat)
  deriving DecidableEq, Repr

/-- One execution put on its engine's timeline: it waits 24 ticks past a write on another engine (R156). -/
def timeStep (g : Graph) (a : List Asg) (t : Nat) (l : Timeline) (i : Nat) : Timeline :=
  match a.find? (fun x => x.rcd = i) with
  | none => l
  | some x =>
    if dueIn (g.recAt i).rate x.phase t then
      let c0 := sget (fun _ => 120) l.clocks x.eng
      let waits := (g.deps i).filterMap (fun j => (l.ends.find? (fun e => e.1 = j)).map (fun e =>
        match a.find? (fun y => y.rcd = j) with | some y => if y.eng = x.eng then e.2 else e.2 + 24 | none => e.2))
      let end_ := (waits.foldl max c0) + asgCycles g a x
      ⟨(i, end_) :: l.ends, sput (fun _ => 120) l.clocks x.eng end_⟩
    else l

def timeline (g : Graph) (a : List Asg) (t : Nat) : Timeline := (timeOrder g).foldl (timeStep g a t) ⟨[], []⟩

/-- The latest end of an engine's timeline over the slots. -/
def timeEnd (g : Graph) (a : List Asg) (e : Nat) : Nat :=
  ((List.range 16).map (fun t => sget (fun _ => 120) (timeline g a t).clocks e)).foldl max 0

/-- The class-0 critical path (R156). -/
def critPath (g : Graph) (a : List Asg) : Nat :=
  ((List.range 16).flatMap (fun t => ((timeline g a t).ends.filter (fun e => (g.recAt e.1).cls = 0)).map (·.2))).foldl max 0

/-- Bytes of the records and parameters, and of the state, on an engine (R157). -/
def progBytes (g : Graph) (a : List Asg) (e : Nat) : Nat :=
  ((a.filter (fun x => x.eng = e)).map (fun x =>
    recordLen (g.recAt x.rcd).ins.length (g.recAt x.rcd).outs.length + 4 * (g.recAt x.rcd).npar)).foldl (· + ·) 0
def stateBytes (g : Graph) (a : List Asg) (e : Nat) : Nat :=
  ((a.filter (fun x => x.eng = e)).map (fun x => 4 * (g.recAt x.rcd).stateW)).foldl (· + ·) 0

/-- The footprint B of an engine (R157). -/
def footBytes (g : Graph) (a : List Asg) (e : Nat) : Nat := progBytes g a e + stateBytes g a e

/-- The limits of R157 that one engine breaks: load, timeline, memories or evacuation, local copies. -/
structure Broken where
  load  : Bool
  foot  : Bool
  copies : Bool
  deriving DecidableEq, Repr

def brokenAt (g : Graph) (a : List Asg) (e : Nat) : Broken :=
  { load := decide (4 * g.beatMin < 5 * peakLoad g a e) || decide (17 * g.beatMin < 20 * timeEnd g a e)
    foot := decide (65536 < progBytes g a e) || decide (32768 < stateBytes g a e)
      || decide (3 * g.beatMin < 20 * (200 + (footBytes g a e + 31) / 32))
    copies := decide (1024 < (localCopies g a e).length) }

/-- Every engine in use meets every limit but the critical path. -/
def limitsHold (g : Graph) (a : List Asg) : Bool :=
  (asgEngines a).all (fun e => brokenAt g a e == ⟨false, false, false⟩)

/-- W0 of a bridge (R204, R262). -/
def windowW0 (s : State) (b : Nat) (g : Graph) : Int :=
  (g.beatMin : Int) - (s.rd R.SH_STRB.STRB_GUARD (masterLeg s b) : Int) - (s.rd R.MS_IP.IP b : Int)

/-- The critical path keeps within W0 − 0.15 × BEAT_MIN (R157). -/
def pathHolds (s : State) (b : Nat) (g : Graph) (a : List Asg) : Bool :=
  decide (20 * (critPath g a : Int) ≤ 20 * windowW0 s b g - 3 * (g.beatMin : Int))

/-! ### Placement (R158 to R160) -/

/-- The units of a graph: each COLOC group, and each block of no group, as record indices in ascending order. -/
def placeUnits (g : Graph) : List (List Nat) :=
  let idx := List.range g.blocks.length
  idx.filterMap (fun i =>
    let c := (g.recAt i).coloc
    if c = 0 then some [i]
    else if (idx.find? (fun j => (g.recAt j).coloc = c)) = some i then some (idx.filter (fun j => (g.recAt j).coloc = c))
    else none)

/-- The phase a record takes on engine `e`: its own, or for an open one the phase with the lowest peak slot load (R159). -/
def choosePhase (g : Graph) (a : List Asg) (e i : Nat) : Nat :=
  let r := g.recAt i
  if r.phase ≠ 0xFF then r.phase
  else if r.rate = 0 ∨ 4 < r.rate then 0
  else
    let score := fun p => peakLoad g (a ++ [⟨i, e, p⟩]) e
    (List.range (2 ^ r.rate)).foldl (fun best p => if score p < score best then p else best) 0

/-- A unit put on an engine, its open phases chosen one block at a time (R159). -/
def putUnit (g : Graph) (a : List Asg) (e : Nat) (u : List Nat) : List Asg :=
  u.foldl (fun a i => a ++ [⟨i, e, choosePhase g a e i⟩]) a

/-- The order of the units: CLASS, then peak cost descending, then lowest record index (R159). -/
def unitOrder (g : Graph) : List (List Nat) :=
  let key := fun (u : List Nat) =>
    ((u.map (fun i => (g.recAt i).cls)).min?.getD 0, peakLoad g (putUnit g [] 0 u) 0, u.headD 0)
  sortBy (fun u v =>
    let k := key u
    let l := key v
    decide (k.1 < l.1) || (decide (k.1 = l.1) && (decide (l.2.1 < k.2.1)
      || (decide (k.2.1 = l.2.1) && decide (k.2.2 ≤ l.2.2))))) (placeUnits g)

/-- The engines in the order a unit tries them: ascending peak load, then ascending number (R159). -/
def engineOrder (g : Graph) (a : List Asg) (engs : List Nat) : List Nat :=
  sortBy (fun e f => decide (peakLoad g a e < peakLoad g a f) ||
    (decide (peakLoad g a e = peakLoad g a f) && decide (e ≤ f))) engs

/-- How a try over some engines ends. -/
inductive Try where
  | placed (a : List Asg)
  /-- a unit found no engine; whether the only limit it broke on each was the local copies -/
  | noEngine (copiesOnly : Bool)
  /-- every unit was assigned and the critical path exceeded its limit -/
  | tooLong
  deriving DecidableEq, Repr

/-- The units assigned in order over the engines (R159). -/
def assignUnits (g : Graph) (engs : List Nat) : List (List Nat) → List Asg → Try
  | [], a => .placed a
  | u :: us, a =>
    match (engineOrder g a engs).find? (fun e => limitsHold g (putUnit g a e u)) with
    | some e => assignUnits g engs us (putUnit g a e u)
    | none => .noEngine (engs.all (fun e =>
        let a1 := putUnit g a e u
        (asgEngines a1).all (fun f => !(brokenAt g a1 f).load && !(brokenAt g a1 f).foot)))

/-- One try with some engines. -/
def tryEngines (s : State) (b : Nat) (g : Graph) (engs : List Nat) : Try :=
  match assignUnits g engs (unitOrder g) [] with
  | .placed a => if pathHolds s b g a then .placed a else .tooLong
  | t => t

/-- The tries with n, n + 1, … of the engines at hand; the last one stands (R159, R160). -/
def tryFrom (s : State) (b : Nat) (g : Graph) (engs : List Nat) : Nat → Nat → Try → Try
  | 0, _, last => last
  | k + 1, n, last =>
    if engs.length < n then last
    else
      match tryEngines s b g (engs.take n) with
      | .placed a => .placed a
      | t => tryFrom s b g engs k (n + 1) t

/-- The least number of engines: ⌈slot-averaged load / (0.8 × BEAT_MIN)⌉, at least 1 (R159). -/
def leastEngines (g : Graph) : Nat := max 1 ((5 * load16 g.blocks + 64 * g.beatMin - 1) / (64 * g.beatMin))

/-- The engines in a state (R152). -/
def enginesIn (s : State) (st : Nat) : List Nat := (List.range 16).filter (fun e => s.rd R.EN_STATUS.STATE e = st)

/-- A placement, or its PLACE_ERR (R159, R160). `service` says that the checks of codes 7 and 8 apply. -/
def placeGraph (s : State) (b : Nat) (service : Bool) : Except Nat (List Asg) :=
  match loadedGraph s b with
  | none => .error (if service then 7 else 1)
  | some g =>
    if service && !imageOk s b then .error 7
    else if service && !decide ((s.rd R.MS_IP.IP b : Int) < (g.beatMin : Int) - (s.rd R.SH_STRB.STRB_GUARD (masterLeg s b) : Int))
      then .error 8
    else if s.flag R.CN_STATUS.NO_FALLOW then .error 6
    else
      let alone := (unitOrder g).findSome? (fun u =>
        let k := brokenAt g (putUnit g [] 0 u) 0
        if k.load then some 2 else if k.foot then some 3 else none)
      match alone with
      | some c => .error c
      | none =>
        match tryFrom s b g (enginesIn s 0) 17 (leastEngines g) (.noEngine false) with
        | .placed a => .ok a
        | .noEngine true => .error 4
        | .tooLong => .error 5
        | .noEngine false => .error 1

/-! ### A placement in the registers (R189) -/

/-- The assignment of a placed graph. -/
def asgOf (p : Placed) : List Asg :=
  (List.range p.graph.blocks.length).map (fun i => ⟨i, p.engines.getD i 0, p.phases.getD i 0⟩)

/-- The engine record `i` moves to by a hinge that has not ended. -/
def hingeTo (p : Placed) (i : Nat) : Option Nat :=
  match p.hinge with
  | some h => (h.moves.find? (fun m => m.1 = i && m.2.2 != p.engines.getD i 0)).map (fun m => m.2.2)
  | none => none

/-- How many executions of its hinge record `i` has made. -/
def hingeCount (p : Placed) (i : Nat) : Nat :=
  match p.hinge with
  | some h => (match h.done.find? (fun d => d.1 = i) with | some d => d.2 | none => 0)
  | none => 0

/-- The assignment with the target's copies of the blocks in executions k + 1 and k + 2 of their hinges (R167). -/
def asgBoth (p : Placed) : List Asg :=
  asgOf p ++ (List.range p.graph.blocks.length).filterMap (fun i =>
    if 1 ≤ hingeCount p i then (hingeTo p i).map (fun e => ⟨i, e, p.phases.getD i 0⟩) else none)

/-- The assignment with every incoming block on its target: what the engines hold (R152, R164). -/
def asgHeld (p : Placed) : List Asg :=
  asgOf p ++ (List.range p.graph.blocks.length).filterMap (fun i => (hingeTo p i).map (fun e => ⟨i, e, p.phases.getD i 0⟩))

/-- The engines a bridge owns. -/
def ownedEngines (s : State) (b : Nat) : List Nat :=
  (List.range 16).filter (fun e => decide (s.rd R.EN_STATUS.OWNER e = b) &&
    (decide (s.rd R.EN_STATUS.STATE e = 1) || decide (s.rd R.EN_STATUS.STATE e = 4)))

/-- The load and footprint registers of an engine of a placed graph. -/
def showEngine (p : Placed) (e : Nat) (s : State) : State :=
  let g := p.graph
  let active := decide (s.rd R.EN_STATUS.STATE e = 1)
  s |>.wr R.EN_STATUS.NBLK e ((asgHeld p).filter (fun x => x.eng = e)).length
    |>.wr R.EN_LOAD.PEAK_PM e (if active then divOpen 3 (1000 * peakLoad g (asgBoth p) e) g.beatMin else 0)
    |>.wr R.EN_LOAD.FOOT_KIB e ((footBytes g (asgHeld p) e + 1023) / 1024)

/-- The registers of a bridge's placement. -/
def showPlacement (b : Nat) (s : State) : State :=
  match (s.br b).placed with
  | none => s
  | some p =>
    let own := ownedEngines s b
    let s1 := s.each own (fun s e => showEngine p e s)
    let w := 20 * windowW0 s b p.graph - 3 * (p.graph.beatMin : Int)
    s1 |>.wr R.CN_BR_PLACE.ENGINES b (bitsMask own)
      |>.wr R.CN_BR_PLACE.NENG b own.length
      |>.wr R.CN_BR_LOAD.PATH_PM b (divOpen 4 (20000 * critPath p.graph (asgOf p)) w.toNat)
      |>.wr R.CN_BR_LOAD.PEAK_PM b (((own.map (fun e => s1.rd R.EN_LOAD.PEAK_PM e))).foldl max 0)

/-- An engine as IDLE. -/
def idleEngine (e : Nat) (s : State) : State :=
  s |>.wr R.EN_STATUS.STATE e 0 |>.wr R.EN_STATUS.OWNER e 0 |>.wr R.EN_STATUS.NBLK e 0
    |>.wr R.EN_LOAD.PEAK_PM e 0 |>.wr R.EN_LOAD.FOOT_KIB e 0

/-- The state of record `i` at placement: the initial state pool, the persistent words from the ledger, zeros where the entry
holds no data (R64, R92), and 0 in the stage temperatures and the half-cycle total (R112, R113). -/
def placeState (s : State) (g : Graph) (i : Nat) : List Nat :=
  let r := g.recAt i
  let st := recInit g i
  let e := s.entry ((recPars g r).getD 0 0)
  let v := fun (n : Nat) => if e.valid then n else 0
  if r.op = 0x2B then List.replicate 8 0 ++ [v (e.energy % 2 ^ 32), v (e.energy / 2 ^ 32), v e.peak] ++ st.drop 11
  else if r.op = 0x2C then ((List.range 128).map (fun k => v (e.countAt k)) ++ st.drop 128).set 175 0
  else st

/-- A graph placed on its engines: the engines ACTIVE, the states taken, BEATNO 0, and the first beat at the next carrier edge
that BEAT_EDGE names (R57, R58, R64, R158). -/
def commitPlacement (b : Nat) (g : Graph) (a : List Asg) (s : State) : State :=
  let idx := List.range g.blocks.length
  let at_ := fun i => (a.find? (fun x => x.rcd = i)).getD ⟨i, 0, 0⟩
  let p : Placed := {
    graph := g, engines := idx.map (fun i => (at_ i).eng), phases := idx.map (fun i => (at_ i).phase),
    states := idx.map (placeState s g), lastRun := idx.map (fun _ => none), nextEdge := firstEdge s b g.beatEdge }
  let s1 := s.each (asgEngines a) (fun s e => (s.wr R.EN_STATUS.STATE e 1).wr R.EN_STATUS.OWNER e b)
  let s2 := s1.setBr b { s1.br b with placed := some p, acted := 0, actedMask := 0 }
  showPlacement b (s2.wr R.GR_BEATNO.BEATNO b 0)

/-- A failed placement recorded (R158, R160). -/
def placeFailed (b code : Nat) (s : State) : State := (s.wr R.CN_BR_PLACE.PLACE_ERR b code).raise R.CN_EVENT.PLACE_FAIL

/-! ### The fallow engine, failures and rotation (R153, R169 to R174) -/

/-- An engine becomes FAILED (R153, R170, R172). -/
def failEngine (e cause : Nat) (s : State) : State :=
  let s1 := (idleEngine e s).wr R.EN_STATUS.STATE e 5 |>.wr R.EN_STATUS.FAIL_CAUSE e cause
  logEvent 0x0030 e (le 1 cause) ((s1.clearBit R.CN_STATUS.IN_SERVICE e).raise R.CN_EVENT.ENG_FAIL)

/-- Engine `e` becomes the fallow engine in its self-test. -/
def makeFallow (e : Nat) (s : State) : State :=
  ((idleEngine e s).wr R.EN_STATUS.STATE e 2).wr R.CN_STATUS.FALLOW 0 e |>.clear R.CN_STATUS.NO_FALLOW

/-- A running bridge is to move to a placement on its own engines less one, by hinges; its phases stay as they are (R174, log
entry 88). -/
def squeezeBridge (b : Nat) (s : State) : Option State :=
  match (s.br b).placed with
  | none => none
  | some p =>
    let own := ownedEngines s b
    let g1 := { p.graph with blocks := (List.range p.graph.blocks.length).map (fun i =>
      { p.graph.recAt i with phase := p.phases.getD i 0 }) }
    if own.length < 2 ∨ p.hinge.isSome ∨ p.evacs ≠ [] then none
    else
      match tryFrom s b g1 (own.take (own.length - 1)) 17 (leastEngines g1) (.noEngine false) with
      | .placed a =>
        let moves := (List.range p.graph.blocks.length).filterMap (fun i =>
          let e := ((a.find? (fun x => x.rcd = i)).getD ⟨i, 0, 0⟩).eng
          if e = p.engines.getD i 0 then none else some (i, p.engines.getD i 0, e))
        some (showPlacement b (s.setBr b { s.br b with
          placed := some { p with hinge := some { src := own.getLastD 0, tgt := none, moves := moves } } }))
      | _ => none

/-- Rotation and the self-test of the Grove stop for want of a fallow engine (R174). -/
def noFallow (s : State) : State :=
  if s.flag R.CN_STATUS.NO_FALLOW then s else (s.raise R.CN_STATUS.NO_FALLOW).raise R.CN_EVENT.NO_FALLOW_EV

/-- A fallow engine is recovered after an evacuation or a self-test failure: an IDLE engine at once, or one that a running
bridge frees by hinges, until whose end there is none (R153, R174). -/
def recoverFallow (s : State) : State :=
  match enginesIn s 0 with
  | e :: _ => makeFallow e s
  | [] => noFallow (((List.range 4).findSome? (fun b => squeezeBridge b s)).getD s)

/-- Some engine is FALLOW_TEST, FALLOW_READY or TARGET. -/
def hasFallow (s : State) : Bool := enginesIn s 2 ++ enginesIn s 3 ++ enginesIn s 4 != []

/-- A hold of the bridge runs. -/
def heldBridge (s : State) (b : Nat) : Bool :=
  s.flag R.CN_STATUS.HOLD_ACT && decide (s.rd R.CN_STATUS.HOLD_BR = b)

/-- The engine E of a rotation step: the next after F, passing over FAILED engines and those of a held bridge (R169,
R171). -/
def rotationEngine (s : State) (f : Nat) : Option Nat :=
  ((List.range 15).map (fun k => (f + 1 + k) % 16)).find? (fun e =>
    decide (s.rd R.EN_STATUS.STATE e = 0) ||
    (decide (s.rd R.EN_STATUS.STATE e = 1) && !heldBridge s (s.rd R.EN_STATUS.OWNER e)))

/-- An evacuation that is to come has taken the fallow engine `f` (R172, R173). -/
def claimed (s : State) (f : Nat) : Bool :=
  (List.range 4).any (fun b => match (s.br b).placed with
    | some p => p.evacs.any (fun v => decide (v.tgt = some f))
    | none => false)

/-- A rotation step with F FALLOW_READY (R169 steps 2 to 4). While the engine's bridge moves its blocks by the hinges of R174 the
step waits for their end (DEDUCED, log entry 88). -/
def rotate (s : State) : State :=
  let f := s.rd R.CN_STATUS.FALLOW
  let s0 := { s with canopy := { s.canopy with rotWait := false } }
  match rotationEngine s f with
  | none => s0
  | some e =>
    if s.rd R.EN_STATUS.STATE e = 0 then makeFallow e (s0.wr R.EN_STATUS.STATE f 0)
    else
      let b := s.rd R.EN_STATUS.OWNER e
      match (s.br b).placed with
      | none => s0
      | some p =>
        if p.hinge.isSome then s
        else
        let moves := ((List.range p.engines.length).filter (fun i => p.engines.getD i 99 = e)).map (fun i => (i, e, f))
        let s1 := (s0.wr R.EN_STATUS.STATE f 4).wr R.EN_STATUS.OWNER f b
        showPlacement b (s1.setBr b { s1.br b with
          placed := some { p with hinge := some { src := e, tgt := some f, moves := moves } } })

/-- The fallow engine is FALLOW_READY and free for a rotation step. -/
def fallowReady (s : State) : Bool :=
  !s.flag R.CN_STATUS.NO_FALLOW && decide (s.rd R.EN_STATUS.STATE (s.rd R.CN_STATUS.FALLOW) = 3) &&
    !claimed s (s.rd R.CN_STATUS.FALLOW)

/-- The waiting rotation step is taken as soon as the fallow engine is FALLOW_READY (R169 step 1). -/
def takeStep (s : State) : State := if s.canopy.rotWait && fallowReady s then rotate s else s

/-- ROTATION_STEP: the step waits where F is not yet FALLOW_READY (R169 step 1); none runs without a fallow engine. -/
def rotationStep (s : State) : State :=
  if s.flag R.CN_STATUS.NO_FALLOW ∨ hasFallow s = false ∨ controlUp s = false then s
  else takeStep { s with canopy := { s.canopy with rotWait := true } }

def execRotationStep (s : State) : Host.Outcome State Fault Refusal := .next (rotationStep s)

/-- The self-test that a warm start began on a FAILED engine ends: the engine joins as IDLE, or stays FAILED (R419). -/
def lateTestDone (e result : Nat) (s : State) : State :=
  let x := s.eng e
  if result = 0 then
    let s1 := s.setEng e { x with passAt := s.now, lastOk := true, testing := false }
    let s2 := ((s1.wr R.EN_STATUS.STATE e 0).wr R.EN_STATUS.FAIL_CAUSE e 0).raiseBit R.CN_STATUS.IN_SERVICE e
    if s2.flag R.CN_STATUS.NO_FALLOW then recoverFallow s2 else s2
  else failEngine e (if bitAt result 0 then 1 else 2)
    ((s.setEng e { x with lastOk := false, testing := false }).countUp R.EN_COUNT.BIST_FAIL e)

/-- BIST_DONE: the self-test of a FALLOW_TEST engine ends; `result` is 0 passed, bit 0 logic, bit 1 memory (R169,
R170). One that an evacuation has stopped does not end (R172). The same row ends a test that a warm start began (R419). -/
def bistDone (e result : Nat) (s : State) : State :=
  if e ≤ 15 ∧ (s.eng e).testing then lateTestDone e result s
  else if 15 < e ∨ s.rd R.EN_STATUS.STATE e ≠ 2 ∨ claimed s e then s
  else if result = 0 then
    takeStep ((s.setEng e { s.eng e with passAt := s.now, lastOk := true }).wr R.EN_STATUS.STATE e 3
      |>.countUp R.EN_BIST.BIST_RUNS e)
  else
    let s1 := (s.setEng e { s.eng e with lastOk := false }).countUp R.EN_COUNT.BIST_FAIL e
    recoverFallow (failEngine e (if bitAt result 0 then 1 else 2) s1)

def execBistDone (engine result : Nat) (s : State) : Host.Outcome State Fault Refusal := .next (bistDone engine result s)

/-- The engines of a bridge return to IDLE and a hinge in progress is dropped, both copies freed (R161); those with an
uncorrectable error are FAILED (R173, log entry 88). A fallow engine that was wanting is recovered (R174), and a rotation step
that waited for it is taken. -/
def freeEngines (b : Nat) (s : State) : State :=
  match (s.br b).placed with
  | none => s
  | some p =>
    let s1 := s.each (ownedEngines s b) (fun s e =>
      if s.rd R.EN_STATUS.STATE e = 4 then
        ((idleEngine e s).wr R.EN_STATUS.STATE e 3)
      else match p.evacs.find? (fun v => v.engine = e) with
        | some v => failEngine e v.cause s
        | none => idleEngine e s)
    let s2 := s1.setBr b { s1.br b with placed := none, acted := 0, actedMask := 0 }
    let s3 := s2 |>.wr R.CN_BR_PLACE.ENGINES b 0 |>.wr R.CN_BR_PLACE.NENG b 0
      |>.wr R.CN_BR_LOAD.PATH_PM b 0 |>.wr R.CN_BR_LOAD.PEAK_PM b 0
    takeStep (if s3.flag R.CN_STATUS.NO_FALLOW then recoverFallow s3 else s3)

/-! ### Evacuation (R168, R172, R173) -/

/-- Every block of a hinge stays on, or returns to, its source. -/
def backToSource (b : Nat) (p : Placed) (h : Hinge) (s : State) : State :=
  let from_ := fun (i : Nat) => match h.moves.find? (fun m => m.1 = i) with | some m => m.2.1 | none => p.engines.getD i 0
  s.setBr b { s.br b with placed := some { p with
    engines := (List.range p.engines.length).map from_, hinge := none } }

/-- The engine that takes over an evacuated one: the target of its own hinge, or a fallow engine whose last completed
self-test passed and that no other evacuation has taken (R168, R173). -/
def evacTarget (s : State) (p : Placed) (e : Nat) : Option Nat :=
  let own := match p.hinge with | some h => if h.src = e then h.tgt else none | none => none
  match own with
  | some f => some f
  | none => (enginesIn s 2 ++ enginesIn s 3).find? (fun f => (s.eng f).lastOk && !claimed s f)

/-- A target engine of a hinge fails: the hinge is abandoned and the target is FAILED (R165, R168). An ACTIVE target, which
has blocks of its own, is evacuated. -/
def hingeFails (b e cause : Nat) (p : Placed) (h : Hinge) (s : State) : State :=
  let s1 := backToSource b p h s
  if h.tgt = some e then recoverFallow (showPlacement b (failEngine e cause s1))
  else
    match (s1.br b).placed with
    | some q => showPlacement b (s1.setBr b { s1.br b with
        placed := some { q with evacs := q.evacs ++ [⟨e, 0xFFFF, false, true, cause, evacTarget s1 q e⟩] } })
    | none => s1

/-- The errors of the engines of a bridge that have not been found are found, each engine with the one that takes over. -/
def findErrors (b : Nat) (s : State) : State :=
  match (s.br b).placed with
  | none => s
  | some p =>
    s.each ((p.evacs.filter (fun v => !v.found)).map (fun v => v.engine)).eraseDups (fun s e =>
      match (s.br b).placed with
      | none => s
      | some q =>
        let t := match q.evacs.find? (fun v => v.engine = e && v.found) with
          | some v => v.tgt
          | none => evacTarget s q e
        s.setBr b { s.br b with placed := some { q with
          evacs := q.evacs.map (fun v => if v.engine = e then { v with found := true, tgt := t } else v) } })

/-- An ACTIVE engine with an error is to be evacuated (R172). `i` is the record whose memory
holds the bad word, 0xFFFF for none, and `st` says that it is a state word. A TARGET engine's hinge is abandoned and it is
FAILED; the state of a block it ran alone is then its initial state (R168). -/
def engineBad (e i : Nat) (st : Bool) (cause : Nat) (s : State) : State :=
  let b := s.rd R.EN_STATUS.OWNER e
  match (s.br b).placed with
  | none => s
  | some p =>
    if s.rd R.EN_STATUS.STATE e = 1 then
      s.setBr b { s.br b with placed := some { p with evacs := p.evacs ++ [⟨e, i, st, false, cause, none⟩] } }
    else if s.rd R.EN_STATUS.STATE e = 4 then
      match p.hinge with
      | some h =>
        let p1 := if st ∧ p.engines.getD i 99 = e then { p with states := p.states.set i (placeState s p.graph i) } else p
        hingeFails b e cause p1 h s
      | none => s
    else s

/-- An uncorrectable error in a memory of an engine is counted, a word that a scrub and a read find in one beat once (R172,
R462). -/
def engineError (e i : Nat) (st : Bool) (s : State) : State :=
  let seen := match (s.br (s.rd R.EN_STATUS.OWNER e)).placed with
    | some p => i ≠ 0xFFFF && p.evacs.any (fun v => decide (v.engine = e ∧ v.record = i ∧ v.state_ = st ∧ v.cause = 3))
    | none => false
  if seen then s else engineBad e i st 3 (s.countUp R.EN_COUNT.ECC_UNC e)

def execEngineUncorrectableError (engine : Nat) (word : BadWord) (s : State) : Host.Outcome State Fault Refusal :=
  .next (if 15 < engine then s else engineError engine word.record word.state_ s)

/-- The target of the hinge of record `i` holds its state: k has passed, and not in the beat of the error (R168). -/
def heldByTarget (p : Placed) (i : Nat) : Bool :=
  decide (2 ≤ hingeCount p i) || (decide (hingeCount p i = 1) && decide (p.lastRun.getD i none ≠ p.lastIp))

/-- The blocks of engine `e` that no target of a hinge goes on with (R168, R172). -/
def leftBehind (p : Placed) (e : Nat) : List Nat :=
  (List.range p.graph.blocks.length).filter (fun i => decide (p.engines.getD i 99 = e) && !heldByTarget p i)

/-- The evacuation of engine `e` at the input point of beat j + 1: the blocks move to `f` with their state, a record with a
bad state word taking its initial state; a block whose hinge has passed k goes on in the target's copy, and where that is every one
no other engine is wanted (R168, R172). -/
def evacuate (b e : Nat) (f : Option Nat) (s : State) : State :=
  match (s.br b).placed with
  | none => s
  | some p =>
    let idx := List.range p.graph.blocks.length
    let mine := leftBehind p e
    let to_ := fun (i : Nat) => if mine.contains i then f.getD e else (hingeTo p i).getD (f.getD e)
    let bad := fun (i : Nat) => mine.contains i && p.evacs.any (fun v => v.engine = e && v.record = i && v.state_)
    let cause := match p.evacs.find? (fun v => v.engine = e) with | some v => v.cause | none => 3
    let p1 : Placed := { p with
      engines := (List.range p.engines.length).map (fun i =>
        if p.engines.getD i 0 = e then to_ i else p.engines.getD i 0)
      states := idx.map (fun i => if bad i then placeState s p.graph i else p.states.getD i [])
      evacs := p.evacs.filter (fun v => v.engine ≠ e), hinge := none
      differs := p.differs.filter (fun d => d.2 ≠ e) }
    let s1 := match f with
      | some f => (s.wr R.EN_STATUS.STATE f 1).wr R.EN_STATUS.OWNER f b
      | none => s
    let s2 := failEngine e cause (s1.setBr b { s1.br b with placed := some p1 })
    let s3 := if mine = [] then s2 else (s2.countUp R.CN_COUNT.EVACS).raise R.CN_EVENT.EVAC
    showPlacement b (recoverFallow s3)

/-! ### The hinge (R164 to R167) -/

/-- The target's load still meets R157 with record `i` added (R167). -/
def hingeFits (p : Placed) (i e : Nat) : Bool :=
  decide (5 * peakLoad p.graph (asgBoth p ++ [⟨i, e, p.phases.getD i 0⟩]) e ≤ 4 * p.graph.beatMin)

/-- An execution of record `i` counted in its hinge; a hinge begins where the target's load allows it. -/
def hingeStep (p : Placed) (i : Nat) : Placed :=
  match p.hinge, hingeTo p i with
  | some h, some e =>
    let n := hingeCount p i + 1
    if n = 1 ∧ hingeFits p i e = false then p
    else { p with hinge := some { h with done := (i, n) :: h.done.filter (fun d => d.1 ≠ i) } }
  | _, _ => p

/-- All blocks have moved: the target takes over as ACTIVE and the source becomes FALLOW_TEST (R169 step 4); or the engine
that a running bridge has freed becomes FALLOW_TEST, and another one that its new placement does not use IDLE (R174). -/
def hingeEnds (b : Nat) (h : Hinge) (s : State) : State :=
  match h.tgt with
  | some f => showPlacement b (makeFallow h.src (s.wr R.EN_STATUS.STATE f 1))
  | none =>
    let used := match (s.br b).placed with | some p => p.engines | none => []
    let s1 := s.each ((ownedEngines s b).filter (fun e => !used.contains e)) (fun s e => idleEngine e s)
    takeStep (showPlacement b (if s1.flag R.CN_STATUS.NO_FALLOW then makeFallow h.src s1 else s1))

/-- The input point after k + 2: the records whose hinge has ended are freed on the source (R164). -/
def hingeAdvance (b : Nat) (s : State) : State :=
  match (s.br b).placed with
  | none => s
  | some p =>
    match p.hinge with
    | none => s
    | some h =>
      let ended := (h.done.filter (fun d => 3 ≤ d.2)).map (·.1)
      let engs := (List.range p.engines.length).map (fun i =>
        if ended.contains i then (hingeTo p i).getD (p.engines.getD i 0) else p.engines.getD i 0)
      let h1 := { h with done := h.done.filter (fun d => d.2 < 3) }
      let all_ := h.moves.all (fun m => decide (engs.getD m.1 99 = m.2.2))
      let p1 := { p with
        engines := engs, hinge := if all_ then none else some h1
        differs := p.differs.filter (fun d => !ended.contains d.1) }
      let s1 := (s.setBr b { s.br b with placed := some p1 }).countUp R.CN_COUNT.HINGES 0 ended.length
      if all_ then hingeEnds b h s1 else showPlacement b s1

/-- Record `i` differs from its copy on the target in execution k + 1 or k + 2 of its hinge, made in this beat (R165); a source
that has failed is not compared (R168). -/
def hingeMismatch (b i : Nat) (s : State) : State :=
  match (s.br b).placed with
  | none => s
  | some p =>
    match p.hinge, hingeTo p i with
    | some h, some e =>
      if 2 ≤ hingeCount p i ∧ p.lastRun.getD i none = p.lastIp ∧ (p.evacs.any (fun v => v.engine = p.engines.getD i 99)) = false then
        hingeFails b e 5 p h (s.countUp R.CN_COUNT.HINGE_FAIL)
      else s
    | _, _ => s

/-- The hinge of a bridge abandoned under R166: every block stays on, or returns to, its source, which stays ACTIVE; the
target of a rotation step is FALLOW_READY again and the step is skipped (R169 step 5). -/
def hingeAbandon (b : Nat) (p : Placed) (h : Hinge) (s : State) : State :=
  let s1 := backToSource b p h s
  match h.tgt with
  | some f =>
    takeStep (showPlacement b (((idleEngine f s1).wr R.EN_STATUS.STATE f 3).countUp R.CN_RETRY.ROT_SKIP))
  | none => takeStep (showPlacement b s1)

/-- The states of blocks between k and k + 1 of their hinges are not at the target: the hinge of every block that `pick` names
starts again with its next execution as k (R166); with the 16th restart of a block it is abandoned. -/
def hingeAgain (b : Nat) (pick : Placed → Nat → Bool) (s : State) : State :=
  match (s.br b).placed with
  | none => s
  | some p =>
    match p.hinge with
    | none => s
    | some h =>
      let moving := (h.done.filter (fun d => decide (d.2 = 1) && pick p d.1)).map (fun d => d.1)
      let count := fun (i : Nat) => match h.retry.find? (fun d => d.1 = i) with | some d => d.2 | none => 0
      let h1 : Hinge := { h with
        done := h.done.filter (fun d => !moving.contains d.1),
        retry := moving.map (fun i => (i, count i + 1)) ++ h.retry.filter (fun d => !moving.contains d.1) }
      let p1 := { p with hinge := some h1 }
      let s1 := (s.setBr b { s.br b with placed := some p1 }).countUp R.CN_RETRY.HINGE_RETRY 0 moving.length
      if moving.any (fun i => decide (16 ≤ count i + 1)) then hingeAbandon b p1 h1 s1 else s1

/-- The states in the migration pane of engines `k` and `k + 8` are lost (R166, R175, R453). -/
def hingeRestart (k b : Nat) (s : State) : State :=
  hingeAgain b (fun p i => decide (p.engines.getD i 99 % 8 = k)) s

/-! ### Commands (R171, R188) -/

/-- CANOPY_MAP. -/
def canopyMapBody (b : Nat) (s : State) : Res :=
  if 3 < b then refuse stBadParam s
  else
    match (s.br b).placed with
    | none => refuse stWrongMode s
    | some p => doneWith ((List.range p.engines.length).map (fun i =>
        if 1 ≤ hingeCount p i then 0xFF
        else BitVec.ofNat 8 (p.engines.getD i 0))) s

def execCanopyMap (h : Hdr) (bridge : Nat) (s : State) : Host.Outcome State Fault Refusal :=
  .next (acceptCmd h 0x0B01 (le 1 bridge) (canopyMapBody bridge) s)

/-- CANOPY_WHERE. -/
def canopyWhereBody (b i : Nat) (s : State) : Res :=
  if 3 < b then refuse stBadParam s
  else
    match (s.br b).placed with
    | none => refuse stWrongMode s
    | some p =>
      if p.graph.blocks.length ≤ i then refuse stBadParam s
      else
        let tgt := if 1 ≤ hingeCount p i then (hingeTo p i).getD 0xFF else 0xFF
        doneWith (le 1 (p.engines.getD i 0) ++ le 1 tgt ++ le 1 (p.phases.getD i 0)) s

def execCanopyWhere (h : Hdr) (bridge record : Nat) (s : State) : Host.Outcome State Fault Refusal :=
  .next (acceptCmd h 0x0B02 (le 1 bridge ++ le 2 record) (canopyWhereBody bridge record) s)

/-- A hold that ends now (R171). -/
def endHold (s : State) : State :=
  if s.flag R.CN_STATUS.HOLD_ACT then
    let b := s.rd R.CN_STATUS.HOLD_BR
    { s with canopy := { s.canopy with lastHold := (b, s.now) :: s.canopy.lastHold.filter (fun e => e.1 ≠ b) } }
      |>.clear R.CN_STATUS.HOLD_ACT
  else s

/-- CANOPY_HOLD (R171, R188). While the bridge's own hold still runs the new one is refused as one within 10 s of its end is, and
a hold for another bridge ends the running one (DESIGN CHOICE, log entry 128: the spec says neither). -/
def canopyHoldBody (b sec : Nat) (s : State) : Res :=
  if 3 < b ∨ 30 < sec then refuse stBadParam s
  else if sec = 0 then done (if heldBridge s b then endHold s else s)
  else if heldBridge s b ∨ s.canopy.lastHold.any (fun e => decide (e.1 = b) && decide (s.now < e.2 + 10 * tSec)) then
    refuse stBusy s
  else
    let s1 := endHold s
    done (({ s1 with canopy := { s1.canopy with holdEnd := s1.now + sec * tSec } }).raise R.CN_STATUS.HOLD_ACT
      |>.wr R.CN_STATUS.HOLD_BR 0 b)

def execCanopyHold (h : Hdr) (bridge seconds : Nat) (s : State) : Host.Outcome State Fault Refusal :=
  .next (acceptCmd h 0x0B03 (le 1 bridge ++ le 1 seconds) (canopyHoldBody bridge seconds) s)

/-- CANOPY_HOLD_EXPIRY: the time of the running hold has run out (R171). -/
def canopyHoldExpiry (s : State) : State :=
  if s.flag R.CN_STATUS.HOLD_ACT then endHold (reachTime s.canopy.holdEnd s) else s

def execCanopyHoldExpiry (s : State) : Host.Outcome State Fault Refusal := .next (canopyHoldExpiry s)

end Sys2Proof.Machine
end

