-- ==== Sys2Proof/Machine/Dellan.lean ====
section
/-! DEFINITION. The output of the Dellan link: when a symbol is scheduled, waits, is abandoned or is discarded (R445 to
R448). Instants are in fine steps of the PWM time base. -/

namespace Sys2Proof.Machine

open Sys2Proof

/-- HEAD and DL_EN as the last start of Level 0 or 1 took them (R451). -/
def isHead (s : State) : Bool := fldOf R.DL_CFG.HEAD s.clk.dl != 0
def linkOn (s : State) : Bool := fldOf R.DL_CFG.DL_EN s.clk.dl != 0

/-- The instant of fine phase `phase` of the present tick. -/
def fineNow (s : State) (phase : Nat) : Int := 64 * (s.now : Int) + phase

/-- The length of a bit at 50 Mbit/s, fine steps. -/
def bitFine : Int := 512

/-- T_TX, fine steps (R446). -/
def tTx : Int := 1024

/-- The end of a symbol's last bit after its scheduling instant, without T_TX. -/
def symEnd (o : OutSym) : Int := o.sched + bitFine * o.bits

/-- The first instant at which another symbol may follow: eight idle bits later (R445). -/
def symNext (o : OutSym) : Int := symEnd o + 8 * bitFine

/-- The symbols that have not left the output at `t`. -/
def pendingOut (t : Int) (l : List OutSym) : List OutSym := l.filter (fun o => decide (t < symNext o))

/-- The first instant from `t` on at which the output is free (R446). -/
def freeFrom (t : Int) (l : List OutSym) : Int := l.foldl (fun m o => max m (symNext o)) t

/-- A symbol put off to `t`: the D of a TRIGGER or a SYNC grows by the time it waits (R446). -/
def delayTo (t : Int) (o : OutSym) : OutSym :=
  if o.kind ≤ 2 then { o with sched := t, d := o.d + (t - o.sched).toNat } else { o with sched := t }

/-- Symbols scheduled one after the other from `t` on. -/
def scheduleAfter (t : Int) : List OutSym → List OutSym
  | [] => []
  | o :: rest =>
    let p := delayTo (max t o.sched) o
    p :: scheduleAfter (symNext p) rest

/-- A symbol is in progress at `t`. -/
def inProgress (t : Int) (o : OutSym) : Bool := decide (o.sched ≤ t) && decide (t < symEnd o)

/-- What the output has sent last of each TYPE follows its schedule. -/
def showOut (s : State) : State :=
  let last := fun (k : Nat) => (s.clk.out.filter (fun o => o.kind = k)).getLast?
  { s with clk := { s.clk with
    trigOut := match last 1 with | some o => some (o.a, o.b, o.d) | none => s.clk.trigOut
    syncOut := match last 2 with | some o => some (o.a, o.d) | none => s.clk.syncOut } }

/-! ### Symbols as bits (R445) -/

/-- A field of `n` bits, most significant first. -/
def bitsMsb (n v : Nat) : List Bool := (List.range n).map (fun k => bitAt v (n - 1 - k))

/-- The CRC-8 of a bit string: polynomial 0x07, initial value 0x00. -/
def crc8 (bits : List Bool) : Nat :=
  bits.foldl (fun c b => (2 * c % 256) ^^^ (if bitAt c 7 != b then 0x07 else 0)) 0

/-- A symbol of a TYPE with its fields, each as its width and value: start pattern, TYPE, fields and CRC-8. -/
def symbolBits (type_ : Nat) (fields : List (Nat × Nat)) : List Bool :=
  let body := bitsMsb 4 type_ ++ fields.flatMap (fun f => bitsMsb f.1 f.2)
  bitsMsb 4 6 ++ body ++ bitsMsb 8 (crc8 body)

/-- The greatest D a symbol carries. -/
def dField (d : Nat) : Nat := min 0xFFFFF d

/-- The bits of a TRIGGER, a SYNC or a TIME of the output. -/
def outBits (o : OutSym) : List Bool :=
  symbolBits o.kind (if o.kind = 1 then [(2, o.a), (4, o.b), (6, 0), (20, dField o.d)]
    else if o.kind = 2 then [(8, o.a), (4, 0), (20, dField o.d)]
    else [(8, o.a), (8, o.b), (48, o.d)])

/-- A TRAIN, a TRAIN_REPLY and a TRAIN_REQ (R448). -/
def trainBits (pos : Nat) (last : Bool) (hop cnt : Nat) : List Bool :=
  symbolBits 4 [(4, pos), (1, b2n last), (3, 0), (16, hop), (8, cnt)]
def replyBits (pos cnt : Nat) : List Bool := symbolBits 5 [(4, pos), (4, 0), (8, cnt), (16, 0)]
def reqBits : List Bool := symbolBits 6 [(32, 0)]

/-- What a training sends: 256 TRAIN symbols with LAST 0 that carry 0 in POS and HOP, and where it succeeds the final one with
the module's position and OUT_HOP (R448). -/
def trainingSends (final : Option (Nat × Nat)) : List (List Bool) :=
  (List.range 256).map (fun k => trainBits 0 false 0 k) ++
    (match final with | some (pos, hop) => [trainBits pos true hop 0xFF] | none => [])

/-- A training of the output hop runs. -/
def trains (s : State) : Bool := s.clk.training.isSome

/-- A symbol due while a training runs is discarded (R448). -/
def dropSymbol (s : State) : State := s.countUp R.DL_CNT.DROPPED

/-- A symbol that waits until the output is free, from `o.sched` on (R446). -/
def sendSymbol (o : OutSym) (s : State) : State :=
  if trains s then dropSymbol s
  else
    let l := pendingOut (fineNow s 0) s.clk.out
    showOut { s with clk := { s.clk with out := l ++ [delayTo (freeFrom o.sched l) o] } }

/-- A TRIGGER: it goes before what is scheduled, and abandons a symbol in progress; the module's own TRIGGER goes before
every symbol, a repeated one not before another TRIGGER (R446). -/
def sendTrigSymbol (own : Bool) (o : OutSym) (s : State) : State :=
  if trains s then dropSymbol s
  else
    let t := o.sched
    let l := pendingOut (fineNow s 0) s.clk.out
    let first := if own then [] else l.filter (fun p => p.kind = 1)
    let rest := if own then l else l.filter (fun p => p.kind ≠ 1)
    let done := rest.filter (fun p => !decide (t < symEnd p))
    let put_ := rest.filter (fun p => decide (t < symEnd p))
    let o1 := delayTo (freeFrom t first) o
    let s1 := if put_.any (inProgress t) then s.countUp R.DL_CNT.ABANDONED else s
    showOut { s1 with clk := { s1.clk with out := first ++ done ++ [o1] ++ scheduleAfter (symNext o1) put_ } }

/-- The module's own TRIGGER, whose local trigger instant lies `age` ticks back: D is 0 but for that time (R297, R446). -/
def ownTrigger (line age : Nat) (s : State) : State :=
  if linkOn s then sendTrigSymbol true
    { kind := 1, sched := fineNow s 0, bits := 48, a := line, b := s.rd R.DL_STATUS.POS, d := 64 * age } s
  else s

/-- The instant from which a received symbol of 48 bits may be repeated: 60 ns after its last bit (R446); `r` is its receipt
instant (R447). -/
def repeatFrom (s : State) (r : Int) (bits : Nat) : Int := r + tTx + s.rd R.DL_HOP.IN_HOP + bitFine * bits + 1536

/-! ### Transom crossings (R433, R434) -/

/-- A cycle of the island that sends on a crossing, ticks: the first island R435 names, the next whole tick (log entry
74). -/
def sendCycle (id : Nat) : Nat :=
  if id = 19 ∨ id = 20 then 5 else if id = 24 ∨ id = 25 then 4 else if id = 26 ∨ id = 27 then 13 else 1

/-- The credits a send at `t` may use: those available before a return in the same cycle (R433), while the receive buffer has
room (R435). -/
def usable (id : Nat) (x : Crossing) (t : Nat) : Nat :=
  if 8 ≤ x.flight then 0 else x.avail - (if x.retAt / sendCycle id = t / sendCycle id then x.retN else 0)

/-- A crossing with the sends that waited carried out up to `t`: each cycle waited counts in STALLS, and a send goes with the
cycle after a credit came (R434). -/
def settle (id t : Nat) (x : Crossing) : Crossing :=
  let c := sendCycle id
  let go := max x.waitAt ((x.retAt / c + 1) * c)
  if x.waits = 0 then x
  else if usable id x t = 0 ∨ t < go then
    { x with stalls := min (x.stalls + (t / c - x.waitAt / c)) 0xFFFFFFFF, waitAt := max t x.waitAt }
  else
    let k := min x.waits (min x.avail (8 - x.flight))
    { x with
      stalls := min (x.stalls + (go / c - 1 - x.waitAt / c) + (if k < x.waits then t / c - go / c else 0)) 0xFFFFFFFF,
      avail := x.avail - k, flight := x.flight + k, waits := x.waits - k, waitAt := max t x.waitAt }

/-- Crossing `id` as it stands now. -/
def crossing (s : State) (id : Nat) : Crossing := settle id s.now (sget (fun _ => ({} : Crossing)) s.clk.xings id)

/-- Crossing `id` replaced. -/
def setCrossing (id : Nat) (x : Crossing) (s : State) : State :=
  { s with clk := { s.clk with xings := sput (fun _ => ({} : Crossing)) s.clk.xings id x } }

/-- A credit a drain returned has not come within the 3 cycles of the sender (R434): it is lost. -/
def creditLate (id : Nat) (x : Crossing) (s : State) : Bool :=
  decide (0 < x.sync) && decide (x.drainAt + 3 * sendCycle id < s.now)

/-- XG_BAD as the check of every cycle shows it: latched, or a count broken in two cycles by now (R435). -/
def crossingBad (id : Nat) (x : Crossing) (s : State) : Bool :=
  x.bad || creditLate id x s || x.broken.any (fun t => decide (t / sendCycle id < s.now / sendCycle id))

/-- The module repeats symbols: it stands in the chain and is not the last module (R297, R444). -/
def repeats (s : State) : Bool := !s.flag R.DL_STATUS.CHAIN_ERR && decide (s.rd R.DL_STATUS.OUT_STATE ≠ 0)

end Sys2Proof.Machine
end

