-- ==== Sys2Proof/Machine/Capture.lean ====
section
/-! DEFINITION. Capture (10_capture.md): rows and rings, panes, arming, triggers, records, and the capture commands. -/

namespace Sys2Proof.Machine

open Sys2Proof

/-! ### Configuration of a unit (R277, R279) -/

def capMode (s : State) (u : Nat) : Nat := s.rd R.CAP_CFG.MODE u
def capNch (s : State) (u : Nat) : Nat := s.rd R.CAP_CFG.NCH_M1 u + 1
def capDiv (s : State) (u : Nat) : Nat := s.rd R.CAP_CFG.DIV_M1 u + 1
def capRows (s : State) (u : Nat) : Nat := s.rd R.CAP_ROWS.ROWS u
def capPre (s : State) (u : Nat) : Nat := s.rd R.CAP_PRE.PRE u
def capState (s : State) (u : Nat) : Nat := s.rd R.CAP_STATUS.STATE u

/-- The signal index of channel `k`. -/
def capChan (s : State) (u k : Nat) : Nat :=
  if k % 2 = 0 then s.rd R.CAP_CH.CH_EVEN u (k / 2) else s.rd R.CAP_CH.CH_ODD u (k / 2)

/-- The signals of a unit's channels. -/
def capChans (s : State) (u : Nat) : List Nat := (List.range (capNch s u)).map (capChan s u)

def rowBytes (s : State) (u : Nat) : Nat := if capMode s u = 2 then 2 else (2 * capNch s u + 3) / 4 * 4
def nPane (s : State) (u : Nat) : Nat := (256 + capRows s u * rowBytes s u + 65535) / 65536

/-- The units with GROUP at 1 (R296). -/
def groupUnits (s : State) : List Nat := (List.range 8).filter (fun u => s.flag R.CAP_CFG.GROUP u)

/-- The units that arm and fire with `u`. -/
def capMembers (s : State) (u : Nat) : List Nat := if s.flag R.CAP_CFG.GROUP u then groupUnits s else [u]

/-- The unit whose REARM governs `u`'s group. -/
def capMaster (s : State) (u : Nat) : Nat := if s.flag R.CAP_CFG.GROUP u then s.rd R.CAP_GROUP.MASTER else u

/-! ### Panes (R175, R176, R290) -/

/-- The panes in use by records that fill, and by full or reading records. -/
def fillingPanes (s : State) : List Nat := (List.range 8).flatMap (fun u => (s.unit u).panes)
def usedPanes (s : State) : List Nat := fillingPanes s ++ s.capture.records.flatMap (fun r => r.panes)

/-- Panes 256b and 256b + 1 are reserved (R175). -/
def paneReserved (p : Nat) : Bool := decide (p % 256 < 2)

/-- The lowest-numbered free pane of a bank (R176). -/
def bankFree (used : List Nat) (b : Nat) : Option Nat :=
  ((List.range 254).map (fun k => 256 * b + 2 + k)).find? (fun p => !used.contains p)

/-- The pane taken for a request at bank `b`: the next bank upward where it has none or is quarantined (R176). -/
def takePane (s : State) (used : List Nat) (b : Nat) : Option Nat :=
  (List.range 8).findSome? (fun d =>
    let c := (b + d) % 8
    if s.flag R.CN_DRAM.QUAR c then none else bankFree used c)

/-- The panes that one unit asks for in a cycle: how many, and those it has been given. -/
structure PaneReq where
  unit  : Nat
  n     : Nat
  given : List Nat
  deriving DecidableEq, Repr

/-- The unit served next: the first after the last winner that still asks for a pane (R176). -/
def nextWinner (last : Nat) (l : List PaneReq) : Option PaneReq :=
  (List.range 8).findSome? (fun d => l.find? (fun r => decide (r.unit = (last + 1 + d) % 8) && decide (r.given.length < r.n)))

/-- Requests of one cycle served round-robin, one pane at a time; the answer begins with the last winner (R176, R285). -/
def servePanes (s : State) (used : List Nat) : Nat → Nat → List PaneReq → Nat × List PaneReq
  | 0, last, l => (last, l)
  | k + 1, last, l =>
    match nextWinner last l with
    | none => (last, l)
    | some r =>
      match takePane s (used ++ l.flatMap (fun q => q.given)) (r.unit + r.given.length) with
      | some p => servePanes s used k r.unit (l.map (fun q => if q.unit = r.unit then { q with given := q.given ++ [p] } else q))
      | none => (last, l)

/-- The free panes that can be taken: those of banks that are not quarantined. -/
def takeable (s : State) : Nat :=
  let used := usedPanes s
  ((List.range 8).map (fun b => if s.flag R.CN_DRAM.QUAR b then 0
    else ((List.range 254).filter (fun k => !used.contains (256 * b + 2 + k))).length)).foldl (· + ·) 0

/-! ### States of a unit (R280 to R283) -/

/-- The PWM time `t` as a timestamp (R436). -/
def tsOf (s : State) (t : Nat) : Nat := ((64 * (t : Int) + s.clk.tsOff) / 64).toNat % 2 ^ 64

/-- NOT_ALIGNED of the timestamp (R440). -/
def notAligned (s : State) : Bool := s.flag R.TS_STATUS.NOT_ALIGNED

/-- NOT_ALIGNED sets: each unit's next row carries that it was 1 since the last one (R440). -/
def markNotAligned (s : State) : State :=
  (s.raise R.TS_STATUS.NOT_ALIGNED).each (List.range 8) (fun s u => s.setUnit u { s.unit u with naGap := true })

/-- Every member of the group is READY. -/
def groupReady (s : State) (u : Nat) : Bool := (capMembers s u).all (fun m => decide (capState s m = 2))

/-- What READY of the whole group does: DEAD of each member (R283). -/
def onReady (u : Nat) (s : State) : State :=
  if groupReady s u then
    s.each (capMembers s u) (fun s m =>
      let x := s.unit m
      let d := s.now - x.deadFrom
      (s.setUnit m { x with dead := d }).wr R.CAP_DEAD.DEAD m (min d 0xFFFFFFFF))
  else s

/-- A unit takes the panes of a record and begins to fill (R284 order 6, R286). -/
def fillUnit (noPane : Bool) (from_ : Nat) (panes : List Nat) (u : Nat) (s : State) : State :=
  let x := s.unit u
  let n := if x.used then s.rd R.CAP_REC.REC_NO u + 1 else 0
  let x1 : Unit_ := { x with
    taken := 0, times := [], naGap := false, ring := [], gone := [], clockAt := none, full := false, panes := panes, fire := none, deadFrom := from_, dead := 0,
    hdrIgn := x.ignored, ignored := 0, lost := 0, noPane := noPane, div := 0, used := true }
  (((s.setUnit u x1).wr R.CAP_REC.REC_NO u n).wr R.CAP_STATUS.STATE u (if capPre s u = 0 then 2 else 1))

/-- The members arm together: all their panes, each unit in its turn (R176, R285). -/
def fillGroup (us : List Nat) (noPane : Bool) (from_ : Nat → Nat) (s : State) : State :=
  match us with
  | [] => s
  | u :: _ =>
    let (last, l) := servePanes s (usedPanes s) ((us.map (nPane s)).foldl (· + ·) 0) s.capture.lastWin
      (us.map (fun m => ⟨m, nPane s m, []⟩))
    let given := fun (m : Nat) => match l.find? (fun r => r.unit = m) with | some r => r.given | none => []
    onReady u ({ s with capture := { s.capture with lastWin := last } }.each us (fun s m =>
      fillUnit noPane (from_ m) (given m) m s))

/-- The panes the members need. -/
def panesNeeded (s : State) (us : List Nat) : Nat := (us.map (nPane s)).foldl (· + ·) 0

/-- A unit back to IDLE. -/
def idleUnit (u : Nat) (s : State) : State :=
  let x := s.unit u
  (s.setUnit u { x with
    ring := [], gone := [], times := [], naGap := false, panes := [], fire := none, full := false, taken := 0
    }).wr R.CAP_STATUS.STATE u 0

/-- Row `n` since arming: one that was lost, or what its position of the ring holds. -/
def rowOf (x : Unit_) (rows n : Nat) : Option Row :=
  match x.gone.find? (fun r => r.n = n) with
  | some r => some r
  | none => (x.ring.find? (fun e => e.1 = n % rows)).map (fun e => e.2)

/-- The record a unit holds, as its 256-byte header and its rows (R279, R282, R300). -/
def recordBytes (s : State) (u : Nat) (trunc : Bool) : List Byte :=
  let x := s.unit u
  let rows := capRows s u
  let pre := capPre s u
  let trigN := match x.fire with | some f => f.row.getD x.taken | none => x.taken
  let oldest := if trunc then max (trigN - pre) (x.taken - rows) else trigN - pre
  let held := if trunc then x.taken - oldest else rows
  let first := rowOf x rows oldest
  let inRec := fun (r : Row) => decide (oldest ≤ r.n)
  let f := x.fire.getD ⟨0, 0, 0xFF, 0, false, none, 0⟩
  let unaligned := fun (r : Row) => inRec r && (r.na || (r.gap && decide (oldest < r.n)))
  let na := x.ring.any (fun e => unaligned e.2) || x.gone.any unaligned
  let flags := 1 + 2 * b2n trunc + 4 * b2n na + 8 * b2n f.late + 16 * b2n (decide (0 < x.lost)) + 32 * b2n x.noPane
    + 64 * b2n (s.flag R.CAP_CFG.GROUP u)
  let mode := capMode s u
  let nch := if mode = 2 then 1 else capNch s u
  let chans := (List.range 32).flatMap (fun k =>
    le 2 (if nch ≤ k then 0xFFFF else if mode = 2 then s.rd R.CAP_CFG.CV u else capChan s u k))
  let head := le 4 0x5041435A ++ le 2 1 ++ le 1 u ++ le 1 flags ++ le 4 (s.rd R.CAP_REC.REC_NO u) ++ le 4 held
    ++ le 4 pre ++ le 4 (oldest % rows) ++ le 4 (trigN % rows) ++ le 2 (rowBytes s u) ++ le 1 nch ++ le 1 mode
    ++ le 8 f.ts ++ le 8 (match first with | some r => r.ts | none => 0)
    ++ le 4 (min x.dead 0xFFFFFFFF) ++ le 4 x.hdrIgn ++ le 4 x.lost ++ le 1 f.source ++ le 1 f.origin
    ++ le 2 (nPane s u) ++ le 4 (ofSigned 32 f.xcomp) ++ chans ++ List.replicate 120 0
  head ++ le 4 (crc32c head) ++ (List.range rows).flatMap (fun p =>
    match (x.ring.find? (fun e => e.1 = p)).map (fun e => e.2) with
    | some r => padTo (rowBytes s u) r.bytes
    | none => List.replicate (rowBytes s u) 0)

/-- The record of a unit closed as full, and its panes full (R281, R287, R290). -/
def closeRecord (u : Nat) (trunc : Bool) (s : State) : State :=
  let x := s.unit u
  let r : Rec_ := ⟨u, s.rd R.CAP_REC.REC_NO u, false, recordBytes s u trunc, x.panes⟩
  ({ s with capture := { s.capture with records := s.capture.records ++ [r] } }).setUnit u { x with panes := [] }
    |>.raise R.CAP_EVENT.FULL_EV u

/-- The group rearms where enough panes are free, otherwise every member waits for panes (R286). -/
def rearmGroup (us : List Nat) (s : State) : State :=
  let from_ := fun m => match (s.unit m).fire with | some f => f.time | none => (s.unit m).deadFrom
  if panesNeeded s us ≤ takeable s then
    fillGroup us (us.any (fun m => decide (capState s m = 4))) from_ s
  else s.each us (fun s m =>
    ((s.setUnit m { s.unit m with deadFrom := from_ m, ring := [], gone := [], times := [], taken := 0, fire := none, full := false }).wr R.CAP_STATUS.STATE m 4).raise
      R.CAP_EVENT.NO_PANE_EV m)

/-- A member whose record is full: with REARM it stays FIRED until the group rearms with its last member, otherwise it is IDLE
(R280, R281, R286). -/
def recordFull (u : Nat) (s : State) : State :=
  let us := capMembers s u
  let s0 := closeRecord u false s
  let s1 := s0.setUnit u { s0.unit u with full := true }
  if s.flag R.CAP_CFG.REARM (capMaster s u) then
    if us.all (fun m => (s1.unit m).full) then rearmGroup us s1 else s1
  else idleUnit u s1

/-- A unit writes rows: FILLING, READY, or FIRED with a record that is not full (R280). -/
def takesRows (s : State) (u : Nat) : Bool :=
  decide (1 ≤ capState s u ∧ capState s u ≤ 3) && !(s.unit u).full

/-- A fired unit is full once ROWS − PRE rows from the trigger row are written (R281). -/
def fullCheck (u : Nat) (s : State) : State :=
  if capState s u = 3 ∧ (s.unit u).full = false then
    match (s.unit u).fire with
    | some f =>
      match f.row with
      | some r => if capRows s u - capPre s u ≤ (s.unit u).taken - r then recordFull u s else s
      | none => s
    | none => s
  else s

/-- A unit takes a row: its place in the ring, the trigger row, READY and the full record (R280 to R282, R292). -/
def takeRow (u : Nat) (bytes : List Byte) (lost : Bool) (s : State) : State :=
  let x := s.unit u
  if takesRows s u then
    let n := x.taken
    let p := n % capRows s u
    let row : Row := ⟨n, s.now, tsNow s, notAligned s, x.naGap, bytes⟩
    let ring := if lost then x.ring else sins p row (serase x.ring p)
    let kept := x.gone.filter (fun r => decide (n < r.n + capRows s u))
    let gone := if lost then kept ++ [{ row with bytes := [] }] else kept
    let fire := x.fire.map (fun f => if f.row.isNone ∧ f.time ≤ s.now then { f with row := some n } else f)
    let s1 := s.setUnit u { x with
      taken := n + 1, times := (n, s.now) :: x.times, naGap := notAligned s, ring := ring, gone := gone, fire := fire, lost := x.lost + b2n lost }
    let s2 := if lost then (s1.countUp R.CAP_CNT.LOST u).raise R.CAP_EVENT.LOST_EV u else s1
    let s3 := if capState s u = 1 ∧ capPre s u ≤ n + 1 then onReady u (s2.wr R.CAP_STATUS.STATE u 2) else s2
    fullCheck u s3
  else s

/-- The row of MODE 0 and MODE 1: the VALUE of each channel, from `val` (R277). -/
def chanRow (s : State) (u : Nat) (val : Nat → Nat) : List Byte :=
  padTo (rowBytes s u) ((List.range (capNch s u)).flatMap (fun k => le 2 (val (capChan s u k))))

/-- The next strike of the row clock of MODE 1: the multiples of DIV × 4,000 ticks on the timebase (R277, log entry 89). -/
def timebaseStrike (s : State) (u : Nat) : Nat :=
  let d := 4000 * capDiv s u
  let t := (s.now + d - 1) / d * d
  if (s.unit u).clockAt = some t then t + d else t

/-- The next input point of an unplaced bridge `b` for the row clock of MODE 0: IP, reduced modulo the carrier period, after
the peak of each period of the master leg (R278). -/
def peakStrike (s : State) (u b : Nat) : Nat :=
  let n := (s.br b).valN
  let points := (((List.range 5).map (fun k => n + k - 1)).filter (fun v => decide (1 ≤ v))).map (fun v =>
    let h := 2 * v + 1
    let p := match valleyOf (s.br b) (h / 2) with | some e => e.2 | none => presentPer s b
    edgeTick s b h + s.rd R.MS_IP.IP b % p)
  (points.find? (fun t => decide (s.now ≤ t) && decide ((s.unit u).clockAt ≠ some t))).getD s.now

/-! ### Triggers (R281, R283, R293 to R299) -/

/-- A trigger that does not fire: counted in the units that enable it, and in the header of the next record (R283). -/
def countIgnored (us : List Nat) (s : State) : State :=
  s.each us (fun s u =>
    if capState s u = 0 then s
    else
      let x := s.unit u
      let x1 := if capState s u = 1 ∨ capState s u = 2 then { x with hdrIgn := x.hdrIgn + 1 } else { x with ignored := x.ignored + 1 }
      (s.setUnit u x1).countUp R.CAP_CNT.IGNORED u)

/-- The first row taken at or after a time, written or lost, of this lap or an earlier one, if one has been taken (R281,
R295). -/
def rowFrom (x : Unit_) (t : Nat) : Option Nat := ((x.times.filter (fun e => decide (t ≤ e.2))).map (fun e => e.1)).min?

/-- The group fires: every member enters FIRED with one fire time, and the TRIG outputs pulse (R281, R294, R296). -/
def fireGroup (us : List Nat) (f : Fire) (s : State) : State :=
  let s1 := s.each us (fun s u =>
    let x := s.unit u
    ((s.setUnit u { x with fire := some { f with row := rowFrom x f.time, ts := tsOf s f.time } }).wr R.CAP_STATUS.STATE u 3).raise
      R.CAP_EVENT.FIRED_EV u)
  let s2 := if us.any (fun u => s.flag R.CAP_CFG.GROUP u) then
      { s1 with capture := { s1.capture with
          pulsing := s1.capture.pulsing ||| bitsMask ((List.range 4).filter (fun n => s.flag R.CAP_PIN.DIR 0 n))
          pulseTill := s1.now + 400 } }
    else s1
  s2.each us (fun s u => fullCheck u s)

/-- The instant at which a unit's group became READY. -/
def readyAt (s : State) (u : Nat) : Nat := (s.unit u).deadFrom + (s.unit u).dead

/-- The group accepts a trigger: every member is READY, and was by the fire time (R280, R295). -/
def groupAccepts (s : State) (us : List Nat) (f : Fire) : Bool :=
  us.all (fun u => decide (capState s u = 2)) && us.all (fun u => decide (readyAt s u ≤ f.time))

/-- A trigger of `source` with fire time `f.time` on the units `us` of one group, of which `on_` enable it. Of two that are
accepted the earlier fire time stands, and the later counts on the units that enable its own source (R295). -/
def triggerGroup (us on_ : List Nat) (f : Fire) (s : State) : State :=
  let waiting := s.capture.due.find? (fun d => d.1 = us)
  if groupAccepts s us f then
    match waiting with
    | some d =>
      let drop := s.capture.due.filter (fun e => e.1 ≠ us)
      if f.time = d.2.2.time then
        { s with capture := { s.capture with
          due := (us, (d.2.1 ++ on_).eraseDups, if f.source < d.2.2.source then f else d.2.2) :: drop } }
      else if f.time < d.2.2.time then
        let s1 := countIgnored d.2.1 { s with capture := { s.capture with due := drop } }
        if f.time ≤ s.now then fireGroup us f s1 else { s1 with capture := { s1.capture with due := (us, on_, f) :: drop } }
      else countIgnored on_ s
    | none =>
      if f.time ≤ s.now then fireGroup us f s
      else { s with capture := { s.capture with due := (us, on_, f) :: s.capture.due } }
  else if us.any (fun u => match (s.unit u).fire with
      | some g => decide (capState s u = 3) && decide (g.time = f.time) | none => false) then
    s.each us (fun s u =>
      let x := s.unit u
      s.setUnit u { x with fire := x.fire.map (fun g => { g with source := min g.source f.source }) })
  else countIgnored on_ s

/-- A local trigger of the module's group waits XLAT and sends a symbol while XT_TX is 1 (R297, R299). -/
def localFire (s : State) (grouped : Bool) (source t : Nat) : Fire :=
  if grouped && s.flag R.CAP_XT.XT_TX then ⟨t + s.rd R.CAP_XT.XLAT, source, 0xFF, (s.rd R.CAP_XT.XLAT : Nat), false, none, 0⟩
  else ⟨t, source, 0xFF, 0, false, none, 0⟩

/-- The group takes a local trigger that it accepts: with XT_TX it sends the symbol (R297), also where the trigger displaces a
later fire that waits, or gives a fire received on the link its source (R295). What has passed since the local trigger goes
into D (log entry 125). -/
def sendTrigger (us : List Nat) (f : Fire) (s : State) : State :=
  let leads := match s.capture.due.find? (fun d => d.1 = us) with
    | none => true
    | some d => decide (f.time < d.2.2.time) ||
        (decide (f.time = d.2.2.time) && decide (f.source < d.2.2.source) && decide (d.2.2.origin ≠ 0xFF))
  if s.flag R.CAP_XT.XT_TX && groupAccepts s us f && leads then
    ownTrigger (s.rd R.CAP_XT.XLINE) (s.now + s.rd R.CAP_XT.XLAT - f.time) s
  else s

/-- A source that fires on the units `us` that enable it: the units outside the group alone, the group once (R293,
R296). `mk` gives the fire of a unit that is a member of the group, or is not. -/
def triggerUnits (mk : State → Bool → Fire) (local_ : Bool) (us : List Nat) (s : State) : State :=
  let g := us.filter (fun u => s.flag R.CAP_CFG.GROUP u)
  let s1 := s.each (us.filter (fun u => !s.flag R.CAP_CFG.GROUP u)) (fun s u => triggerGroup [u] [u] (mk s false) s)
  if g = [] then s1
  else
    let all := groupUnits s1
    triggerGroup all g (mk s1 true) (if local_ then sendTrigger all (mk s1 true) s1 else s1)

/-- The units that enable a source code (R293). -/
def enabling (s : State) (source : Nat) : List Nat := (List.range 8).filter (fun u => bitAt (s.rd R.CAP_TRIG.SRC_EN u) source)

/-- A local source becomes active with fire time `t` before any XLAT. -/
def triggerSource (source t : Nat) (s : State) : State :=
  triggerUnits (fun s grouped => localFire s grouped source t) true (enabling s source) s

/-- A graph sink of one unit, read at the output point (R281, R293): `t` is the input point of the beat. -/
def triggerSink (u t : Nat) (s : State) : State :=
  if bitAt (s.rd R.CAP_TRIG.SRC_EN u) 0 then triggerUnits (fun s grouped => localFire s grouped 0 t) true [u] s else s

/-- A trigger symbol received on a line at fine phase `phase` of the present tick, with its D (R299). -/
def triggerSymbol (line origin d phase : Nat) (s : State) : State :=
  let us := enabling s (5 + line)
  let q : Int := 64 * (s.rd R.CAP_XT.XLAT : Int) - (d : Int)
  let late := decide (q < 0)
  let up : Int := if q % 64 ≠ 0 ∧ Config.roundUp 1 (q % 64).toNat 64 then 1 else 0
  let f : Fire := ⟨if late then s.now else s.now + ((q + phase + 63) / 64).toNat, 5 + line, origin, q / 64 + up, late, none, 0⟩
  let fires := us.any (fun u => groupAccepts s (capMembers s u) f)
  let s1 := if late ∧ fires then s.countUp R.CAP_XT.XLATE_CNT else s
  triggerUnits (fun _ _ => f) false us s1

/-- CAPTURE_FIRE: the fire time of an accepted trigger has come (R281, R299). -/
def captureFire (u : Nat) (s : State) : State :=
  match s.capture.due.find? (fun d => d.1.contains u) with
  | none => s
  | some (us, _, f) =>
    fireGroup us f (reachTime f.time { s with capture := { s.capture with due := s.capture.due.filter (fun e => e.1 ≠ us) } })

def execCaptureFire (unit : Nat) (s : State) : Host.Outcome State Fault Refusal := .next (captureFire unit s)

/-- TRIG_PIN_INPUT: the pin has changed and was sampled `samples` times at the new level (R294). Fewer than FILT samples
are a lost edge; otherwise the level counts, and an active one fires at the first sample of the stable run (R293). -/
def trigPinInput (pin : Nat) (high : Bool) (samples : Nat) (s : State) : State :=
  if 3 < pin ∨ s.flag R.CAP_PIN.DIR 0 pin ∨ bitAt s.capture.pins pin = high then s
  else if samples < s.rd R.CAP_PIN.FILT 0 pin then s.countUp2 R.CAP_PIN.LOST 0 pin
  else
    let s1 := { s with capture := { s.capture with
        pins := if high then s.capture.pins ||| 2 ^ pin else s.capture.pins - 2 ^ pin } }
    if high = s.flag R.CAP_PIN.POL 0 pin then triggerSource (1 + pin) (s.now - 4 * (samples - 1)) s1 else s1

def execTrigPinInput (pin : Nat) (high : Bool) (samples : Nat) (s : State) : Host.Outcome State Fault Refusal :=
  .next (trigPinInput pin high samples s)

/-- TRIG_OUTPUT_PULSE_END: 1 µs after the last fire the output leaves its active level (R294). -/
def trigOutputPulseEnd (pin : Nat) (s : State) : State :=
  if bitAt s.capture.pulsing pin then
    reachTime s.capture.pulseTill { s with capture := { s.capture with pulsing := s.capture.pulsing - 2 ^ pin } }
  else s

def execTrigOutputPulseEnd (pin : Nat) (s : State) : Host.Outcome State Fault Refusal := .next (trigOutputPulseEnd pin s)

/-- PANE_WAIT_REARM: the group rearms once enough panes are free (R286). -/
def paneWaitRearm (u : Nat) (s : State) : State :=
  if capState s u = 4 ∧ panesNeeded s (capMembers s u) ≤ takeable s then rearmGroup (capMembers s u) s else s

def execPaneWaitRearm (unit : Nat) (s : State) : Host.Outcome State Fault Refusal := .next (paneWaitRearm unit s)

/-! ### Commands (R284, R287, R301) -/

/-- CAP_ARM names a unit that may arm: 0 to 7, the master where it is a member, and no MASTER outside the group (R284
check 1, R296). -/
def capArmUnit (s : State) (u : Nat) : Bool :=
  decide (u ≤ 7) && (if s.flag R.CAP_CFG.GROUP u then decide (s.rd R.CAP_GROUP.MASTER = u)
    else decide (s.rd R.CAP_GROUP.MASTER ≠ u))

/-- Check 3 of R284 for one member. -/
def capCfgOk (s : State) (u : Nat) : Bool :=
  decide (capPre s u < capRows s u) && decide (nPane s u ≤ 256) &&
  (decide (capMode s u = 2) || (List.range (capNch s u)).all (fun k => !isReservedSig (capChan s u k)))

/-- Check 4 of R284 for one member. -/
def capSourceOk (s : State) (u : Nat) : Bool :=
  if capMode s u = 0 then cfgOk s (s.rd R.CAP_CFG.BR u)
  else if capMode s u = 2 then
    s.flag R.CV_CFG.EN (s.rd R.CAP_CFG.CV u) && decide (s.rd R.CV_STATUS.STATE (s.rd R.CAP_CFG.CV u) ≠ 2)
  else true

/-- CAP_ARM (R284); NO_RESOURCE too while the capture island is held in reset (R429, log entry 124). -/
def capArmBody (u : Nat) (s : State) : Res :=
  let us := capMembers s u
  if !capArmUnit s u then refuse stBadParam s
  else if !us.all (fun m => decide (capState s m = 0)) then refuse stBusy s
  else if !us.all (capCfgOk s) then refuse stBadParam s
  else if !us.all (capSourceOk s) || islandsHeld s then refuse stNoResource s
  else if takeable s < panesNeeded s us then refuse stNoResource s
  else done (fillGroup us false (fun _ => s.now) s)

def execCapArm (h : Hdr) (unit : Nat) (s : State) : Host.Outcome State Fault Refusal :=
  .next (acceptCmd h 0x0501 (le 1 unit) (capArmBody unit) s)

/-- A unit disarms: its filling panes are free again, or its fired record closes as truncated
(R287). Triggers ignored for a record that is not made count in the next one (R283). -/
def disarmUnit (u : Nat) (s : State) : State :=
  if capState s u = 3 ∧ (s.unit u).full = false then idleUnit u (closeRecord u true s)
  else if capState s u = 1 ∨ capState s u = 2 then
    let x := s.unit u
    idleUnit u (s.setUnit u { x with ignored := x.hdrIgn + x.ignored, hdrIgn := 0 })
  else idleUnit u s

/-- The group of a unit disarms; a fire that is due in this tick takes effect first (R295). -/
def disarmGroup (us : List Nat) (s0 : State) : State :=
  let s := match s0.capture.due.find? (fun d => d.1 = us) with
    | some (_, _, f) => if f.time ≤ s0.now then fireGroup us f s0 else s0
    | none => s0
  ({ s with capture := { s.capture with due := s.capture.due.filter (fun d => d.1 ≠ us) } }).each us
    (fun s u => disarmUnit u s)

def capDisarmBody (u : Nat) (s : State) : Res :=
  if 7 < u ∨ (s.flag R.CAP_CFG.GROUP u ∧ s.rd R.CAP_GROUP.MASTER ≠ u) then refuse stBadParam s
  else done (disarmGroup (capMembers s u) s)

def execCapDisarm (h : Hdr) (unit : Nat) (s : State) : Host.Outcome State Fault Refusal :=
  .next (acceptCmd h 0x0502 (le 1 unit) (capDisarmBody unit) s)

/-- CAP_FORCE (R295, R301). -/
def capForceBody (u : Nat) (s : State) : Res :=
  let us := capMembers s u
  let on_ := us.filter (fun m => bitAt (s.rd R.CAP_TRIG.SRC_EN m) 9)
  if 7 < u then refuse stBadParam s
  else if on_ = [] then refuse stWrongMode s
  else if !us.all (fun m => decide (capState s m = 2)) then ⟨stBusy, [], none, countIgnored on_ s⟩
  else done (triggerUnits (fun s grouped => localFire s grouped 9 s.now) true on_ s)

def execCapForce (h : Hdr) (unit : Nat) (s : State) : Host.Outcome State Fault Refusal :=
  .next (acceptCmd h 0x0503 (le 1 unit) (capForceBody unit) s)

/-- CAP_LIST (R301). -/
def capListBody (s : State) : Res :=
  let rs := s.capture.records
  doneWith (le 1 (min 64 rs.length + (if 64 < rs.length then 128 else 0)) ++ (rs.take 64).flatMap (fun r =>
    le 1 r.unit ++ le 1 (if r.reading then 3 else 2) ++ le 2 r.panes.length ++ le 4 r.recNo ++ le 4 r.bytes.length)) s

def execCapList (h : Hdr) (s : State) : Host.Outcome State Fault Refusal :=
  .next (acceptCmd h 0x0504 [] capListBody s)

/-- A held record. -/
def findRec (s : State) (u n : Nat) : Option Rec_ := s.capture.records.find? (fun r => r.unit = u ∧ r.recNo = n)

/-- CAP_READ: the first one moves the record's panes to reading (R290, R301). -/
def capReadBody (u n off len : Nat) (s : State) : Res :=
  match findRec s u n with
  | none => refuse stBadParam s
  | some r =>
    if len = 0 ∨ 1024 < len ∨ r.bytes.length < off + len then refuse stBadParam s
    else doneWith (slice r.bytes off len) { s with capture := { s.capture with
      records := s.capture.records.map (fun q => if q.unit = u ∧ q.recNo = n then { q with reading := true } else q) } }

def execCapRead (h : Hdr) (unit recNo offset length : Nat) (s : State) : Host.Outcome State Fault Refusal :=
  .next (acceptCmd h 0x0505 (le 1 unit ++ le 4 recNo ++ le 4 offset ++ le 2 length) (capReadBody unit recNo offset length) s)

/-- CAP_RELEASE: the record's panes are free (R290, R301). -/
def capReleaseBody (u n : Nat) (s : State) : Res :=
  match findRec s u n with
  | none => refuse stBadParam s
  | some _ => done { s with capture := { s.capture with
      records := s.capture.records.filter (fun q => ¬(q.unit = u ∧ q.recNo = n)) } }

def execCapRelease (h : Hdr) (unit recNo : Nat) (s : State) : Host.Outcome State Fault Refusal :=
  .next (acceptCmd h 0x0506 (le 1 unit ++ le 4 recNo) (capReleaseBody unit recNo) s)

end Sys2Proof.Machine
end

