-- ==== Sys2Proof/Machine/GraphCheck.lean ====
section
/-! DEFINITION. The validation of a law image: checks 1 to 30 of R69, the load bound of R70, and the further conditions
of the block types (R88, R94 to R114). -/

namespace Sys2Proof.Machine

open Sys2Proof

/-- A failed check: the code and status of R69, the directory entry (0 where there is none), the bridge of the graph the
check was made on, and the record (0xFFF where there is none). -/
structure GErr where
  code   : Nat
  status : Nat
  dir    : Nat := 0
  bridge : Option Nat := none
  rcd    : Nat := 0xFFF
  deriving DecidableEq, Repr

/-- A graph section of an image: its directory entry, its bytes and its parts. -/
structure Sect where
  dir   : Nat
  bytes : List Byte
  g     : Graph
  deriving DecidableEq, Repr

/-- OFFSET and LENGTH of directory entry `k` (R65). -/
def dirOff (img : List Byte) (k : Nat) : Nat := leAt img (0x20 + 8 * k) 4
def dirLen (img : List Byte) (k : Nat) : Nat := leAt img (0x24 + 8 * k) 4

/-- The sections of an image in directory order. -/
def sections (img : List Byte) : List Sect :=
  (List.range (min 4 (byteAt img 6))).map (fun k =>
    let b := slice img (dirOff img k) (dirLen img k)
    ⟨k, b, parseGraph b⟩)

/-- Whether two regions given by start and length have a byte in common. -/
def overlaps (a b : Nat × Nat) : Bool :=
  decide (0 < a.2 ∧ 0 < b.2 ∧ a.1 < b.1 + b.2 ∧ b.1 < a.1 + a.2)

/-- Whether no two regions of a list overlap. -/
def disjoint : List (Nat × Nat) → Bool
  | [] => true
  | a :: t => t.all (fun b => !overlaps a b) && disjoint t

/-- Check 8 (R69). -/
def dirOk (img : List Byte) : Bool :=
  let n := byteAt img 6
  let used := (List.range n).map (fun k => (dirOff img k, dirLen img k))
  decide (1 ≤ n ∧ n ≤ 4)
    && used.all (fun e => decide (0x40 ≤ e.1 ∧ e.1 + e.2 ≤ img.length - 72 ∧ 64 ≤ e.2))
    && disjoint used
    && (List.range 4).all (fun k => decide (k < n) || (decide (dirOff img k = 0) && decide (dirLen img k = 0)))
    && decide (((sections img).map (fun x => x.g.bridge)).Nodup)

/-- Checks 1 to 8 (R69). -/
def imageErr (s : State) (img : List Byte) : Option GErr :=
  let len := leAt img 8 4
  let slot := byteAt img 0x18
  if len < 216 ∨ 524288 < len ∨ len ≠ img.length then some ⟨1, stBadParam, 0, none, 0xFFF⟩
  else if leAt img 0 4 ≠ 0x49474C5A ∨ leAt img 4 2 ≠ 1 then some ⟨2, stBadParam, 0, none, 0xFFF⟩
  else if crc32c (img.take 0x1C) ≠ leAt img 0x1C 4 then some ⟨3, stBadParam, 0, none, 0xFFF⟩
  else if crc32c (img.take (len - 72)) ≠ leAt img (len - 72) 4 then some ⟨4, stBadParam, 0, none, 0xFFF⟩
  else if 15 < slot ∨ s.rd R.SEC_SLOT.STATE 0 slot ≠ 1 ∨ s.rd R.SEC_SLOT.USE 0 slot ≠ 4 then
    some ⟨5, stAuthFail, 0, none, 0xFFF⟩
  else if Config.ecdsaOk (slotKey s slot) (Config.sha256 (img.take (len - 64))) (img.drop (len - 64)) = false then
    some ⟨6, stAuthFail, 0, none, 0xFFF⟩
  else if libVer < leAt img 0x0C 2 then some ⟨7, stBadParam, 0, none, 0xFFF⟩
  else if dirOk img = false then some ⟨8, stBadParam, 0, none, 0xFFF⟩
  else none

/-! ### Checks on one graph -/

/-- The first record a test fails on. -/
def firstBad (g : Graph) (ok : Nat → BlockRec → Bool) : Option Nat :=
  (List.range g.blocks.length).find? (fun i => !ok i (g.recAt i))

/-- A failure of a check on one graph. -/
def gFail (x : Sect) (code : Nat) (rcd : Nat := 0xFFF) (status : Nat := stBadParam) : Option GErr :=
  some ⟨code, status, x.dir, some x.g.bridge, rcd⟩

/-- A check over the records of one graph. -/
def recCheck (x : Sect) (code : Nat) (ok : Nat → BlockRec → Bool) : Option GErr :=
  (firstBad x.g ok).bind (fun i => gFail x code i)

/-- Whether `q` holds on the Q-format words `i` and `j` of a parameter list. -/
def parLt (p : List Nat) (i j : Nat) : Bool := decide (toSigned 16 (p.getD i 0) < toSigned 16 (p.getD j 0))
def parLe (p : List Nat) (i j : Nat) : Bool := decide (toSigned 16 (p.getD i 0) ≤ toSigned 16 (p.getD j 0))

/-- Whether a list falls strictly. -/
def fallsStrictly : List Nat → Bool
  | a :: b :: t => decide (b < a) && fallsStrictly (b :: t)
  | _ => true

/-- Whether a list rises strictly. -/
def risesStrictly : List Nat → Bool
  | a :: b :: t => decide (a < b) && risesStrictly (b :: t)
  | _ => true

/-- The conditions of an INERTIA_LEDGER on its steps (R101). -/
def inertiaOk (p : List Nat) : Bool :=
  let n := p.getD 5 0
  let st := (p.drop 6).take n
  st.all (fun h => decide (5 ≤ h ∧ h ≤ p.getD 0 0)) && fallsStrictly st && ((p.drop 6).drop n).all (· == 0)

/-- The conditions of an RT_ENVELOPE (R102). -/
def envelopeOk (p : List Nat) : Bool :=
  let n := p.getD 8 0
  let pts := (p.drop 9).take n
  let q := fun k => toSigned 16 (p.getD k 0)
  parLt p 0 1 && decide (q 0 + q 2 < q 1 - q 2) && parLe p 4 5
    && decide (pts.head?.map (· / 65536) = some 0) && risesStrictly (pts.map (· / 65536))
    && pts.all (fun w => decide (w / 65536 ≤ p.getD 7 0)) && ((p.drop 9).drop n).all (· == 0)

/-- The ports of a CURRENT_STEER above NLEG are unconnected (R114). -/
def steerPortsOk (p : List Nat) (r : BlockRec) : Bool :=
  (List.range 4).all (fun k => decide (k < p.getD 0 0) ||
    (decide (r.inSig (1 + k) = 0) && decide (r.inSig (5 + k) = 0) && decide (r.outSig k = 0)))

/-- The further conditions a type's entry places on a record (R88, R94 to R114). `i` is its index. -/
def furtherOk (g : Graph) (switches : List Nat) (i : Nat) (r : BlockRec) : Bool :=
  let p := recPars g r
  let once := (List.range i).all (fun j => decide ((g.recAt j).op ≠ r.op))
  match r.op with
  | 0x06 => parLe p 3 4
  | 0x07 => parLe p 3 2
  | 0x08 => parLe p 5 4
  | 0x09 => parLe p 5 4
  | 0x0E => parLe p 1 0
  | 0x11 => parLt p 1 0
  | 0x18 => parLt p 3 4
  | 0x19 => decide (seqSplitDelay g.fb r.rate g.beatMin ≤ 512)
  | 0x1B => once
  | 0x1C => parLt p 4 3 && parLt p 3 5
  | 0x1D => parLt p 3 2
  | 0x1E => parLt p 2 1
  | 0x20 => once && inertiaOk p
  | 0x21 => once && envelopeOk p
  | 0x29 => parLt p 1 2 && decide (toSigned 16 (p.getD 5 0) ≤ toSigned 16 (p.getD 2 0) - toSigned 16 (p.getD 1 0))
  | 0x2B => switches.contains (p.getD 0 0) && decide (rateDiv r.rate * g.beatHalf ≤ 255)
      && (List.range i).all (fun j => decide (¬((g.recAt j).op = 0x2B ∧ (recPars g (g.recAt j)).getD 0 0 = p.getD 0 0)))
  | 0x2C => switches.contains (p.getD 0 0)
      && (List.range i).all (fun j => decide (¬((g.recAt j).op = 0x2C ∧ (recPars g (g.recAt j)).getD 0 0 = p.getD 0 0)))
  | 0x2D => steerPortsOk p r
  | _ => true

/-- Check 15 on one record (R81): TVER 1, or one that a library later than 0x0100 supports. -/
def tverOk (r : BlockRec) : Bool :=
  decide (r.tver = 1) || (decide (1 < r.tver) && decide (0x0100 < libVer) && Config.tverLater r.op r.tver)

/-- Check 17 on one record (R69, R82, R88). -/
def parsOk (g : Graph) (switches : List Nat) (i : Nat) (r : BlockRec) : Bool :=
  let specs := (blockType r.op).pars
  decide (r.npar = specs.length) && decide (r.parIdx + r.npar ≤ g.parLen / 4)
    && (specs.zip (recPars g r)).all (fun e => parOk e.1 e.2) && furtherOk g switches i r

/-- Check 19 on one record (R67, R69, R88). -/
def rateOk (r : BlockRec) : Bool :=
  decide (r.rate ≤ 7) && (blockType r.op).rates.contains r.rate
    && (if 1 ≤ r.rate ∧ r.rate ≤ 4 then decide (r.phase < 2 ^ r.rate ∨ r.phase = 0xFF) else decide (r.phase = 0))
    && decide (r.cls ≤ 3 ∧ r.coloc ≤ 63)

/-- Check 12: the tables and pools of a section (R65 to R67). A table that overlaps the 64-byte header fails it as overlapping
tables do (DESIGN CHOICE, log entry 84). -/
def tablesOk (x : Sect) : Bool :=
  let g := x.g
  let regions := [(0, 64), (g.sigOff, 8 * g.nsig), (g.blkOff, recordsLen x.bytes), (g.parOff, g.parLen), (g.iniOff, g.iniLen)]
  decide (1 ≤ g.nblock ∧ g.nblock ≤ 1024 ∧ g.nsig ≤ 3584 ∧ g.parLen % 4 = 0)
    && regions.all (fun e => decide (e.1 + e.2 ≤ x.bytes.length)) && disjoint regions
    && decide (g.iniLen = 4 * (g.blocks.map (·.stateW)).foldl (· + ·) 0)

/-- Check 13 on one declaration (R66). -/
def declOk (g : Graph) (d : SigDecl) : Bool :=
  (isGraphSig d.index || isSinkSig d.index || isHostSig d.index || isCanSig d.index)
    && decide ((g.sigs.filter (fun e => e.index = d.index)).length ≤ 1) && decide (d.kind ≤ 2)
    && (if isHostSig d.index || isCanSig d.index then decide (2 ≤ d.loss ∧ d.loss ≤ 15) else decide (d.loss = 0))

/-- Check 11: the beat (R57, R58, R69). The carrier period is the one most recently applied to the master leg. -/
def beatOk (s : State) (g : Graph) : Bool :=
  let p := presentPer s g.bridge
  decide (1 ≤ g.beatHalf ∧ g.beatHalf ≤ 200 ∧ g.beatEdge ≤ 1 ∧ 2000 ≤ g.beatMin ∧ g.beatMax ≤ 400000 ∧ g.beatMin ≤ g.beatMax
    ∧ 2 * g.beatMin ≤ g.beatHalf * p ∧ g.beatHalf * p ≤ 2 * g.beatMax)

/-- Checks 9 to 20 on one graph (R69). A header BRIDGE above 3 names no bridge whose CFG_OK is 1 and fails check 9 (DESIGN
CHOICE, log entry 84). -/
def graphErr (s : State) (x : Sect) : Option GErr :=
  let g := x.g
  if 3 < g.bridge ∨ cfgOk s g.bridge = false ∨ g.kind ≠ kindOf s g.bridge ∨ g.nphase ≠ nphaseOf s g.bridge
      ∨ g.nleg ≠ nlegOf s g.bridge then gFail x 9
  else if ¬(1000 ≤ g.vb ∧ g.vb ≤ 2000000 ∧ 1000 ≤ g.ib ∧ g.ib ≤ 10000000 ∧ 1000 ≤ g.fb ∧ g.fb ≤ 1000000
      ∧ 1000 ≤ g.vdcb ∧ g.vdcb ≤ 2000000) then gFail x 10
  else if beatOk s g = false then gFail x 11
  else if tablesOk x = false then gFail x 12
  else if !(g.sigs.all (declOk g)) then gFail x 13
  else
    (recCheck x 14 (fun _ r => decide (1 ≤ r.op ∧ r.op ≤ 0x30)))
    <|> (recCheck x 15 (fun _ r => tverOk r))
    <|> (recCheck x 16 (fun _ r =>
          decide (r.nin = (blockType r.op).ins.length) && decide (r.nout = (blockType r.op).outs.length)))
    <|> (recCheck x 17 (parsOk g (switchesOf s g.bridge)))
    <|> (recCheck x 18 (fun _ r => decide (r.stateW = (blockType r.op).stateW)))
    <|> (recCheck x 19 (fun _ r => rateOk r))
    <|> (recCheck x 20 (fun _ r => decide (r.rate < 5 ∨ g.beatMax ≤ gridOf r.rate)))

/-! ### Checks over the graph set after the command -/

/-- The kind of a signal no graph writes and none declares (R50, R116, R140, R142, R232, R267): 0 scalar, 1 angle, 2 word;
none for a reserved signal, which no port contradicts. -/
def fixedKind (i : Nat) : Option Nat :=
  if isReservedSig i then none
  else if i < 4 ∨ (0x010 ≤ i ∧ i ≤ 0x05B) ∨ (0x070 ≤ i ∧ i ≤ 0x077) ∨ (0x0B0 ≤ i ∧ i ≤ 0x0F7) then some 0
  else if 0x060 ≤ i ∧ i ≤ 0x06F then some (if i % 4 = 0 then 1 else if i % 4 = 1 then 0 else 2)
  else if 0x080 ≤ i ∧ i ≤ 0x0AF then some 2
  else if 0x110 ≤ i ∧ i ≤ 0x117 then some 2
  else if 0x120 ≤ i ∧ i ≤ 0x13F then some (if i % 4 = 0 then 0 else 2)
  else if 0xF00 ≤ i ∧ i ≤ 0xF17 ∨ i = 0xF60 then some 0
  else if isSinkSig i then some 2
  else none

/-- The kind of a signal for the ports of graph `g` (R50, R66). -/
def sigKind (after : List Graph) (g : Graph) (i : Nat) : Option Nat :=
  if isHostSig i ∨ isCanSig i then (g.decl i).map (·.kind)
  else if isGraphSig i then
    match after.find? (fun h => h.writes.contains i) with
    | some h => (h.decl i).map (·.kind)
    | none => none
  else fixedKind i

/-- Whether a port's kind agrees with the kind of its signal. -/
def kindFits (k : PortKind) (j : Option Nat) : Bool :=
  match k, j with
  | .S, some j => decide (j = 0)
  | .A, some j => decide (j = 1)
  | .W, some j => decide (j = 2)
  | _, _ => true

/-- Check 24 on one record (R87); an unconnected port has no kind. -/
def kindsOk (after : List Graph) (g : Graph) (r : BlockRec) : Bool :=
  let ty := blockType r.op
  let ports := ((ty.ins ++ ty.outs).zip ((r.ins ++ r.outs).map portSig)).filter (fun e => e.2 ≠ 0)
  let xs := (ports.filter (fun e => e.1 = .X)).filterMap (fun e => sigKind after g e.2)
  ports.all (fun e => kindFits e.1 (sigKind after g e.2)) && xs.all (fun k => xs.head? == some k)

/-- Check 21 on one output or input. -/
def outOk (s : State) (g : Graph) (p : Nat) : Bool :=
  let i := portSig p
  !portPrev p && (decide (i = 0) || isGraphSig i || (isSinkSig i
    && !(decide (0xF00 ≤ i ∧ i ≤ 0xF17) && !(legsOf s g.bridge).contains (i - 0xF00))
    && !(decide (0xF40 ≤ i ∧ i ≤ 0xF43) && decide (i ≠ 0xF40 + g.bridge))))

/-- Check 22 on one record. -/
def declared (after : List Graph) (g : Graph) (r : BlockRec) : Bool :=
  r.outs.all (fun p => decide (portSig p = 0) || (g.decl (portSig p)).isSome)
    && r.ins.all (fun p =>
      let i := portSig p
      if isHostSig i || isCanSig i then (g.decl i).isSome
      else if isGraphSig i then after.any (fun h => h.writes.contains i) else true)

/-- Whether record `i` writes a signal that an earlier output of the graph set writes too (check 23). -/
def writtenTwice (before : List Nat) (g : Graph) (i : Nat) (r : BlockRec) : Bool :=
  let own := (r.outs.map portSig).filter (· ≠ 0)
  let lower := ((g.blocks.take i).flatMap (fun q => q.outs.map portSig)).filter (· ≠ 0)
  !decide own.Nodup || own.any (fun k => before.contains k || lower.contains k)

/-- Check 23 over the selected graphs in directory order. -/
def twiceErr (before : List Nat) : List Sect → Option GErr
  | [] => none
  | x :: t =>
    (recCheck x 23 (fun i r => !writtenTwice before x.g i r)) <|> twiceErr (before ++ x.g.writes) t

/-- Check 26: a class-0 record that reads within the beat from a record of a higher class. -/
def classOk (g : Graph) (i : Nat) (r : BlockRec) : Bool :=
  decide (r.cls ≠ 0) || (g.deps i).all (fun j => decide ((g.recAt j).cls = 0))

/-- The load of a graph as the sum of R70 takes it. -/
def graphLoad (g : Graph) : Rat := (load16 g.blocks : Rat) / 16 / (g.beatMin : Rat)

/-- Whether a co-location group exceeds its bound (check 28). -/
def groupTooBig (g : Graph) : Bool :=
  (List.range 64).any (fun c => decide (c ≠ 0) &&
    decide ((8 : Rat) / 10 * (g.beatMin : Rat) < (load16 (g.blocks.filter (fun r => r.coloc = c)) : Rat) / 16))

/-- The first failure of a check over the selected graphs. -/
def overSel (sel : List Sect) (f : Sect → Option GErr) : Option GErr := sel.findSome? f

/-- Checks 21 to 30 (R69). `keep` holds the loaded graphs of the other bridges with the bytes of their sections; `swap`
asks for check 29. -/
def linkErr (s : State) (keep : List Sect) (sel : List Sect) (swap : Bool) : Option GErr :=
  let after := keep.map (·.g) ++ sel.map (·.g)
  (overSel sel (fun x => recCheck x 21 (fun _ r => r.outs.all (outOk s x.g)
      && r.ins.all (fun p => !portPrev p || x.g.writes.contains (portSig p)))))
  <|> (overSel sel (fun x => recCheck x 22 (fun _ r => declared after x.g r)))
  <|> (twiceErr (keep.flatMap (fun x => x.g.writes)) sel)
  <|> (overSel sel (fun x => recCheck x 24 (fun _ r => kindsOk after x.g r)))
  <|> (overSel sel (fun x => recCheck x 25 (fun i _ => !x.g.onCycle i)))
  <|> (overSel sel (fun x => recCheck x 26 (classOk x.g)))
  <|> (overSel sel (fun x =>
        if (legsOf s x.g.bridge).all (fun n => x.g.writes.contains (0xF00 + n)) then none else gFail x 27))
  <|> (if (12 : Rat) < (after.map graphLoad).foldl (· + ·) 0 then some ⟨28, stNoResource, 0, none, 0xFFF⟩ else none)
  <|> (overSel sel (fun x => if groupTooBig x.g then gFail x 28 0xFFF stNoResource else none))
  <|> (if swap then overSel sel (fun x =>
        if ((s.br x.g.bridge).ram.map (·.sdig)) = some (structDigest x.bytes) then none else gFail x 29) else none)
  <|> (if 524288 < ((keep ++ sel).map (fun x => x.bytes.length + 64)).foldl (· + ·) 0 then
        some ⟨30, stNoResource, 0, none, 0xFFF⟩ else none)

/-- The loaded graphs of the bridges outside a list, as sections. -/
def keptSects (s : State) (mine : List Nat) : List Sect :=
  (List.range 4).filterMap (fun b =>
    if mine.contains b then none else (s.br b).ram.map (fun r => ⟨0, r.bytes, parseGraph r.bytes⟩))

/-- Checks 9 to 30 on the selected sections (R69). -/
def selErr (s : State) (sel : List Sect) (swap : Bool) : Option GErr :=
  (overSel sel (graphErr s)) <|> linkErr s (keptSects s (sel.map (fun x => x.g.bridge))) sel swap

end Sys2Proof.Machine
end

