-- ==== Sys2Proof/Machine/Graphs.lean ====
section
/-! DEFINITION. The commands that stage, check, load, store and describe law graphs (R71 to R76, R78, R79). -/

namespace Sys2Proof.Machine

open Sys2Proof

/-! ### What a validation records (R69, R79) -/

/-- GR_STAGE after a check or a load. -/
def setStageErr (code dir rcd : Nat) (s : State) : State :=
  ((s.wr R.GR_STAGE.GRAPH_ERR 0 code).wr R.GR_STAGE.GRAPH 0 dir).wr R.GR_STAGE.REC 0 rcd

/-- GR_STATUS of one bridge after a failed load. -/
def setBridgeErr (code rcd : Nat) (b : Nat) (s : State) : State :=
  if b < 4 then (s.wr R.GR_STATUS.GRAPH_ERR b code).wr R.GR_STATUS.REC b rcd else s

/-- A failed validation recorded in GR_STAGE. -/
def recordStage (e : GErr) (s : State) : State := setStageErr e.code e.dir e.rcd s

/-- A failed load recorded in GR_STAGE and in GR_STATUS: of the graph's bridge alone, or of every bridge of the load. -/
def recordLoad (e : GErr) (bridges : List Nat) (s : State) : State :=
  (match e.bridge with | some b => [b] | none => bridges).foldl (fun s b => setBridgeErr e.code e.rcd b s) (recordStage e s)

/-- STATE of the staging buffer (R78). -/
def stageState (s : State) : Nat := s.rd R.GR_STAGE.STATE

/-- The staged image can be checked, loaded and stored (R72). -/
def stageReady (s : State) : Bool := decide (2 ≤ stageState s ∧ stageState s ≤ 4)

/-! ### Staging -/

/-- GRAPH_BEGIN (R71, R72). -/
def graphBeginBody (length : Nat) (s : State) : Res :=
  if length < 216 ∨ 524288 < length then refuse stBadParam s
  else if stageState s = 5 then refuse stBusy s
  else done ({ s with graphs := { s.graphs with declared := length, staged := [] } } |>.wr R.GR_STAGE.STATE 0 1
    |>.wr R.GR_FILL.FILL 0 0)

def execGraphBegin (h : Hdr) (length : Nat) (s : State) : Host.Outcome State Fault Refusal :=
  .next (acceptCmd h 0x0301 (le 4 length) (graphBeginBody length) s)

/-- GRAPH_DATA (R72). -/
def graphDataBody (offset : Nat) (data : List Byte) (s : State) : Res :=
  let fill := s.graphs.staged.length
  if stageState s = 5 then refuse stBusy s
  else if stageState s ≠ 1 then refuse stWrongMode s
  else if offset ≠ fill ∨ s.graphs.declared < fill + data.length then refuse stBadParam s
  else
    let s1 := { s with graphs := { s.graphs with staged := s.graphs.staged ++ data } }
    let s2 := s1.wr R.GR_FILL.FILL 0 (fill + data.length)
    done (if fill + data.length = s.graphs.declared then s2.wr R.GR_STAGE.STATE 0 2 else s2)

def execGraphData (h : Hdr) (offset : Nat) (data : List Byte) (s : State) : Host.Outcome State Fault Refusal :=
  .next (acceptCmd h 0x0302 (le 4 offset ++ data) (graphDataBody offset data) s)

/-- GRAPH_CHECK: every graph of the image is selected (R69, R71). -/
def graphCheckBody (s : State) : Res :=
  if stageReady s = false then refuse stBusy s
  else
    match (imageErr s s.graphs.staged) <|> selErr s (sections s.graphs.staged) false with
    | some e => ⟨e.status, [], none, (recordStage e s).wr R.GR_STAGE.STATE 0 4⟩
    | none => done ((setStageErr 0 0 0xFFF s).wr R.GR_STAGE.STATE 0 3)

def execGraphCheck (h : Hdr) (s : State) : Host.Outcome State Fault Refusal :=
  .next (acceptCmd h 0x0303 [] graphCheckBody s)

/-! ### Loading -/

/-- The registers that describe a bridge's loaded graph (R78, R79, R115, R139). -/
def describeGraph (b id source : Nat) (r : RamGraph) (s : State) : State :=
  let g := parseGraph r.bytes
  s |>.wr R.BR_STATUS.IMAGE_OK b 1
    |>.wr R.GR_ID.IMAGE_ID b id
    |>.wr R.GR_STATUS.SOURCE b source
    |>.wr R.GR_DIGEST_LO.DIGEST b (leAt r.gdig 0 4)
    |>.wr R.GR_DIGEST_HI.DIGEST b (leAt r.gdig 4 4)
    |>.wr R.GF_STATUS.GF_ERR b (gfErr8 g)
    |>.wr R.GF_STATUS.READY_FORM b (b2n (gfErr7 g = 0))
    |>.wr R.GF_STATUS.READY_BS b (b2n (gfErr8 g = 0))
    |>.wr R.TR_STATUS.TR_ERR b (trErrOf g)
    |>.wr R.TR_STATUS.READY_TR b (b2n (trErrOf g = 0))

/-- A section copied into image RAM with its two digests (R68, R73). -/
def installGraph (id source : Nat) (x : Sect) (s : State) : State :=
  let r : RamGraph := { bytes := x.bytes, gdig := graphDigest x.bytes, sdig := structDigest x.bytes }
  describeGraph x.g.bridge id source r (s.setBr x.g.bridge { s.br x.g.bridge with ram := some r })

/-- The bridge's graph is no longer loaded: IMAGE_OK 0 and its image RAM free (R71, R75). -/
def unloadGraph (b : Nat) (s : State) : State :=
  s.setBr b { s.br b with ram := none }
    |>.wr R.BR_STATUS.IMAGE_OK b 0
    |>.wr R.GR_ID.IMAGE_ID b 0
    |>.wr R.GR_STATUS.SOURCE b 0
    |>.wr R.GR_DIGEST_LO.DIGEST b 0
    |>.wr R.GR_DIGEST_HI.DIGEST b 0
    |>.wr R.GF_STATUS.READY_FORM b 0
    |>.wr R.GF_STATUS.READY_BS b 0
    |>.wr R.TR_STATUS.READY_TR b 0

/-- Whether a bridge takes a swap (R74). -/
def swapMode (s : State) (b : Nat) : Bool :=
  decide (modeOf s b ≤ 1) || (decide (modeOf s b = 2 ∨ modeOf s b = 4) && decide (stepOf s b = 0))

/-- A section loaded in swap style: into image RAM now; a placed bridge switches at its next input point (R74). -/
def swapGraph (id : Nat) (x : Sect) (s : State) : State :=
  let b := x.g.bridge
  let s1 := installGraph id 1 x s
  match (s1.br b).placed with
  | none => logEvent 0x0050 (2 ^ b) (le 4 id) (s1.countUp R.GR_EVENTS.SWAPS b)
  | some p =>
    let s2 := s1.setBr b { s1.br b with placed := some { p with swap := some x.g } }
    holdReply b (s2.now + 80 * 400000 + 12000 + p.graph.beatHalf * presentPer s2 b / 2) s2

/-- GRAPH_LOAD after its authentication step (R69, R72 to R74). A refusal with WRONG_MODE follows checks that have passed:
GR_STAGE shows GRAPH_ERR 0 and GR_STATUS keeps what it held (DESIGN CHOICE, log entry 84). -/
def graphLoadChecks (mask style : Nat) (s : State) : Res :=
  let img := s.graphs.staged
  let id := leAt img 0x10 4
  let bridges := maskBits 4 mask
  let sel := (sections img).filter (fun x => bitAt mask x.g.bridge)
  if mask = 0 ∨ 16 ≤ mask ∨ 1 < style then refuse stBadParam s
  else if stageReady s = false then refuse stBusy s
  else
    match (imageErr s img) <|> selErr s sel (style == 1) with
    | some e => ⟨e.status, [], none, recordLoad e bridges s⟩
    | none =>
      if !(bridges.all (fun b => sel.any (fun x => x.g.bridge = b))) then
        ⟨stBadParam, [], none, recordLoad ⟨8, stBadParam, 0, none, 0xFFF⟩ bridges s⟩
      else
        let s1 := setStageErr 0 0 0xFFF s
        if style = 0 then
          if !(bridges.all (fun b => decide (modeOf s b = 0))) then ⟨stWrongMode, [], none, s1⟩
          else done (logEvent 0x0050 mask (le 4 id) (sel.foldl (fun s x => installGraph id 1 x s) s1))
        else
          if !(bridges.all (swapMode s)) then ⟨stWrongMode, [], none, s1⟩
          else done (sel.foldl (fun s x => swapGraph id x s) s1)

def graphLoadBody (h : Hdr) (mask style : Nat) (s : State) : Res :=
  withAuth h 0x0304 (le 1 mask ++ le 1 style) .any s (graphLoadChecks mask style)

def execGraphLoad (h : Hdr) (mask style : Nat) (s : State) : Host.Outcome State Fault Refusal :=
  .next (acceptCmd h 0x0304 (le 1 mask ++ le 1 style) (graphLoadBody h mask style) s)

/-- The switch of a swap: parameters and bases at one input point; the block state stays (R74). -/
def applySwap (b : Nat) (s : State) : State :=
  match (s.br b).placed with
  | some p =>
    match p.swap with
    | some g =>
      swapSettled b (logEvent 0x0050 (2 ^ b) (le 4 (s.rd R.GR_ID.IMAGE_ID b))
        ((s.setBr b { s.br b with placed := some { p with graph := g, swap := none } }).countUp R.GR_EVENTS.SWAPS b))
    | none => s
  | none => s

def execParameterSwap (bridge : Nat) (s : State) : Host.Outcome State Fault Refusal := .next (applySwap bridge s)

/-- GRAPH_UNLOAD (R71). -/
def graphUnloadBody (b : Nat) (s : State) : Res :=
  if 3 < b then refuse stBadParam s
  else if modeOf s b ≠ 0 then refuse stWrongMode s
  else done (unloadGraph b s)

def execGraphUnload (h : Hdr) (bridge : Nat) (s : State) : Host.Outcome State Fault Refusal :=
  .next (acceptCmd h 0x0307 (le 1 bridge) (graphUnloadBody bridge) s)

/-- GRAPH_INFO (R71). -/
def graphInfoBody (b : Nat) (s : State) : Res :=
  if 3 < b then refuse stBadParam s
  else
    match (s.br b).ram with
    | some r =>
      if imageOk s b then doneWith (le 4 (s.rd R.GR_ID.IMAGE_ID b) ++ padTo 32 r.gdig ++ padTo 32 r.sdig) s
      else doneWith (List.replicate 68 0) s
    | none => doneWith (List.replicate 68 0) s

def execGraphInfo (h : Hdr) (bridge : Nat) (s : State) : Host.Outcome State Fault Refusal :=
  .next (acceptCmd h 0x0308 (le 1 bridge) (graphInfoBody bridge) s)

/-! ### The image store -/

/-- The image of a store slot. -/
def slotImage (s : State) (slot : Nat) : Option (List Byte) := if slot = 0 then s.graphs.slot0 else s.graphs.slot1

/-- A store slot replaced, with its SLOTn_OK. -/
def setSlot (slot : Nat) (img : Option (List Byte)) (ok : Bool) (s : State) : State :=
  let g := { s.graphs with
    slotBad := if bitAt s.graphs.slotBad slot then s.graphs.slotBad - 2 ^ slot else s.graphs.slotBad }
  let s1 := { s with graphs := if slot = 0 then { g with slot0 := img } else { g with slot1 := img } }
  if slot = 0 then s1.wr R.GR_STORE.SLOT0_OK 0 (b2n ok) else s1.wr R.GR_STORE.SLOT1_OK 0 (b2n ok)

/-- GRAPH_STORE after its authentication step: checks 1 to 8 afresh (R72). Where they pass, GR_STAGE's code, record and graph return
to 0, 0xFFF and 0 (DESIGN CHOICE, log entry 115). -/
def graphStoreChecks (h : Hdr) (slot : Nat) (s : State) : Res :=
  if 1 < slot then refuse stBadParam s
  else if stageReady s = false then refuse stBusy s
  else
    match imageErr s s.graphs.staged with
    | some e => ⟨e.status, [], none, recordStage e s⟩
    | none =>
      let s1 := setStageErr 0 0 0xFFF s
      let s2 := flashBegin 5 s1
      let s2 := { s2 with graphs := { s2.graphs with storing := some (slot, stageState s) } }
      ⟨stAccepted, [], none, beginRun 0x0305 h.seq 0 (s2.wr R.GR_STAGE.STATE 0 5)⟩

def graphStoreBody (h : Hdr) (slot : Nat) (s : State) : Res :=
  withAuth h 0x0305 (le 1 slot) .any s (graphStoreChecks h slot)

def execGraphStore (h : Hdr) (slot : Nat) (s : State) : Host.Outcome State Fault Refusal :=
  .next (acceptCmd h 0x0305 (le 1 slot) (graphStoreBody h slot) s)

/-- The end of a GRAPH_STORE (R71). A write that fails leaves the slot without an image; one that waits for the flash has not
ended (R457). -/
def graphStoreDone (ok : Bool) (s : State) : State :=
  match s.graphs.storing with
  | none => s
  | some (slot, before) =>
    if flashNow s ≠ some 5 then s else
    let s1 := { s with graphs := { s.graphs with storing := none } }
    let s2 := setSlot slot (if ok then some s.graphs.staged else none) ok (countErase 5 slot s1)
    let s3 := if ok then
        logEvent 0x0050 (bitsMask ((sections s.graphs.staged).map (fun x => x.g.bridge))) (le 4 (leAt s.graphs.staged 0x10 4)) s2
      else s2
    endRun 0x0305 0 (if ok then 1 else 2) (s3.wr R.GR_STAGE.STATE 0 before)

def execGraphStoreDone (ok : Bool) (s : State) : Host.Outcome State Fault Refusal := .next (graphStoreDone ok s)

/-- Whether a store slot holds an image that passes checks 1 to 8 (R78). -/
def slotPasses (s : State) (slot : Nat) : Bool :=
  !bitAt s.graphs.slotBad slot && match slotImage s slot with | some img => (imageErr s img).isNone | none => false

/-- The load of the start slot: the graphs that fail are left out one by one, each with its code (R76). -/
def startLoad (id source : Nat) : Nat → List Sect → State → State
  | 0, _, s => s
  | k + 1, sel, s =>
    match selErr s sel false with
    | none =>
      if sel = [] then s
      else logEvent 0x0050 (bitsMask (sel.map (fun x => x.g.bridge))) (le 4 id)
        (sel.foldl (fun s x => installGraph id source x s) s)
    | some e =>
      let s1 := recordLoad e (sel.map (fun x => x.g.bridge)) s
      match e.bridge with
      | some b => startLoad id source k (sel.filter (fun x => x.g.bridge ≠ b)) s1
      | none => s1

/-- At a cold start, and at a warm start whose image RAM fails its CRC, the start slot is loaded (R76). An empty slot
records no code, and checks 1 to 8 are recorded on every bridge with CFG_OK (DESIGN CHOICE, log entry 84); one whose bytes
in flash have decayed fails IMAGE_CRC (log entry 87). -/
def loadStartSlot (s : State) : State :=
  let n := s.rd R.GR_STORE.START_SLOT
  if n = 0 ∨ 2 < n then s
  else
    match slotImage s (n - 1) with
    | none => s
    | some img =>
      let s0 := { s with graphs := { s.graphs with declared := img.length, staged := img } }
      let s1 := (setStageErr 0 0 0xFFF (s0.wr R.GR_STAGE.STATE 0 2)).wr R.GR_FILL.FILL 0 img.length
      match (if bitAt s.graphs.slotBad (n - 1) then some ⟨4, stBadParam, 0, none, 0xFFF⟩ else imageErr s1 img) with
      | some e => recordLoad e ((List.range 4).filter (cfgOk s1)) s1
      | none => startLoad (leAt img 0x10 4) (n + 1) 5 (sections img) s1

end Sys2Proof.Machine
end

