-- ==== Sys2Proof/Machine/Interlock.lean ====
section
/-! DEFINITION. The command path of a switch (08_gate_drive.md): the sash unit's or the pass-through command, the interlock
stage (R224 to R227), the Shutter gate and the die (R223, R245, R248), and how a gate goes off (R239). -/

namespace Sys2Proof.Machine

open Sys2Proof

/-! ### Gates go off -/

/-- The SC comparator of a die is above SC_TH after the blanking of its turn-on (R237, R239). -/
def scAbove (s : State) (k : Nat) : Bool :=
  (s.die k).scHigh && decide ((s.die k).onAt + s.rd R.DRV_SC.SC_BLANK k * 4 ≤ s.now)

/-- Both switches of leg `n` have been reported on for longer than 40 ns, and this overlap has not tripped yet. The check runs
whenever the leg belongs to a bridge (R228). -/
def gatesOverlap (s : State) (n : Nat) : Bool :=
  (bridgeOfLeg s n).isSome && s.flag R.DRV_STATUS.GATE (2 * n) && s.flag R.DRV_STATUS.GATE (2 * n + 1) && !(s.leg n).xchk
    && decide (max (s.die (2 * n)).onAt (s.die (2 * n + 1)).onAt + 16 < s.now)

/-- The cross-check of leg `n` trips on an overlap: XCHK_TRIP and XCHK_CNT (R228). The seal is `crossCheck`'s; an overlap that a
seal of another cause ends is recorded without a second one (DEDUCED, log entry 126). -/
def crossTrip (n : Nat) (s : State) : State :=
  if gatesOverlap s n then
    ((s.setLeg n { s.leg n with xchk := true }).raise R.IL_STATUS.XCHK_TRIP n).countUp R.IL_COUNT.XCHK_CNT n
  else s

/-- The switch is off: its gate is reported off, and the warning of R240 ends with the gate. The overlap that ends with it is
judged (R228). -/
def gateFell (k : Nat) (s : State) : State :=
  if s.flag R.DRV_STATUS.GATE k then
    let s1 := crossTrip (k / 2) s
    ((s1.clear R.DRV_STATUS.GATE k).clear R.DRV_STATUS.OC_ACT k).setDie k { s1.die k with offAt := some s1.now, fell := true }
  else s.clear R.DRV_STATUS.OC_ACT k

/-- The clamp of the die on Gnn_BOOST connects the gate to VNEG: with the gate driven directly and CLAMP_EN 1, from the fall of
the gate below GS_TH after a turn-off until the next turn-on begins (R236). -/
def dieClamp (s : State) (k : Nat) : Bool :=
  (s.die k).fell && !s.flag R.DRV_CFG.BOOSTER k && s.flag R.DRV_CFG.CLAMP_EN k

/-- A soft turn-off begins (R238, R239). -/
def softTurnOff (k : Nat) (s : State) : State := s.setDie k { s.die k with soft := true, softAt := s.now }

/-- A switch that is on turns off: softly while its SC comparator is above SC_TH. A soft turn-off that runs goes on to its end
(R239). -/
def gateOff (k : Nat) (s : State) : State :=
  if s.flag R.DRV_STATUS.GATE k = false ∨ (s.die k).soft then s
  else if scAbove s k then softTurnOff k s
  else gateFell k s

/-- Both switches of a leg turn off. -/
def legOff (n : Nat) (s : State) : State := gateOff (2 * n + 1) (gateOff (2 * n) s)

/-! ### The commands -/

/-- The leg emits pulses: they are released and no fault holds both switches off. -/
def legRuns (s : State) (n : Nat) : Bool :=
  s.flag R.SH_STATUS.PULSES n && !s.flag R.SH_STATUS.BOTH_OFF n && !s.flag R.SH_STATUS.LATCH_OFF n

/-- The pass-through commands of leg `n`, high side and low side; none where the leg takes its sash commands (R227). -/
def ptCommands (s : State) (n : Nat) : Option (Bool × Bool) :=
  match bridgeOfLeg s n with
  | none => none
  | some b =>
    if modeOf s b = 1 ∧ s.flag R.IL_CFG.PT_EN n then
      some (bitAt s.pth (2 * s.rd R.IL_CFG.PT_SEL n), bitAt s.pth (2 * s.rd R.IL_CFG.PT_SEL n + 1))
    else none

/-- The commands that leg `n` brings to its interlock. -/
def legCommands (s : State) (n : Nat) : Bool × Bool :=
  match ptCommands s n with
  | some c => c
  | none => ((gatesAt (s.leg n) s.now).hi, (gatesAt (s.leg n) s.now).lo)

/-- The end of the wait after a conflict of leg `n` that ended at `t` (R225). -/
def waitEnd (s : State) (n t : Nat) : Nat := t + tickOf (max (s.rd R.SH_DEAD.DT_LH n) (s.rd R.SH_DEAD.DT_HL n))

/-- The interlock passes the on commands of a leg: no conflict, and no wait after one (R224, R225). -/
def interlockPasses (s : State) (n : Nat) : Bool :=
  !s.flag R.IL_STATUS.CONFLICT n &&
    (match (s.leg n).wait with | some t => decide (waitEnd s n t ≤ s.now) | none => true)

/-- The period of leg `n`: the number of its last valley. -/
def legPeriod (s : State) (b n : Nat) : Nat :=
  (((legEdges s b n 0).filter (fun e => decide (e.1 % 2 = 0) && decide (e.2 ≤ 64 * s.now))).getLastD (0, 0)).1 / 2

/-- The trip sources of a leg that are enabled and assert (R212): 0 and 1 the overcurrent warning of its high-side and low-side
die, 2 the window comparator of TRIP_AIN. -/
def tripEnabled (s : State) (n source : Nat) : Bool :=
  (decide (source < 2) && s.flag R.SH_TRIP.TRIP_DRV n && s.flag R.DRV_STATUS.OC_ACT (2 * n + source)) ||
    (decide (source = 2) && s.flag R.SH_TRIP.TRIP_AIN_EN n && s.flag R.IN_STATUS.WC_OUT (s.rd R.SH_TRIP.TRIP_AIN n))

/-- A source that tripped switch `high` in this period of the leg still asserts: the switch does not turn on (R212). -/
def tripBlocks (s : State) (b n : Nat) (high : Bool) : Bool :=
  (s.leg n).trips.any (fun t => t.high == high && decide (t.period = legPeriod s b n) && tripEnabled s n t.source)

/-- A driver die lets its switch turn on: it is OK, its commands arrive, and no soft turn-off runs (R223, R239, R245). -/
def dieReady (s : State) (k : Nat) : Bool :=
  decide (s.rd R.DRV_STATUS.STATE k = 1) && !(s.die k).stopped && !(s.die k).linkLost && !(s.die k).soft

/-- The command that reaches the die of switch `k` (R222 to R227): of its leg, while pulses are released and no fault of the leg,
no conflict, no Shutter line and no die of the leg in FAULT or ABSENT holds it off (R245, R248, R358). -/
def gateCommand (s : State) (k : Nat) : Bool :=
  let n := k / 2
  let high := decide (k % 2 = 0)
  match bridgeOfLeg s n with
  | none => false
  | some b =>
    legRuns s n && (s.br b).open_ && interlockPasses s n && ((ptCommands s n).isSome || !tripBlocks s b n high)
      && (if high then (legCommands s n).1 else (legCommands s n).2)
      && dieReady s k && decide (s.rd R.DRV_STATUS.STATE (4 * n + 1 - k) = 1)

/-! ### The interlock (R224 to R227) -/

/-- The interlock of leg `n` judges its commands (R224, R225): with both on neither passes, and a switch that was on goes off. A
sash unit never commands both on (R226). -/
def interlock (n : Nat) (s : State) : State :=
  match ptCommands s n with
  | none => s
  | some (hi, lo) =>
    if hi && lo then
      if s.flag R.IL_STATUS.CONFLICT n then s
      else
        legOff n (((s.raise R.IL_STATUS.CONFLICT n).countUp R.IL_COUNT.CONFLICTS n).setLeg n { s.leg n with wait := none })
    else if s.flag R.IL_STATUS.CONFLICT n then
      (s.clear R.IL_STATUS.CONFLICT n).setLeg n { s.leg n with wait := if hi || lo then some s.now else none }
    else if hi || lo then s
    else s.setLeg n { s.leg n with wait := none }

/-- The interlocks of all legs. -/
def interlocks (s : State) : State := s.each (List.range 24) (fun s n => interlock n s)

/-- A low-side pulse of the pass-through commands that has ended, by its command or by a conflict (R224, R242). -/
def ptLowEnds (old : State) (s : State) : State :=
  s.each (List.range 24) (fun s n =>
    if (ptCommands old n).isSome ∧ gateCommand old (2 * n + 1) ∧ gateCommand s (2 * n + 1) = false then
      s.setLeg n { s.leg n with ptLow := true }
    else s)

/-- CONFLICT_RESUME: max(DT_LH, DT_HL) after the end of a conflict its surviving command passes (R225). -/
def conflictResume (n : Nat) (s : State) : State :=
  match (s.leg n).wait with
  | some t => reachTime (waitEnd s n t) (s.setLeg n { s.leg n with wait := none })
  | none => s

def execConflictResume (leg : Nat) (s : State) : Host.Outcome State Fault Refusal := .next (conflictResume leg s)

end Sys2Proof.Machine
end

