-- ==== Sys2Proof/Machine/SillCore.lean ====
section
/-! DEFINITION. What the Sill monitor holds and shows: contactors (R17 to R19, R374), which functions act on which bridge
(R363, R371), the configuration code (R376) and the safety log (R379). -/

namespace Sys2Proof.Machine

open Sys2Proof

/-! ### Contactors -/

/-- Contactor `k` reads closed (R17, R374). -/
def reads (s : State) (k : Nat) : Bool := bitAt s.sill.krb k != bitAt (s.rd R.SF_KON.KRB_POL) k

/-- The mask of the contactors that read closed. -/
def readsMask (s : State) : Nat := bitsMask ((List.range 4).filter (reads s))

/-- The bridge's site bus counts as connected (R17). -/
def siteClosed (s : State) (b : Nat) : Bool := (maskBits 4 (siteKon s b)).any (reads s)

/-- A motor contactor reads in its connecting state. -/
def connecting (s : State) (b k : Nat) : Bool := reads s k != bitAt (motorPol s b) k

/-- The bridge's motor counts as connected (R17). -/
def motorConn (s : State) (b : Nat) : Bool := (maskBits 4 (motorKon s b)).all (connecting s b)

/-- Every contactor of MOTOR_KON reads in its isolating state (R35). -/
def motorIsolated (s : State) (b : Nat) : Bool := (maskBits 4 (motorKon s b)).all (fun k => !connecting s b k)

/-- What a bridge asks of its motor contactors (R18). -/
inductive MotorReq where
  | off | connect | isolate
  deriving DecidableEq, Repr

/-- STEP as R18 takes it: RAMP_DOWN asks as STEP 0. -/
def reqStep (step : Nat) : Nat := if step = 6 then 0 else step

/-- The site contactors are requested closed (R18). -/
def siteReq (mode step : Nat) : Bool :=
  match mode with
  | 3 => decide (reqStep step ≠ 2)
  | 4 => decide (reqStep step ≠ 5)
  | 5 => true
  | _ => false

/-- The request to the motor contactors (R18). -/
def motorReq (mode : Nat) : MotorReq :=
  match mode with
  | 2 => .connect
  | 3 | 4 | 5 => .isolate
  | _ => .off

/-- Bridge `b` requests the output of contactor `k` on (R18). -/
def requests (s : State) (b k : Nat) : Bool :=
  (bitAt (siteKon s b) k && siteReq (modeOf s b) (stepOf s b)) ||
  (bitAt (motorKon s b) k && (match motorReq (modeOf s b) with
    | .off => false
    | .connect => !bitAt (motorPol s b) k
    | .isolate => bitAt (motorPol s b) k))

/-- An SCO forces contactor `k` off (R366). -/
def forcedOff (s : State) (k : Nat) : Bool :=
  (List.range 9).any (fun i => (s.sin i).forced &&
    (match (s.sin i).act with | some (_, _, kon, _) => bitAt kon k | none => false))

/-- The output of contactor `k` is on: permitted once the start has completed, requested by some bridge and not forced off (R19,
R374). Until then every bridge is SEALED and requests nothing. -/
def konOut (s : State) (k : Nat) : Bool :=
  s.flag R.RS_STATUS.START_DONE && !forcedOff s k && (List.range 4).any (fun b => requests s b k)

/-- The mask of the outputs that are on. -/
def konMask (s : State) : Nat := bitsMask ((List.range 4).filter (konOut s))

/-- Contactor `k` as the Sill monitor has seen it. -/
def konSeen (s : State) (k : Nat) : KonSeen := sget (fun _ => ({} : KonSeen)) s.sill.kons k

/-- The outputs and readbacks noted after a change that may move one of them (R374). -/
def noteKon (s : State) : State :=
  s.each (List.range 4) (fun s k =>
    let x := konSeen s k
    let o := konOut s k
    let since := if reads s k = o then none else if o = x.out ∧ x.since.isSome then x.since else some s.now
    { s with sill := { s.sill with kons := sput (fun _ => ({} : KonSeen)) s.sill.kons k ⟨o, since⟩ } })

/-- Every contactor the bridge requests reads in the requested state (R35). -/
def konAgrees (s : State) (b : Nat) : Bool :=
  (maskBits 4 (siteKon s b)).all (fun k => reads s k == siteReq (modeOf s b) (stepOf s b)) &&
  (match motorReq (modeOf s b) with
    | .off => true
    | .connect => motorConn s b
    | .isolate => motorIsolated s b)

/-! ### Which functions act (R362, R363, R371) -/

/-- FUNC, BR_MASK, KON_MASK and REL of an input. -/
def sinFunc (s : State) (i : Nat) : Nat := if i = 8 then 1 else s.rd R.SF_SIN_CFG.FUNC 0 i
def sinBr (s : State) (i : Nat) : Nat := if i = 8 then s.rd R.SF_STO_CFG.BR_MASK else s.rd R.SF_SIN_CFG.BR_MASK 0 i
def sinKon (s : State) (i : Nat) : Nat := if i = 8 then 0 else s.rd R.SF_SIN_CFG.KON_MASK 0 i
def sinRel (s : State) (i : Nat) : Bool := if i = 8 then s.flag R.SF_STO_CFG.REL else s.flag R.SF_SIN_CFG.REL 0 i
def sinFilt (s : State) (i : Nat) : Nat := if i = 8 then s.rd R.SF_STO_TIME.FILT else s.rd R.SF_SIN_TIME.FILT 0 i
def sinDiscT (s : State) (i : Nat) : Nat := if i = 8 then s.rd R.SF_STO_TIME.DISC_T else s.rd R.SF_SIN_TIME.DISC_T 0 i
def sinTpEn (s : State) (i : Nat) : Bool := if i = 8 then s.flag R.SF_STO_CFG.TP_EN else s.flag R.SF_SIN_CFG.TP_EN 0 i
def sinTpA (s : State) (i : Nat) : Nat := if i = 8 then s.rd R.SF_STO_CFG.TPA else s.rd R.SF_SIN_CFG.TPA 0 i
def sinTpB (s : State) (i : Nat) : Nat := if i = 8 then s.rd R.SF_STO_CFG.TPB else s.rd R.SF_SIN_CFG.TPB 0 i

/-- The accepted levels of the channels of an input. -/
def sinA (s : State) (i : Nat) : Bool :=
  if i = 8 then bitAt (s.rd R.SF_STATUS.STO_REQ) 0 else bitAt (s.rd R.SF_INPUTS.SIN) (2 * i)
def sinB (s : State) (i : Nat) : Bool :=
  if i = 8 then bitAt (s.rd R.SF_STATUS.STO_REQ) 1 else bitAt (s.rd R.SF_INPUTS.SIN) (2 * i + 1)

/-- DISC and TP of an input. -/
def sinDisc (s : State) (i : Nat) : Bool := if i = 8 then s.flag R.SF_FAULT.STO_DISC else bitAt (s.rd R.SF_FAULT.DISC) i
def sinTp (s : State) (i : Nat) : Bool := if i = 8 then s.flag R.SF_FAULT.STO_TP else bitAt (s.rd R.SF_FAULT.TP) i

/-- The bridges that list one of the contactors of a mask. -/
def bridgesListing (s : State) (kon : Nat) : Nat :=
  bitsMask ((List.range 4).filter (fun b => (siteKon s b ||| motorKon s b) &&& kon != 0))

/-- The bridges a function of an input acts on (R363). -/
def funcBridges (s : State) (func br kon : Nat) : Nat :=
  if func = 3 then br ||| bridgesListing s kon else if func = 1 ∨ func = 2 then br else 0

/-- The bridges of an input: those of its demand, or those its configuration names (R363, R378). -/
def inputBridges (s : State) (i : Nat) : Nat :=
  match (s.sin i).act with
  | some (f, br, kon, _) => funcBridges s f br kon
  | none => funcBridges s (sinFunc s i) (sinBr s i) (sinKon s i)

/-- The bridges on which the demands of one function act. -/
def demandMask (s : State) (func : Nat) : Nat :=
  (List.range 9).foldl (fun m i => match (s.sin i).act with
    | some (f, br, kon, _) => if f = func then m ||| funcBridges s f br kon else m
    | none => m) 0

/-- The bridges on which an STO acts (R363, R371, R376). -/
def stoMask (s : State) : Nat :=
  (if s.rd R.SF_STATUS.CODE_OK = 0 ∨ s.rd R.SF_FAULT.OSC_FAULT = 1 then 15 else 0) ||| demandMask s 1
    ||| (List.range 9).foldl (fun m i => if sinDisc s i || sinTp s i then m ||| inputBridges s i else m) 0
    ||| bridgesListing s (s.rd R.SF_FAULT.KON_FAULT) ||| s.rd R.SF_FAULT.SHT_FAULT

/-- The bridges on which an SS1-t acts (R360, R363). -/
def ss1Mask (s : State) : Nat := demandMask s 2 ||| s.sill.overdue

/-- The bridges on which an SCO acts (R363). -/
def scoMask (s : State) : Nat := demandMask s 3

/-- Some safety function acts on the bridge (R32). -/
def safetyActs (s : State) (b : Nat) : Bool := bitAt (stoMask s ||| ss1Mask s ||| scoMask s) b

/-- The STO_ACT, SS1_ACT, SCO_ACT and ANY_FAULT fields. -/
def showActs (s : State) : State :=
  s |>.wr R.SF_STATUS.STO_ACT 0 (stoMask s)
    |>.wr R.SF_STATUS.SS1_ACT 0 (ss1Mask s)
    |>.wr R.SF_STATUS.SCO_ACT 0 (scoMask s)
    |>.wr R.SF_STATUS.ANY_FAULT 0 (b2n ((s.reg A.SF_FAULT).toNat / 16 != 0))

/-! ### Safety log (R379) -/

/-- One entry of the safety log, with its copy in the event log. -/
def safetyLog (event source bridges detail : Nat) (s : State) : State :=
  let data := le 2 event ++ le 1 source ++ le 1 bridges ++ le 4 detail
  let body := le 4 s.sill.ticks ++ data
  logEvent 0x0020 0 data { s with sill := { s.sill with log := ((body ++ le 4 (crc32c body)) :: s.sill.log).take 32768 } }

/-- DETAIL of an input's entry: its accepted levels and its function. -/
def inputDetail (s : State) (i : Nat) : Nat := b2n (sinA s i) + 2 * b2n (sinB s i) + 256 * sinFunc s i

/-! ### Configuration code (R376) -/

/-- CFG_CODE: the CRC-32C of the safety configuration, the BR_KON registers and the accepted seal pattern. -/
def cfgCode (s : State) : Nat :=
  crc32c ((List.range 22).flatMap (fun k => le 4 (s.reg (A.SF_SIN_CFG + 4 * k)).toNat)
    ++ (List.range 4).flatMap (fun b => le 4 (s.reg (A.BR_KON + 0x400 * b)).toNat)
    ++ le 2 (s.rd R.SF_INPUTS.SEAL))

/-- The code recomputed, and CODE_OK (R376). -/
def recode (s : State) : State :=
  let s1 := s.wr R.SF_CODE.CFG_CODE 0 (cfgCode s)
  let ok := decide (s1.rd R.SF_CODE.CFG_CODE = s1.rd R.SF_EXP_CODE.EXP_CODE) && decide (s1.rd R.SF_FAULT.SEAL_FAULT = 0)
  let was := s.flag R.SF_STATUS.CODE_OK
  let s2 := s1.wr R.SF_STATUS.CODE_OK 0 (b2n ok)
  if was && !ok then safetyLog 7 13 15 0 (s2.raise R.SF_EVENT.CODE_EV)
  else if !was && ok then safetyLog 8 13 15 0 s2
  else s2

end Sys2Proof.Machine
end

