-- ==== Sys2Proof/Machine/Seal.lean ====
section
/-! DEFINITION. A change of MODE (R33), the seal as one operation (R36, R40, R161, R216), and what the safety functions
do to the bridges (R364, R365, R378). -/

namespace Sys2Proof.Machine

open Sys2Proof

/-! ### Pulses and times -/

/-- The supply monitor of a die is armed or disarmed with the pulses (R242): an undervoltage that stands counts from the arming;
one with a bootstrap supply arms later. -/
def armSupply (k : Nat) (on_ : Bool) (s : State) : State :=
  let up := fun (f : Fld) => if on_ ∧ s.flag f k ∧ s.flag R.DRV_CFG.BOOT_SUP k = false then some s.now else none
  s.setDie k { s.die k with uvPos := up R.DRV_STATUS.UV_POS, uvNeg := up R.DRV_STATUS.UV_NEG }

/-- The pulses of a leg released. -/
def legRelease (n : Nat) (s : State) : State :=
  if s.flag R.SH_STATUS.PULSES n then s
  else armSupply (2 * n + 1) true (armSupply (2 * n) true (s.raise R.SH_STATUS.PULSES n))

/-- The pulses of a leg blocked (R216): both gates are commanded off, and CARRY and the refresh timer stay at 0. -/
def legBlock (n : Nat) (s : State) : State :=
  let l := (s.leg n).block
  let s1 := ((s.clear R.SH_STATUS.PULSES n).clear R.SH_CARRY.CARRY n).setLeg n
    (if s.flag R.SH_STATUS.PULSES n then { l with blockedAt := some s.now } else l)
  armSupply (2 * n + 1) false (armSupply (2 * n) false (legOff n s1))

/-- Pulses of a bridge released or blocked (R216). ONTIME runs with pulses in modes 2 to 5 (R177). -/
def setPulses (b : Nat) (on_ : Bool) (s : State) : State :=
  let x := s.br b
  if on_ then
    let s1 := s.setBr b { x with onFrom := if 2 ≤ modeOf s b then some (x.onFrom.getD s.now) else none }
    s1.each (legsOf s b) (fun s n => legRelease n s)
  else
    let t := match x.onFrom with | some t => s.now - t | none => 0
    let s1 := s.setBr b { x with onAcc := x.onAcc + t, onFrom := none }
    s1.each (legsOf s b) (fun s n => legBlock n s)

/-- The Shutter line of a bridge asserted: pulses blocked (R358). -/
def closeShutter (b : Nat) (s : State) : State :=
  setPulses b false (s.setBr b { s.br b with open_ := false })

/-- The Shutter line of a bridge released: pulses run (R358). -/
def openShutter (b : Nat) (s : State) : State :=
  setPulses b true (s.setBr b { s.br b with open_ := true })

/-- The time in modes 2 to 5 kept for TEST_AGO: it runs while `on_` (R360). -/
def opClock (b : Nat) (on_ : Bool) (s : State) : State :=
  let x := s.br b
  match x.opFrom with
  | some t => if on_ then s else s.setBr b { x with opAcc := x.opAcc + (s.now - t), opFrom := none }
  | none => if on_ then s.setBr b { x with opFrom := some s.now } else s

/-- STEP changes (R24). What the beat has shown of the step before it is done with. -/
def setStep (b step : Nat) (s : State) : State :=
  noteKon ((s.wr R.BR_STATUS.STEP b step).setBr b { s.br b with stepAt := s.now, stepOver := false, failDue := none })

/-- The current ceiling of a mode, pu in Q15: 0.1 pu in SERVICE (R27, log entry 90). -/
def modeCeiling (mode : Nat) : Option Nat := if mode = 1 then some 0x333 else none

/-- MODE changes: MODE, STEP, MODE_CHG, the time of the change, the current ceiling and the event log (R27, R33, R459). -/
def changeMode (b mode step : Nat) (s : State) : State :=
  let old := modeOf s b
  let s1 := ((s.wr R.BR_STATUS.MODE b mode).wr R.BR_STATUS.STEP b step).raiseBit R.DEV_EVENT.MODE_CHG b
  let s2 := s1.setBr b { s1.br b with
    modeAt := s1.now, stepAt := s1.now, stepOver := false, failDue := none, ceiling := modeCeiling mode }
  logEvent 0x0010 b (le 1 old ++ le 1 mode ++ le 1 step) (opClock b (decide (2 ≤ mode)) (noteKon s2))

/-! ### The seal -/

/-- How a bridge seals: the reason, whether it latches whatever the reason (R148, R149), whether the device does it
without a command, the RESULT of a SET_MODE that runs (R321), and whether the final ledger pull is taken (R161, R401). -/
structure SealHow where
  reason : Nat
  latch  : Bool := false
  auto   : Bool := true
  result : Nat := 3
  pull   : Bool := true
  deriving DecidableEq, Repr

/-- The reasons that set LATCHED (R40). -/
def latchingReason (r : Nat) : Bool := r ∈ [6, 7, 9, 11, 12, 13, 14, 15]

/-- What each leg does on entry into SEALED (R216); the pass-through commands leave it (R227). -/
def sealLeg (n : Nat) (s : State) : State :=
  let l := (s.leg n).block
  s.setLeg n { l with shadow := 0, pend := none, duty := none, pendT := none, ton := 0, wait := none }
    |>.clear R.SH_TON.TON n |>.clear R.SH_CARRY.CARRY n |>.clear R.SH_STATUS.BOTH_OFF n
    |>.clear R.SH_STATUS.BOOT_FAIL n |>.clear R.SH_STATUS.PULSES n |>.clear R.SH_STATUS.PATH n |>.clear R.IL_STATUS.CONFLICT n

/-- The registers that follow a graph fall with its placement (R122, R129, R137, R140); SYNC_EN and RAMP_K show the last input
point (R138, R150). -/
def clearGraphRegs (b : Nat) (s : State) : State :=
  s |>.clear R.GF_CTRL.RESYNC b |>.clear R.GF_STATUS.SYNC_OK b |>.clear R.GF_STATUS.DTH b
    |>.clear R.GF_INERTIA.FLOOR b |>.clear R.GF_INERTIA.REDUCED b |>.clear R.GF_INERTIA.H_EFF b
    |>.clear R.GF_INERTIA.H_CFG b |>.clear R.GF_ENERGY.COMMITTED b |>.clear R.GF_ENERGY.RESERVE b
    |>.clear R.TR_STATUS.OBS_ACT b |>.clear R.GR_BEAT.BEAT_TICKS b

/-- The end of the beat in which a bridge seals or a reaction falls: until then every SET_MODE is refused (R37, R149). -/
def refuseBeat (b : Nat) (s : State) : State :=
  match (s.br b).placed with
  | some p => s.setBr b { s.br b with refuseTill := beatEnds s b p }
  | none => s

/-- The test-due demand on a bridge ends as the bridge is SEALED (R360): a release of source 16 (R379). -/
def endOverdue (b : Nat) (s : State) : State :=
  if bitAt s.sill.overdue b then
    safetyLog 2 16 (2 ^ b) (2 * 256) { s with sill := { s.sill with overdue := s.sill.overdue - 2 ^ b } }
  else s

/-- A bridge seals (R36, R40): the Shutter line is asserted, the placement returned, the legs and the steps cleared, the
reason recorded and its latch set. A bridge already SEALED records no new reason. -/
def sealBridge (b : Nat) (h : SealHow) (s : State) : State :=
  if modeOf s b = 0 then s
  else
    let s0 := if h.auto then refuseBeat b s else s
    let s1 := closeShutter b (if h.pull then pullBridge b s0 else s0)
    let s2 := freeEngines b (swapSettled (4 + b) (swapSettled b s1))
    let s3 := s2.each (legsOf s b) (fun s n => sealLeg n s)
    let s4 := clearGraphRegs b (s3.clear R.FB_STATUS.SPLIT b)
    let x := s4.br b
    let s5 := s4.setBr b { x with
      due := 0, rampAt := none, inBand := false, holdAt := none, syncOk := false, isoOk := false, ramp := none,
      sillDue := none, acted := 0, actedMask := 0, back := false, strobePer := none, fbPer := false, fbDuty := [],
      sashLoad := false }
    let s6 := (changeMode b 0 0 s5).wr R.BR_REASON.SEAL_REASON b h.reason |>.countUp R.BR_COUNT.SEALS b
    let s7 := if latchingReason h.reason || h.latch then s6.raise R.BR_STATUS.LATCHED b else s6
    let s8 := if h.auto then s7.raiseBit R.DEV_EVENT.AUTO_SEAL b else s7
    let s9 := logEvent 0x0011 b (le 1 h.reason) (endRun 0x0201 b h.result s8)
    let s10 := if heldBridge s9 b then endHold s9 else s9
    let s11 := endOverdue b s10
    triggerSource (10 + b) s11.now (showActs s11)

/-- A seal for a reason, with nothing else to say. -/
def sealFor (b reason : Nat) (s : State) : State := sealBridge b { reason := reason } s

/-! ### The cross-check (R228) -/

/-- The cross-check of leg `n` (R228): its trip asserts the Shutter path on every leg of the bridge, which seals with reason 14. -/
def crossCheck (n : Nat) (s : State) : State :=
  if gatesOverlap s n then
    match bridgeOfLeg s n with
    | some b => sealFor b 14 (crossTrip n s)
    | none => s
  else s

/-- Whether a reaction ramp runs, or a reaction is part of the ramp that runs (R148, R149). -/
def reactionRamp (s : State) (b : Nat) : Bool :=
  match (s.br b).ramp with | some r => decide (r.kind = 1) || r.latch | none => false

/-! ### Ramps (R34, R141, R365) -/

/-- A ramp is started: STEP 6, its first input point still to come; without a running graph no input point comes, and the
ramp begins at once (DEDUCED, log entry 20). -/
def startRamp (b kind len reason : Nat) (latch : Bool) (s : State) : State :=
  let s1 := setStep b 6 s
  s1.setBr b { s1.br b with ramp := some ⟨kind, if (s1.br b).placed.isSome then none else some s1.now, len, reason, latch⟩ }

/-- The end of the Sill timer: detection + SS1_T × 1.02 + 1 ms (R365). -/
def sillEnd (s : State) : Nat := s.now + s.rd R.SF_SS1.SS1_T * 408000 + tMs

/-- RAMP_END: at tr + RAMP_MS or tr + SS1_T the Shutter path is asserted and the bridge SEALED (R141, R365). -/
def rampEnd (b : Nat) (s : State) : State :=
  match (s.br b).ramp with
  | some r =>
    match r.tr with
    | some t =>
      sealBridge b {
        reason := r.reason, latch := r.latch, auto := decide (r.kind ≠ 0),
        result := if r.kind = 0 then 1 else 3 } (reachTime (t + r.len) s)
    | none => s
  | none => s

def execRampEnd (bridge : Nat) (s : State) : Host.Outcome State Fault Refusal := .next (rampEnd bridge s)

/-- SS1_SILL_TIMEOUT: the Sill monitor asserts the line on its own time; the earlier assertion seals with reason 4. -/
def ss1SillTimeout (b : Nat) (s : State) : State :=
  match (s.br b).sillDue with
  | some t => sealBridge b { reason := 4, latch := reactionRamp s b } (reachTime t s)
  | none => s

def execSs1SillTimeout (bridge : Nat) (s : State) : Host.Outcome State Fault Refusal := .next (ss1SillTimeout bridge s)

/-! ### What the safety functions do (R363 to R365, R378) -/

/-- An SS1-t demand begins to act on a bridge (R365). -/
def ss1Start (b : Nat) (s : State) : State :=
  match (s.br b).ramp with
  | some r =>
    if r.kind = 1 then sealBridge b { reason := 4, latch := true } s
    else if r.kind = 0 then
      s.setBr b { s.br b with ramp := some { r with kind := 2, reason := 4 }, sillDue := some (sillEnd s) }
    else s
  | none =>
    if modeOf s b ≠ 0 ∧ modeOf s b ≠ 5 ∧ stepOf s b = 0 ∧ (s.br b).placed.isSome then
      let s1 := startRamp b 2 (s.rd R.SF_SS1.SS1_T * tMs) 4 false s
      s1.setBr b { s1.br b with sillDue := some (sillEnd s) }
    else sealFor b 4 s

/-- The acting functions applied to one bridge; `old` is the mask on which SS1-t acted before. -/
def safetyBridge (old b : Nat) (s : State) : State :=
  if modeOf s b = 0 then s
  else
    let sto := bitAt (stoMask s) b
    let sco := bitAt (scoMask s) b
    let ss1 := bitAt (ss1Mask s) b && !bitAt old b
    if sto then sealBridge b { reason := 3, latch := reactionRamp s b } s
    else if sco then sealBridge b { reason := if ss1 then 4 else 5, latch := reactionRamp s b } s
    else if ss1 then ss1Start b s
    else s

/-- The safety functions take effect after a change of what demands them. -/
def applySafety (s : State) : State :=
  let old := s.rd R.SF_STATUS.SS1_ACT
  showActs (s.each (List.range 4) (fun s b => safetyBridge old b s))

/-- A safety fault latches: its bit is set, FAULT_EV, and the functions act (R371). -/
def faultLatched (event source bridges detail : Nat) (s : State) : State :=
  applySafety (safetyLog event source bridges detail (s.raise R.SF_EVENT.FAULT_EV))

end Sys2Proof.Machine
end

