-- ==== Sys2Proof/Machine/GraphRun.lean ====
section
/-! DEFINITION. A beat of a running law graph: which records are due, what they read, and what one execution writes
(R52, R54 to R62, R74, R86). -/

namespace Sys2Proof.Machine

open Sys2Proof

/-! ### The beat -/

/-- The nominal period of a rate code, ticks (R61): beats of BEAT_HALF half-periods, or a grid period. -/
def nominalDt (s : State) (b : Nat) (g : Graph) (rate : Nat) : Nat :=
  if 4 < rate then gridOf rate else g.beatHalf * masterPer s b / 2 * 2 ^ rate

/-- Whether a record of a rate and phase runs in the beat `beatno` whose input point is `ip` and whose predecessor's is
`before` (R61): a fixed-rate block runs in the first beat and once past each later boundary of its grid. -/
def dueNow (rate phase beatno ip : Nat) (before : Option Nat) : Bool :=
  if rate ≤ 4 then decide (beatno % 2 ^ rate = phase % 2 ^ rate)
  else match before with
    | none => true
    | some t => decide (t / gridOf rate < ip / gridOf rate)

/-! ### Reading -/

/-- The word a port reads: the snapshot of a signal the graph does not write; otherwise the word most recently written,
or with PREV the word at the end of the previous beat (R59). -/
def portWord (s : State) (p : Placed) (writes : List Nat) (w : Nat) : Word :=
  let i := portSig w
  if writes.contains i then
    if portPrev w then sget (fun k => s.sigWord k) p.prev i else s.sigWord i
  else sget (fun k => s.sigWord k) p.snap i

/-- The loss limit of a signal in a graph (R54). -/
def lossOf (g : Graph) (i : Nat) : Nat :=
  if isHostSig i || isCanSig i then (match g.decl i with | some d => d.loss | none => 2) else 2

/-- One input of an execution. -/
def portIn (s : State) (p : Placed) (writes : List Nat) (w : Nat) : BIn :=
  let x := portWord s p writes w
  let v := sigOf x
  ⟨v.val, v.age, v.seq, staleWord (lossOf p.graph (portSig w)) (portSig w) x, v.taint⟩

/-- The signals that a graph reads and does not write. -/
def snapshotSigs (g : Graph) : List Nat :=
  let writes := g.writes
  (((g.blocks.flatMap (fun r => r.ins.map portSig)).filter (fun i => i != 0 && !writes.contains i))).eraseDups

/-- A list of signals with their words now. -/
def wordsNow (s : State) (l : List Nat) : List (Nat × Word) := l.map (fun i => (i, s.sigWord i))

/-! ### Executing -/

/-- What an execution of a record knows (R61, R83, R84). -/
def blockCtx (s : State) (b : Nat) (p : Placed) (i ip : Nat) : BCtx :=
  let g := p.graph
  let r := g.recAt i
  { dt := match p.lastRun.getD i none with | some t => ip - t | none => nominalDt s b g r.rate
    vb := g.vb, ib := g.ib, fb := g.fb, vdcb := g.vdcb, kind := g.kind, beatMin := g.beatMin, rate := r.rate
    mode := modeOf s b, step := stepOf s b
    prev := r.outs.map (fun w => (s.sig (portSig w)).val) }

/-- One output written to the board by its block; an output connected to nothing writes nothing (R52, R67). -/
def blockWrite (b : Nat) (w : Nat) (o : OutW) (s : State) : State :=
  if portSig w = 0 then s
  else
    let s1 := s.sigWrite (portSig w) o.val o.sat o.taint
    if o.sat then s1.countUp R.GR_COUNT.SAT_CNT b else s1

/-- How many stale inputs an execution reads: SETPOINT_SEL reads the one input its SRC selects (R55, R105). -/
def staleReads (op : Nat) (x : List BIn) (p : List Nat) : Nat :=
  ((if op = 0x29 then countedIns op x p else x).filter (fun i => i.stale)).length

/-- Element `i` of a list replaced. -/
def putAt {α : Type} (l : List α) (i : Nat) (v : α) : List α := l.set i v

/-- H_RED and H_RESTORE of the inertia ledger, with their log entries (R123); the first execution after a placement
compares with no earlier value (DEDUCED, log entry 17). -/
def inertiaEvents (b old new : Nat) (s : State) : State :=
  let data := le 2 (s.rd R.GF_INERTIA.H_CFG b) ++ le 2 new
  if old = 0 ∨ old = new then s
  else if new < old then logEvent 0x0012 b data ((s.raise R.GF_EVENT.H_RED b).countUp R.GF_COUNT.H_RED_CNT b)
  else logEvent 0x0013 b data (s.raise R.GF_EVENT.H_RESTORE b)

/-- The copies of R122 after an execution of INERTIA_LEDGER: HOUT, RESV and RED as the block computed them. -/
def inertiaCopy (b : Nat) (pars : List Nat) (outs : List OutW) (s : State) : State :=
  let h := ((outs[0]?).map (·.val)).getD 0
  let resv := ((outs[1]?).map (·.val)).getD 0
  let red := ((outs[2]?).map (·.val)).getD 0
  let old := s.rd R.GF_INERTIA.H_EFF b
  let s1 := s |>.wr R.GF_INERTIA.H_CFG b (pars.getD 0 0)
    |>.wr R.GF_INERTIA.H_EFF b h
    |>.wr R.GF_INERTIA.REDUCED b (red % 2)
    |>.wr R.GF_INERTIA.FLOOR b (red / 2 % 2)
    |>.wr R.GF_ENERGY.RESERVE b resv
    |>.wr R.GF_ENERGY.COMMITTED b
      (clampInt 0 65535 (roundHalfUp ((h : Rat) * (toSigned 16 (pars.getD 4 0) : Rat) / 50))).toNat
  inertiaEvents b old h s1

/-- The words of a target copy that differs in execution k + 2 of its hinge: free values (R165). -/
def freeOuts : List OutW → State → List OutW × State
  | [], s => ([], s)
  | o :: os, s =>
    let v := drawFree s
    let rest := freeOuts os v.2
    ({ o with val := v.1 % 65536, sat := decide (v.1 / 65536 % 2 = 1) } :: rest.1, rest.2)

/-- What an execution puts on the board: the target's words in execution k + 2 of a hinge, which are the source's unless
record `i` is the one that differs (R164, R165). -/
def boardOuts (p : Placed) (bad : Option Nat) (i : Nat) (outs : List OutW) (s : State) : List OutW × State :=
  if bad = some i ∧ hingeCount p i = 2 then freeOuts outs s else (outs, s)

/-- Record `i` is on an engine whose memory holds a bad word of it (R172). -/
def readsBadWord (p : Placed) (i : Nat) : Bool :=
  p.evacs.any (fun v => decide (v.record = i) && decide (p.engines.getD i 99 = v.engine))

/-- A record with a bad word writes no outputs in this beat, unless the target's copy gives its words (R168, R172). -/
def mutedRecord (p : Placed) (i : Nat) : Bool := readsBadWord p i && decide (hingeCount p i < 2)

/-- One execution of record `i` at the input point `ip` (R55, R60, R61); `bad` is the record whose hinge differs. In execution
k + 1 of a hinge whose source has a bad word the target's copy runs, and nothing is written (R168, R172). -/
def runRecord (b ip : Nat) (bad : Option Nat) (i : Nat) (s : State) : State :=
  match (s.br b).placed with
  | none => s
  | some p =>
    let r := p.graph.recAt i
    let pars := recPars p.graph r
    let writes := p.graph.writes
    let x := r.ins.map (portIn s p writes)
    let out := runBlock r.op (blockCtx s b p i ip) x pars (p.states.getD i [])
    let s3 := if mutedRecord p i then s else
      let q := boardOuts p bad i out.1 s
      let s1 := (r.outs.zip q.1).foldl (fun s wo => blockWrite b wo.1 wo.2 s) q.2
      let s2 := s1.countUp R.GR_COUNT.STALE_CNT b (staleReads r.op x pars)
      if r.op = 0x20 then inertiaCopy b pars q.1 s2 else s2
    let p1 := hingeStep { p with states := putAt p.states i out.2, lastRun := putAt p.lastRun i (some ip) } i
    s3.setBr b { s3.br b with placed := some p1 }

/-- The blocks due in the beat run in the order of R60; one whose only copy has a bad word does not (R172). -/
def runDue (b ip beatno : Nat) (before bad : Option Nat) (s : State) : State :=
  match (s.br b).placed with
  | none => s
  | some p =>
    let due := p.graph.order.filter (fun i =>
      dueNow (p.graph.recAt i).rate (p.phases.getD i 0) beatno ip before && !(readsBadWord p i && decide (hingeCount p i = 0)))
    due.foldl (fun s i => runRecord b ip bad i s) s

/-! ### The first beat -/

/-- The signals that the graph writes take the INIT of their declarations (R52, R66). -/
def initSignals (g : Graph) (s : State) : State :=
  (g.writes.eraseDups).foldl (fun s i => s.sigWrite i (match g.decl i with | some d => d.init | none => 0)) s

end Sys2Proof.Machine
end

