-- ==== Sys2Proof/Machine/Modes.lean ====
section
/-! DEFINITION. SET_MODE and its checks (R29 to R34, R39), the steps inside a mode (R24 to R28, R35, R124, R125), the
bridge configuration (R21, R22), FAULT_CLR (R41), and the graph checks that touch a running bridge (R77). -/

namespace Sys2Proof.Machine

open Sys2Proof

/-! ### SET_MODE: the checks -/

/-- The kind permits a mode (R15). -/
def kindPermits (kind mode : Nat) : Bool :=
  match kind with
  | 1 => decide (mode ≤ 4)
  | 2 => decide (mode ≤ 4 ∧ mode ≠ 2)
  | 3 => decide (mode ≤ 2)
  | _ => decide (mode = 0)

/-- The transition table (R31). -/
def tableAdmits (src tgt : Nat) : Bool := decide (tgt = 0) || decide (src = 0 ∧ 1 ≤ tgt ∧ tgt ≤ 4)

/-- A bridge other than `b` that shares a bus or a motor contactor with it is in one of some modes (R20, R32). -/
def neighbourIn (s : State) (b : Nat) (modes : List Nat) : Bool :=
  (List.range 4).any (fun c => c != b && cfgOk s c && (sharesBus s b c || sharesMotor s b c) && modes.contains (modeOf s c))

/-- The entry conditions of a target other than SEALED (R32). -/
def entryOk (s : State) (b mode : Nat) : Bool :=
  !safetyActs s b && !s.flag R.BR_STATUS.LATCHED b &&
  (match mode with
   | 1 => !siteClosed s b && !neighbourIn s b [2, 3, 4, 5]
   | 2 => !siteClosed s b && !neighbourIn s b [1, 3, 4, 5]
   | 3 => !neighbourIn s b [1, 3, 4, 5, 2]
   | _ => !neighbourIn s b [1, 2, 3])

/-- What the die of switch `k` reports with its line in state `line`, asserted or released: the line, but for a die whose last report
against its line was the other state (DEDUCED, log entry 19). -/
def shutterReads (s : State) (k : Nat) (line : Bool) : Bool := (s.die k).shtStuck.getD line

/-- The Shutter test of R360: every die that the start found answers with the state of its line, asserted, released for 5 µs with every
command held off, and asserted again. -/
def shutterTest (s : State) (b : Nat) : Bool :=
  (switchesOf s b).all (fun k => decide (s.rd R.DRV_STATUS.STATE k = 0) ||
    [true, false, true].all (fun line => shutterReads s k line == line))

/-- The Shutter test fails: SHT_FAULT latches (R360, R371). -/
def shutterFails (b : Nat) (s : State) : State :=
  faultLatched 9 15 (2 ^ b) 0 (s.raiseBit R.SF_FAULT.SHT_FAULT b)

/-- A passed Shutter test: TEST_AGO restarts and TEST_DUE falls (R360). -/
def shutterPasses (b : Nat) (s : State) : State :=
  (s.setBr b { s.br b with opAcc := 0, opFrom := (s.br b).opFrom.map (fun _ => s.now) }).clearBit R.SF_STATUS.TEST_DUE b

/-- A leg of the bridge has an ABSENT driver die (R30, R248). -/
def hasAbsentDie (s : State) (b : Nat) : Bool := (switchesOf s b).any (fun k => decide (s.rd R.DRV_STATUS.STATE k = 0))

/-- Check 11 of R29 for modes 2 to 4 in the parts of R30: the placement, or the state with the error field of the part
that failed. -/
def checkEleven (s : State) (b mode : Nat) : Except State (Graph × List Asg) :=
  match imageOk s b, loadedGraph s b with
  | true, some g =>
    if hasAbsentDie s b then .error s
    else
      let err := if mode = 2 then trErrOf g else if mode = 3 then gfErr8 g else gfErr7 g
      if err ≠ 0 then .error (if mode = 2 then s.wr R.TR_STATUS.TR_ERR b err else s.wr R.GF_STATUS.GF_ERR b err)
      else if msError s b g ≠ 0 then .error (s.wr R.MS_STATUS.MS_ERR b (msError s b g))
      else
        match placeGraph s b false with
        | .ok a => .ok (g, a)
        | .error c => .error (placeFailed b c s)
  | _, _ => .error s

/-! ### SET_MODE: the effect -/

/-- The reply data: MODE and STEP. -/
def modeReply (s : State) (b : Nat) : List Byte := le 1 (modeOf s b) ++ le 1 (stepOf s b)

/-- A refused SET_MODE recorded (R42, R43). Codes 6 and 7 change nothing (R5); a byte above 7 is no code that REFUSE_TARGET can
hold, which keeps its value (DESIGN CHOICE, log entry 47). -/
def recordModeRefusal (b mode : Nat) (r : Res) : Res :=
  if r.status = stDone ∨ r.status = stAccepted ∨ 3 < b ∨ mode = 6 ∨ mode = 7 then r
  else
    let s1 := (r.st.raiseBit R.DEV_EVENT.REFUSED b).countUp R.BR_COUNT.REFUSALS b
    let s2 := s1.wr R.BR_REASON.LAST_REFUSE b r.status
    { r with st := if mode ≤ 5 then s2.wr R.BR_REASON.REFUSE_TARGET b mode else s2 }

/-- The first step of a mode (R25). -/
def firstStep (mode : Nat) : Nat := match mode with | 2 => 1 | 3 => 2 | 4 => 5 | _ => 0

/-- The registers of the fall-back path on entry into SERVICE (R208). -/
def enterFallback (b : Nat) (s : State) : State :=
  let s1 := s |>.wr R.FB_PER.PER b (masterPer s b) |>.clear R.FB_STATUS.SPLIT_AGE b
  let s2 := s1.each (List.range 16) (fun s i => s.wr2 R.FB_DUTY.TON b i 0)
  let s3 := s2.setBr b { s2.br b with fbPer := false, fbDuty := [] }
  if (s3.br b).placed.isSome then s3 else s3.each (legsOf s3 b) (fun s n => s.raise R.SH_STATUS.PATH n)

/-- SERVICE is entered: the graph is placed where it can be (R158, R208). -/
def enterService (b : Nat) (s : State) : State :=
  let s1 := changeMode b 1 0 s
  interlocks (enterFallback b (match placeGraph s1 b true, loadedGraph s1 b with
    | .ok a, some g => commitPlacement b g a s1
    | .error c, _ => placeFailed b c s1
    | _, _ => s1))

/-- The wait drawn at an entry into BUS_CHECK, ms: a byte of the TRNG, or 255 while its state is not 0 (R26, R391). -/
def drawWait (s : State) : Nat × State :=
  if s.rd R.SEC_STATUS.TRNG = 0 then
    ((Config.trngByte s.sec.trngN).toNat, { s with sec := { s.sec with trngN := s.sec.trngN + 1 } })
  else (255, s)

/-- A working mode is entered with its placement (R33, R158). -/
def enterWorking (b mode : Nat) (g : Graph) (a : List Asg) (s : State) : State :=
  let s1 := endAverages b (commitPlacement b g a (changeMode b mode (firstStep mode) s))
  if mode = 3 then
    let w := drawWait s1
    w.2.setBr b { w.2.br b with due := w.2.now + (200 + w.1) * tMs }
  else s1

/-- A site contactor reads closed in SERVICE or TRACTION: sealed, reason 13 (R25, R36). -/
def siteSeal (b : Nat) (s : State) : State :=
  if (modeOf s b = 1 ∨ modeOf s b = 2) ∧ siteClosed s b then sealFor b 13 s else s

/-- SET_MODE to SEALED (R33, R34, R133, R149, R378). -/
def setSealed (h : Hdr) (b style : Nat) (s : State) : Res :=
  let reply := fun (s : State) => doneWith (modeReply s b) s
  match (s.br b).ramp with
  | some r =>
    if r.kind = 2 then reply (sealBridge b { reason := 4, latch := r.latch, auto := false } s)
    else if r.kind = 1 ∨ r.latch then reply (sealBridge b { reason := r.reason, latch := true, auto := false } s)
    else reply (sealBridge b { reason := 1, auto := false } s)
  | none =>
    if style = 0 ∨ stepOf s b ≠ 0 ∨ modeOf s b = 5 then reply (sealBridge b { reason := 1, auto := false } s)
    else
      let s1 := startRamp b 0 (s.rd R.BR_TIMES.RAMP_MS b * tMs) 2 false s
      ⟨stAccepted, modeReply s1 b, none, beginRun 0x0201 h.seq b s1⟩

/-- Checks 10 and 11 and the effect, for a target of 1 to 4 (R29, R32, R33, R360). -/
def enterMode (h : Hdr) (b mode : Nat) (s : State) : Res :=
  if entryOk s b mode = false then refuse stSafetyRefused s
  else if mode = 1 then
    let s1 := enterService b s
    doneWith (modeReply s1 b) s1
  else if shutterTest s b = false then ⟨stSafetyRefused, [], none, shutterFails b s⟩
  else
    let s1 := shutterPasses b s
    match checkEleven s1 b mode with
    | .error s2 => ⟨stNoResource, [], none, s2⟩
    | .ok (g, a) =>
      let s2 := enterWorking b mode g a s1
      ⟨stAccepted, modeReply s2 b, none, beginRun 0x0201 h.seq b s2⟩

/-- Checks 5 to 11 of R29, ahead of which a seal or a reaction of this beat refuses the command (R37, R149). A SHUTDOWN that runs refuses every target but
SEALED, also the present mode (R424). -/
def setModeChecks (h : Hdr) (b mode style : Nat) (s : State) : Res :=
  let up := decide (mode ≠ 0)
  if s.now < (s.br b).refuseTill then refuse stSafetyRefused s
  else if up && !cfgOk s b then refuse stBadParam s
  else if up && (decide (s.rd R.ID_STATUS.OPT_SRC = 3) || s.flag R.ID_STATUS.MIN_SERVICE) then refuse stNoResource s
  else if up && s.flag R.RS_STATUS.SHUTDOWN then refuse stWrongMode s
  else if mode = modeOf s b then doneWith (modeReply s b) s
  else if tableAdmits (modeOf s b) mode = false ∨ (up && !kindPermits (kindOf s b) mode) = true then
    refuse stWrongMode s
  else if up && decide (stepOf s b ≠ 0) then refuse stBusy s
  else if mode = 0 then setSealed h b style s
  else enterMode h b mode s

/-- SET_MODE (R29). Check 4 asks modes 2 to 4 for authentication. -/
def setModeBody (h : Hdr) (b mode style : Nat) (s : State) : Res :=
  if 3 < b ∨ 7 < mode ∨ (mode = 0 ∧ 1 < style) ∨ mode = 6 ∨ mode = 7 then recordModeRefusal b mode (refuse stBadParam s)
  else if mode = 5 then recordModeRefusal b mode (refuse stWrongMode s)
  else if 2 ≤ mode then
    recordModeRefusal b mode
      (withAuth h 0x0201 (le 1 b ++ le 1 mode ++ le 1 style) .any s (setModeChecks h b mode style))
  else recordModeRefusal b mode (setModeChecks h b mode style s)

def execSetMode (h : Hdr) (bridge mode style : Nat) (s : State) : Host.Outcome State Fault Refusal :=
  .next (acceptCmd h 0x0201 (le 1 bridge ++ le 1 mode ++ le 1 style) (setModeBody h bridge mode style) s)

/-- GET_MODE (R331). -/
def getModeBody (b : Nat) (s : State) : Res :=
  if 3 < b then refuse stBadParam s
  else doneWith (modeReply s b ++ le 1 (s.rd R.BR_REASON.SEAL_REASON b)) s

def execGetMode (h : Hdr) (bridge : Nat) (s : State) : Host.Outcome State Fault Refusal :=
  .next (acceptCmd h 0x0203 (le 1 bridge) (getModeBody bridge) s)

/-! ### The steps (R35, R124, R125) -/

/-- The bridge reaches STEP 0 of the mode a SET_MODE asked for: the command ends (R321). -/
def reachRun (b mode : Nat) (s : State) : State :=
  let s1 := if modeOf s b = mode then setStep b 0 s else changeMode b mode 0 s
  endRun 0x0201 b 1 s1

/-- The end condition of the present step holds (R124). -/
def stepEnds (s : State) (b : Nat) : Bool :=
  let x := s.br b
  match stepOf s b with
  | 1 => konAgrees s b
  | 2 => decide (x.due ≤ s.now)
  | 3 => x.inBand
  | 4 => x.inBand && (match x.holdAt with | some t => decide (t + 200 * tMs ≤ s.now) | none => false)
  | 5 => x.syncOk
  | _ => false

/-- The next step begins (R25, R124, R125): HOLD counts from zero, and RAMP keeps its first beat. -/
def nextStep (b : Nat) (s : State) : State :=
  let x := s.br b
  match modeOf s b, stepOf s b with
  | 2, 1 => reachRun b 2 s
  | 3, 2 => setStep b 1 (s.setBr b { x with due := 0 })
  | 3, 1 => setStep b 3 (s.setBr b { x with inBand := false, back := false, rampAt := some s.now })
  | 3, 3 => setStep b 4 (s.setBr b { x with inBand := false, holdAt := none })
  | 3, 4 => reachRun b 4 (s.setBr b { x with inBand := false, holdAt := none, rampAt := none })
  | 4, 5 => setStep b 1 (s.setBr b { x with syncOk := false })
  | 4, 1 => reachRun b 4 s
  | _, _ => s

/-- The step of a bridge ends in the present beat: the next one begins at the beat boundary that follows (R35, R124), at once where
no graph is placed. -/
def endStep (b : Nat) (s : State) : State :=
  if (s.br b).placed.isSome then s.setBr b { s.br b with stepOver := true } else nextStep b s

/-- The time of the present step has run out. Where a beat runs, its end decides: an end condition that holds in it goes first
(R124); where none runs the bridge seals at once unless the end condition holds. -/
def failStep (b reason : Nat) (s : State) : State :=
  if (s.br b).placed.isSome then s.setBr b { s.br b with failDue := some reason }
  else if stepEnds s b then s
  else sealFor b reason s

/-- A beat boundary (R35, R124): the next step begins where the end condition has held in the beat that ends; otherwise a step whose
time has run out seals the bridge. -/
def settleStep (b : Nat) (s : State) : State :=
  if (s.br b).stepOver ∨ stepEnds s b then nextStep b s
  else match (s.br b).failDue with
    | some r => sealFor b r s
    | none => s

/-- STEP_ADVANCE: the end condition of the step holds, so the step ends with this beat (R124). -/
def stepAdvance (b : Nat) (s : State) : State := if b < 4 ∧ stepEnds s b then endStep b s else s

def execStepAdvance (bridge : Nat) (s : State) : Host.Outcome State Fault Refusal := .next (stepAdvance bridge s)

/-- BUS_CHECK_WAIT_EXPIRY: 200 ms and the drawn wait have passed with every sample below DEAD_V (R26); the next step begins at
the following beat boundary. -/
def busCheckWaitExpiry (b : Nat) (s : State) : State :=
  if b < 4 ∧ modeOf s b = 3 ∧ stepOf s b = 2 then endStep b (reachTime (s.br b).due s) else s

def execBusCheckWaitExpiry (bridge : Nat) (s : State) : Host.Outcome State Fault Refusal :=
  .next (busCheckWaitExpiry bridge s)

/-- The end of KON_WAIT from the entry into the step. -/
def konWaitEnd (s : State) (b : Nat) : Nat := (s.br b).stepAt + s.rd R.BR_TIMES.KON_WAIT b * 10 * tMs

/-- KON_WAIT_EXPIRY: in CONTACTOR the bridge seals with reason 12 unless the readback agrees in that beat (R124); in SYNC the next
strobe judges the isolation of the motor (R35). -/
def konWaitExpiry (b : Nat) (s : State) : State :=
  if 3 < b then s
  else if stepOf s b = 1 then failStep b 12 (reachTime (konWaitEnd s b) s)
  else if modeOf s b = 4 ∧ stepOf s b = 5 then
    reachTime (konWaitEnd s b) s
  else s

def execKonWaitExpiry (bridge : Nat) (s : State) : Host.Outcome State Fault Refusal := .next (konWaitExpiry bridge s)

/-- HOLD_TIMER_EXPIRY: 200 ms of in-band HOLD have passed (R25); FORMING begins at the following beat boundary. -/
def holdTimerExpiry (b : Nat) (s : State) : State :=
  if b < 4 ∧ modeOf s b = 3 ∧ stepOf s b = 4 ∧ (s.br b).inBand then
    match (s.br b).holdAt with
    | some t => endStep b (reachTime (t + 200 * tMs) s)
    | none => s
  else s

def execHoldTimerExpiry (bridge : Nat) (s : State) : Host.Outcome State Fault Refusal := .next (holdTimerExpiry bridge s)

/-- BLACKSTART_TIMEOUT: RAMP_T and BS_TO after the first beat of RAMP, HOLD is not completed (R28, R125); an end
condition that holds in the same beat goes first (R124). -/
def blackstartTimeout (b : Nat) (s : State) : State :=
  if b < 4 ∧ modeOf s b = 3 ∧ (stepOf s b = 3 ∨ stepOf s b = 4) then
    match (s.br b).rampAt with
    | some t => failStep b 9 (reachTime (t + s.rd R.GF_CFG.RAMP_T b * 10 * tMs + s.rd R.BR_TIMES.BS_TO b * tSec) s)
    | none => s
  else s

def execBlackstartTimeout (bridge : Nat) (s : State) : Host.Outcome State Fault Refusal := .next (blackstartTimeout bridge s)

/-- SYNC_TIMEOUT: SYNC_TO after the entry into SYNC its windows are not met (R28, R124, R130). -/
def syncTimeout (b : Nat) (s : State) : State :=
  if b < 4 ∧ modeOf s b = 4 ∧ stepOf s b = 5 then
    failStep b 10 (reachTime ((s.br b).stepAt + s.rd R.BR_TIMES.SYNC_TO b * tSec) s)
  else s

def execSyncTimeout (bridge : Nat) (s : State) : Host.Outcome State Fault Refusal := .next (syncTimeout bridge s)

/-! ### FAULT_CLR (R41) -/

/-- The reason by which the latching cause is judged: SEAL_REASON, or the reaction's REASON where a safety demand or an
SS1-t overtook it. -/
def latchReason (s : State) (b : Nat) : Nat :=
  let r := s.rd R.BR_REASON.SEAL_REASON b
  if latchingReason r then r else s.rd R.TR_STATUS.REACT_REASON b

/-- A FRESH_SUP of the loaded graph still shows its loss or twin failure (R41). -/
def freshCause (s : State) (g : Graph) (r : BlockRec) : Bool :=
  let stat := (s.sig (r.outSig 2)).val
  let fb := r.inSig 0
  r.outSig 2 != 0 && (bitAt stat 0 || bitAt stat 2) &&
  ((!isGraphSig fb && !isSinkSig fb && staleWord (lossOf g fb) fb (s.sigWord fb)) || (s.sig (r.inSig 3)).val != 0)

/-- The latching cause is still present (R41). -/
def causePresent (s : State) (b : Nat) : Bool :=
  (match latchReason s b with
   | 6 => match loadedGraph s b with
     | some g => g.blocks.any (fun r => decide (r.op = 0x25) && freshCause s g r)
     | none => false
   | 12 => (maskBits 4 (siteKon s b ||| motorKon s b)).any (fun k => reads s k != konOut s k)
   | 13 => (maskBits 4 (siteKon s b)).any (fun k => reads s k && !(List.range 4).any (fun c => requests s c k))
   | 15 => s.flag R.CN_STATUS.NO_FALLOW || !imageOk s b
   | _ => false) ||
  (legsOf s b).any (fun n => s.flag R.SH_STATUS.LATCH_OFF n || s.flag R.IL_STATUS.XCHK_TRIP n) ||
  (switchesOf s b).any (fun k => decide (s.rd R.DRV_STATUS.STATE k = 2))

/-- The signals by which a latching cause is judged: those of the FRESH_SUPs of the loaded graph (R41). -/
def causeReads (s : State) (b : Nat) : List Nat :=
  match latchReason s b, loadedGraph s b with
  | 6, some g => (g.blocks.filter (fun r => r.op = 0x25)).flatMap (fun r => [r.outSig 2, r.inSig 0, r.inSig 3])
  | _, _ => []

/-- The write of 1 to FAULT_CLR (R41): in the beat in which the bridge sealed by itself LATCHED stays, whatever its reason. -/
def clearLatch (b : Nat) (s : State) : State :=
  if causePresent s b ∨ s.now < (s.br b).refuseTill then s else s.clear R.BR_STATUS.LATCHED b

/-! ### Bridge configuration (R21, R22) -/

/-- The phases of the configuration do not match the kind (R15). -/
def phasesMatch (kind n : Nat) : Bool :=
  match kind with | 1 => decide (n = 3) | 2 => decide (n = 2) | 3 => decide (1 ≤ n ∧ n ≤ 4) | _ => decide (n = 0)

/-- Whether two phases of the bridge claim one leg. -/
def phasesOverlap (s : State) (b : Nat) : Bool :=
  let ls := (List.range (nphaseOf s b)).flatMap (fun p => phaseLegs s b p)
  decide (ls.eraseDups.length < ls.length)

/-- The bridges other than `b` whose CFG_OK is 1. -/
def otherValid (s : State) (b : Nat) : List Nat := (List.range 4).filter (fun c => c != b && cfgOk s c)

/-- CFG_ERR of the bridge's configuration (R22). -/
def cfgError (s : State) (b : Nat) : Nat :=
  let kind := kindOf s b
  let ac := decide (kind = 1 ∨ kind = 2)
  if kind = 0 then 1
  else if phasesMatch kind (nphaseOf s b) = false then 2
  else if (List.range (nphaseOf s b)).any (fun p => decide (24 < phaseFirst s b p + nlegOf s b)) then 3
  else if (legsOf s b).any (fun n => (otherValid s b).any (fun c => (legsOf s c).contains n)) then 4
  else if ((List.range 4).drop (nphaseOf s b)).any (fun p => decide (phaseFirst s b p ≠ 0)) then 5
  else if ac && decide (siteKon s b = 0) then 6
  else if ac && (maskBits 4 (siteKon s b)).all (fun k =>
      (otherValid s b).any (fun c => bitAt (siteKon s c ||| motorKon s c) k)) then 7
  else if siteKon s b &&& motorKon s b ≠ 0 then 8
  else if (maskBits 4 (motorPol s b)).any (fun k => !bitAt (motorKon s b) k) then 9
  else if phasesOverlap s b then 10
  else 0

/-- The carrier of leg `n`: a leg in no bridge has none; a leg of a bridge has the master's, which runs from the first
PER in its range (R193, R194, R196). -/
def carrierOf (s : State) (n : Nat) : Nat × Nat :=
  match bridgeOfLeg s n with
  | none => (0, 0)
  | some b =>
    let m := masterLeg s b
    let p := s.rd R.SH_CARRIER.PER m
    if (s.leg m).perF ≠ 0 then ((s.leg m).per, (s.leg m).perF)
    else if 4000 ≤ p ∧ p ≤ 400000 then (p, p) else (0, 0)

/-- The master carrier of a bridge starts with the period `per`: the spec gives it no phase, so its first valley lies at a free
instant within one period (log entry 92). -/
def startCarrier (b per : Nat) (s0 : State) : State :=
  let (n, s) := drawFree s0
  s.setBr b { s.br b with first := s.now + n % per, valN := 0, vals := [], strobePer := none }

/-- The master carriers that are to start or to stop: `s` is the state before. -/
def masterCarriers (s0 s : State) : State :=
  s.each (List.range 4) (fun s b =>
    let m := masterLeg s0 b
    if cfgOk s0 b ∧ (carrierOf s0 m).2 ≠ 0 then
      if (s0.leg m).perF = 0 then startCarrier b (carrierOf s0 m).2 s else s
    else s.setBr b { s.br b with first := 0, valN := 0, vals := [], strobePer := none })

/-- The carrier of leg `n` as `per` and `perF` say: a leg that begins counts from its bridge's next valley, and one without a
carrier holds no update point. -/
def legCarrier (n per perF : Nat) (s : State) : State :=
  let l := s.leg n
  if perF = 0 then s.setLeg n { l.block with per := 0, perF := 0, upN := 0, upAt := none, winN := 0 }
  else if l.perF = 0 then
    let k := match bridgeOfLeg s n with | some b => (s.br b).valN + 1 | none => 0
    s.setLeg n { l with per := per, perF := perF, upN := 2 * k, upAt := none, winN := k }
  else s.setLeg n { l with per := per, perF := perF }

/-- The carriers after a change of the configuration. -/
def startCarriers (s : State) : State :=
  ((List.range 24).map (fun n => (n, carrierOf s n))).foldl (fun s e => legCarrier e.1 e.2.1 e.2.2 s) (masterCarriers s s)

/-- CFG_OK and CFG_ERR after a write of the configuration (R22). -/
def checkConfig (b : Nat) (s : State) : State :=
  let e := cfgError s b
  startCarriers ((s.wr R.BR_STATUS.CFG_OK b (b2n (decide (e = 0)))).wr R.BR_STATUS.CFG_ERR b e)

/-! ### GRAPH_VERIFY (R77) -/

/-- Image RAM differs from the digest stored with it. -/
def ramDiffers (r : RamGraph) : Bool := r.differs || decide (graphDigest r.bytes ≠ r.gdig)

/-- The engines of a placed graph whose copies of records or parameters differ from image RAM, those on the target of a hinge
included. -/
def badEngines (p : Placed) (r : RamGraph) : List Nat :=
  let mine := p.swap.getD p.graph
  let g := parseGraph r.bytes
  let bad := fun (a : Asg) => p.differs.contains (a.rcd, a.eng) || decide (mine.recAt a.rcd ≠ g.recAt a.rcd)
    || decide (recPars mine (mine.recAt a.rcd) ≠ recPars g (g.recAt a.rcd))
  (((asgHeld p).filter bad).map (fun a => a.eng)).eraseDups

/-- The comparison of one bridge and what follows from it: the result byte, which names the difference in image RAM
first, and the state. The error of an engine is found at once (R172). A graph whose IMAGE_OK falls keeps its image RAM until it is
loaded anew or unloaded (DESIGN CHOICE, log entry 112). -/
def verifyGraph (b : Nat) (s : State) : Nat × State :=
  match (s.br b).ram with
  | none => (0, s)
  | some r =>
    if imageOk s b = false then (0, s)
    else
      let bad := match (s.br b).placed with | some p => badEngines p r | none => []
      let s1 := findErrors b (s.each bad (fun s e => engineBad e 0xFFFF false 4 s))
      if ramDiffers r then (2, sealFor b 15 (s1.clear R.BR_STATUS.IMAGE_OK b))
      else (if bad = [] then 0 else 1, s1)

def graphVerifyBody (b : Nat) (s : State) : Res :=
  if 3 < b then refuse stBadParam s
  else if imageOk s b = false then refuse stWrongMode s
  else doneWith (le 1 (verifyGraph b s).1) (verifyGraph b s).2

def execGraphVerify (h : Hdr) (bridge : Nat) (s : State) : Host.Outcome State Fault Refusal :=
  .next (acceptCmd h 0x0309 (le 1 bridge) (graphVerifyBody bridge) s)

/-- GRAPH_VERIFY_PERIODIC: every loaded graph is compared (R77, R452). -/
def graphVerifyPeriodic (s : State) : State := if controlUp s = false then s else s.each (List.range 4) (fun s b => (verifyGraph b s).2)

def execGraphVerifyPeriodic (s : State) : Host.Outcome State Fault Refusal := .next (graphVerifyPeriodic s)

end Sys2Proof.Machine
end

