-- ==== Sys2Proof/Machine/Sash.lean ====
section
/-! DEFINITION. The sash units (07_sash_pwm.md): the timebase measurement (R190 to R192), update points with DROP and
STRETCH and the gate edges they place (R197 to R201), the fall-back path (R206 to R209), bootstrap refresh (R210, R211) and trips
(R212 to R214). -/

namespace Sys2Proof.Machine

open Sys2Proof

/-! ### Timebase (R191, R192) -/

/-- DL_FAIL rises or stays. Every edge still to come goes to a whole tick (R192). -/
def delayLineFails (s : State) : State :=
  if s.flag R.SH_TB.DL_FAIL then s
  else
    ((s.raise R.SH_TB.DL_FAIL).raise R.SH_TB_EVENT.DL_FAIL_EV).each ((List.range 24).filter (fun n => (s.leg n).perF != 0))
      (fun s n => s.setLeg n { s.leg n with coarse := true })

/-- DELAY_LINE_MEASUREMENT: a completed measurement of NCAL (R191, R192), while the PWM parts are up (R452). -/
def delayLineMeasurement (taps : Nat) (s : State) : State :=
  if controlUp s = false then s else
  let s1 := (s.countWrap R.SH_TB.CAL_CNT).wr R.SH_TB.NCAL 0 taps
  if 40 ≤ taps ∧ taps ≤ 120 then s1.clear R.SH_TB.DL_FAIL else delayLineFails s1

def execDelayLineMeasurement (taps : Nat) (s : State) : Host.Outcome State Fault Refusal :=
  .next (delayLineMeasurement taps s)

/-- DELAY_LINE_TIMEOUT: no measurement has completed within 2 ms (R192). -/
def execDelayLineTimeout (s : State) : Host.Outcome State Fault Refusal :=
  .next (if controlUp s then delayLineFails s else s)

/-! ### On-times (R197) -/

/-- The on-time of a duty at a period (R197): the half is rounded upwards. -/
def onTime (duty per : Nat) : Nat := ((clampInt 0 0x2000 (toSigned 16 duty)).toNat * per + 64) / 128

/-! ### The pulses that start after an update point (R198, R199) -/

/-- A pulse of one switch that starts at the update point or before the next one. `half` says that it spans half of its
commanded interval only, because the point lies in the middle of it. -/
structure PulseStart where
  high : Bool
  half : Bool
  /-- what is left of the dead time where the command rose before the point; none: all of it -/
  dead : Option Nat := none
  deriving DecidableEq, Repr

/-- The command at an update point under an on-time: at a valley of a triangle it is on only for a full period, at a
peak or at the valley of a sawtooth for every on-time but 0. -/
def cmdAt (saw peak : Bool) (per t : Nat) : Bool := if saw || peak then decide (0 < t) else decide (per ≤ t)

/-- The command just before an update point under the on-time of the interval before. -/
def cmdBefore (saw peak : Bool) (per t : Nat) : Bool := if saw || !peak then decide (per ≤ t) else decide (0 < t)

/-- The pulses that start from the point up to the next one under the on-time `t`, in time order, whose width is finite.
`held` is the on-time of the interval before, none while no switch was on; `wait` is the switch whose command rose before the point
and whose dead time still runs, with what is left of it. -/
def pulseStarts (saw upd peak : Bool) (per : Nat) (held : Option Nat) (wait : Option (Bool × Nat)) (t : Nat) :
    List PulseStart :=
  if t = 0 ∨ per ≤ t then []
  else
    let lv := cmdAt saw peak per t
    let first : List PulseStart :=
      match held with
      | some t0 =>
        if cmdBefore saw peak per t0 != lv then [⟨lv, !saw, none⟩]
        else match wait with
          | some (high, d) => if high = lv then [⟨lv, !saw, some d⟩] else []
          | none => []
      | none => [⟨lv, !saw, none⟩]
    first ++
    (if saw || peak then [⟨false, false, none⟩]
      else if upd then [⟨true, false, none⟩] else [⟨true, false, none⟩, ⟨false, false, none⟩])

/-- The turn-on edge still to come at the point `p` of a command that rose before it (R198, R199). -/
def turnOnWaits (es : List GateEdge) (p : Nat) : Option (Bool × Nat) :=
  (es.find? (fun e => e.on_ && decide (p ≤ e.time))).map (fun e => (e.high, e.time - p))

/-- The dead time of a turn-on. -/
def deadTime (s : State) (n : Nat) (high : Bool) : Nat :=
  if high then s.rd R.SH_DEAD.DT_LH n else s.rd R.SH_DEAD.DT_HL n

/-- The dead time of a pulse from its command, or from the point where the command rose before it. -/
def pulseDead (s : State) (n : Nat) (p : PulseStart) : Nat := p.dead.getD (deadTime s n p.high)

/-- Twice the width W of a pulse under the on-time `t`. -/
def width2 (s : State) (n per t : Nat) (p : PulseStart) : Int :=
  let x : Int := if p.high then (t : Int) else (per : Int) - t
  (if p.half then x else 2 * x) - 2 * (pulseDead s n p : Int)

/-- A pulse is short (R199). -/
def shortPulse (s : State) (n per t : Nat) (p : PulseStart) : Bool :=
  decide (width2 s n per t p ≤ 0) || decide (width2 s n per t p < 2 * (s.rd R.SH_PULSE.MINP n : Int))

/-- The on-time that makes W of a pulse equal MINP, held to the period. -/
def stretched (s : State) (n per : Nat) (p : PulseStart) : Nat :=
  let x := (s.rd R.SH_PULSE.MINP n + pulseDead s n p) * (if p.half then 2 else 1)
  if p.high then min per x else per - x

/-! ### R200 and R201 -/

/-- What R200 works on: Tn, CARRY, and the counts of dropped and stretched pulses. -/
structure Plan where
  tn      : Nat
  carry   : Int
  drops   : Nat := 0
  stretch : Nat := 0
  deriving DecidableEq, Repr

/-- The policy applied to one pulse. -/
def applyPolicy (s : State) (n per : Nat) (q : Plan) (p : PulseStart) : Plan :=
  if s.rd R.SH_PULSE.POLICY n = 0 then
    if p.high then { q with carry := q.carry + q.tn, tn := 0, drops := q.drops + 1 }
    else { q with carry := q.carry - ((per : Int) - q.tn), tn := per, drops := q.drops + 1 }
  else { q with tn := stretched s n per p, stretch := q.stretch + 1 }

/-- The loop of R200 over the pulses: the k-th pulse under the on-time as it stands. -/
def planPulses (s : State) (n : Nat) (saw upd peak : Bool) (per : Nat) (held : Option Nat) (wait : Option (Bool × Nat))
    (q : Plan) : Plan :=
  (List.range 3).foldl (fun q k =>
    match (pulseStarts saw upd peak per held wait q.tn)[k]? with
    | some p => if shortPulse s n per q.tn p then applyPolicy s n per q p else q
    | none => q) q

/-- Tn and CARRY before the loop. -/
def planStart (per t : Nat) (carry : Int) : Plan :=
  let sum := (t : Int) + carry
  let tn := clampInt 0 per sum
  { tn := tn.toNat, carry := sum - tn }

/-! ### The gate edges of an update interval (R197, R198, R201) -/

/-- The changes of the high-side command within the interval that begins at the point `p` under the on-time `t`: the new level and
its place, fine steps. The command of a triangle is on while 64 × C ≥ (PERF − T)/2, that of a sawtooth while 64 × C < T. -/
def toggles (saw upd peak : Bool) (per p t : Nat) : List (Bool × Nat) :=
  if t = 0 ∨ per ≤ t then []
  else if saw then [(false, p + t)]
  else if peak then [(false, p + (t + 1) / 2)]
  else if upd then [(true, p + (per - t + 1) / 2)]
  else [(true, p + (per - t + 1) / 2), (false, p + (per + t + 1) / 2)]

/-- The changes from the point on: at the point itself where the command was another one before, then those of the interval. -/
def commandChanges (saw upd peak : Bool) (per p : Nat) (held : Option Nat) (t : Nat) : List (Bool × Nat) :=
  let lv := cmdAt saw peak per t
  (if held.map (cmdBefore saw peak per) = some lv then [] else [(lv, p)]) ++ toggles saw upd peak per p t

/-- How far the change that ends the pulse of the switch now on must move for it to keep MINP (R201). -/
def extension (minp : Nat) (g : Gates) (ch : List (Bool × Nat)) : Nat :=
  if g.hi then (match ch.find? (fun c => c.1 == false) with | some c => g.hiAt + minp - c.2 | none => 0)
  else if g.lo then (match ch.find? (fun c => c.1) with | some c => g.loAt + minp - c.2 | none => 0)
  else 0

/-- The changes with the one that ends the pulse now on moved by `e`. -/
def extended (e : Nat) (g : Gates) (ch : List (Bool × Nat)) : List (Bool × Nat) :=
  if e = 0 then ch
  else
    let k := ch.findIdx (fun c => c.1 != g.hi)
    (List.range ch.length).zip ch |>.map (fun c => if c.1 = k then (c.2.1, c.2.2 + e) else c.2)

/-- What R201 adds to the plan: under DROP e × PER / U leaves CARRY for a pulse of the high side and enters it for one of
the low side, whose extension takes on-time away (DEDUCED, log entry 22). -/
def planExtend (s : State) (n : Nat) (upd high : Bool) (e : Nat) (q : Plan) : Plan :=
  if e = 0 then q
  else
    let d : Int := if upd then 2 * e else e
    let c := if s.rd R.SH_PULSE.POLICY n ≠ 0 then 0 else if high then -d else d
    { q with carry := q.carry + c, stretch := q.stretch + 1 }

/-- CARRY as its field holds it. -/
def carryOf (s : State) (n : Nat) : Int := toSigned 26 (s.rd R.SH_CARRY.CARRY n)

/-- CARRY limited to one period's worth (R200), and its field. -/
def putCarry (n per : Nat) (c : Int) (s : State) : State :=
  let w := clampInt (-(per : Int)) per c
  let s1 := s.wr R.SH_CARRY.CARRY n (ofSigned 26 w)
  if w = c then s1 else (s1.countUp R.SH_CNT2.VS_DISC n).raise R.SH_EVENT.DISC_EV n

/-- Dropped and stretched pulses counted. -/
def putCounts (n : Nat) (q : Plan) (s : State) : State :=
  let s1 := (s.countUp R.SH_CNT.DROPS n q.drops).countUp R.SH_CNT.STRETCHES n q.stretch
  if q.drops = 0 then s1 else s1.raise R.SH_EVENT.DROP_EV n

/-! ### Leg faults and the refresh check (R211, R214) -/

/-- Both switches of a leg held off by a fault of the leg: the bridge seals with reason 14 (R40, R211, R214). -/
def legFault (n : Nat) (s : State) : State :=
  let s1 := logEvent 0x0032 n (le 1 (s.rd R.SH_STATUS.WIN_SUM n)) (legOff n (s.raise R.SH_STATUS.BOTH_OFF n))
  match bridgeOfLeg s n with | some b => sealFor b 14 s1 | none => s1

/-- The undervoltage check at the moment the high side may turn on again after a refresh pulse, where one is due (R211). -/
def refreshCheck (n : Nat) (s : State) : State :=
  match (s.leg n).refresh with
  | none => s
  | some t =>
    let s1 := (reachTime (tickOf t) s).setLeg n { s.leg n with refresh := none }
    if s1.flag R.DRV_STATUS.UV_POS (2 * n) then
      legFault n ((s1.raise R.SH_STATUS.BOOT_FAIL n).raise R.SH_EVENT.BOOT_EV n)
    else s1

/-! ### UPDATE_POINT -/

/-- The pending values that come into force at the update point `t` of a period of `per` fine steps (R203, R207): a duty at the
first point at or after the end of its beat, an on-time at the first one at or after its master valley. A duty in force is
converted with the period in force at the point. The leg takes the newest NCAL, and fine placement where it is allowed (R191, R192). -/
def takePending (s : State) (b t per : Nat) (l : Leg) : Leg :=
  let fail := s.flag R.SH_TB.DL_FAIL
  let l0 := { l with coarse := fail, ncal := if fail then l.ncal else s.rd R.SH_TB.NCAL }
  let l1 := match l0.pendT, l0.pend with
    | some (v, at_), _ => if at_ ≤ t then { l0 with pendT := none, duty := none, ton := v } else l0
    | none, some (d, e) => if 64 * edgeTick s b e ≤ t then { l0 with pend := none, duty := some d } else l0
    | none, none => l0
  match l1.duty with | some d => { l1 with ton := onTime d (per / 64) } | none => l1

/-- An update point at `t` of a leg that emits pulses: R199 to R201, and the edges up to the next point. -/
def updatePulses (b n : Nat) (peak : Bool) (t per : Nat) (s : State) : State :=
  let l := s.leg n
  let saw := sawtooth s b
  let upd := updBoth s b
  let g := (l.edges.filter (fun e => decide (e.time < t))).foldl Gates.take l.gates
  let q0 := planPulses s n saw upd peak per l.held (turnOnWaits l.edges t) (planStart per l.ton (carryOf s n))
  let ch := commandChanges saw upd peak per t l.held q0.tn
  let e := extension (s.rd R.SH_PULSE.MINP n) g ch
  let q := planExtend s n upd g.hi e q0
  let es := (extended e g ch).foldl (fun es c => commandEdge (deadTime s n true) (deadTime s n false) c.1 c.2 es)
    (l.edges.filter (fun e => decide (t ≤ e.time)))
  let s1 := putCounts n q (putCarry n per q.carry s)
  (s1.wr R.SH_TON.TON n q.tn).setLeg n { l with held := some q.tn, gates := g, edges := es }

/-- The bridge's first applied set of the fall-back path starts its pulses (R207); the line is released with it where no
safety function acts (DEDUCED from R358, log entry 21). -/
def startFallback (b : Nat) (s : State) : State :=
  if modeOf s b = 1 ∧ (s.br b).placed.isNone ∧ (s.br b).open_ = false ∧ safetyActs s b = false then openShutter b s else s

/-- The beat of the duty strobed last has ended at the point `t` of leg `n` (R203). -/
def endsBeat (s : State) (b n t : Nat) : Bool := (s.leg n).pend.any (fun x => decide (64 * edgeTick s b x.2 ≤ t))

/-- UPDATE_POINT: the next valley of a leg's carrier, or its next peak where UPD is 1 (R194, R195, R200, R203). It comes once the
master's period that it belongs to has begun; a row that names another point than the next one changes nothing. -/
def updatePoint (n : Nat) (peak beatEnd : Bool) (s : State) : State :=
  match bridgeOfLeg s n with
  | none => s
  | some b =>
    match nextPoint s b n with
    | none => s
    | some (i, t) =>
      if peak ≠ decide (i % 2 = 1) ∨ beatEnd ≠ endsBeat s b n t then s
      else
        let s0 := refreshCheck n (reachTime (tickOf t) s)
        let per := 64 * periodAt (s0.br b) t
        let l := { s0.leg n with upN := i + 1, upAt := some t, trips := (s0.leg n).trips.filter (fun x => decide (x.period = i / 2)) }
        let l1 := takePending s0 b t per l
        let s1 := s0.setLeg n l1
        let s2 := if l.pendT.isSome ∧ l1.pendT.isNone then startFallback b s1 else s1
        if legRuns s2 n then updatePulses b n (decide (i % 2 = 1)) t per s2
        else ((s2.wr R.SH_TON.TON n l1.ton).clear R.SH_CARRY.CARRY n).setLeg n { s2.leg n with held := none }

def execUpdatePoint (leg : Nat) (peak beatEnd : Bool) (s : State) : Host.Outcome State Fault Refusal :=
  .next (updatePoint leg peak beatEnd s)

/-! ### The fall-back path (R206 to R209) -/

/-- The fall-back path runs (07_sash_pwm.md, The tagged fall-back path). -/
def fallbackRuns (s : State) (b : Nat) : Bool := decide (modeOf s b = 1) && (s.br b).placed.isNone

/-- FB_PER, if pending, goes to the carrier. -/
def applyFbPer (b : Nat) (s : State) : State :=
  if (s.br b).fbPer then s.each (legsOf s b) (fun s n => s.setLeg n { s.leg n with per := s.rd R.FB_PER.PER b }) else s

/-- MIN_OFF of a leg (R207). -/
def minOff (s : State) (n : Nat) : Nat :=
  s.rd R.SH_PULSE.MINP n + s.rd R.SH_DEAD.DT_LH n + s.rd R.SH_DEAD.DT_HL n

/-- How far the on-times of an applied set are limited. -/
inductive FbLimit where
  | none | period | minOff
  deriving DecidableEq, Repr

/-- The legs of a bridge with their indexes in it. -/
def legIndexes (s : State) (b : Nat) : List (Nat × Nat) := (List.range (legsOf s b).length).zip (legsOf s b)

/-- FB_PER and every pending FB_DUTYi applied; nothing is pending any more (R207, R209). A leg whose FB_DUTYi is not pending keeps
its on-time, under the limit of the period too; the set starts its pulses with those of the others. -/
def applySet (b : Nat) (lim : FbLimit) (s : State) : State :=
  let s1 := applyFbPer b s
  let valley := 64 * nextValley (s.br b)
  let s2 := s1.each (legIndexes s1 b) (fun s (i, n) =>
    let l := s.leg n
    let top := 64 * l.per
    if i ∈ (s1.br b).fbDuty then
      let t := s.rd R.FB_DUTY.TON b i
      let v := match lim with | .none => t | .period => min t top | .minOff => min t (top - minOff s n)
      s.setLeg n { l with pendT := some (v, valley), pend := none }
    else
      let t := match l.pendT with | some x => x.1 | none => l.ton
      s.setLeg n { l with pendT := some (if lim = .period then min t top else t, valley) })
  s2.setBr b { s2.br b with fbPer := false, fbDuty := [], sashLoad := false }

/-- SPLIT and SPLIT_AGE cleared. -/
def clearSplit (b : Nat) (s : State) : State := (s.clear R.FB_STATUS.SPLIT b).clear R.FB_STATUS.SPLIT_AGE b

/-- R207 at a master valley. -/
def fallbackValley (b : Nat) (s : State) : State :=
  let x := s.br b
  if x.sashLoad then clearSplit b (applySet b .none s)
  else if x.fbDuty = [] ∧ x.fbPer = false then clearSplit b s
  else if x.fbDuty.all (fun i => decide (s.rd R.FB_DUTY.TAG b i = s.rd R.FB_PER.TAG b)) then
    clearSplit b (applySet b .period s)
  else
    let age := s.rd R.FB_STATUS.SPLIT_AGE b
    let s1 := if age = 0 then s.countUp R.FB_STATUS.SPLITS b else s
    if age + 1 = 4 then clearSplit b ((applySet b .minOff s1).countUp R.FB_STATUS.FORCED b)
    else (s1.raise R.FB_STATUS.SPLIT b).wr R.FB_STATUS.SPLIT_AGE b (age + 1)

/-- The period strobed comes into force with the master valley `k`, where its beat has ended by then (R196, R203, R205). -/
def takeStrobePer (b k : Nat) (s : State) : State :=
  match (s.br b).strobePer with
  | some (p, e) =>
    if e ≤ 2 * k then
      (s.setBr b { s.br b with strobePer := none }).each (legsOf s b) (fun s n => s.setLeg n { s.leg n with per := p })
    else s
  | none => s

/-- The period applied comes into force, and a duty in force is converted again (R196, R203). -/
def takePeriod (n : Nat) (s : State) : State :=
  let l := s.leg n
  if l.per = l.perF then s
  else
    match l.duty with
    | some d => (s.wr R.SH_TON.TON n (onTime d l.per)).setLeg n { l with perF := l.per, ton := onTime d l.per }
    | none => s.setLeg n { l with perF := l.per }

/-- A master valley comes: its tick and the period that begins with it are kept, and the period tag counts it (R206). -/
def pushValley (b v : Nat) (s : State) : State :=
  let x := s.br b
  s.setBr b { x with valN := x.valN + 1, vals := (v, masterPer s b) :: x.vals.take 3, tag := (x.tag + 1) % 128 }

/-- MASTER_VALLEY: one carrier period after the last valley; the fall-back path and the period of the carrier (R196, R206, R207);
a SASH_LOAD that waited replies (R209). -/
def masterValley (b : Nat) (s : State) : State :=
  if 3 < b ∨ cfgOk s b = false ∨ masterPer s b = 0 then s
  else
    let v := nextValley (s.br b)
    let s1 := takeStrobePer b ((s.br b).valN + 1) (reachTime v s)
    let s2 := if fallbackRuns s1 b then fallbackValley b s1 else s1
    swapSettled (4 + b) (pushValley b v (s2.each (legsOf s2 b) (fun s n => takePeriod n s)))

def execMasterValley (bridge : Nat) (s : State) : Host.Outcome State Fault Refusal := .next (masterValley bridge s)

/-- SASH_LOAD (R209): the reply is held back until the next master valley. -/
def sashLoadBody (b : Nat) (s : State) : Res :=
  if 3 < b then refuse stBadParam s
  else if modeOf s b ≠ 1 then refuse stWrongMode s
  else if (s.br b).placed.isSome then refuse stDeferred s
  else
    let s1 := s.setBr b { s.br b with sashLoad := true }
    done (holdReply (4 + b) (s1.now + presentPer s1 b) s1)

def execSashLoad (h : Hdr) (bridge : Nat) (s : State) : Host.Outcome State Fault Refusal :=
  .next (acceptCmd h 0x0202 (le 1 bridge) (sashLoadBody bridge) s)

/-! ### Trips (R212 to R214) -/

/-- A trip counts in the current slot, WIN_SUM and TRIP_TOTAL at once (R213); at TRIP_N the leg latches off (R214). -/
def countTrip (n : Nat) (s : State) : State :=
  let l := s.leg n
  let s1 := s.setLeg n { l with slots := match l.slots with | c :: t => (c + 1) :: t | [] => [1] }
  let s2 := ((s1.countUp R.SH_STATUS.WIN_SUM n).countWrap R.SH_TRIPS.TRIP_TOTAL n).raise R.SH_EVENT.TRIP_EV n
  if s2.rd R.SH_TRIP.TRIP_N n ≤ s2.rd R.SH_STATUS.WIN_SUM n then
    legFault n ((s2.raise R.SH_STATUS.LATCH_OFF n).raise R.SH_EVENT.LATCH_EV n)
  else s2

/-- The pulse of switch `high` of leg `n` ends now (R212): the switch is off up to its next turn-on, and the other one keeps its
schedule. Pass-through commands do not pass through the sash unit (R227). -/
def endPulse (b n source : Nat) (high : Bool) (s : State) : State :=
  let l := s.leg n
  let g := (gatesAt l s.now).take ⟨high, false, 64 * s.now⟩
  let s1 := s.setLeg n { l with
    gates := g, edges := l.edges.filter (fun e => !edgeMade l s.now e)
    trips := ⟨high, source, legPeriod s b n⟩ :: l.trips }
  if (ptCommands s n).isSome then s1 else gateOff (if high then 2 * n else 2 * n + 1) s1

/-- A turn-on still to come of the switch that `source` tripped in this period of the leg (R212). -/
def blockedTurnOn (s : State) (b n source : Nat) : Option GateEdge :=
  let l := s.leg n
  match l.trips.find? (fun t => decide (t.source = source) && decide (t.period = legPeriod s b n)) with
  | some t => (l.edges.filter (fun e => !edgeMade l s.now e)).find? (fun e => e.on_ && e.high == t.high)
  | none => none

/-- A short circuit of this very tick has ended the pulse that the trip belongs to: the trip still counts (R249). -/
def scPulse (s : State) (n : Nat) : Bool :=
  [2 * n, 2 * n + 1].any (fun k => decide (s.rd R.DRV_STATUS.STATE k = 2) && decide (s.rd R.DRV_STATUS.FAULT_CAUSE k = 1)
    && decide ((s.die k).faultAt = s.now))

/-- CYCLE_TRIP: an enabled source asserts during a pulse, which ends, or while it stays asserted blocks a later turn-on of the
same switch in the same period (R212, R217). While pulses are blocked no trip counts (R216), but for one of a pulse that a short
circuit has ended in the same tick (R249). -/
def cycleTrip (n source : Nat) (s : State) : State :=
  match bridgeOfLeg s n with
  | none => s
  | some b =>
    let s := if source = 2 then windowRises n s else s
    if tripEnabled s n source = false then s
    else if gatesOverlap s n then crossCheck n s
    else if legRuns s n then
      let g := gatesAt (s.leg n) s.now
      if g.hi || g.lo then countTrip n (endPulse b n source g.hi s)
      else
        match blockedTurnOn s b n source with
        | some e =>
          countTrip n ((reachTime (tickOf e.time) s).setLeg n { s.leg n with edges := (s.leg n).edges.filter (· ≠ e) })
        | none => s
    else if scPulse s n then countTrip n s
    else s

def execCycleTrip (leg source : Nat) (s : State) : Host.Outcome State Fault Refusal := .next (cycleTrip leg source s)

/-- TRIP_WINDOW_EXPIRE: at each valley of the leg the oldest slot leaves the window and a new one becomes current (R213). -/
def tripWindowExpire (n : Nat) (s : State) : State :=
  match bridgeOfLeg s n with
  | none => s
  | some b =>
    match (legEdges s b n (2 * (s.leg n).winN)).find? (fun e => decide (e.1 % 2 = 0)) with
    | none => s
    | some (i, t) =>
      let l := s.leg n
      let keep := l.slots.take (s.rd R.SH_TRIP.TRIP_WIN n - 1)
      let gone := (l.slots.drop (s.rd R.SH_TRIP.TRIP_WIN n - 1)).foldl (· + ·) 0
      let s1 := (reachTime (tickOf t) s).setLeg n {
        l with winN := i / 2 + 1, slots := if keep.all (· == 0) then [] else 0 :: keep }
      (s1.wr R.SH_STATUS.WIN_SUM n (s.rd R.SH_STATUS.WIN_SUM n - gone)).wr R.SH_TRIPS.TRIP_EXP n
        (s.rd R.SH_TRIPS.TRIP_EXP n + gone)

def execTripWindowExpire (leg : Nat) (s : State) : Host.Outcome State Fault Refusal := .next (tripWindowExpire leg s)

/-- The write of 1 to LATCH_CLR in SEALED (R214): the latch clears and the window empties; the emptied trips count as
expired, so that R213's balance holds (DEDUCED, log entry 23). -/
def clearLatchOff (n : Nat) (s : State) : State :=
  let s1 := s.wr R.SH_TRIPS.TRIP_EXP n (s.rd R.SH_TRIPS.TRIP_EXP n + s.rd R.SH_STATUS.WIN_SUM n)
  ((s1.clear R.SH_STATUS.LATCH_OFF n).clear R.SH_STATUS.WIN_SUM n).setLeg n { s1.leg n with slots := [] }

/-! ### Bootstrap refresh (R210, R211) -/

/-- The update point `t` inserts a refresh pulse: BOOT_EN, pulses, and up to it the high side on for longer than BOOT_INT without
a low-side pulse (R210). -/
def refreshDue (s : State) (n t : Nat) : Bool :=
  let g := (s.leg n).gates
  s.flag R.SH_BOOT.BOOT_EN n && legRuns s n && g.hi &&
    (match g.lowEnd with | some z => decide (z + s.rd R.SH_BOOT.BOOT_INT n * 25600 < t) | none => false)

/-- The end of a refresh pulse from `t`: the moment the high side may turn on again. -/
def refreshEnd (s : State) (n t : Nat) : Nat :=
  t + s.rd R.SH_DEAD.DT_HL n + s.rd R.SH_PULSE.MINP n + s.rd R.SH_DEAD.DT_LH n

/-- The edges of a leg with a refresh pulse from `t`: from its end the values that came into force at `t` govern (R210). -/
def refreshEdges (s : State) (n t : Nat) : List GateEdge :=
  let l := s.leg n
  let low := t + s.rd R.SH_DEAD.DT_HL n
  let e := refreshEnd s n t
  let g := (l.edges.filter (fun x => decide (x.time < e))).foldl Gates.take l.gates
  [⟨true, false, t⟩, ⟨false, true, low⟩, ⟨false, false, low + s.rd R.SH_PULSE.MINP n⟩]
    ++ (if g.hi then [⟨true, true, e⟩] else if g.lo then [⟨false, true, e⟩] else [])
    ++ l.edges.filter (fun x => decide (e ≤ x.time))

/-- BOOTSTRAP_REFRESH: at its last update point the leg inserts a refresh pulse where one is due (R210); the row that follows
makes the check at the pulse's end (R211), as the leg's next update point does. -/
def bootstrapRefresh (n : Nat) (s : State) : State :=
  if 23 < n then s
  else
    match (s.leg n).refresh, (s.leg n).upAt with
    | some _, _ => refreshCheck n s
    | none, some t =>
      if refreshDue s n t then
        (s.countUp R.SH_CNT2.REFRESHES n).setLeg n { s.leg n with
          edges := refreshEdges s n t, refresh := some (refreshEnd s n t) }
      else s
    | none, none => s

def execBootstrapRefresh (leg : Nat) (s : State) : Host.Outcome State Fault Refusal := .next (bootstrapRefresh leg s)

end Sys2Proof.Machine
end

