-- ==== Sys2Proof/Machine/Gate.lean ====
section
/-! DEFINITION. The driver dies (08_gate_drive.md): status frames and the cross-check, faults and their clearing,
switching-time adaptation, supplies and temperature. -/

namespace Sys2Proof.Machine

open Sys2Proof

/-- STATE of a die: 0 ABSENT, 1 OK, 2 FAULT. -/
def dieState (s : State) (k : Nat) : Nat := s.rd R.DRV_STATUS.STATE k

/-- A switch of the device whose die the start found. -/
def diePresent (s : State) (k : Nat) : Bool := decide (k < 48) && decide (dieState s k ≠ 0)

/-! ### The pass-through inputs (R227) -/

/-- PASS_THROUGH_EDGE: no filter is applied (R227). -/
def passThroughEdge (input : Nat) (high : Bool) (s : State) : State :=
  if input < 8 then
    let s1 := s.each (List.range 24) (fun s n => crossCheck n s)
    ptLowEnds s1 (interlocks { s1 with pth := if bitAt s1.pth input = high then s1.pth else s1.pth ^^^ 2 ^ input })
  else s

def execPassThroughEdge (input : Nat) (high : Bool) (s : State) : Host.Outcome State Fault Refusal :=
  .next (passThroughEdge input high s)

/-! ### Faults (R238, R245, R249) -/

/-- The die of switch `k` entered FAULT in this tick (R249). -/
def justFaulted (s : State) (k : Nat) : Bool := decide (dieState s k = 2) && decide ((s.die k).faultAt = s.now)

/-- The switch was on in this tick, and another event of it has turned the switch off (R249). -/
def justOff (s : State) (k : Nat) : Bool :=
  !s.flag R.DRV_STATUS.GATE k && decide ((s.die k).offAt = some s.now)

/-- The event bits of a cause. -/
def causeEvents (k cause : Nat) (s : State) : State :=
  let s1 := s.raise R.DRV_EVENT.FAULT_EV k
  if cause = 1 then s1.raise R.DRV_EVENT.SC_EV k
  else if cause = 2 ∨ cause = 3 then s1.raise R.DRV_EVENT.UV_EV k
  else if cause = 5 then s1.raise R.DRV_EVENT.LINK_EV k
  else s1

/-- A die in FAULT turns its switch off: softly at a short circuit, and without its link by the die itself (R222); the control
die keeps the other switch of the leg off (R245). -/
def dieOff (k cause : Nat) (s : State) : State :=
  let s1 := if cause = 5 then s
    else if cause = 1 ∧ s.flag R.DRV_STATUS.GATE k ∧ (s.die k).soft = false then softTurnOff k s
    else gateOff k s
  gateOff (4 * (k / 2) + 1 - k) s1

/-- The die enters FAULT, and the bridge of its leg seals with reason 14 (R245). Of causes that arise together the lower code is
recorded; a die in FAULT keeps the cause of an earlier tick, and a further one is held against a DRV_CLR of its tick (R249;
DEDUCED, log entry 24). -/
def dieFault (k cause : Nat) (s : State) : State :=
  if dieState s k = 1 then
    let s1 := causeEvents k cause ((s.wr R.DRV_STATUS.STATE k 2).wr R.DRV_STATUS.FAULT_CAUSE k cause)
    let s2 := s1.setDie k { s1.die k with faultAt := s1.now, again := none }
    let s3 := logEvent 0x0031 k (le 1 cause) (dieOff k cause s2)
    match bridgeOfLeg s3 (k / 2) with | some b => sealFor b 14 s3 | none => s3
  else if dieState s k = 2 then
    let s1 := dieOff k cause s
    if (s.die k).faultAt = s.now then
      if cause < s.rd R.DRV_STATUS.FAULT_CAUSE k then causeEvents k cause (s1.wr R.DRV_STATUS.FAULT_CAUSE k cause) else s1
    else s1.setDie k { s1.die k with again := some (s.now, cause) }
  else s

/-- The end of SC_FILT of the on-interval that began last. -/
def scEnd (s : State) (k : Nat) : Nat := (s.die k).onAt + (s.rd R.DRV_SC.SC_BLANK k + s.rd R.DRV_SC.SC_FILT k) * 4

/-- SHORT_CIRCUIT: after the blanking of the turn-on the SC comparator has held for SC_FILT (R237, R238); it latches once per
on-interval. Where an undervoltage or a trip of the same tick has turned the switch off, that turn-off is soft (R249). -/
def shortCircuit (k : Nat) (s : State) : State :=
  if diePresent s k ∧ (s.flag R.DRV_STATUS.GATE k ∨ (justOff s k ∧ scEnd s k ≤ s.now)) ∧ (s.die k).scSeen = false then
    let s1 := if s.flag R.DRV_STATUS.GATE k then reachTime (scEnd s k) s
      else (s.raise R.DRV_STATUS.GATE k).setDie k { s.die k with fell := false }
    dieFault k 1 ((s1.countUp R.DRV_CNT.SC_CNT k).setDie k { s1.die k with scSeen := true, scHigh := true })
  else s

def execShortCircuit (switch : Nat) (s : State) : Host.Outcome State Fault Refusal := .next (shortCircuit switch s)

/-- SOFT_TURN_OFF_END: SOFT_T has passed; all sink segments and the clamp hold the gate off (R238). -/
def softTurnOffEnd (k : Nat) (s : State) : State :=
  if k < 48 ∧ (s.die k).soft then
    let s1 := crossCheck (k / 2) (reachTime ((s.die k).softAt + s.rd R.DRV_SC.SOFT_T k * 40) s)
    gateFell k (s1.setDie k { s1.die k with soft := false, softEnd := some s1.now })
  else s

def execSoftTurnOffEnd (switch : Nat) (s : State) : Host.Outcome State Fault Refusal := .next (softTurnOffEnd switch s)

/-- OVERCURRENT_WARNING: after the blanking of the turn-on the OC comparator has held for OC_FILT (R237); OC_CNT counts once per
on-interval (R240). -/
def overcurrentWarning (k : Nat) (s : State) : State :=
  if diePresent s k = false ∨ s.flag R.DRV_STATUS.GATE k = false ∨ s.flag R.DRV_STATUS.OC_ACT k then s
  else
    let s1 := reachTime ((s.die k).onAt + s.rd R.DRV_SC.SC_BLANK k * 4 + s.rd R.DRV_OC.OC_FILT k * 4) s
    let s2 := (s1.raise R.DRV_STATUS.OC_ACT k).setDie k { s1.die k with ocSeen := true }
    if (s.die k).ocSeen then s2 else s2.countUp R.DRV_CNT.OC_CNT k

def execOvercurrentWarning (switch : Nat) (s : State) : Host.Outcome State Fault Refusal :=
  .next (overcurrentWarning switch s)

/-- An undervoltage holds the switch off (R241). -/
def supplyLow (s : State) (k : Nat) : Bool := s.flag R.DRV_STATUS.UV_POS k || s.flag R.DRV_STATUS.UV_NEG k

/-- The reported state of a die differs from its command (R230): a turn-on refused for its supply is no difference, nor is a gate
on during a soft turn-off and for STUCK_T after it. -/
def gateDiffers (s : State) (k : Nat) : Bool :=
  let softly := (s.die k).soft ||
    (match (s.die k).softEnd with | some t => decide (s.now ≤ t + s.rd R.DRV_CFG.STUCK_T k * 4) | none => false)
  if s.flag R.DRV_STATUS.GATE k then !gateCommand s k && !softly
  else gateCommand s k && !supplyLow s k

/-- STUCK_GATE: the two have differed for longer than STUCK_T. A die in FAULT is judged too: of causes of one tick the lower code
is recorded, and a later one stands against a DRV_CLR of its tick (R245, R249). -/
def stuckGate (k : Nat) (s : State) : State :=
  if diePresent s k ∧ (gateDiffers s k ∨ (justFaulted s k ∧ justOff s k)) then
    dieFault k 4 (s.countUp R.DRV_CNT.STUCK_CNT k)
  else s

def execStuckGate (switch : Nat) (s : State) : Host.Outcome State Fault Refusal := .next (stuckGate switch s)

/-- DIE_LINK_LOST: two status frames in succession were missed (R243). -/
def dieLinkLost (k : Nat) (s : State) : State :=
  if diePresent s k then dieFault k 5 (s.setDie k { s.die k with linkLost := true }) else s

def execDieLinkLost (switch : Nat) (s : State) : Host.Outcome State Fault Refusal := .next (dieLinkLost switch s)

/-- DIE_OVER_TEMPERATURE: the die is above 150 °C and turns its switch off (R243). -/
def dieOverTemperature (k : Nat) (s : State) : State :=
  if diePresent s k then dieFault k 6 (s.setDie k { s.die k with hotAt := some s.now }) else s

def execDieOverTemperature (switch : Nat) (s : State) : Host.Outcome State Fault Refusal :=
  .next (dieOverTemperature switch s)

/-- DIE_COMMAND_TIMEOUT: without a valid command frame for 500 ns the die turns its switch off (R222). -/
def dieCommandTimeout (k : Nat) (s : State) : State :=
  if diePresent s k then gateOff k (crossCheck (k / 2) s) else s

def execDieCommandTimeout (switch : Nat) (s : State) : Host.Outcome State Fault Refusal :=
  .next (dieCommandTimeout switch s)

/-! ### Supplies (R241, R242) -/

/-- A low-side pulse of leg `n` has ended since the release: of the commands that the leg takes (R227, R242). -/
def lowPulseSeen (s : State) (n : Nat) : Bool :=
  if (ptCommands s n).isSome then (s.leg n).ptLow else (gatesAt (s.leg n) s.now).lowSeen

/-- The supply monitor of a die is armed: pulses are released, and a bootstrap supply has seen its first low-side pulse. -/
def supplyArmed (s : State) (k : Nat) : Bool :=
  s.flag R.SH_STATUS.PULSES (k / 2) && (!s.flag R.DRV_CFG.BOOT_SUP k || lowPulseSeen s (k / 2))

/-- An undervoltage that meets, in one tick, the fault or the block of pulses that has turned the switch off is one of the
switch on (R245, R249). -/
def supplyJustOff (s : State) (k : Nat) : Bool :=
  justFaulted s k && justOff s k && decide ((s.leg (k / 2)).blockedAt = some s.now)

/-- The flag of a supply in DRV_STATUS. -/
def uvFlag (neg : Bool) : Fld := if neg then R.DRV_STATUS.UV_NEG else R.DRV_STATUS.UV_POS

/-- Since when an undervoltage counts towards UV_T. -/
def uvSince (s : State) (k : Nat) (neg : Bool) : Option Nat := if neg then (s.die k).uvNeg else (s.die k).uvPos

def setUvSince (k : Nat) (neg : Bool) (t : Option Nat) (s : State) : State :=
  s.setDie k (if neg then { s.die k with uvNeg := t } else { s.die k with uvPos := t })

/-- SUPPLY_UNDERVOLTAGE: a filtered undervoltage, or one that stands. Armed, it is a fault at once with the switch on; with the
switch off the row that finds it counting brings the end of UV_T, and another begins the count (log entry 96). Unarmed, it is no
fault; one of VPOS still holds the gate at VNEG (R223). -/
def supplyUndervoltage (k : Nat) (neg : Bool) (s : State) : State :=
  if diePresent s k = false ∨ (neg ∧ s.rd R.DRV_SUP.VNEG_UV k = 0) then s
  else
    let cause := if neg then 3 else 2
    let s1 := s.raise (uvFlag neg) k
    if supplyJustOff s1 k then dieFault k cause s1
    else if supplyArmed s1 k = false then
      setUvSince k neg none (if neg then s1 else gateOff k (crossCheck (k / 2) s1))
    else if s1.flag R.DRV_STATUS.GATE k then dieFault k cause s1
    else
      match uvSince s1 k neg with
      | none => setUvSince k neg (some s1.now) s1
      | some t => dieFault k cause (reachTime (t + s1.rd R.DRV_SUP.UV_T k * 400) s1)

def execSupplyUndervoltage (switch : Nat) (neg : Bool) (s : State) : Host.Outcome State Fault Refusal :=
  .next (supplyUndervoltage switch neg s)

/-- ZONE_SUPPLY_RECOVERY: a supply is above its threshold with its hysteresis again (R241). -/
def zoneSupplyRecovery (k : Nat) (neg : Bool) (s : State) : State :=
  if diePresent s k then setUvSince k neg none (s.clear (uvFlag neg) k) else s

def execZoneSupplyRecovery (switch : Nat) (neg : Bool) (s : State) : Host.Outcome State Fault Refusal :=
  .next (zoneSupplyRecovery switch neg s)

/-- With VNEG_UV 0 there is no undervoltage of VNEG (R241). -/
def supplyWritten (k : Nat) (s : State) : State :=
  if s.rd R.DRV_SUP.VNEG_UV k = 0 then zoneSupplyRecovery k true s else s

/-! ### Clearing (R246) -/

/-- The cause of a die's FAULT is gone. A short circuit and a stuck gate count as gone once the switch is off. The spec
has no report of a die below 140 °C: after the tick that reported it hot this is a free value (log entry 25). -/
def causeGone (k : Nat) (s : State) : Bool × State :=
  match s.rd R.DRV_STATUS.FAULT_CAUSE k with
  | 1 | 4 => (!s.flag R.DRV_STATUS.GATE k && !(s.die k).soft, s)
  | 2 => (!s.flag R.DRV_STATUS.UV_POS k, s)
  | 3 => (!s.flag R.DRV_STATUS.UV_NEG k, s)
  | 5 => (!(s.die k).linkLost, s)
  | _ => (decide ((s.die k).hotAt ≠ some s.now) && decide ((drawFree s).1 % 2 = 1), (drawFree s).2)

/-- The write of 1 to DRV_CLR where the bridge of the leg is SEALED or the leg is in none (R246). A fault of the same tick stays:
the die is in FAULT with the new cause (R249). -/
def clearDie (k : Nat) (s : State) : State :=
  if dieState s k ≠ 2 ∨ (s.die k).faultAt = s.now then s
  else
    match (s.die k).again.filter (fun a => decide (a.1 = s.now)) with
    | some (_, cause) => causeEvents k cause (s.wr R.DRV_STATUS.FAULT_CAUSE k cause)
    | none =>
      let c := causeGone k s
      if c.1 then (c.2.wr R.DRV_STATUS.STATE k 1).clear R.DRV_STATUS.FAULT_CAUSE k else c.2

/-! ### Status frames (R228, R359) -/

/-- The Shutter state of a frame judged against the line (R359): the third consecutive difference stops the command frames
to both dies of the leg and latches SHT_FAULT. -/
def judgeShutter (k : Nat) (asserted : Bool) (s : State) : State :=
  match bridgeOfLeg s (k / 2) with
  | none => s
  | some b =>
    let right := asserted == !(s.br b).open_
    let bad := if right then 0 else min 3 ((s.die k).shtBad + 1)
    let stuck := if !right then some asserted else (s.die k).shtStuck.filter (· == asserted)
    let s1 := s.setDie k { s.die k with shtBad := bad, shtStuck := stuck }
    if bad = 3 ∧ (s.die k).shtBad < 3 then
      let lo := 2 * (k / 2)
      let s2 := s1.setDie lo { s1.die lo with stopped := true }
      shutterFails b (s2.setDie (lo + 1) { s2.die (lo + 1) with stopped := true })
    else s1

/-- A gate is reported on: an on-interval begins. -/
def gateRose (k : Nat) (s : State) : State :=
  if s.flag R.DRV_STATUS.GATE k then s
  else
    let s1 := (s.raise R.DRV_STATUS.GATE k).setDie k { s.die k with onAt := s.now, ocSeen := false, scSeen := false, fell := false }
    s1.setLeg (k / 2) { s1.leg (k / 2) with xchk := false }

/-- DIE_STATUS_FRAME: gate state, Shutter state, and the levels of the two comparators; the warning of R240 ends with its level
and with the gate. The cross-check judges the states reported up to here. A frame shows that the link stands. -/
def dieStatusFrame (k : Nat) (f : DieFrame) (s : State) : State :=
  if diePresent s k = false then s
  else
    let s1 := crossCheck (k / 2) s
    let s2 := if f.gate then gateRose k s1 else gateFell k s1
    let s3 := s2.setDie k { s2.die k with linkLost := false, scHigh := f.sc }
    judgeShutter k f.shutter (if f.oc then s3 else s3.clear R.DRV_STATUS.OC_ACT k)

def execDieStatusFrame (switch : Nat) (frame : DieFrame) (s : State) : Host.Outcome State Fault Refusal :=
  .next (dieStatusFrame switch frame s)

/-! ### Switching times (R231 to R234) -/

/-- A measurement is valid (R231): both crossings fall within TMEAS_MAX of the edge's start, and the time fits its field. -/
def edgeValid (s : State) (k : Nat) (e : EdgeMeas) : Bool :=
  e.valid && decide (1 ≤ e.time) && decide (e.time ≤ min 16383 (s.rd R.DRV_DRAIN.TMEAS_MAX k * 256))

/-- The word of an edge (R232). -/
def edgeWord (on_ valid : Bool) (time : Nat) : Nat := 32768 * b2n on_ + (if valid then time else 16384)

/-- A segment count minus 1 after a measurement (R233); with ADAPT_EN 0 it is the initial one at every edge. -/
def adapted (adapt valid : Bool) (n init lo hi tgt band t : Nat) : Nat :=
  if !adapt then init
  else if !valid then n
  else if tgt + band < t then min (n + 1) hi
  else if t + band < tgt then max (n - 1) lo
  else n

/-- The segment counts after an edge of switch `k` (R233). -/
def adaptEdge (k : Nat) (on_ valid : Bool) (t : Nat) (s : State) : State :=
  let adapt := s.flag R.DRV_CFG.ADAPT_EN k
  let band := s.rd R.DRV_DRAIN.DBAND k
  if on_ then
    s.wr R.DRV_STATUS.NON_M1 k (adapted adapt valid (s.rd R.DRV_STATUS.NON_M1 k) (s.rd R.DRV_LOUVRE.ON_INIT_M1 k)
      (s.rd R.DRV_LOUVRE.ON_MIN_M1 k) (s.rd R.DRV_LOUVRE.ON_MAX_M1 k) (s.rd R.DRV_TARGET.T_ON_TGT k) band t)
  else
    s.wr R.DRV_STATUS.NOFF_M1 k (adapted adapt valid (s.rd R.DRV_STATUS.NOFF_M1 k) (s.rd R.DRV_LOUVRE.OFF_INIT_M1 k)
      (s.rd R.DRV_LOUVRE.OFF_MIN_M1 k) (s.rd R.DRV_LOUVRE.OFF_MAX_M1 k) (s.rd R.DRV_TARGET.T_OFF_TGT k) band t)

/-- SWITCH_EDGE_MEASUREMENT: the row stands at its edge (log entry 95). The word is written once per edge, and the count of its
direction adapts. A turn-on is made only on a command that reaches the die; one that R241 refuses makes no edge and counts in
UV_HOLD. -/
def switchEdgeMeasurement (k : Nat) (e : EdgeMeas) (s : State) : State :=
  if diePresent s k = false ∨ (e.on ∧ gateCommand s k = false) then s
  else if e.on ∧ supplyLow s k then s.countUp R.DRV_CNT2.UV_HOLD k
  else
    let valid := edgeValid s k e
    let w := edgeWord e.on valid e.time
    let s1 := (crossCheck (k / 2) s).sigWrite (0x080 + k) w
    let s2 := adaptEdge k e.on valid e.time (s1.wr (if e.on then R.DRV_EDGE.LAST_ON else R.DRV_EDGE.LAST_OFF) k w)
    let s3 := if e.on then gateRose k s2 else gateOff k s2
    if valid then s3 else s3.countUp R.DRV_CNT2.INVALID k

def execSwitchEdgeMeasurement (switch : Nat) (edge : EdgeMeas) (s : State) : Host.Outcome State Fault Refusal :=
  .next (switchEdgeMeasurement switch edge s)

/-- The counts after a start and after a write of DRV_LOUVRE (R234). -/
def louvreInit (k : Nat) (s : State) : State :=
  (s.wr R.DRV_STATUS.NON_M1 k (s.rd R.DRV_LOUVRE.ON_INIT_M1 k)).wr R.DRV_STATUS.NOFF_M1 k (s.rd R.DRV_LOUVRE.OFF_INIT_M1 k)

end Sys2Proof.Machine
end

