-- ==== Sys2Proof/Machine/Measurement.lean ====
section
/-! DEFINITION. Conversions (R251 to R259, R264, R454), twin comparisons (R265, R266) and system calibration
(R270 to R274). -/

namespace Sys2Proof.Machine

open Sys2Proof

/-! ### Triggers (R256 to R258) -/

/-- TRIG_EDGE selects carrier edge `h`: 1 peaks, 2 valleys, 3 both (R215). -/
def trigEdge (sel h : Nat) : Bool := if h % 2 = 1 then decide (sel % 2 = 1) else decide (2 ≤ sel)

/-- The triggers of leg `n` of bridge `b` about the present carrier period, ticks: TRIG_DLY after the selected edges of the leg's
own carrier, as the present period puts those to come (R195, R215). -/
def legTriggers (s : State) (b n : Nat) : List Nat :=
  let from_ := 2 * (s.br b).valN - 2
  ((List.range 10).filter (fun i => decide (2 ≤ from_ + i) && trigEdge (s.rd R.SH_ADC.TRIG_EDGE n) (from_ + i))).map (fun i =>
    tickOf (64 * edgeTick s b (from_ + i) + phaseOfs s b n) + s.rd R.SH_ADC.TRIG_DLY n)

/-- The tick of the trigger that comes to converter `c`: the first one from here on that has not come yet. With TRIG_LEG 0xFF
triggers come every 100 µs on the timebase; a leg issues them while it belongs to a bridge with a valid configuration
(R215, R256). -/
def triggerTick (s : State) (c : Nat) : Option Nat :=
  let fresh := fun (t : Nat) => decide (s.now ≤ t) && decide ((s.conv c).trigAt ≠ some t)
  let n := s.rd R.CV_CFG.TRIG_LEG c
  if n = 0xFF then
    let t := (s.now + 39999) / 40000 * 40000
    some (if fresh t then t else t + 40000)
  else
    match convOwner s c with
    | none => none
    | some b =>
      if s.rd R.SH_ADC.TRIG_EDGE n = 0 ∨ presentPer s b = 0 then none
      else some (((legTriggers s b n).find? fresh).getD s.now)

/-- A list runs on converter `c`: a slot is still to come of the list as it now stands (R256). -/
def listRuns (s : State) (c : Nat) : Bool :=
  match (s.conv c).slot with | some k => decide (k < (slotList s c).length) | none => false

/-- CONVERTER_TRIGGER: a sequenced converter starts its list; during a running list the trigger is ignored (R258). -/
def converterTrigger (c : Nat) (s : State) : State :=
  if 15 < c ∨ convLive s c = false ∨ isContinuous s c ∨ slotList s c = [] then s
  else
    match triggerTick s c with
    | none => s
    | some t =>
      let s1 := reachTime t s
      if listRuns s c then (s1.setConv c { s.conv c with trigAt := some t }).countUp R.CV_CNT.OVERLAP c
      else s1.setConv c { s.conv c with slot := some 0, trig := t, trigAt := some t }

def execConverterTrigger (conv : Nat) (s : State) : Host.Outcome State Fault Refusal := .next (converterTrigger conv s)

/-! ### Calibrated samples (R252, R264) -/

/-- The calibrated sample before saturation (R252), rounded once under R83. -/
def calibrated (ofs gain raw : Int) : Int := roundHalfUp ((gain : Rat) * (16 * raw - ofs : Int) / (16 * 2 ^ 30))

/-- A code held to the Q15 range. -/
def holdQ15 (y : Int) : Int := clampInt (-32768) 32767 y

/-- WC_OUT of input `n` at a calibrated sample (R264). -/
def windowOut (s : State) (n : Nat) (y : Int) : Bool :=
  decide (y < toSigned 16 (s.rd R.IN_WC.WC_LO n)) || decide (toSigned 16 (s.rd R.IN_WC.WC_HI n) < y)

/-- The window comparator of input `n` at a calibrated result (R264). -/
def windowCompare (n : Nat) (y : Int) (s : State) : State :=
  let out := windowOut s n y
  let s1 := s.wr R.IN_STATUS.WC_OUT n (b2n out)
  if out && !s.flag R.IN_STATUS.WC_OUT n then s1.countUp R.IN_CNT.WC_CNT n else s1

/-- A result enters the average that runs on its input (R272): results of sequenced converters, up to N and within 10 s. -/
def averageTake (c n : Nat) (raw : Int) (s : State) : State :=
  if isContinuous s c then s
  else
    let take := fun (r : CalRun) => if r.n ≤ r.got ∨ r.start + 10 * tSec < s.now then r else { r with
      got := r.got + 1, sum := r.sum + raw
      lo := if r.got = 0 then raw else min r.lo raw
      hi := if r.got = 0 then raw else max r.hi raw
      clip := r.clip || decide (raw = 32767) || decide (raw = -32768) }
    { s with cal := { s.cal with runs := s.cal.runs.map (fun e => if e.1 = n then (e.1, take e.2) else e) } }

/-- OFS and GAIN of input `n` for a conversion sampled at `t`: those in force before a store of that tick or a later one (R275). -/
def calPair (s : State) (n t : Nat) : Nat × Nat :=
  match (s.cal.old.find? (fun e => e.1 = n)).filter (fun e => decide (t ≤ e.2.1)) with
  | some e => e.2.2
  | none => (s.rd R.IN_OFS.OFS n, s.rd R.IN_GAIN.GAIN n)

/-- The other converter of the pair, higher-numbered, has already written slot code `k` of the same sampling instant (R261). -/
def higherWrote (s : State) (c k t : Nat) : Option Bool :=
  if c % 2 = 0 then
    match (s.conv (c + 1)).last with | some (t', k', w) => if t' = t ∧ k' = k then some w else none | none => none
  else none

/-- The write of the lower-numbered converter that comes to the model after that of the higher: the board and the comparator are
left as if it had come first (R261). -/
def lowerLate (n : Nat) (y : Int) (before : Bool) (s : State) : State :=
  let w := s.sig (0x010 + n)
  let out := s.flag R.IN_STATUS.WC_OUT n
  let rises := fun (a b : Bool) => b2n (!a && b)
  let s1 := s.sigWrite (0x010 + n) w.val w.sat
  if rises before out < rises before (windowOut s n y) + rises (windowOut s n y) out then s1.countUp R.IN_CNT.WC_CNT n else s1

/-- A result of external input `n`, slot code `k`, sampled at `t` (R252, R261). -/
def inputResult (c n k t : Nat) (raw : Int) (s : State) : State :=
  let pair := calPair s n t
  let y := calibrated (toSigned 20 pair.1) (toSigned 32 pair.2) raw
  let v := holdQ15 y
  let sat := decide (v ≠ y) || decide (raw = 32767) || decide (raw = -32768)
  averageTake c n raw (match higherWrote s c k t with
    | some before => lowerLate n v before s
    | none =>
      let s1 := s.setConv c { s.conv c with last := some (t, (k, s.flag R.IN_STATUS.WC_OUT n)) }
      windowCompare n v ((s1.wr R.IN_STATUS.RAW n (ofSigned 16 raw)).sigWrite (0x010 + n) (ofSigned 16 v) sat))

/-! ### Twin comparison (R265, R266) -/

/-- The factory code of the reference of pair `p` (R265). -/
def refNom (p : Nat) : Int := toSigned 16 (Config.refNom p)

/-- A code is off reference. -/
def offReference (p : Nat) (raw : Int) : Bool := decide (32 < (raw - refNom p).natAbs)

/-- The run of off-reference codes of a converter after a comparison. -/
def countOff (c p : Nat) (raw : Int) (s : State) : State :=
  s.setConv c { s.conv c with
    chk := none
    offN := if s.rd R.TW_CFG.CHK_SRC p = 0x10 ∧ offReference p raw then (s.conv c).offN + 1 else 0 }

/-- FAIL and SUSP after a comparison (R266). -/
def judgePair (p : Nat) (s : State) : State :=
  let n := s.rd R.TW_CFG.CHK_N p
  let a := (s.conv (2 * p)).offN
  let b := (s.conv (2 * p + 1)).offN
  if n ≤ (s.pair p).badN ∨ n ≤ a ∨ n ≤ b then
    let s1 := s.raise R.TW_STATUS.FAIL p
    let s2 := if 0 < a then s1.raise R.TW_STATUS.SUSP_A p else s1
    let s3 := if 0 < b then s2.raise R.TW_STATUS.SUSP_B p else s2
    if s.flag R.TW_STATUS.FAIL p then s3
    else logEvent 0x0033 p (le 2 (s.rd R.TW_STATUS.DIFF p)) (s3.raise R.CV_EVENT.TWIN_EV)
  else s

/-- A comparison of pair `p`: the raw codes of its two converters. -/
def comparePair (p : Nat) (a b : Int) (s : State) : State :=
  let bad := decide (s.rd R.TW_CFG.CHK_TOL p < (a - b).natAbs)
  let s1 := (s.wr R.TW_STATUS.DIFF p (ofSigned 16 (a - b))).setPair p
    ⟨if bad then (s.pair p).badN + 1 else 0, !bad⟩
  let s2 := if bad then s1.countUp R.TW_CNT.MISMATCH p else s1
  judgePair p (countOff (2 * p + 1) p b (countOff (2 * p) p a s2))

/-- A check result: compared with its partner's, where the two sampling instants lie within CHK_WIN. A result whose partner
did not come is counted in SKIP when the next one shows it (DEDUCED, log entry 27). -/
def checkResult (c t : Nat) (raw : Int) (s : State) : State :=
  let p := c / 2
  let o := 2 * p + (1 - c % 2)
  let s0 := if (s.conv c).chk.isSome then s.countUp R.TW_CNT.SKIP p else s
  match (s.conv o).chk with
  | some (t', raw') =>
    if max t t' - min t t' ≤ s.rd R.TW_CFG.CHK_WIN p ∧ convLive s o then
      comparePair p (if c % 2 = 0 then raw else raw') (if c % 2 = 0 then raw' else raw) s0
    else ((s0.countUp R.TW_CNT.SKIP p).setConv o { s0.conv o with chk := none }).setConv c
      { s0.conv c with chk := some (t, raw) }
  | none => s0.setConv c { s0.conv c with chk := some (t, raw) }

/-- The write of 1 to TW_CLR (R266). -/
def clearTwin (p : Nat) (s : State) : State :=
  let sealed_ := match pairOwner s p with | some b => decide (modeOf s b = 0) | none => true
  if sealed_ && (s.pair p).agreed then
    ((s.clear R.TW_STATUS.FAIL p).clear R.TW_STATUS.SUSP_A p).clear R.TW_STATUS.SUSP_B p
  else s

/-! ### CONVERSION_RESULT -/

/-- The slot code converted, its sampling instant, and the state at its result with the converter moved on: in continuous mode
once every TCONV, in a list slot after slot (R256, R257, R259). A rise of the comparator 4 ticks earlier that trips a leg is that
trip's (`windowRises`). -/
def resultSlot (c : Nat) (s : State) : Option (Nat × Nat × State) :=
  (resultDue s c).map (fun (code, due) =>
    let v := s.conv c
    let s1 := reachTime due s
    if isContinuous s c then (code, s1.now - (tConv s c + 8), s1.setConv c { v with trig := s1.now })
    else
      let next := v.slot.bind (fun k => if k + 1 < (slotList s c).length then some (k + 1) else none)
      (code, due - (tConv s c + 8), s1.setConv c { v with slot := next }))

/-- The capture units in MODE 2 that record converter `c` (R277, R278); `lost` is the mask of the units whose FIFO is full (R292). -/
def captureResult (c raw lost : Nat) (s : State) : State :=
  s.each ((List.range 8).filter (fun u => capMode s u = 2 ∧ s.rd R.CAP_CFG.CV u = c ∧ takesRows s u))
    (fun s u => takeRow u (le 2 raw) (bitAt lost u) s)

/-- CONVERSION_RESULT: the raw code of the slot that converter `c` has converted. -/
def conversionResult (c : Nat) (r : ConvResult) (s : State) : State :=
  if 15 < c ∨ convLive s c = false then s
  else
    match resultSlot c s with
    | none => s
    | some (code, t, s1) =>
      let s2 := s1.wr R.CV_STATUS.LAST c r.raw
      let x := toSigned 16 r.raw
      if code = 0x20 then checkResult c t x s2
      else captureResult c r.raw r.lost
        (match codeInput c code with
         | some n => inputResult c n code t x s2
         | none => match codeSignal c code with
           | some i => s2.sigWrite i (Config.diagCode (code - 0x10) r.raw)
           | none => s2)

def execConversionResult (conv : Nat) (result : ConvResult) (s : State) : Host.Outcome State Fault Refusal :=
  .next (conversionResult conv result s)

/-- AUTOZERO: in the gap between lists it shows nowhere; in continuous mode the next result follows 20 ticks later (R454). -/
def autozero (c : Nat) (s : State) : State :=
  if c < 16 ∧ convLive s c ∧ isContinuous s c ∧ controlUp s then s.setConv c { s.conv c with trig := (s.conv c).trig + 20 } else s

def execAutozero (conv : Nat) (s : State) : Host.Outcome State Fault Refusal := .next (autozero conv s)

/-! ### CAL_ZERO and CAL_FULL (R271, R272) -/

/-- The owner of input `n` is in modes 2 to 5. -/
def ownerWorks (s : State) (n : Nat) : Bool :=
  match inputOwner s n with | some b => decide (2 ≤ modeOf s b) | none => false

/-- Orders 2 to 5 of R271. -/
def calStart (h : Hdr) (op n log2n : Nat) (full : Option Int) (s : State) : Res :=
  if ownerWorks s n then refuse stWrongMode s
  else if (calRun s n).isSome ∨ s.cal.store.isSome then refuse stBusy s
  else if (inputConvs s n).any (fun c => convLive s c && !isContinuous s c) = false then refuse stNoResource s
  else
    let run : CalRun := { full := full, n := 2 ^ log2n, start := s.now }
    let s1 := { s with cal := { s.cal with runs := s.cal.runs ++ [(n, run)] } }
    ⟨stAccepted, [], none, beginRun op h.seq n (s1.raise R.IN_STATUS.CAL_BUSY n)⟩

def calZeroBody (h : Hdr) (n log2n : Nat) (s : State) : Res :=
  if 63 < n ∨ log2n < 4 ∨ 16 < log2n then refuse stBadParam s else calStart h 0x0601 n log2n none s

def execCalZero (h : Hdr) (input log2n : Nat) (s : State) : Host.Outcome State Fault Refusal :=
  .next (acceptCmd h 0x0601 (le 1 input ++ le 1 log2n) (calZeroBody h input log2n) s)

def calFullBody (h : Hdr) (n log2n refq : Nat) (s : State) : Res :=
  if 63 < n ∨ log2n < 4 ∨ 16 < log2n ∨ refq % 65536 = 0 then refuse stBadParam s
  else calStart h 0x0602 n log2n (some (toSigned 16 refq)) s

def execCalFull (h : Hdr) (input log2n refq : Nat) (s : State) : Host.Outcome State Fault Refusal :=
  .next (acceptCmd h 0x0602 (le 1 input ++ le 1 log2n ++ le 2 refq) (calFullBody h input log2n refq) s)

/-- The mean in sixteenths of a raw LSB (R272). -/
def m16 (r : CalRun) : Int := roundHalfUp ((16 * r.sum : Int) / (r.n : Rat))

/-- The offset a gain is computed with. -/
def calOffset (s : State) (n : Nat) : Int :=
  toSigned 20 (if s.flag R.IN_STATUS.CAND_OFS n then s.rd R.IN_NEW_OFS.OFS n else s.rd R.IN_OFS.OFS n)

/-- The candidate gain of R272, where the mean differs from the offset. -/
def candGain (refq d : Int) : Int := roundHalfUp ((2 ^ 34 * refq : Int) / (d : Rat))

/-- The first failing check of R272; 0 none. -/
def calCheck (s : State) (n : Nat) (r : CalRun) : Nat :=
  let d := m16 r - calOffset s n
  if r.got < r.n then 1
  else if 1024 < r.hi - r.lo then 2
  else if r.clip then 3
  else match r.full with
    | none => if 65536 < (m16 r).natAbs then 4 else 0
    | some q =>
      if d.natAbs < 16384 then 5
      else if (candGain q d).natAbs < 2 ^ 28 ∨ 2 ^ 31 < (candGain q d).natAbs then 6
      else 0

/-- The candidates a passed average sets: a gain of exactly 2 is held to the greatest code of format C (log entry 28). -/
def setCandidates (n : Nat) (r : CalRun) (s : State) : State :=
  match r.full with
  | none => ((s.wr R.IN_NEW_OFS.OFS n (ofSigned 20 (m16 r))).raise R.IN_STATUS.CAND_OFS n).clear R.IN_STATUS.CAND_GAIN n
    |>.clear R.IN_NEW_GAIN.GAIN n
  | some q =>
    let g := clampInt (-2147483648) 2147483647 (candGain q (m16 r - calOffset s n))
    (s.wr R.IN_NEW_GAIN.GAIN n (ofSigned 32 g)).raise R.IN_STATUS.CAND_GAIN n

/-- CAL_AVERAGE_END: after N results, or 10 s after the command (R272). -/
def calAverageEnd (n : Nat) (s : State) : State :=
  match calRun s n with
  | none => s
  | some r =>
    let s1 := if r.got < r.n then reachTime (r.start + 10 * tSec) s else s
    let e := calCheck s1 n r
    endAverage n e (if e = 0 then setCandidates n r s1 else s1)

def execCalAverageEnd (input : Nat) (s : State) : Host.Outcome State Fault Refusal := .next (calAverageEnd input s)

/-! ### CAL_STORE (R273, R274) -/

/-- Input `n` holds a candidate. -/
def hasCandidate (s : State) (n : Nat) : Bool := s.flag R.IN_STATUS.CAND_OFS n || s.flag R.IN_STATUS.CAND_GAIN n

def calStoreChecks (h : Hdr) (mask : Nat) (s : State) : Res :=
  let ins := maskBits 64 mask
  if ins.any (fun n => !hasCandidate s n) then refuse stBadParam s
  else if ins.any (ownerWorks s) then refuse stWrongMode s
  else if s.cal.store.isSome ∨ ins.any (fun n => (calRun s n).isSome) then refuse stBusy s
  else
    let s1 := flashBegin 2 s
    ⟨stAccepted, [], none, beginRun 0x0603 h.seq 0 { s1 with cal := { s1.cal with store := some ins } }⟩

def calStoreBody (h : Hdr) (mask : Nat) (s : State) : Res :=
  withAuth h 0x0603 (le 8 mask) .any s (calStoreChecks h mask)

def execCalStore (h : Hdr) (mask : Nat) (s : State) : Host.Outcome State Fault Refusal :=
  .next (acceptCmd h 0x0603 (le 8 mask) (calStoreBody h mask) s)

/-- The candidates of an input cleared. -/
def dropCandidates (n : Nat) (s : State) : State :=
  s |>.clear R.IN_NEW_OFS.OFS n |>.clear R.IN_NEW_GAIN.GAIN n |>.clear R.IN_STATUS.CAND_OFS n
    |>.clear R.IN_STATUS.CAND_GAIN n

/-- The candidates of an input come into force for the conversions sampled after this tick (R273, R275). -/
def putCandidates (n : Nat) (s0 : State) : State :=
  let old := (n, (s0.now, (s0.rd R.IN_OFS.OFS n, s0.rd R.IN_GAIN.GAIN n)))
  let s := { s0 with cal := { s0.cal with old := old :: s0.cal.old.filter (fun e => e.1 != n) } }
  let s1 := if s.flag R.IN_STATUS.CAND_OFS n then s.wr R.IN_OFS.OFS n (s.rd R.IN_NEW_OFS.OFS n) else s
  let s2 := if s.flag R.IN_STATUS.CAND_GAIN n then
      (s1.wr R.IN_GAIN.GAIN n (s1.rd R.IN_NEW_GAIN.GAIN n)).raise R.IN_STATUS.CAL_OK n
    else s1
  dropCandidates n (s2.clear R.IN_STATUS.CAL_ERR n)

/-- The calibration in force of every input, as a record holds it. -/
def calValues (s : State) : List (Nat × (Nat × Nat × Bool)) :=
  (List.range 64).map (fun n => (n, (s.rd R.IN_OFS.OFS n, s.rd R.IN_GAIN.GAIN n, s.flag R.IN_STATUS.CAL_OK n)))

/-- CAL_STORE_DONE: the record is written, or the write fails (R273, R274); a write that waits for the flash has not ended
(R457). -/
def calStoreDone (ok : Bool) (s : State) : State :=
  match s.cal.store with
  | none => s
  | some ins =>
    if flashNow s ≠ some 2 then s else
    let s1 := settleResync (ringWrite 3 { s with cal := { s.cal with store := none } })
    if ok then
      let s2 := s1.each ins (fun s n => putCandidates n s)
      let rcd : CalRec := { gen := (match s2.cal.copies with | c :: _ => c.gen + 1 | [] => 1), vals := calValues s2 }
      endRun 0x0603 0 1 (logEvent 0x0051 0 (le 8 (bitsMask ins))
        { s2 with cal := { s2.cal with copies := rcd :: (s2.cal.copies.filter (fun c => c.ok)).take 1 } })
    else endRun 0x0603 0 2 (s1.each ins (fun s n => s.wr R.IN_STATUS.CAL_ERR n 8))

def execCalStoreDone (ok : Bool) (s : State) : Host.Outcome State Fault Refusal := .next (calStoreDone ok s)

/-! ### CAL_DISCARD and CAL_READ (R270) -/

def calDiscardBody (mask : Nat) (s : State) : Res := done (s.each (maskBits 64 mask) (fun s n => dropCandidates n s))

def execCalDiscard (h : Hdr) (mask : Nat) (s : State) : Host.Outcome State Fault Refusal :=
  .next (acceptCmd h 0x0604 (le 8 mask) (calDiscardBody mask) s)

def calReadBody (n : Nat) (s : State) : Res :=
  if 63 < n then refuse stBadParam s
  else
    let ofs := fun (v : Nat) => le 4 (ofSigned 32 (toSigned 20 v))
    doneWith (ofs (s.rd R.IN_OFS.OFS n) ++ le 4 (s.rd R.IN_GAIN.GAIN n) ++ ofs (s.rd R.IN_NEW_OFS.OFS n)
      ++ le 4 (s.rd R.IN_NEW_GAIN.GAIN n) ++ le 4 (s.reg (A.IN_STATUS + 0x20 * n)).toNat) s

def execCalRead (h : Hdr) (input : Nat) (s : State) : Host.Outcome State Fault Refusal :=
  .next (acceptCmd h 0x0605 (le 1 input) (calReadBody input) s)

end Sys2Proof.Machine
end

