-- ==== Sys2Proof/Machine/HostLink.lean ====
section
/-! DEFINITION. The two transports of the host port: SPI transactions (R312 to R316) and CAN segments (R318, R319). -/

namespace Sys2Proof.Machine

open Sys2Proof

/-! ### Deliveries -/

/-- A packet that finds a full receive queue is discarded and counted (R314, R318). -/
def overflow (s : State) : State := (s.countUp R.VG_COUNT2.RX_OVF).raise R.VG_EVENT.RX_OVF_EV

/-- Bytes delivered as one packet to a receive queue of two. -/
def deliver (can : Bool) (bytes : List Byte) (s : State) : State :=
  if 2 ≤ (s.transport can).rx.length then overflow s
  else s.setTransport can { s.transport can with rx := (s.transport can).rx ++ [⟨s.now, bytes⟩] }

/-! ### SPI (R313 to R316) -/

/-- What the port shifted out in the last transaction. -/
def spiShow (bytes : List Byte) (s : State) : State := { s with host := { s.host with spiOut := bytes } }

/-- A PKT_WRITE of either width; before the option image is applied the port is high-impedance. -/
def spiWrite (packet : List Byte) (s : State) : State := if s.host.serving then spiShow [] (deliver false packet s) else s

def execPktWrite (packet : List Byte) (s : State) : Host.Outcome State Fault Refusal :=
  .next (spiWrite packet (expireHeld s))

def execPktWriteQ (packet : List Byte) (s : State) : Host.Outcome State Fault Refusal :=
  .next (spiWrite packet (expireHeld s))

/-- A PKT_READ of either width that clocks out `n` bytes: the oldest reply, 0x00 beyond it; the reply leaves the queue once
its last byte has been clocked out (R315). -/
def spiRead (n : Nat) (s : State) : State :=
  if s.host.serving = false then spiShow [] s
  else
    match s.host.spi.rp with
    | [] => spiShow (List.replicate n 0) s
    | r :: rest =>
      let s1 := spiShow (padTo n (r.take n)) s
      if r.length ≤ n then s1.setTransport false { s1.transport false with rp := rest } else s1

def execPktRead (clocked : Nat) (s : State) : Host.Outcome State Fault Refusal := .next (spiRead clocked (expireHeld s))

def execPktReadQ (clocked : Nat) (s : State) : Host.Outcome State Fault Refusal := .next (spiRead clocked (expireHeld s))

/-- A packet from SPI is being executed: its reply is held back (R74, R209). -/
def rxBusy (s : State) : Bool := match s.host.held with | some r => !r.can | none => false

/-- The status word (R316). -/
def statusWord (s : State) : List Byte :=
  let t := s.host.spi
  le 1 (0xA0 + 8 * b2n (attn s) + 4 * b2n (decide (t.rx.length < 2)) + 2 * b2n (decide (t.rp ≠ [])) + b2n (rxBusy s))
    ++ le 1 t.rp.length ++ le 2 (match t.rp with | r :: _ => r.length | [] => 0)

/-- STATUS: the status word, nothing while the port is high-impedance. -/
def spiStatus (s : State) : State := spiShow (if s.host.serving then statusWord s else []) s

def execStatus (s : State) : Host.Outcome State Fault Refusal := .next (spiStatus (expireHeld s))

/-- The instruction bytes of R313. -/
def knownInstruction (b : Byte) : Bool := b ∈ [0x02, 0x32, 0x0B, 0x6B, 0x05]

/-- BAD_INSTRUCTION: no effect but BAD_INS; nothing is driven (R313). -/
def badInstruction (b : Byte) (s : State) : State :=
  if s.host.serving = false ∨ knownInstruction b then s else spiShow [] (s.countUp R.VG_COUNT2.BAD_INS)

def execBadInstruction (byte : Byte) (s : State) : Host.Outcome State Fault Refusal := .next (badInstruction byte s)

/-! ### CAN transport (R318, R319) -/

/-! ### Telemetry streams (R460) -/

/-- Stream `k`. -/
def stream (s : State) (k : Nat) : Stream := sget (fun _ => ({} : Stream)) s.bg.streams k

/-- Stream `k` replaced; TLM_STATUS shows the streams configured and running. -/
def setStream (k : Nat) (x : Stream) (s : State) : State :=
  { s with bg := { s.bg with streams := sput (fun _ => ({} : Stream)) s.bg.streams k x } }
    |>.putBit R.TLM_STATUS.CONFIGURED k x.set |>.putBit R.TLM_STATUS.RUNNING k x.on_

/-- The masked streams stop. -/
def stopStreams (ks : List Nat) (s : State) : State :=
  s.each ks (fun s k => if (stream s k).on_ then setStream k { stream s k with on_ := false } s else s)

/-- The running streams of the CAN transport stop. -/
def stopAllCan (s : State) : State := stopStreams ((List.range 8).filter (fun k => (stream s k).can)) s

/-- The running CAN streams stop where CAN_ON has fallen (R460). -/
def stopCanStreams (s : State) : State := if canOn s then s else stopAllCan s

/-! ### Segments (R318) -/

/-- The controller that carries the transport. -/
def canSel (s : State) : Nat := s.rd R.VG_CAN_CFG.CAN_SEL

/-- Controller `c` takes part in the traffic of its bus (R337). -/
def canOnBus (s : State) (c : Nat) : Bool :=
  decide (s.rd R.CF_STATUS.STATE c = 2 ∨ s.rd R.CF_STATUS.STATE c = 3)

/-- A frame carries CMD_ID, of which an 11-bit identifier uses bits 10:0 (R333). -/
def isCommandFrame (s : State) (f : CanFrame) : Bool :=
  f.ide == s.flag R.VG_CAN_CFG.IDE &&
    decide (f.id = if f.ide then s.rd R.VG_CAN_CMD_ID.ID else s.rd R.VG_CAN_CMD_ID.ID % 2048)

/-- The packet in reception discarded. -/
def dropSegments (s : State) : State := { s with host := { s.host with seg := none } }

/-- A packet discarded in reception is answered BAD_FRAME under R307, with SEQ and OPCODE from segment 0: its bytes so far
go to the receive queue, where they fail check 1. It is no complete packet, so a full queue does not discard it (log
entry 123). -/
def abandonSegments (r : SegRx) (s0 : State) : State :=
  let s := dropSegments s0
  s.setTransport true { s.transport true with rx := (s.transport true).rx ++ [⟨s.now, r.bytes⟩] }

/-- The bytes received so far, judged after a segment of `n` data bytes: complete under LENGTH; cut short where the segment
is not full; otherwise the next segment is awaited. -/
def judgeSegments (r : SegRx) (n : Nat) (s : State) : State :=
  let len := leAt r.bytes 1 2
  if 3 ≤ r.bytes.length ∧ len ≤ r.bytes.length then deliver true (r.bytes.take (max len 6)) (dropSegments s)
  else if n < 64 ∨ 1280 < len then abandonSegments r s
  else { s with host := { s.host with seg := some r } }

/-- The gap before this segment is longer than SEG_TO ms: the packet in reception is discarded (R318). -/
def expireSegments (s : State) : State :=
  match s.host.seg with
  | some r => if r.at_ + s.rd R.VG_CAN_CFG.SEG_TO * 400000 < s.now then abandonSegments r s else s
  | none => s

/-- A segment frame with CMD_ID. -/
def segmentFrame (f : CanFrame) (s0 : State) : State :=
  if f.fdf = false ∨ f.rtr then s0.countUp R.VG_COUNT.FRAME_ERR
  else
    let s := expireSegments s0
    let k := byteAt f.data 0
    if k = 0 then judgeSegments ⟨f.data.drop 1, 1, s.now⟩ f.data.length (dropSegments s)
    else
      match s.host.seg with
      | none => s
      | some r =>
        if k = r.next then judgeSegments ⟨r.bytes ++ f.data.drop 1, r.next + 1, s.now⟩ f.data.length s
        else abandonSegments r s

/-- SEGMENT_TIMEOUT: a gap of more than SEG_TO ms discards the packet in reception (R318). -/
def segmentTimeout (s : State) : State :=
  match s.host.seg with
  | none => s
  | some r => abandonSegments r (reachTime (r.at_ + s.rd R.VG_CAN_CFG.SEG_TO * 400000 + 1) s)

def execSegmentTimeout (s : State) : Host.Outcome State Fault Refusal := .next (segmentTimeout s)

/-! ### The segment frames of a reply (R318) -/

/-- The data lengths a frame can have, in order. -/
def fdLengths : List Nat := [0, 1, 2, 3, 4, 5, 6, 7, 8, 12, 16, 20, 24, 32, 48, 64]

/-- The segments a packet of `n` bytes takes. -/
def segCount (n : Nat) : Nat := (n + 62) / 63

/-- Segment `k` of a packet: its index, the packet bytes from 63 × k, and in the last one the padding to the smallest FD data
length that holds them. -/
def segmentData (packet : List Byte) (k : Nat) : List Byte :=
  let body := BitVec.ofNat 8 k :: (packet.drop (63 * k)).take 63
  let n := (fdLengths.find? (fun n => body.length ≤ n)).getD 64
  body ++ (List.range (n - body.length)).map Config.segmentPad

/-- The DLC code of a data length. -/
def lenDlc (n : Nat) : Nat := (fdLengths.findIdx? (fun m => n ≤ m)).getD 15

/-- The next segment frame of the oldest CAN reply, with RSP_ID; none where every segment has been transmitted. -/
def replySegment (s : State) : Option CanFrame :=
  match s.host.can.rp with
  | [] => none
  | r :: _ =>
    if segCount r.length ≤ s.host.segSent then none
    else
      let ide := s.flag R.VG_CAN_CFG.IDE
      let id := s.rd R.VG_CAN_RSP_ID.ID
      let d := segmentData r s.host.segSent
      some ⟨ide, false, true, Config.segmentBrs, decide (s.rd R.CF_STATUS.STATE (canSel s) = 3),
        if ide then id else id % 2048, lenDlc d.length, d⟩

/-- The oldest CAN reply leaves the queue; an abandoned one counts in RP_DROP (R319). -/
def canReplyEnds (sent : Bool) (s : State) : State :=
  match s.host.can.rp with
  | [] => s
  | _ :: rest =>
    let s0 := { s with host := { s.host with segSent := 0 } }
    let s1 := s0.setTransport true { s0.transport true with rp := rest }
    if sent then s1 else s1.countUp R.VG_COUNT2.RP_DROP

end Sys2Proof.Machine
end

