-- ==== Sys2Proof/Machine/Shutter.lean ====
section
/-! DEFINITION. The Sill monitor at work (13_shutter_safety.md): sampling, discrepancy, test pulses, acknowledge, contactor
readback, seal switches, the oscillator and the Shutter test interval; the safety information commands. -/

namespace Sys2Proof.Machine

open Sys2Proof

/-! ### Levels and demands (R368, R370, R372) -/

/-- The accepted levels of an input replaced. -/
def putLevels (i : Nat) (a b : Bool) (s : State) : State :=
  if i = 8 then s.wr R.SF_STATUS.STO_REQ 0 (b2n a + 2 * b2n b)
  else (s.putBit R.SF_INPUTS.SIN (2 * i) a).putBit R.SF_INPUTS.SIN (2 * i + 1) b

/-- One channel at one sample: its new level, its run, and whether a change reverted (R368). A blanked channel holds. -/
def sampleChannel (filt : Nat) (blank acc raw : Bool) (run : Nat) : Bool × Nat × Bool :=
  if blank then (acc, run, false)
  else if raw = acc then (acc, 0, decide (0 < run))
  else if filt ≤ run then (raw, 0, false)
  else (acc, run + 1, false)

/-- The levels that count: a channel whose TP fault is latched counts as safe (R369). -/
def effA (s : State) (i : Nat) : Bool := sinA s i && !(s.sin i).tpA
def effB (s : State) (i : Nat) : Bool := sinB s i && !(s.sin i).tpB

/-- An input samples its channels. -/
def sampleInput (levels i : Nat) (s : State) : State :=
  let x := s.sin i
  let a := sampleChannel (sinFilt s i) x.blankA (sinA s i) (bitAt levels (2 * i)) x.runA
  let b := sampleChannel (sinFilt s i) x.blankB (sinB s i) (bitAt levels (2 * i + 1)) x.runB
  let s1 := (putLevels i a.1 b.1 s).countUp2 R.SF_LOST.LOST 0 i (b2n a.2.2 + b2n b.2.2)
  s1.setSin i { x with runA := a.2.1, runB := b.2.1, seen := x.seen || (a.1 && b.1) }

/-- Both channels of the input are at the run level together, and it has no DISC or TP fault: its demand may be released
(R368, R370 to R372). -/
def runLevel (s : State) (i : Nat) : Bool :=
  effA s i && effB s i && !sinDisc s i && !sinTp s i && (s.sin i).seen

/-- The input demands its function now (R368, R370, R371). -/
def demandNow (s : State) (i : Nat) : Bool := decide (1 ≤ sinFunc s i ∧ sinFunc s i ≤ 3) && !runLevel s i

/-- A demand begins to act; `start` says that it stands from the start and is no detection (R368). -/
def beginDemand (start : Bool) (i : Nat) (s : State) : State :=
  let s1 := s.setSin i { s.sin i with act := some (sinFunc s i, sinBr s i, sinKon s i, s.now) }
  if start then s1
  else safetyLog 1 i (inputBridges s1 i) (inputDetail s1 i)
    ((s1.countUp R.SF_CNT.DEMANDS).raise R.SF_EVENT.DEMAND_EV)

/-- A demand is released (R372): an SCO no longer forces its contactors off. -/
def releaseDemand (i : Nat) (s : State) : State :=
  safetyLog 2 i (inputBridges s i) (inputDetail s i) (noteKon (s.setSin i { s.sin i with act := none, forced := false }))

/-- A demand is detected, or released at once where REL is 0. `ack` releases REL 1 as well. A demand that runs outlives a write of
its input's configuration (R378). -/
def judgeInput (start ack : Bool) (i : Nat) (s : State) : State :=
  match (s.sin i).act with
  | none => if demandNow s i then beginDemand start i s else s
  | some _ =>
    if runLevel s i ∧ (ack ∨ sinRel s i = false) then releaseDemand i s else s

/-- Every input judged, then the functions take effect. -/
def judgeInputs (start ack : Bool) (s : State) : State :=
  applySafety (s.each (List.range 9) (fun s i => judgeInput start ack i s))

/-! ### Acknowledge (R371, R373) -/

/-- The latched faults whose cause is gone clear (R371). -/
def clearFaults (s : State) : State :=
  let s1 := s.each (List.range 9) (fun s i =>
    let x := s.sin i
    if sinTp s i ∧ x.tpOkA ∧ x.tpOkB then
      (if i = 8 then s.clear R.SF_FAULT.STO_TP else s.clearBit R.SF_FAULT.TP i).setSin i { x with tpA := false, tpB := false }
    else s)
  let s2 := s1.each (List.range 4) (fun s k => if reads s k = konOut s k then s.clearBit R.SF_FAULT.KON_FAULT k else s)
  let s3 := if s2.sill.sealOk then s2.clear R.SF_FAULT.SEAL_FAULT else s2
  let s4 := s3.each (List.range 4) (fun s b =>
    if bitAt (s.rd R.SF_FAULT.SHT_FAULT) b ∧ modeOf s b = 0 ∧ shutterTest s b then
      (shutterPasses b (s.clearBit R.SF_FAULT.SHT_FAULT b)).each (switchesOf s b)
        (fun s k => s.setDie k { s.die k with stopped := false })
    else s)
  recode (if 10 ≤ s4.sill.oscOk then s4.clear R.SF_FAULT.OSC_FAULT else s4)

/-- An acknowledge of input `i`. -/
def acknowledge (i : Nat) (s : State) : State :=
  judgeInputs false true (clearFaults (safetyLog 12 i 0 (inputDetail s i) s))

/-- An acknowledge input at a sample: it fires when both channels return to safe after 100 ms to 5 s at the run level
together (R373), counted in samples of 50 µs. A channel that comes back to the run level begins a new press. -/
def ackSample (i : Nat) (s : State) : Bool × State :=
  let x := s.sin i
  if effA s i && effB s i then
    (false, s.setSin i { x with press := if x.mixed then 1 else min 100001 (x.press + 1), idle := 0, mixed := false })
  else if !effA s i && !effB s i then
    let fires := x.armed && decide (2000 ≤ x.press ∧ x.press ≤ 100000) && !sinDisc s i && !sinTp s i
    let idle := min 256 (x.idle + 1)
    (fires, s.setSin i { x with
      press := 0, mixed := false, idle := idle, armed := if fires then false else x.armed || decide (sinFilt s i ≤ idle) })
  else (false, s.setSin i { x with idle := 0, mixed := true })

/-- The acknowledge inputs at a sample. -/
def ackInputs (s : State) : State :=
  s.each ((List.range 8).filter (fun i => sinFunc s i = 4)) (fun s i =>
    let r := ackSample i s
    if r.1 then acknowledge i r.2 else r.2)

/-- SAFETY_INPUT_SAMPLE: `levels` has SINi_A at bit 2i, SINi_B at bit 2i + 1, STO_REQ at bits 16 and 17 (R368). -/
def safetyInputSample (levels : Nat) (s : State) : State :=
  ackInputs (judgeInputs false false (s.each (List.range 9) (fun s i => sampleInput levels i s)))

def execSafetyInputSample (levels : Nat) (s : State) : Host.Outcome State Fault Refusal :=
  .next (safetyInputSample levels s)

/-! ### Discrepancy (R370) -/

/-- The DISC bit of an input set or cleared. -/
def putDisc (i : Nat) (v : Bool) (s : State) : State :=
  if i = 8 then s.wr R.SF_FAULT.STO_DISC 0 (b2n v) else s.putBit R.SF_FAULT.DISC i v

/-- One input at a Sill tick. -/
def discTick (i : Nat) (s : State) : State :=
  let x := s.sin i
  let d := if sinA s i = sinB s i then 0 else x.d + 1
  let s1 := s.setSin i { x with d := d }
  if sinDisc s i then
    if !sinA s i && !sinB s i then s1.setSin i { s1.sin i with discSafe := true }
    else if x.discSafe && sinA s i && sinB s i then
      safetyLog 4 i (inputBridges s i) (inputDetail s i)
        (putDisc i false (s1.setSin i { s1.sin i with discSafe := false }))
    else s1
  else if d = sinDiscT s i + 1 then
    let s2 := putDisc i true (s1.setSin i { s1.sin i with discSafe := false })
    safetyLog 3 i (inputBridges s2 i) (inputDetail s2 i) ((s2.countUp R.SF_CNT.DISC_CNT).raise R.SF_EVENT.FAULT_EV)
  else s1

/-- DISCREPANCY_TICK: a Sill tick (R361, R370). -/
def discrepancyTick (s : State) : State :=
  let s1 := { s with sill := { s.sill with ticks := (s.sill.ticks + 1) % 2 ^ 32 } }
  judgeInputs false false (s1.each (List.range 9) (fun s i => discTick i s))

def execDiscrepancyTick (s : State) : Host.Outcome State Fault Refusal := .next (discrepancyTick s)

/-! ### Test pulses (R369) -/

/-- Channel A, channel B of an input is supplied from output `o` with test pulses. -/
def testsA (s : State) (i o : Nat) : Bool := sinTpEn s i && decide (sinTpA s i = o)
def testsB (s : State) (i o : Nat) : Bool := sinTpEn s i && decide (sinTpB s i = o)

/-- Test-pulse output `o`. -/
def testOut (s : State) (o : Nat) : TestOut := sget (fun _ => ({} : TestOut)) s.sill.tpos o

def setTestOut (o : Nat) (x : TestOut) (s : State) : State :=
  { s with sill := { s.sill with tpos := sput (fun _ => ({} : TestOut)) s.sill.tpos o x } }

/-- A microsecond of the RC oscillator lasts 1 µs less 2 % at the least (R361). -/
def tSillUs : Nat := 392

/-- TPO `o` is in its pulse of TP_W (R369). -/
def inPulse (s : State) (o : Nat) : Bool :=
  match (testOut s o).start with | some t => decide (s.now < t + s.rd R.SF_TP.TP_W * tSillUs) | none => false

/-- The channels that a pulse of their outputs blanks, as TP_EN, TPA and TPB now stand (R369). -/
def blankChannels (s : State) : State :=
  s.each (List.range 9) (fun s i =>
    let on_ := fun (o : Nat) => (testOut s o).start.isSome
    s.setSin i { s.sin i with
      blankA := sinTpEn s i && on_ (sinTpA s i), blankB := sinTpEn s i && on_ (sinTpB s i) })

/-- The Sill tick in which the pulse of output `o` starts: o × TP_PER / 4 past a TP_PER boundary, which is counted from the last
Level 0 or 1 reset (R369; PRESUMED, log entry 129). -/
def pulseTick (s : State) (o : Nat) : Bool :=
  decide (s.sill.ticks % s.rd R.SF_TP.TP_PER = o * s.rd R.SF_TP.TP_PER / 4) && decide ((testOut s o).tick ≠ some s.sill.ticks)

/-- TEST_PULSE: a pulse of the output starts in its Sill tick, and the channels that it supplies are blanked. -/
def testPulse (o : Nat) (s : State) : State :=
  if o < 4 ∧ pulseTick s o ∧ (testOut s o).start = none then
    blankChannels (setTestOut o ⟨some s.now, some s.sill.ticks⟩ s)
  else s

def execTestPulse (output : Nat) (s : State) : Host.Outcome State Fault Refusal := .next (testPulse output s)

/-- An input at the end of the blanking: a channel that read 1 in the last two samples of the pulse latches its TP fault. -/
def blankEndInput (o levels i : Nat) (s : State) : State :=
  let x := s.sin i
  let a := testsA s i o && x.blankA
  let b := testsB s i o && x.blankB
  let badA := a && bitAt levels (2 * i)
  let badB := b && bitAt levels (2 * i + 1)
  let s1 := s.setSin i { x with
    blankA := x.blankA && !a, blankB := x.blankB && !b
    tpA := x.tpA || badA, tpB := x.tpB || badB
    tpOkA := if a then !badA else x.tpOkA, tpOkB := if b then !badB else x.tpOkB }
  if (badA || badB) && !sinTp s i then
    let s2 := if i = 8 then s1.raise R.SF_FAULT.STO_TP else s1.raiseBit R.SF_FAULT.TP i
    safetyLog 5 i (inputBridges s2 i) (inputDetail s2 i) ((s2.countUp R.SF_CNT.TP_CNT).raise R.SF_EVENT.FAULT_EV)
  else s1

/-- TEST_PULSE_BLANK_END: 100 µs after the end of the pulse; `levels` has the channels that read 1 in its last two samples. -/
def testPulseBlankEnd (o levels : Nat) (s : State) : State :=
  match (testOut s o).start with
  | none => s
  | some t =>
    let s1 := setTestOut o { testOut s o with start := none } (reachTime (t + (s.rd R.SF_TP.TP_W + 100) * tSillUs) s)
    judgeInputs false false (s1.each (List.range 9) (fun s i => blankEndInput o levels i s))

def execTestPulseBlankEnd (output levels : Nat) (s : State) : Host.Outcome State Fault Refusal :=
  .next (testPulseBlankEnd output levels s)

/-! ### Contactors (R25, R366, R374) -/

/-- CONTACTOR_READBACK_ACCEPT: 40 equal samples; a site contactor that reads closed in SERVICE or TRACTION seals. -/
def contactorReadbackAccept (k : Nat) (level : Bool) (s : State) : State :=
  if 3 < k then s
  else
    let m := s.sill.krb
    let s1 := noteKon { s with sill := { s.sill with krb := if bitAt m k = level then m else m ^^^ 2 ^ k } }
    s1.each (List.range 4) (fun s b => siteSeal b s)

def execContactorReadbackAccept (kon : Nat) (level : Bool) (s : State) : Host.Outcome State Fault Refusal :=
  .next (contactorReadbackAccept kon level s)

/-- KON_FAULT: readback and output have differed for longer than KRB_T, Sill ticks from the later of the last change of the output and
the onset of the difference (R361, R374). -/
def konFault (k : Nat) (s : State) : State :=
  match (konSeen s k).since with
  | none => s
  | some t =>
    if 3 < k ∨ reads s k = konOut s k ∨ bitAt (s.rd R.SF_FAULT.KON_FAULT) k then s
    else
      faultLatched 6 (9 + k) (bridgesListing s (2 ^ k)) 0
        ((reachTime (t + s.rd R.SF_KON.KRB_T * 392000 + 1) s).raiseBit R.SF_FAULT.KON_FAULT k)

def execKonFault (kon : Nat) (s : State) : Host.Outcome State Fault Refusal := .next (konFault kon s)

/-- SCO_CONTACTOR_FORCE: KOFF_DLY Sill ticks after the Shutter lines were asserted; a Sill tick lasts 1 ms less 2 % at the
least (R361, R366). -/
def scoContactorForce (i : Nat) (s : State) : State :=
  match (s.sin i).act with
  | some (f, _, _, t) =>
    if f = 3 then
      noteKon ((reachTime (t + s.rd R.SF_KON.KOFF_DLY * 392000) s).setSin i { s.sin i with forced := true })
    else s
  | none => s

def execScoContactorForce (input : Nat) (s : State) : Host.Outcome State Fault Refusal := .next (scoContactorForce input s)

/-! ### The interval of the Shutter test (R360) -/

/-- Ticks in an hour. -/
def tHour : Nat := 3600 * tSec

/-- Ticks in modes 2 to 5 since the last passed test. -/
def opTime (s : State) (b : Nat) : Nat :=
  (s.br b).opAcc + (match (s.br b).opFrom with | some t => s.now - t | none => 0)

/-- `s` once `hours` of operation of the bridge have passed, where it operates. -/
def reachOp (b hours : Nat) (s : State) : State :=
  match (s.br b).opFrom with
  | some t => reachTime (t + (hours * tHour - (s.br b).opAcc)) s
  | none => s

/-- TEST_AGO (R360). -/
def testAgo (s : State) (b : Nat) : Nat := min 255 (opTime s b / tHour)

/-- TEST_DUE: 168 h of operation. -/
def testDue (b : Nat) (s : State) : State :=
  if 3 < b then s
  else
    let s1 := reachOp b 168 s
    if opTime s1 b < 168 * tHour ∨ bitAt (s1.rd R.SF_STATUS.TEST_DUE) b then s1
    else safetyLog 13 16 (2 ^ b) 0 ((s1.raiseBit R.SF_STATUS.TEST_DUE b).raise R.SF_EVENT.TEST_DUE_EV)

def execTestDue (bridge : Nat) (s : State) : Host.Outcome State Fault Refusal := .next (testDue bridge s)

/-- TEST_OVERDUE_SS1: at 192 h the monitor demands SS1-t on the bridge, until it is SEALED. -/
def testOverdueSs1 (b : Nat) (s : State) : State :=
  if 3 < b ∨ modeOf s b < 2 then s
  else
    let s1 := reachOp b 192 s
    if opTime s1 b < 192 * tHour ∨ bitAt s1.sill.overdue b then s1
    else
      let s2 := { s1 with sill := { s1.sill with overdue := s1.sill.overdue ||| 2 ^ b } }
      applySafety (safetyLog 1 16 (2 ^ b) (2 * 256) ((s2.countUp R.SF_CNT.DEMANDS).raise R.SF_EVENT.DEMAND_EV))

def execTestOverdueSs1 (bridge : Nat) (s : State) : Host.Outcome State Fault Refusal := .next (testOverdueSs1 bridge s)

/-! ### Oscillator and seal switches (R361, R375, R376) -/

/-- OSC_CHECK: the frequency of the RC oscillator against PLL A, ppm (R361, R452). -/
def oscCheck (ratio : Nat) (s : State) : State :=
  if systemUp s = false then s
  else if 960000 ≤ ratio ∧ ratio ≤ 1040000 then { s with sill := { s.sill with oscOk := min 10 (s.sill.oscOk + 1) } }
  else
    let s1 := { s with sill := { s.sill with oscOk := 0 } }
    if s1.flag R.SF_FAULT.OSC_FAULT then s1 else faultLatched 10 14 15 0 (s1.raise R.SF_FAULT.OSC_FAULT)

def execOscCheck (ratioPpm : Nat) (s : State) : Host.Outcome State Fault Refusal := .next (oscCheck ratioPpm s)

/-- The pattern after a read: accepted after four consecutive equal reads. -/
def readPattern (p : Nat) (s : State) : State :=
  let n := if p = s.sill.pat then min 4 (s.sill.patN + 1) else 1
  let s1 := { s with sill := { s.sill with pat := p, patN := n } }
  if n = 4 then s1.wr R.SF_INPUTS.SEAL 0 p else s1

/-- SEAL_SWITCH_READ: the levels outside a pulse and in the last 50 µs of a pulse. -/
def sealSwitchRead (levels pulsed : Nat) (s : State) : State :=
  let mask := s.rd R.SF_SEAL.SEAL_MASK
  let stuck := decide (pulsed % 65536 &&& mask ≠ 0)
  let s1 := readPattern (levels % 65536 &&& mask) { s with sill := { s.sill with sealOk := !stuck } }
  let s2 := if stuck && !s1.flag R.SF_FAULT.SEAL_FAULT then
      safetyLog 11 13 15 0 ((s1.raise R.SF_FAULT.SEAL_FAULT).raise R.SF_EVENT.FAULT_EV)
    else s1
  applySafety (recode s2)

def execSealSwitchRead (levels pulsed : Nat) (s : State) : Host.Outcome State Fault Refusal :=
  .next (sealSwitchRead levels pulsed s)

/-! ### Safety information (R380) -/

/-- SF_TEST: TEST_AGO of the four bridges. -/
def sfTest (s : State) : Nat := ofLe ((List.range 4).flatMap (fun b => le 1 (testAgo s b)))

def safetyStatusBody (s : State) : Res :=
  doneWith (le 4 (s.reg A.SF_STATUS).toNat ++ le 4 (s.reg A.SF_INPUTS).toNat ++ le 4 (s.reg A.SF_FAULT).toNat
    ++ le 4 (sfTest s)) s

def execSafetyStatus (h : Hdr) (s : State) : Host.Outcome State Fault Refusal :=
  .next (acceptCmd h 0x0701 [] safetyStatusBody s)

def safetyCodeBody (s : State) : Res :=
  doneWith (le 4 (s.reg A.SF_CODE).toNat ++ le 4 (s.reg A.SF_EXP_CODE).toNat ++ le 2 (s.rd R.SF_INPUTS.SEAL)
    ++ le 1 (s.rd R.SF_STATUS.CODE_OK)) s

def execSafetyCode (h : Hdr) (s : State) : Host.Outcome State Fault Refusal := .next (acceptCmd h 0x0702 [] safetyCodeBody s)

def safetyLogBody (entry : Nat) (s : State) : Res :=
  match s.sill.log[entry]? with
  | some bytes => doneWith bytes s
  | none => refuse stBadParam s

def execSafetyLog (h : Hdr) (entry : Nat) (s : State) : Host.Outcome State Fault Refusal :=
  .next (acceptCmd h 0x0703 (le 2 entry) (safetyLogBody entry) s)

end Sys2Proof.Machine
end

