-- ==== Sys2Proof/Machine/Can.lean ====
section
/-! DEFINITION. The CAN controllers (12_can_fd.md). A frame on a bus is one command, and its instant is that of the sample
point of its SOF (log entry 30). -/

namespace Sys2Proof.Machine

open Sys2Proof

/-- STATE of controller `c` (R337): 0 CONFIG, 1 INTEGRATING, 2 ERROR_ACTIVE, 3 ERROR_PASSIVE, 4 BUS_OFF, 5 RECOVERING, 6 SLEEP. -/
def canState (s : State) (c : Nat) : Nat := s.rd R.CF_STATUS.STATE c

/-- STATE of controller `c` set. -/
def setCanState (c v : Nat) (s : State) : State := s.wr R.CF_STATUS.STATE c v

/-- The objects with TX_PEND. -/
def pendingObjs (s : State) (c : Nat) : List Nat := (List.range 64).filter (fun k => s.flag R.MO_STAT.TX_PEND c k)

/-- The controller carries the transport, and a reply waits. -/
def replyWaits (s : State) (c : Nat) : Bool := canOn s && decide (canSel s = c) && decide (s.host.can.rp ≠ [])

/-- The frame of the transport that waits on controller `c`: the next segment of its next reply (R318, R319). -/
def replyFrame (s : State) (c : Nat) : Option CanFrame := if replyWaits s c then replySegment s else none

/-! ### Error counters and states (R340, R341) -/

/-- ERROR_PASSIVE or ERROR_ACTIVE by the counters. -/
def busState (s : State) (c : Nat) : Nat :=
  if 128 ≤ s.rd R.CF_STATUS.TEC c ∨ 128 ≤ s.rd R.CF_STATUS.REC c then 3 else 2

/-- A CAN_BUS_ON ends with RESULT 1 once the controller is ERROR_ACTIVE (R356). -/
def reachActive (c : Nat) (s : State) : State := if canState s c = 2 then endRun 0x0A01 c 1 s else s

/-- The state of a controller on the bus follows its counters. -/
def followCounters (c : Nat) (s : State) : State :=
  if canOnBus s c then reachActive c (setCanState c (busState s c) s) else s

/-- Object `k` gives its transmission up: TX_ABT and ABT_EV. -/
def abortObj (c k : Nat) (s : State) : State :=
  (((s.wr2 R.MO_STAT.TX_PEND c k 0).wr2 R.MO_STAT.TX_ABT c k 1).raise R.CF_EVENT.ABT_EV c).setObj c k
    { s.obj c k with fails := 0, errPos := none }

/-- Every pending transmission is abandoned: the objects', the transport's reply and the reference message (R338, R341). -/
def abandonAll (c : Nat) (s : State) : State :=
  let s1 := s.each (pendingObjs s c) (fun s k => abortObj c k s)
  let s2 := if replyWaits s c then (canReplyEnds false s1).setObj c 64 {} else s1
  (s2.setObj c 65 {}).setCan c { (s2.setObj c 65 {}).can c with refPend := false }

/-- The commands that run on the controller end with RESULT 2 (R338). -/
def cutRuns (c : Nat) (s : State) : State :=
  let s1 := if isRunning s 0x0A01 c then endRun 0x0A01 c 2 s else s
  let s2 := if isRunning s1 0x0A03 c then endRun 0x0A03 c 2 s1 else s1
  s2.setCan c { s2.can c with cfgWait := false, sleepWait := false }

/-- CONFIG is entered (R338). -/
def enterConfig (c : Nat) (s : State) : State := setCanState c 0 (cutRuns c (abandonAll c s))

/-- Entry into BUS_OFF (R341); a CAN_SLEEP that waits ends with it (DEDUCED, log entry 33), and a CFG_REQ that waits acts at
once (R338). -/
def enterBusOff (c : Nat) (s : State) : State :=
  let s1 := setCanState c 4 (cutRuns c (abandonAll c s))
  let s2 := (s1.countUp R.CF_CNT2.BUS_OFFS c).raise R.CF_EVENT.BUSOFF_EV c
  let s3 := logEvent 0x0034 c (le 1 (s2.rd R.CF_STATUS.TEC c) ++ le 1 (s2.rd R.CF_STATUS.REC c)) s2
  if (s.can c).cfgWait then enterConfig c s3 else s3

/-- A failed attempt raises TEC by 8, but for an acknowledge error while ERROR_PASSIVE (ISO 11898-1, R340). -/
def transmitError (c code : Nat) (s : State) : State :=
  let s1 := s.wr R.CF_STATUS.LAST_ERR c code
  if code = 3 ∧ canState s c = 3 then s1
  else if 255 < s.rd R.CF_STATUS.TEC c + 8 then enterBusOff c (s1.wr R.CF_STATUS.TEC c 255)
  else followCounters c (s1.wr R.CF_STATUS.TEC c (s.rd R.CF_STATUS.TEC c + 8))

/-- A transmitted frame lowers TEC by 1. -/
def transmitOk (c : Nat) (s : State) : State := followCounters c (s.wr R.CF_STATUS.TEC c (s.rd R.CF_STATUS.TEC c - 1))

/-- An error seen while receiving raises REC by 1, and by 8 for each further condition that ISO 11898-1 names (R340); in bus
monitoring the counters do not change (R339). -/
def canReceiveError (c : Nat) (e : RxError) (s : State) : State :=
  if 3 < c ∨ canOnBus s c = false then s
  else
    let s1 := s.wr R.CF_STATUS.LAST_ERR c e.code
    if s.flag R.CF_MODE.MON c then s1 else followCounters c (s1.wr R.CF_STATUS.REC c (min 255 (s.rd R.CF_STATUS.REC c + 1 + 8 * e.eights)))

def execCanReceiveError (ctrl : Nat) (error : RxError) (s : State) : Host.Outcome State Fault Refusal :=
  .next (canReceiveError ctrl error s)

/-- A received frame lowers REC by 1; from above 127 it takes a value from 119 to 127 that ISO 11898-1 leaves open. -/
def receiveOk (c : Nat) (s : State) : State :=
  if s.flag R.CF_MODE.MON c then s
  else if s.rd R.CF_STATUS.REC c ≤ 127 then s.wr R.CF_STATUS.REC c (s.rd R.CF_STATUS.REC c - 1)
  else
    let v := drawFree s
    followCounters c (v.2.wr R.CF_STATUS.REC c (119 + v.1 % 9))

/-! ### Transmission (R342 to R344) -/

/-- The data length of a DLC code (R349). -/
def dlcLen (dlc : Nat) : Nat := if dlc ≤ 8 then dlc else [12, 16, 20, 24, 32, 48, 64].getD (dlc - 9) 64

/-- The order of arbitration of an identifier: the smaller one wins. -/
def arbKey (ide : Bool) (id : Nat) : Nat := if ide then id / 2 ^ 18 * 2 ^ 19 + 2 ^ 18 + id % 2 ^ 18 else id % 2048 * 2 ^ 19

/-- The data bytes of a buffer's words. -/
def bufBytes (ws : List Nat) : List Byte := (ws.drop 4).flatMap (le 4)

/-- The frame of a TX object's buffer; ESI matches the state (R340). -/
def objFrame (s : State) (c k : Nat) : CanFrame :=
  let b := (s.obj c k).buf
  let id := b.getD 0 0
  let ctl := b.getD 1 0
  let ide := bitAt id 31
  ⟨ide, false, bitAt ctl 31, bitAt ctl 30, bitAt ctl 31 && decide (canState s c = 3),
    if ide then bitsOf id 0 29 else bitsOf id 0 11, ctl % 16, (bufBytes b).take (dlcLen (ctl % 16))⟩

/-- The reference message (R352). -/
def refFrame (s : State) (c : Nat) : CanFrame :=
  let x := s.can c
  let ide := s.flag R.CF_REF_ID.REF_IDE c
  let id := s.rd R.CF_REF_ID.REF_ID c
  ⟨ide, false, false, false, false, if ide then id else id % 2048, 8,
    le 1 x.refSeq ++ le 1 (s.rd R.TS_STATUS.NOT_ALIGNED + 2 * b2n x.refSent.isSome) ++ le 6 (x.refSent.getD 0)⟩

/-- The transmissions that wait, with their arbitration key and the order of R342 among equals: objects 0 to 63, the
transport's next reply 64, the reference message 65. -/
def waiting (s : State) (c : Nat) : List (Nat × Nat × Nat) :=
  (if (s.can c).refPend then [(arbKey (refFrame s c).ide (refFrame s c).id, 0, 65)] else []) ++
  (match replyFrame s c with | some f => [(arbKey f.ide f.id, 1, 64)] | none => []) ++
  (pendingObjs s c).map (fun k => (arbKey (objFrame s c k).ide (objFrame s c k).id, 2 + k, k))

/-- The transmission the controller offers: the one whose frame would win arbitration against the others (R342). -/
def offered (s : State) (c : Nat) : Option Nat :=
  ((waiting s c).foldl (fun (best : Option (Nat × Nat × Nat)) e =>
    match best with
    | none => some e
    | some b => if e.1 < b.1 ∨ (e.1 = b.1 ∧ e.2.1 < b.2.1) then some e else some b) none).map (fun e => e.2.2)

/-- The frame of a waiting transmission. -/
def waitingFrame (s : State) (c k : Nat) : CanFrame :=
  if k = 65 then refFrame s c
  else if k = 64 then (replyFrame s c).getD (objFrame s c 64)
  else objFrame s c k

/-- The first bit of a frame past its arbitration field, counted unstuffed from SOF. -/
def pastArbitration (f : CanFrame) : Nat := if f.ide then 33 else 13

/-- A bit position lies in the control or data field of a frame (R344). -/
def inCtlData (f : CanFrame) (pos : Nat) : Bool :=
  let ctl := if f.fdf then (if f.ide then 8 else 9) else 6
  decide (pastArbitration f ≤ pos) && decide (pos < pastArbitration f + ctl + 8 * f.data.length)

/-- ATTEMPTS of an object counts one more (R343). -/
def countAttempt (c k : Nat) (s : State) : State := if k < 64 then s.countUp2 R.MO_STAT.ATTEMPTS c k else s

/-- A bit error at the position of the last attempt's: an identifier collision (R344). -/
def judgeCollision (c k code pos : Nat) (s : State) : State :=
  let x := s.obj c k
  let here := decide (code = 4 ∨ code = 5) && inCtlData (waitingFrame s c k) pos
  let s1 := s.setObj c k { x with errPos := if here then some pos else none }
  if here && decide (x.errPos = some pos) then
    let s2 := (s1.countUp R.CF_CNT.COLLISIONS c).raise R.CF_EVENT.COLL_EV c
    if k < 64 then s2.wr2 R.MO_STAT.COLL c k 1 else s2
  else s1

/-- A frame whose attempts have all failed is abandoned (R343). -/
def abandonOne (c k : Nat) (s : State) : State :=
  let s1 := (s.countUp R.CF_CNT.ABANDONED c).raise R.CF_EVENT.ABT_EV c
  if k < 64 then abortObj c k s1
  else if k = 64 then (canReplyEnds false s1).setObj c 64 {}
  else (s1.setObj c 65 {}).setCan c { (s1.setObj c 65 {}).can c with refPend := false }

/-- A failed attempt: its error, a collision, and the retry limit. An error within the arbitration field ends no attempt
(R343). -/
def attemptFails (c k code pos : Nat) (s : State) : State :=
  if pos < pastArbitration (waitingFrame s c k) then transmitError c code s else
  let s1 := judgeCollision c k code pos (countAttempt c k s)
  let n := (s1.obj c k).fails + 1
  let s2 := s1.setObj c k { s1.obj c k with fails := n }
  let s3 := if s.flag R.CF_MODE.RTRY_INF c = false ∧ s.rd R.CF_MODE.RTRY_LIM c + 1 ≤ n then abandonOne c k s2 else s2
  transmitError c code s3

/-- A frame transmitted. After a transport segment the next one waits; its reply stays in the queue until
CAN_REPLY_SEND. -/
def attemptSucceeds (c k : Nat) (s : State) : State :=
  let s1 := transmitOk c (countAttempt c k s)
  if k = 64 then
    let s2 := s1.setObj c 64 {}
    { s2 with host := { s2.host with segSent := s2.host.segSent + 1 } }.setCan c
      { s2.can c with sent := some (waitingFrame s c 64) }
  else if k = 65 then
    let f := refFrame s c
    let s2 := s1.setObj c 65 {}
    s2.setCan c { s2.can c with refPend := false, refSent := some (tsNow s % 2 ^ 48), sent := some f }
  else
    let f := objFrame s c k
    let s2 := (s1.wr2 R.MO_STAT.TX_PEND c k 0).setObj c k { s1.obj c k with fails := 0, errPos := none }
    s2.setCan c { s2.can c with sent := some f }

/-- The loop delay of an FD frame sent with BRS, measured at the edge between FDF and res where the attempt came past it: a
value of the bus (R336). -/
def measureDelay (c k : Nat) (past : Nat → Bool) (s : State) : State :=
  let f := waitingFrame s c k
  if f.fdf ∧ f.brs ∧ s.flag R.CF_TDC.TDC_EN c ∧ past (if f.ide then 34 else 15) then
    (drawFree s).2.wr R.CF_TDC.TDCV c ((drawFree s).1 % 128)
  else s

/-- FRAME_TRANSMIT: the transmission that the controller offers ends an attempt, or loses arbitration (R342, R343). -/
def frameTransmit (c k : Nat) (o : TxOutcome) (s : State) : State :=
  if 3 < c ∨ canOnBus s c = false ∨ s.flag R.CF_MODE.MON c ∨ offered s c ≠ some k then s
  else
    match o with
    | .lost => s
    | .sent => attemptSucceeds c k (measureDelay c k (fun _ => true) s)
    | .error code pos => attemptFails c k code pos (measureDelay c k (fun e => decide (e ≤ pos)) s)

def execFrameTransmit (ctrl obj : Nat) (outcome : TxOutcome) (s : State) : Host.Outcome State Fault Refusal :=
  .next (frameTransmit ctrl obj outcome s)

/-- CAN_REPLY_SEND: the next CAN reply has been transmitted, or abandoned under the retry limit (R343), on the bus of its
controller; one in bus monitoring sends no frame (R339). -/
def canReplySend (sent : Bool) (s : State) : State :=
  let c := canSel s
  if replyWaits s c ∧ canOnBus s c ∧ s.flag R.CF_MODE.MON c = false then
    (if sent then (canReplyEnds true s).setObj c 64 {} else abandonOne c 64 s)
  else s

def execCanReplySend (sent : Bool) (s : State) : Host.Outcome State Fault Refusal :=
  .next (canReplySend sent (expireHeld s))

/-- TX_REQ of object `k` (R339, R349): the status, and TX_PEND. -/
def txRequest (c k : Nat) (s : State) : Nat × State :=
  if s.flag R.CF_MODE.MON c ∨ canOnBus s c = false then (stWrongMode, s)
  else if s.flag R.MO_STAT.TX_PEND c k then (stBusy, s)
  else (stDone, ((s.wr2 R.MO_STAT.TX_PEND c k 1).wr2 R.MO_STAT.ATTEMPTS c k 0).setObj c k
    { s.obj c k with fails := 0, errPos := none })

/-- The next instant at which controller `c` queues a reference message: the multiples of REF_PER ms on the timebase (R352). -/
def refDue (s : State) (c : Nat) : Nat :=
  let p := max 1 (s.rd R.CF_REF_PER.REF_PER c) * 400000
  let t := (s.now + p - 1) / p * p
  if (s.can c).refAt = some t then t + p else t

/-- REFERENCE_MESSAGE_DUE: every REF_PER ms a time master on the bus queues a message, with the next SEQ (R341, R352). -/
def referenceMessageDue (c : Nat) (s : State) : State :=
  if c < 4 ∧ canOnBus s c ∧ s.flag R.CF_MODE.TM_EN c then
    ((reachTime (refDue s c) s).setObj c 65 {}).setCan c { (s.setObj c 65 {}).can c with
      refSeq := ((s.can c).refSeq + 1) % 256, refPend := true, refAt := some (refDue s c) }
  else s

def execReferenceMessageDue (ctrl : Nat) (s : State) : Host.Outcome State Fault Refusal := .next (referenceMessageDue ctrl s)

/-! ### Reception (R345 to R347, R351, R353) -/

/-- The buffer words of a received frame (R346). -/
def rxWords (s : State) (f : CanFrame) : List Nat :=
  [f.id + 2147483648 * b2n f.ide,
   f.dlc % 16 + 2147483648 * b2n f.fdf + 1073741824 * b2n f.brs + 536870912 * b2n f.esi,
   tsNow s % 2 ^ 32, tsNow s / 2 ^ 32] ++ (List.range 16).map (fun j => leAt f.data (4 * j) 4)

/-- Object `k` takes frames of this identifier. -/
def objMatches (s : State) (c : Nat) (f : CanFrame) (k : Nat) : Bool :=
  let w := if f.ide then 29 else 11
  let m := bitsOf (s.rd R.MO_MASK.MASK c k) 0 w
  s.flag R.MO_CFG.EN c k && !s.flag R.MO_CFG.DIR c k && (f.ide == s.flag R.MO_ID.IDE c k) &&
    decide (f.id % 2 ^ w &&& m = bitsOf (s.rd R.MO_ID.ID c k) 0 w &&& m)

/-- A frame written into an object's buffer: NEW, and OVR where one was unread. -/
def storeFrame (c k : Nat) (ws : List Nat) (s : State) : State :=
  let s1 := if s.flag R.MO_STAT.NEW c k then s.wr2 R.MO_STAT.OVR c k 1 else s
  (s1.wr2 R.MO_STAT.NEW c k 1).setObj c k { s1.obj c k with buf := ws }

/-- The controller's hold slots in use. -/
def holdsUsed (s : State) (c : Nat) : Nat := ((s.can c).objs.filter (fun e => e.2.held.isSome)).length

/-- The pairs of a mapping that lie within the frame's data write their signals (R351). -/
def mapFrame (f : CanFrame) (m : Option (Bool × List (Nat × Nat))) (s : State) : State :=
  match m with
  | none => s
  | some (big, ps) =>
    s.each (ps.filter (fun p => p.1 + 2 ≤ f.data.length)) (fun s p =>
      let a := byteAt f.data p.1
      let b := byteAt f.data (p.1 + 1)
      s.sigWrite (0x1C0 + p.2) (if big then 256 * a + b else a + 256 * b))

/-- Object `k` takes a frame: its buffer, or a hold slot while its lock is held (R346, R347). -/
def takeFrame (c k : Nat) (f : CanFrame) (s : State) : State :=
  let x := s.obj c k
  let ws := rxWords s f
  if s.flag R.MO_STAT.LOCK c k = false then mapFrame f x.map (storeFrame c k ws s)
  else if x.held.isSome then mapFrame f x.map ((s.wr2 R.MO_STAT.OVR c k 1).setObj c k { x with held := some ws })
  else if 4 ≤ holdsUsed s c then (s.countUp R.CF_CNT2.RX_LOST c).raise R.CF_EVENT.RXLOST_EV c
  else mapFrame f x.map ((s.wr2 R.MO_STAT.HELD c k 1).setObj c k { x with held := some ws })

/-- The read lock of the controller is released; the frame held is written at once (R347). -/
def releaseLock (c : Nat) (s : State) : State :=
  match (s.can c).lock with
  | none => s
  | some (k, _) =>
    let s1 := (s.setCan c { s.can c with lock := none }).wr2 R.MO_STAT.LOCK c k 0
    match (s1.obj c k).held with
    | some ws => storeFrame c k ws ((s1.wr2 R.MO_STAT.HELD c k 0).setObj c k { s1.obj c k with held := none })
    | none => s1

/-- A read of BUF_ID takes the lock of object MO_SEL (R347). -/
def takeLock (c : Nat) (s : State) : State :=
  let k := s.rd R.MO_SEL.MO_SEL c
  match (s.can c).lock with
  | some _ => s
  | none => (s.setCan c { s.can c with lock := some (k, s.now) }).wr2 R.MO_STAT.LOCK c k 1

/-- A read of BUF_DATA15 clears NEW and releases the lock (R347). -/
def readLastWord (c : Nat) (s : State) : State := releaseLock c (s.wr2 R.MO_STAT.NEW c (s.rd R.MO_SEL.MO_SEL c) 0)

/-- LOCK_TIMEOUT: 1 ms after it was taken, the lock is released without clearing NEW (R347). -/
def lockTimeout (c : Nat) (s : State) : State :=
  match (s.can c).lock with
  | none => s
  | some (_, t) =>
    releaseLock c (((reachTime (t + 400000) s).countUp R.CF_CNT2.LOCK_TO c).raise R.CF_EVENT.LOCKTO_EV c)

def execLockTimeout (ctrl : Nat) (s : State) : Host.Outcome State Fault Refusal := .next (lockTimeout ctrl s)

/-- The time-slave function takes a frame with REF_ID (R353). -/
def takeReference (c : Nat) (f : CanFrame) (s : State) : State :=
  let x := s.can c
  let q := byteAt f.data 0
  let s1 := s.setCan c { x with refGot := some (q, tsNow s % 2 ^ 48) }
  match x.refGot with
  | none => s1
  | some (q0, t0) =>
    if bitAt (byteAt f.data 1) 1 ∧ q = (q0 + 1) % 256 then
      let d := toSigned 48 (ofSigned 48 ((leAt f.data 2 6 : Int) - (t0 : Int)))
      let v := clampInt (-2147483648) 2147483647 d
      s1 |>.wr R.CT_OFS.CT_OFS c (ofSigned 32 v)
        |>.wr R.CT_REF.OFS_SAT c (b2n (decide (v ≠ d)))
        |>.wr R.CT_REF.SEQ c q
        |>.wr R.CT_REF.NOT_ALIGNED c (byteAt f.data 1 % 2)
        |>.raise R.CF_EVENT.REF_EV c
    else s1

/-- A frame with REF_ID on a time slave. -/
def isReference (s : State) (c : Nat) (f : CanFrame) : Bool :=
  s.flag R.CF_MODE.TS_EN c && (f.ide == s.flag R.CF_REF_ID.REF_IDE c) &&
    decide (f.id = if f.ide then s.rd R.CF_REF_ID.REF_ID c else s.rd R.CF_REF_ID.REF_ID c % 2048)

/-- FRAME_RECEIVE: the time slave, the transport and the objects in order (R345); a remote frame is stored nowhere. -/
def frameReceive (c : Nat) (f : CanFrame) (s : State) : State :=
  if 3 < c ∨ canOnBus s c = false then s
  else
    let s1 := receiveOk c s
    if isReference s c f ∧ f.rtr = false then takeReference c f s1
    else if canOn s ∧ canSel s = c ∧ isCommandFrame s f then segmentFrame f s1
    else if f.rtr then s1
    else
      match (List.range 64).find? (objMatches s c f) with
      | some k => takeFrame c k f s1
      | none => s1

/-- CAN_SEGMENT_RECEIVE: a frame with CMD_ID on the transport's controller, offered as every frame is (R318, R345). -/
def canSegmentReceive (f : CanFrame) (s : State) : State :=
  if canOn s ∧ isCommandFrame s f then frameReceive (canSel s) f s else s

def execCanSegmentReceive (frame : CanFrame) (s : State) : Host.Outcome State Fault Refusal :=
  .next (canSegmentReceive frame s)

def execFrameReceive (ctrl : Nat) (frame : CanFrame) (s : State) : Host.Outcome State Fault Refusal :=
  .next (frameReceive ctrl frame s)

/-! ### On and off the bus (R337, R338, R354, R356) -/

/-- The controller goes on the bus: no reference message has been sent since (R352). -/
def goOnBus (c v : Nat) (s : State) : State := (setCanState c v s).setCan c { s.can c with refSent := none }

/-- The controller begins to integrate. -/
def integrate (c : Nat) (s : State) : State := goOnBus c 1 s

/-- INTEGRATION_DONE: 11 recessive bits; CAN_BUS_ON ends where that makes the controller ERROR_ACTIVE (R356). -/
def integrationDone (c : Nat) (s : State) : State :=
  if c < 4 ∧ canState s c = 1 then reachActive c (setCanState c (busState s c) s) else s

def execIntegrationDone (ctrl : Nat) (s : State) : Host.Outcome State Fault Refusal := .next (integrationDone ctrl s)

/-- BUS_OFF_RECOVERY_DONE: 128 times 11 recessive bits; TEC and REC 0 (R356). -/
def busOffRecoveryDone (c : Nat) (s : State) : State :=
  if c < 4 ∧ canState s c = 5 then
    endRun 0x0A01 c 1 (setCanState c 2 ((s.clear R.CF_STATUS.TEC c).clear R.CF_STATUS.REC c))
  else s

def execBusOffRecoveryDone (ctrl : Nat) (s : State) : Host.Outcome State Fault Refusal := .next (busOffRecoveryDone ctrl s)

/-- CAN_WAKE: a dominant level, or a wake frame (R354). -/
def wakes (s : State) (c : Nat) : Wake → Bool
  | .dominant us => !s.flag R.CF_MODE.WAKE_MODE c && decide (s.rd R.CF_MODE.WAKE_FILT c ≤ us)
  | .frame f =>
    let m := s.rd R.CF_WK_MASK.WK_MASK c
    let dm := s.rd R.CF_WK_DMASK.WK_DMASK c
    s.flag R.CF_MODE.WAKE_MODE c && !f.fdf && !f.rtr && (f.ide == s.flag R.CF_WK_ID.WK_IDE c) &&
      decide (f.id &&& m = s.rd R.CF_WK_ID.WK_ID c &&& m) &&
      decide (leAt f.data 0 4 &&& dm = s.rd R.CF_WK_DATA.WK_DATA c &&& dm) &&
      ((List.range 4).all (fun j => decide (j < f.data.length) || decide (bitsOf dm (8 * j) 8 = 0)))

def canWake (c : Nat) (w : Wake) (s : State) : State :=
  if c < 4 ∧ canState s c = 6 ∧ wakes s c w then (integrate c s).raise R.CF_EVENT.WAKE_EV c else s

def execCanWake (ctrl : Nat) (wake : Wake) (s : State) : Host.Outcome State Fault Refusal := .next (canWake ctrl wake s)

/-- The write of 1 to CFG_REQ: at the next bus idle from ERROR_ACTIVE or ERROR_PASSIVE, at once from every other state. -/
def requestConfig (c : Nat) (s : State) : State :=
  if canOnBus s c then s.setCan c { s.can c with cfgWait := true } else enterConfig c s

/-- CAN_CONFIG_ENTER: the bus is idle and a CFG_REQ waits. -/
def canConfigEnter (c : Nat) (s : State) : State :=
  if c < 4 ∧ (s.can c).cfgWait ∧ canOnBus s c then enterConfig c s else s

def execCanConfigEnter (ctrl : Nat) (s : State) : Host.Outcome State Fault Refusal := .next (canConfigEnter ctrl s)

/-- CAN_BUS_ON (R356), NO_RESOURCE while its island is held in reset (R429, log entry 124): a second one on a controller is BUSY under R322. -/
def canBusOnBody (h : Hdr) (c : Nat) (s : State) : Res :=
  if 3 < c then refuse stBadParam s
  else if isRunning s 0x0A01 c then refuse stBusy s
  else if islandsHeld s then refuse stNoResource s
  else
    let run := fun (s : State) => (⟨stAccepted, [], none, beginRun 0x0A01 h.seq c s⟩ : Res)
    match canState s c with
    | 0 => run (integrate c s)
    | 6 => run ((integrate c s).raise R.CF_EVENT.WAKE_EV c)
    | 4 => run (goOnBus c 5 s)
    | _ => refuse stWrongMode s

def execCanBusOn (h : Hdr) (ctrl : Nat) (s : State) : Host.Outcome State Fault Refusal :=
  .next (acceptCmd h 0x0A01 (le 1 ctrl) (canBusOnBody h ctrl) s)

/-- CAN_SLEEP (R354, R356). -/
def canSleepBody (h : Hdr) (c : Nat) (s : State) : Res :=
  if 3 < c then refuse stBadParam s
  else if canOnBus s c = false then refuse stWrongMode s
  else if isRunning s 0x0A03 c then refuse stBusy s
  else ⟨stAccepted, [], none, beginRun 0x0A03 h.seq c (s.setCan c { s.can c with sleepWait := true })⟩

def execCanSleep (h : Hdr) (ctrl : Nat) (s : State) : Host.Outcome State Fault Refusal :=
  .next (acceptCmd h 0x0A03 (le 1 ctrl) (canSleepBody h ctrl) s)

/-- CAN_SLEEP_ENTER: the bus is idle and a CAN_SLEEP waits; TEC and REC are kept. A CFG_REQ that waits too acts then
(R338). -/
def canSleepEnter (c : Nat) (s : State) : State :=
  if c < 4 ∧ (s.can c).sleepWait ∧ canOnBus s c then
    let s1 := setCanState c 6 (abandonAll c s)
    let s2 := endRun 0x0A03 c 1 (s1.setCan c { s1.can c with sleepWait := false })
    if (s.can c).cfgWait then enterConfig c s2 else s2
  else s

def execCanSleepEnter (ctrl : Nat) (s : State) : Host.Outcome State Fault Refusal := .next (canSleepEnter ctrl s)

/-- CAN_STATUS (R356). -/
def canStatusBody (c : Nat) (s : State) : Res :=
  if 3 < c then refuse stBadParam s
  else
    let w := fun (a : Nat) => le 4 (s.reg (a + 0x1000 * c)).toNat
    doneWith (w A.CF_STATUS ++ w A.CF_CNT ++ w A.CF_CNT2 ++ w A.CF_EVENT) s

def execCanStatus (h : Hdr) (ctrl : Nat) (s : State) : Host.Outcome State Fault Refusal :=
  .next (acceptCmd h 0x0A04 (le 1 ctrl) (canStatusBody ctrl) s)

/-! ### CAN_MAP (R350, R351) -/

/-- The pairs of an entry: byte offset and signal number s. -/
def mapPairs : List Byte → List (Nat × Nat)
  | a :: b :: t => (a.toNat, b.toNat) :: mapPairs t
  | _ => []

/-- The signals that the pairs of an object name. -/
def mappedSignals (s : State) (c k : Nat) : List Nat :=
  match (s.obj c k).map with | some (_, ps) => ps.map (·.2) | none => []

/-- A signal is mapped by a pair of another object of any controller. -/
def mappedElsewhere (s : State) (c k n : Nat) : Bool :=
  (List.range 4).any (fun d => (s.can d).objs.any (fun e => (d != c || e.1 != k) && (mappedSignals s d e.1).contains n))

/-- A signal is read by the graph of a bridge that is not SEALED. -/
def readByRunning (s : State) (n : Nat) : Bool :=
  (List.range 4).any (fun b => decide (modeOf s b ≠ 0) && imageOk s b &&
    (match loadedGraph s b with
     | some g => g.blocks.any (fun r => (r.ins.map portSig).contains (0x1C0 + n))
     | none => false))

def canMapBody (c : Nat) (entry : List Byte) (s : State) : Res :=
  let k := byteAt entry 0
  let flags := byteAt entry 1
  let ps := mapPairs (entry.drop 2)
  let clear := decide (entry.length = 1)
  if 3 < c ∨ (clear = false ∧ (entry.length < 4 ∨ 32 < entry.length ∨ entry.length % 2 = 1)) ∨ 63 < k then refuse stBadParam s
  else if clear = false ∧ (1 < flags ∨ ps.any (fun p => decide (62 < p.1 ∨ 63 < p.2))) then refuse stBadParam s
  else if s.flag R.MO_CFG.DIR c k then refuse stBadParam s
  else if (ps.map (·.2)).any (mappedElsewhere s c k) then refuse stBadParam s
  else
    let old := mappedSignals s c k
    let new := if clear then [] else ps.map (·.2)
    let moved := old.filter (fun n => !new.contains n) ++ new.filter (fun n => !old.contains n)
    if moved.any (readByRunning s) then refuse stWrongMode s
    else done (s.setObj c k { s.obj c k with map := if clear then none else some (decide (flags = 1), ps) })

def execCanMap (h : Hdr) (ctrl : Nat) (entry : List Byte) (s : State) : Host.Outcome State Fault Refusal :=
  .next (acceptCmd h 0x0A02 (le 1 ctrl ++ entry) (canMapBody ctrl entry) s)

/-! ### Configuration checks (R334 to R336) -/

/-- NBRP, quanta of a nominal bit, DBRP, quanta of a data bit. -/
def nomQuanta (s : State) (c : Nat) : Nat := 3 + s.rd R.CF_NBT.NTSEG1_M1 c + s.rd R.CF_NBT.NTSEG2_M1 c
def datQuanta (s : State) (c : Nat) : Nat := 3 + s.rd R.CF_DBT.DTSEG1_M1 c + s.rd R.CF_DBT.DTSEG2_M1 c
def nomPeriods (s : State) (c : Nat) : Nat := (s.rd R.CF_NBT.NBRP_M1 c + 1) * nomQuanta s c
def datPeriods (s : State) (c : Nat) : Nat := (s.rd R.CF_DBT.DBRP_M1 c + 1) * datQuanta s c

/-- The bit timing of a controller is one that R334 admits: bit times in periods of 80 MHz. -/
def timingOk (s : State) (c : Nat) : Bool :=
  decide (8 ≤ nomQuanta s c) && decide (5 ≤ datQuanta s c) &&
  decide (s.rd R.CF_NBT.NSJW_M1 c ≤ s.rd R.CF_NBT.NTSEG2_M1 c) && decide (s.rd R.CF_DBT.DSJW_M1 c ≤ s.rd R.CF_DBT.DTSEG2_M1 c) &&
  decide (80 ≤ nomPeriods s c ∧ nomPeriods s c ≤ 8000) && decide (10 ≤ datPeriods s c ∧ datPeriods s c ≤ 160) &&
  decide (datPeriods s c ≤ nomPeriods s c)

/-- TDC_EN at 0 while the data bit rate exceeds 1 Mbit/s (R336). -/
def tdcMissing (s : State) (c : Nat) : Bool := !s.flag R.CF_TDC.TDC_EN c && decide (datPeriods s c < 80)

/-- TRIPLE: three samples at 125 kbit/s or below (R335). -/
def showTriple (c : Nat) (s : State) : State := s.wr R.CF_STATUS.TRIPLE c (b2n (decide (640 ≤ nomPeriods s c)))

end Sys2Proof.Machine
end

