-- ==== Sys2Proof/Machine/Security.lean ====
section
/-! DEFINITION. Key slots, counters, the TRNG and the firmware banks (14_security.md). -/

namespace Sys2Proof.Machine

open Sys2Proof

/-! ### The certified configuration (R396) -/

/-- The image of a bank as bytes: the header it is shipped with where nothing has replaced it. -/
def bankImage (s : State) (bank : Nat) : List Byte :=
  ((if bank = 0 then s.sec.bankA else s.sec.bankB).getD Config.shippedFw)

/-- STATE of a bank (R392). -/
def bankState (s : State) (bank : Nat) : Nat := if bank = 0 then s.rd R.SEC_FW.STATE_A else s.rd R.SEC_FW.STATE_B

/-- STATE of a bank set. -/
def setBankState (bank v : Nat) (s : State) : State :=
  if bank = 0 then s.wr R.SEC_FW.STATE_A 0 v else s.wr R.SEC_FW.STATE_B 0 v

/-- The bank that runs, or ran until the present reset (R395). -/
def bankRun (s : State) : Nat := s.sec.ran

/-- A bank runs, and BANK_RUN shows it. -/
def runBank (b : Nat) (s : State) : State := { s with sec := { s.sec with ran := b } } |>.wr R.SEC_FW.BANK_RUN 0 b

/-- The bank that does not run. -/
def bankIdle (s : State) : Nat := if bankRun s = 0 then 1 else 0

/-- Whether some slot of a list is ACTIVE with use ADMIN. -/
def anyAdmin (s : State) (slots : List Nat) : Bool :=
  slots.any (fun k => decide (s.rd R.SEC_SLOT.STATE 0 k = 1) && decide (s.rd R.SEC_SLOT.USE 0 k = 2))

/-- CERT_MISS: bit n is 1 while condition n of R396 is not met. -/
def certMiss (s : State) : Nat :=
  b2n (decide (s.rd R.SEC_SLOT.STATE 0 0 ≠ 3)) + 2 * b2n (!anyAdmin s ((List.range 14).map (· + 1)))
    + 4 * b2n (!s.sec.dbgLock)
    + 8 * b2n (!(bitAt (byteAt (bankImage s (bankRun s)) 7) 0 && decide (bankState s (bankRun s) = 1)))
    + 16 * b2n (decide (s.rd R.SEC_STATUS.TRNG ≠ 0)) + 32 * b2n (decide (7 ≤ s.sec.epoch))

/-- The evaluation of CERT and CERT_CFG; a fall since the last evaluation, be it before a reset, sets CERT_LOST_EV (R396,
log entry 116). -/
def evalCert (s : State) : State :=
  let c := decide (certMiss s = 0)
  let s0 := { s with sec := { s.sec with certWas := c } }
  let s1 := ((s0.wr R.SEC_STATUS.CERT_MISS 0 (certMiss s)).wr R.SEC_STATUS.CERT 0 (b2n c)).wr R.ID_STATUS.CERT_CFG 0 (b2n c)
  if s.sec.certWas ∧ c = false then s1.raise R.SEC_EVENT.CERT_LOST_EV else s1

/-! ### Commands of the key slots -/

/-- GET_COUNTER (R310, R331). -/
def getCounterBody (slot : Nat) (s : State) : Res :=
  if 15 < slot then refuse stBadParam s else doneWith (le 4 (s.rd R.SEC_CTR.C 0 slot)) s

def execGetCounter (h : Hdr) (slot : Nat) (s : State) : Host.Outcome State Fault Refusal :=
  .next (acceptCmd h 0x0801 (le 1 slot) (getCounterBody slot) s)

/-- COUNTER_RESYNC after its authentication step (R390). Its record is written within the command (log entry 86); while a record of
rank 2 or 3 runs it waits for its end, and its reply is held back (R457). -/
def resyncCounter (slot value : Nat) (s : State) : Res :=
  if 15 < slot ∨ s.rd R.SEC_SLOT.STATE 0 slot ≠ 1 ∨ hasCounter s slot = false then refuse stBadParam s
  else if value ≤ s.rd R.SEC_CTR.C 0 slot ∨ epochLimit s ≤ value then refuse stBadParam s
  else if s.sec.cpRun.isSome ∨ s.sec.resync.isSome then refuse stBusy s
  else if flashNow s = some 2 ∨ flashNow s = some 3 then
    doneWith (le 4 value) (holdReply 10 (s.now + 320000 + 400 * tMs) { s with sec := { s.sec with resync := some (slot, value) } })
  else doneWith (le 4 value) (ringWrite 1 (writeResync slot value s))

def counterResyncBody (h : Hdr) (slot value : Nat) (s : State) : Res :=
  withAuth h 0x0802 (le 1 slot ++ le 4 value) (.resync slot) s (resyncCounter slot value)

def execCounterResync (h : Hdr) (slot value : Nat) (s : State) : Host.Outcome State Fault Refusal :=
  .next (acceptCmd h 0x0802 (le 1 slot ++ le 4 value) (counterResyncBody h slot value) s)

/-- The key a KEY_LOAD record carries, if check 2 of R385 passes: unwrapped under `wrap`, or a point of the curve. -/
def recordKey (wrap record : List Byte) : Option (List Byte) :=
  if byteAt record 0 = 4 then (if Config.onCurve (record.drop 2) then some (record.drop 2) else none)
  else Config.kwUnwrap wrap (record.drop 2)

/-- The counter checkpoint being written holds an entry of the slot (R397). -/
def cpWrites (slot : Nat) (s : State) : Bool := s.sec.cpRun.any (fun l => l.any (fun e => decide (e.1 = slot)))

/-- Check 1 of R385. -/
def keyRecordOk (slot : Nat) (record : List Byte) : Bool :=
  decide (slot ≤ 14) && decide (byteAt record 1 = 0) &&
  ((decide (byteAt record 0 = 1 ∨ byteAt record 0 = 2) && decide (record.length = 42)) ||
    (decide (byteAt record 0 = 4) && decide (record.length = 66)))

/-- KEY_LOAD after its authentication step (R385); a KEY_LOAD that runs makes another BUSY (R322). Where the slot's
checkpoint is being written the reply waits for both, at most until 1 s after its maximum of 1 ms and two tags (R332,
R397). -/
def keyLoadChecks (h : Hdr) (slot : Nat) (record wrap : List Byte) (s : State) : Res :=
  if keyRecordOk slot record = false then refuse stBadParam s
  else match recordKey wrap record with
  | none => refuse stBadParam s
  | some key =>
    if s.rd R.SEC_SLOT.STATE 0 slot = 3 then refuse stWrongMode s
    else if 4 ≤ s.rd R.SEC_SLOT.GEN 0 slot then refuse stNoResource s
    else if s.sec.load.isSome then refuse stBusy s
    else
      let s1 := beginRun 0x0803 h.seq 0 { s with sec := { s.sec with load := some ⟨h.seq, slot, byteAt record 0, key⟩ } }
      ⟨stAccepted, [], none, if cpWrites slot s then holdReply 9 (s.now + 412000) s1 else s1⟩

def keyLoadBody (h : Hdr) (slot : Nat) (record : List Byte) (s : State) : Res :=
  withAuth h 0x0803 (le 1 slot ++ record) .adminOnly s
    (keyLoadChecks h slot record (authKey h s))

def execKeyLoad (h : Hdr) (slot : Nat) (record : List Byte) (s : State) : Host.Outcome State Fault Refusal :=
  .next (acceptCmd h 0x0803 (le 1 slot ++ record) (keyLoadBody h slot record) s)

/-- The end of a KEY_LOAD: the slot is ACTIVE with the new use and key, its counter and checkpoint at the epoch base
(R385; the checkpoint follows the counter, log entry 14), or without a counter, which reads 0 (SEC_CTR). A slot revoked
meanwhile is permanently unusable and stays so: RESULT 2 (R382, log entry 117). While the slot's
checkpoint is being written the OTP write has not ended (R397). -/
def keyLoadDone (ok : Bool) (s : State) : State :=
  match s.sec.load with
  | none => s
  | some l =>
    if cpWrites l.slot s then s else
    let s0 := swapSettled 9 { s with sec := { s.sec with load := none } }
    if ok = false ∨ s.rd R.SEC_SLOT.STATE 0 l.slot = 3 then
      logEvent 0x0053 0x0803 (le 1 2 ++ le 1 l.slot) (evalCert (endRun 0x0803 0 2 (s0.raise R.SEC_EVENT.KEY_EV)))
    else
      let gen := s.rd R.SEC_SLOT.GEN 0 l.slot + 1
      let s1 := { s0 with sec := { s0.sec with keys := sput Config.factoryKey s0.sec.keys (8 * l.slot + gen) l.key } }
      let s2 := ((s1.wr2 R.SEC_SLOT.STATE 0 l.slot 1).wr2 R.SEC_SLOT.USE 0 l.slot l.use).wr2 R.SEC_SLOT.GEN 0 l.slot gen
      let base := if l.use = 4 then 0 else epochBase s
      let s3 := (s2.wr2 R.SEC_CTR.C 0 l.slot base).wr2 R.SEC_CP.CP 0 l.slot base
      logEvent 0x0053 0x0803 (le 1 1 ++ le 1 l.slot) (evalCert (endRun 0x0803 0 1 (s3.raise R.SEC_EVENT.KEY_EV)))

def execKeyLoadDone (ok : Bool) (s : State) : Host.Outcome State Fault Refusal := .next (keyLoadDone ok s)

/-- A slot becomes REVOKED (R386), an operation the event log records (R455). -/
def setRevoked (slot : Nat) (s : State) : State :=
  logEvent 0x0053 0x0804 (le 1 1 ++ le 1 slot) (evalCert ((s.wr2 R.SEC_SLOT.STATE 0 slot 3).raise R.SEC_EVENT.KEY_EV))

/-- KEY_REVOKE after its authentication step (R386). Where the slot's checkpoint is being written, the revocation and the
reply follow it, at most until 1 s after its maximum of 1 ms and two tags (R332, R397). -/
def revokeKey (slot : Nat) (s : State) : Res :=
  if 15 ≤ slot ∨ anyAdmin s ((List.range 15).filter (· ≠ slot)) = false then refuse stBadParam s
  else if cpWrites slot s then
    done (holdReply 8 (s.now + 412000) { s with sec := { s.sec with revokes := slot :: s.sec.revokes } })
  else done (setRevoked slot s)

def keyRevokeBody (h : Hdr) (slot : Nat) (s : State) : Res :=
  withAuth h 0x0804 (le 1 slot) .adminOnly s (revokeKey slot)

def execKeyRevoke (h : Hdr) (slot : Nat) (s : State) : Host.Outcome State Fault Refusal :=
  .next (acceptCmd h 0x0804 (le 1 slot) (keyRevokeBody h slot) s)

/-- KEY_INFO (R386). -/
def keyInfoBody (slot : Nat) (s : State) : Res :=
  if 15 < slot then refuse stBadParam s
  else doneWith (le 1 (s.rd R.SEC_SLOT.STATE 0 slot) ++ le 1 (s.rd R.SEC_SLOT.USE 0 slot)) s

def execKeyInfo (h : Hdr) (slot : Nat) (s : State) : Host.Outcome State Fault Refusal :=
  .next (acceptCmd h 0x0805 (le 1 slot) (keyInfoBody slot) s)

/-- The end of a counter checkpoint write: CP takes what was written, the revocations that waited for it follow, and a
checkpoint that has become due starts (R387, R397). An interrupted write leaves the older copy (R387); one that waits for the flash has not ended (R457). -/
def counterCheckpointDone (ok : Bool) (s : State) : State :=
  match s.sec.cpRun with
  | none => s
  | some l =>
    if flashNow s ≠ some 1 then s else
    let s1 := { s with sec := { s.sec with cpRun := none, revokes := [] } }
    let s2 := ringWrite 1 (if ok then applyCheckpoint l s1 else s1)
    let s3 := s2.each s.sec.revokes (fun s k => setRevoked k s)
    let s4 := if s.sec.revokes = [] then s3 else swapSettled 8 s3
    startCheckpoint (checkpointDue s4) s4

def execCounterCheckpointDone (ok : Bool) (s : State) : Host.Outcome State Fault Refusal :=
  .next (counterCheckpointDone ok s)

/-! ### The TRNG (R391) -/

/-- The next `n` random bytes. -/
def drawBytes (n : Nat) (s : State) : List Byte := (List.range n).map (fun k => Config.trngByte (s.sec.trngN + k))

/-- `s` after `n` random bytes have been drawn. -/
def afterDraw (n : Nat) (s : State) : State := { s with sec := { s.sec with trngN := s.sec.trngN + n } }

def trngReadBody (count : Nat) (s : State) : Res :=
  if count = 0 ∨ 64 < count then refuse stBadParam s
  else if s.rd R.SEC_STATUS.TRNG ≠ 0 then refuse stNoResource s
  else doneWith (drawBytes count s) (afterDraw count s)

def execTrngRead (h : Hdr) (count : Nat) (s : State) : Host.Outcome State Fault Refusal :=
  .next (acceptCmd h 0x080A (le 1 count) (trngReadBody count) s)

/-- A failed health test (R391). -/
def trngHealthFail (s : State) : State := (s.wr R.SEC_STATUS.TRNG 0 2).raise R.SEC_EVENT.TRNG_FAIL_EV

def execTrngHealthFail (s : State) : Host.Outcome State Fault Refusal := .next (if systemUp s then trngHealthFail s else s)

/-! ### Firmware (R392 to R395) -/

/-- FW_BEGIN after its authentication step (R393). -/
def fwBeginChecks (length : Nat) (s : State) : Res :=
  if length < 4096 ∨ 4194304 < length then refuse stBadParam s
  else if s.sec.commit.isSome then refuse stBusy s
  else done { s with sec := { s.sec with fwLen := some length, fwData := [] } }

def fwBeginBody (h : Hdr) (length : Nat) (s : State) : Res :=
  withAuth h 0x0806 (le 4 length) .any s (fwBeginChecks length)

def execFwBegin (h : Hdr) (length : Nat) (s : State) : Host.Outcome State Fault Refusal :=
  .next (acceptCmd h 0x0806 (le 4 length) (fwBeginBody h length) s)

/-- FW_DATA follows R72 with the firmware staging (R393). -/
def fwDataBody (offset : Nat) (data : List Byte) (s : State) : Res :=
  if s.sec.commit.isSome then refuse stBusy s
  else match s.sec.fwLen with
  | none => refuse stWrongMode s
  | some n =>
    if n ≤ s.sec.fwData.length then refuse stWrongMode s
    else if offset ≠ s.sec.fwData.length ∨ n < s.sec.fwData.length + data.length then refuse stBadParam s
    else done { s with sec := { s.sec with fwData := s.sec.fwData ++ data } }

def execFwData (h : Hdr) (offset : Nat) (data : List Byte) (s : State) : Host.Outcome State Fault Refusal :=
  .next (acceptCmd h 0x0807 (le 4 offset ++ data) (fwDataBody offset data) s)

/-- FW_ERR of an image under R392 and R394; 0 where it verifies. The lowest code that applies stands, and a signature
under a generation slot 15 does not have does not verify (log entry 99). -/
def fwError (s : State) (img : List Byte) : Nat :=
  if leAt img 0 4 ≠ 0x57464C5A ∨ leAt img 4 2 ≠ 1 ∨ leAt img 8 4 ≠ img.length ∨ img.length < 4096 then 1
  else if byteAt img 6 < s.rd R.SEC_FW.KGEN_MIN then 2
  else if leAt img 0x10 2 < s.rd R.SEC_FW.SVN_MIN then 3
  else if 3 < byteAt img 6 ∨ Config.ecdsaOk (Config.factoryKey (8 * 15 + byteAt img 6 + 1))
      (Config.sha256 (img.take (img.length - 64))) (img.drop (img.length - 64)) = false then 4
  else 0

/-- Whether every bridge is SEALED. -/
def allSealed (s : State) : Bool := (List.range 4).all (fun b => decide (s.rd R.BR_STATUS.MODE b = 0))

/-- A TRIAL bank is confirmed: it becomes CONFIRMED, the other PREVIOUS, and the minima rise (R394), SVN_MIN at most to the
63 of its field (log entry 118). -/
def confirmTrial (s : State) : State :=
  let img := bankImage s (bankRun s)
  let s1 := setBankState (bankIdle s) 3 (setBankState (bankRun s) 1 s)
  let s2 := (s1.wr R.SEC_FW.SVN_MIN 0 (max (s.rd R.SEC_FW.SVN_MIN) (min 63 (leAt img 0x10 2)))).wr R.SEC_FW.KGEN_MIN 0
    (max (s.rd R.SEC_FW.KGEN_MIN) (byteAt img 6))
  logEvent 0x0053 0x0808 (le 1 1 ++ le 1 (bankRun s)) (evalCert s2)

/-- FW_COMMIT after its authentication step (R394). -/
def fwCommitChecks (h : Hdr) (s : State) : Res :=
  if s.sec.commit.isSome then refuse stBusy s
  else match s.sec.fwLen with
  | none => if bankState s (bankRun s) = 2 then done (confirmTrial s) else refuse stWrongMode s
  | some n =>
    if s.sec.fwData.length < n then refuse stBadParam s
    else if allSealed s = false then refuse stWrongMode s
    else
      let s1 := flashBegin 4 s
      ⟨stAccepted, [], none, beginRun 0x0808 h.seq 0 { s1 with sec := { s1.sec with commit := some h.seq } }⟩

def fwCommitBody (h : Hdr) (s : State) : Res := withAuth h 0x0808 [] .any s (fwCommitChecks h)

def execFwCommit (h : Hdr) (s : State) : Host.Outcome State Fault Refusal :=
  .next (acceptCmd h 0x0808 [] (fwCommitBody h) s)

/-- A bank write that was cut short or failed leaves the bank that does not run as it was or damaged: a free draw (log
entry 100). -/
def spoilBank (s0 : State) : State :=
  let (n, s) := drawFree s0
  { s with sec := { s.sec with bankBad := if bitAt n 0 then s.sec.bankBad ||| 2 ^ bankIdle s else s.sec.bankBad } }

/-- The end of a FW_COMMIT: the staged image verifies and its bank becomes TRIAL, or FW_ERR says why not (R394). `ok`
is the outcome of the flash write, which waits for its turn (R457); an image that does not verify is not written. The staging is emptied with the bank it belongs to. An image the recovery loader
commits runs at once (R395). -/
def fwCommitDone (ok : Bool) (s : State) : State :=
  if s.sec.commit.isNone then s
  else
    let img := s.sec.fwData
    let err := if fwError s img = 0 then (if ok then 0 else 5) else fwError s img
    if fwError s img = 0 ∧ flashNow s ≠ some 4 then s else
    let sc := { s with sec := { s.sec with commit := none } }
    let sw := if err = 0 ∨ err = 5 then countErase 4 (bankIdle s) sc else sc
    let s0 := if err = 5 then spoilBank sw else sw
    if err ≠ 0 then logEvent 0x0053 0x0808 (le 1 2 ++ le 1 (bankIdle s)) (endRun 0x0808 0 2 (evalCert (s0.wr R.SEC_FW.FW_ERR 0 err)))
    else
      let b := bankIdle s
      let sec := { s0.sec with
        fwLen := none, fwData := []
        bankBad := if bitAt s0.sec.bankBad b then s0.sec.bankBad - 2 ^ b else s0.sec.bankBad }
      let s1 := { s0 with sec := if b = 0 then { sec with bankA := some img } else { sec with bankB := some img } }
      let s2 := (setBankState b 2 s1).wr R.SEC_FW.TRIAL_STARTS 0 0
      let s3 := if s.rd R.SEC_STATUS.RECOVERY = 1 then (runBank b s2).wr R.SEC_STATUS.RECOVERY 0 0
        else s2
      logEvent 0x0053 0x0808 (le 1 1 ++ le 1 b) (endRun 0x0808 0 1 (evalCert s3))

def execFwCommitDone (ok : Bool) (s : State) : Host.Outcome State Fault Refusal := .next (fwCommitDone ok s)

/-- What FW_INFO says of one bank: STATE, VERSION and SVN. -/
def bankInfo (s : State) (b : Nat) : List Byte :=
  le 1 (bankState s b) ++ le 4 (leAt (bankImage s b) 0x0C 4) ++ le 2 (leAt (bankImage s b) 0x10 2)

def fwInfoBody (s : State) : Res := doneWith (bankInfo s 0 ++ bankInfo s 1) s

def execFwInfo (h : Hdr) (s : State) : Host.Outcome State Fault Refusal := .next (acceptCmd h 0x0809 [] fwInfoBody s)

/-! ### At a start (R389, R395) -/

/-- Every slot with a counter takes the value given, at most the greatest of the register, above every epoch limit. -/
def setCounters (f : Nat → Nat) (s : State) : State :=
  (List.range 16).foldl (fun s k => if hasCounter s k then s.wr2 R.SEC_CTR.C 0 k (min (2 ^ 32 - 1) (f k)) else s) s

/-- The counters at a start (R389): kept, restored from the checkpoint, or restarted at a new epoch. `kept` says that
retention holds and the start is warm. -/
def restoreCounters (kept : Bool) (s : State) : State :=
  let s0 := { s with sec := { s.sec with cpRun := none, revokes := [] } }
  let s1 :=
    if kept then s0
    else if bitAt s.sec.cpBad 0 = false then setCounters (fun k => s.rd R.SEC_CP.CP 0 k + 1024) s0
    else if bitAt s.sec.cpBad 1 = false then
      let old := fun (k : Nat) => sget (fun _ => 0) s.sec.cpOld k
      setCounters (fun k => old k + 1024) (s0.each (List.range 16) (fun s k =>
        if hasCounter s k then s.wr2 R.SEC_CP.CP 0 k (old k) else s))
    else if s.sec.epoch < 7 then
      let e := s.sec.epoch + 1
      let s2 := { s0 with sec := { s0.sec with epoch := e, cpOld := ((List.range 16).filter (hasCounter s)).map (fun k => (k, e * 0x20000000)), cpBad := 0 } }
      let s3 := ((List.range 16).filter (hasCounter s)).foldl (fun s k => s.wr2 R.SEC_CP.CP 0 k (e * 0x20000000))
        (setCounters (fun _ => e * 0x20000000) s2)
      ((s3.wr R.SEC_STATUS.EPOCH 0 e).raise R.SEC_STATUS.CTR_LOST).raise R.SEC_EVENT.CTR_LOST_EV
    else s0.each (List.range 16) (fun s k =>
      if hasCounter s k ∧ s.rd R.SEC_SLOT.STATE 0 k = 1 then
        (s.wr2 R.SEC_SLOT.STATE 0 k 2).raise R.SEC_EVENT.EXHAUST_EV
      else s)
  startCheckpoint (checkpointDue s1) ((List.range 16).foldl (fun s k => exhaustSlot k s) s1)

/-- The minima of R392 that the header of an image meets. -/
def minimaMet (s : State) (img : List Byte) : Bool :=
  decide (s.rd R.SEC_FW.KGEN_MIN ≤ byteAt img 6) && decide (s.rd R.SEC_FW.SVN_MIN ≤ leAt img 0x10 2)

/-- Whether the image of a bank verifies (R392); the signature of the image the module is shipped with does (log entry 15),
until its bytes decay (R458). -/
def bankVerifies (s : State) (b : Nat) : Bool :=
  !bitAt s.sec.bankBad b && match (if b = 0 then s.sec.bankA else s.sec.bankB) with
  | none => minimaMet s Config.shippedFw
  | some img => decide (fwError s img = 0)

/-- The firmware bank a start runs (R395). `fatal` says that a watchdog or a lockstep mismatch caused the start. -/
def chooseBank (fatal : Bool) (s : State) : State :=
  let trial := if bankState s 0 = 2 then some 0 else if bankState s 1 = 2 then some 1 else none
  let s1 := match trial with
    | some b =>
      if (fatal ∧ bankRun s = b) ∨ 3 ≤ s.rd R.SEC_FW.TRIAL_STARTS ∨ bankVerifies s b = false then
        (setBankState b 0 s).raise R.SEC_EVENT.ROLLBACK_EV
      else runBank b (s.wr R.SEC_FW.TRIAL_STARTS 0 (s.rd R.SEC_FW.TRIAL_STARTS + 1))
    | none => s
  let runsTrial := trial.any (fun b => decide (bankState s1 b = 2))
  if runsTrial then s1
  else
    let confirmed := [0, 1].find? (fun b => decide (bankState s1 b = 1) && bankVerifies s1 b)
    let previous := [0, 1].find? (fun b => decide (bankState s1 b = 3) && bankVerifies s1 b)
    match confirmed, previous with
    | some b, _ => runBank b s1
    | none, some b => runBank b s1
    | none, none => s1.raise R.SEC_STATUS.RECOVERY

end Sys2Proof.Machine
end

