-- ==== Sys2Proof/Machine/View.lean ====
section
/-! DEFINITION. What the register window shows: the value of every register, those that show other state of the block
included (R8, R10, R42, R80, and the register tables). A read has no effect here. -/

namespace Sys2Proof.Machine

open Sys2Proof

/-- DEV_STATE (R42). -/
def devState (s : State) : Nat :=
  let bs := (List.range 4).filter (cfgOk s)
  if s.rd R.ID_STATUS.OPT_SRC = 3 ∨ s.flag R.ID_STATUS.MIN_SERVICE then 3
  else if bs.any (fun b => decide (2 ≤ modeOf s b)) then 2
  else if bs.any (fun b => decide (modeOf s b = 1)) then 1
  else 0

/-- DEV_STATUS (R42). -/
def devStatus (s : State) : Word :=
  0 |> put R.DEV_STATUS.KON_OUT (konMask s)
    |> put R.DEV_STATUS.KRB (readsMask s)
    |> put R.DEV_STATUS.ANY_LATCHED (b2n ((List.range 4).any (fun b => s.flag R.BR_STATUS.LATCHED b)))
    |> put R.DEV_STATUS.ANY_RT (b2n ((List.range 4).any (fun b => decide (modeOf s b = 5))))
    |> put R.DEV_STATUS.DEV_STATE (devState s)
    |> put R.DEV_STATUS.CFG_VALID (bitsMask ((List.range 4).filter (cfgOk s)))
    |> put R.DEV_STATUS.MODE_A (modeOf s 0) |> put R.DEV_STATUS.MODE_B (modeOf s 1)
    |> put R.DEV_STATUS.MODE_C (modeOf s 2) |> put R.DEV_STATUS.MODE_D (modeOf s 3)

/-- RAM_FREE: KiB of image RAM not taken by sections and digests (R75, R78). -/
def ramFree (s : State) : Nat :=
  (524288 - ((List.range 4).map (fun b => match (s.br b).ram with | some r => r.bytes.length + 64 | none => 0)).foldl (· + ·) 0)
    / 1024

/-- VG_STATUS (R333). -/
def vgStatus (s : State) : Word :=
  0 |> put R.VG_STATUS.RPQ_SPI s.host.spi.rp.length |> put R.VG_STATUS.RPQ_CAN s.host.can.rp.length
    |> put R.VG_STATUS.RXQ_SPI s.host.spi.rx.length |> put R.VG_STATUS.RXQ_CAN (min 2 s.host.can.rx.length)
    |> put R.VG_STATUS.CAN_ON (b2n (canOn s))

/-- RAMP_LEFT: ms to the end of the ramp that runs (R150). -/
def rampLeft (s : State) (b : Nat) : Nat :=
  match (s.br b).ramp with
  | some r => divOpen 5 ((match r.tr with | some t => t + r.len | none => s.now + r.len) - s.now) tMs
  | none => 0

/-- The panes of full records, and of records being read (R290, R291). -/
def heldPanes (s : State) (reading : Bool) : Nat :=
  ((s.capture.records.filter (fun r => r.reading == reading)).flatMap (fun r => r.panes)).length

/-- The rewrite of a GRAPH_START runs (R416). -/
def rewriting (s : State) : Bool := match s.rst.rewrite with | some (_, t) => decide (s.now < t) | none => false

/-- The levels whose reach a source still holds in reset (R407). -/
def heldLevels (s : State) : Nat :=
  bitsMask (((s.rst.asserted.map (fun e => e.level)).filter (fun l => match s.rst.owed with
    | some b => decide (b < l) | none => true)).eraseDups)

/-- The crossing XG_SEL shows (R435). -/
def shownCrossing (s : State) : Crossing := crossing s (s.rd R.XG_SEL.ID)

/-- The two words of the timestamp (R436). -/
def tsHalf (s : State) (high : Bool) : Word := BitVec.ofNat 32 (if high then tsNow s / 2 ^ 32 else tsNow s)

/-- The number of the newest entry of the event log, 0 where it holds none (log entry 60). -/
def logHead (s : State) : Nat := match (logHeld s).getLast? with | some e => e.seq | none => 0

/-- A word as a number of 32 bits. -/
def word (n : Nat) : Word := BitVec.ofNat 32 n

/-- Registers of block 0, the reset block and the clock block that show other state. -/
def viewGlobal (s : State) (base : Nat) (w : Word) : Word :=
  if base = A.ID_FW then word (leAt (bankImage s (bankRun s)) 0x0C 4)
  else if base = A.ID_SERIAL_LO then word Config.serial.toNat
  else if base = A.ID_SERIAL_HI then word (Config.serial.toNat / 2 ^ 32)
  else if base = A.DEV_STATUS then devStatus s
  else if base = A.GR_LIB then put R.GR_LIB.RAM_FREE (ramFree s) w
  else if base = A.GR_LIBVER then put R.GR_LIBVER.LIB_VER libVer w
  else if base = A.VG_EVENT then word (vgEvent s)
  else if base = A.VG_STATUS then vgStatus s
  else if base = A.VG_ASYNC then put R.VG_ASYNC.RUNNING (satur 4 s.host.running.length) w
  else if base = A.BG_FLASH then put R.BG_FLASH.SINCE_H (satur 16 ((s.now - s.bg.patrolAt) / (3600 * tSec))) w
  else if base = A.BG_WEAR then
    wearWord s
  else if base = A.LOG_HEAD then word (logHead s)
  else if base = A.LOG_COUNT then put R.LOG_COUNT.COUNT (min 131072 (logHeld s).length) w
  else if base = A.LOG_STAT then put R.LOG_STAT.PENDING s.log.buf.length w
  else if base = A.RS_OPT then put R.RS_OPT.OPT_BUSY (b2n (s.rst.optRun.isSome || rewriting s)) w
  else if base = A.RS_STATUS then put R.RS_STATUS.HELD (heldLevels s) w
  else if base = A.TS_LO then tsHalf s false
  else if base = A.TS_HI then tsHalf s true
  else if base = A.XG_STAT then
    0 |> put R.XG_STAT.XG_BAD (b2n (crossingBad (s.rd R.XG_SEL.ID) (shownCrossing s) s)) |> put R.XG_STAT.INFLT (shownCrossing s).flight
      |> put R.XG_STAT.AVAIL (shownCrossing s).avail
  else if base = A.XG_STALL then word (shownCrossing s).stalls
  else w

/-- Registers of a bridge, an engine, Canopy and a DRAM bank that show other state; `i` is the instance. -/
def viewBridge (s : State) (base i : Nat) (w : Word) : Word :=
  if base = A.BR_STATUS then
    put R.BR_STATUS.SITE_CLOSED (b2n (siteClosed s i)) (put R.BR_STATUS.MOTOR_CONN (b2n (motorConn s i)) w)
  else if base = A.BR_MODE_MS then word (satur 32 ((s.now - (s.br i).modeAt) / tMs))
  else if base = A.TR_RAMP then put R.TR_RAMP.RAMP_LEFT (rampLeft s i) w
  else if base = A.EN_BIST then put R.EN_BIST.BIST_AGO (satur 16 ((s.now - (s.eng i).passAt) / tMs)) w
  else if base = A.CN_LEDGER then put R.CN_LEDGER.SINCE_CP (satur 16 ((s.now - s.ledger.cpFrom) / tSec)) w
  else if base = A.CN_DRAM then
    put R.CN_DRAM.FREE (254 - ((usedPanes s).filter (fun p => decide (p / 256 = i))).length) w
  else w

/-- The ring ledger's registers of switch `i`; `j` is the column of LG_ROWm. -/
def viewLedger (s : State) (base i j : Nat) (w : Word) : Word :=
  let e := s.entry i
  if base = A.LG_DAMAGE then word e.damage
  else if base = A.LG_RATE then word e.rate
  else if base = A.LG_CFG then put R.LG_CFG.NF_SEL e.nfSel w
  else if base = A.LG_STATUS then
    0 |> put R.LG_STATUS.VALID (b2n e.valid) |> put R.LG_STATUS.SAT (b2n e.sat) |> put R.LG_STATUS.PEAK e.peak
  else if base = A.LG_ENERGY_LO then word e.energy
  else if base = A.LG_ENERGY_HI then word (e.energy / 2 ^ 32)
  else if base = A.LG_CYCLES then word e.cycles
  else if base = A.LG_ONTIME then word e.ontime
  else if base = A.LG_ROW then word (e.countAt (8 * s.rd R.LG_ROW_SEL.ROW i + j))
  else w

/-- The buffer window of controller `c`: the words of the object MO_SEL names (R347). -/
def viewBuffer (s : State) (c k : Nat) : Word := word ((s.obj c (s.rd R.MO_SEL.MO_SEL c)).buf.getD k 0)

/-- A signed field of `n` bits whose reserved bits above copy its sign (IN_OFS, IN_NEW_OFS, SH_CARRY). -/
def signCopies (n : Nat) (w : Word) : Word := BitVec.ofNat 32 (ofSigned 32 (toSigned n w.toNat))

/-- Registers of capture, CAN, safety, measurement and security that show other state. -/
def viewRest (s : State) (base i j : Nat) (w : Word) : Word :=
  if base = A.CAP_PANES0 then
    0 |> put R.CAP_PANES0.FILLING (16 + (fillingPanes s).length) |> put R.CAP_PANES0.FREE (2032 - (usedPanes s).length)
  else if base = A.CAP_PANES1 then
    0 |> put R.CAP_PANES1.READING (heldPanes s true) |> put R.CAP_PANES1.FULL (heldPanes s false)
  else if base = A.BUF_ID then viewBuffer s i 0
  else if base = A.BUF_CTL then viewBuffer s i 1
  else if base = A.BUF_TS_LO then viewBuffer s i 2
  else if base = A.BUF_TS_HI then viewBuffer s i 3
  else if base = A.BUF_DATA then viewBuffer s i (4 + j)
  else if base = A.IN_OFS ∨ base = A.IN_NEW_OFS then signCopies 20 w
  else if base = A.SH_CARRY then signCopies 26 w
  else if base = A.SF_TEST then word (sfTest s)
  else if base = A.SF_LOG then put R.SF_LOG.LOG_COUNT s.sill.log.length w
  else if base = A.TW_REF then put R.TW_REF.REF_NOM (Config.refNom i) w
  else w

/-- A field with access code WS reads 0 (R8). -/
def hideWs (r : RegDef) (w : Word) : Word :=
  r.fields.foldl (fun w f => match f.acc with
    | .WS => BitVec.ofNat 32 (setBits w.toNat f.lo f.width 0)
    | _ => w) w

/-- The signal whose word the window shows at an address (R80). -/
def winSignal (a : Nat) : Option Nat := if 0x200000 ≤ a ∧ a < 0x204000 then some ((a - 0x200000) / 4) else none

/-- What a read of address `a` returns (R8, R10). -/
def viewReg (s : State) (a : Nat) : Word :=
  match winSignal a with
  | some n => s.sigWord n
  | none =>
    match regAt a with
    | none => 0
    | some (r, i, j) =>
      let w := s.reg a
      if a < 0x100000 then viewGlobal s r.base (hideWs r w)
      else if a < 0x400000 then viewBridge s r.base i (hideWs r w)
      else if 0xA00000 ≤ a then viewLedger s r.base i j (hideWs r w)
      else viewRest s r.base i j (hideWs r w)

end Sys2Proof.Machine
end

