-- ==== Sys2Proof/Machine/Options.lean ====
section
/-! DEFINITION. The option image (R408 to R416): records and ranges, validity, loading, OPTION_WRITE and GRAPH_START. -/

namespace Sys2Proof.Machine

open Sys2Proof

/-! ### Ranges of fields -/

/-- The least and greatest value of a field whose range is narrower than its width, or the whole width. -/
def fieldRange (r : RegDef) (f : FieldDef) : Nat × Nat :=
  match rangeTable.find? (fun e => e.1 == r.base && e.2.1 == f.lo) with
  | some e => (e.2.2.1, e.2.2.2)
  | none => (0, 2 ^ f.width - 1)

/-- The codes of a converter's channels: an external input or a diagnostic channel (R254). -/
def inputCode (v : Nat) : Bool := decide (v < 8) || decide (0x10 ≤ v ∧ v ≤ 0x1B)

/-- The codes of a slot: a channel, the check slot or the end of the list (R256). -/
def slotCode (v : Nat) : Bool := inputCode v || decide (v = 0x20) || decide (v = 0xFF)

/-- A value lies within its field's range. -/
def fieldOk (r : RegDef) (f : FieldDef) (v : Nat) : Bool :=
  if r.base = A.CV_SLOTS0 ∨ r.base = A.CV_SLOTS1 then slotCode v
  else if (r.base = A.CV_CFG ∧ f.lo = 16) ∨ (r.base = A.TW_CFG ∧ f.lo = 24) then inputCode v
  else if r.base = A.CV_CFG ∧ f.lo = 0 then decide (v < 24) || decide (v = 255)
  else decide ((fieldRange r f).1 ≤ v) && decide (v ≤ (fieldRange r f).2)

/-- Ranges that two fields of one register share: TP_W at most an eighth of TP_PER, and LO_TH below HI_TH. -/
def pairOk (r : RegDef) (w : Nat) : Bool :=
  let v := fun (f : Fld) => bitsOf w f.lo f.width
  if r.base = A.SF_TP then decide (v R.SF_TP.TP_W ≤ 125 * v R.SF_TP.TP_PER)
  else if r.base = A.DRV_DRAIN then decide (v R.DRV_DRAIN.LO_TH < v R.DRV_DRAIN.HI_TH)
  else true

/-- DISC_T: 5 to 500 ms; 0 where the input has no function (R377; 13_shutter_safety.md, worked example). -/
def discOk (func t : Nat) : Bool := decide (5 ≤ t ∧ t ≤ 500) || decide (func = 0 ∧ t = 0)

/-- The fields of a register that come from the option image. -/
def optionFields (r : RegDef) : List FieldDef := r.fields.filter (fun f => f.src == .option)

/-! ### Copies (R409 to R411) -/

/-- A record: its words W and VALUE. -/
structure OptRec where
  w : Nat
  v : Nat
  deriving DecidableEq, Repr

def OptRec.kind (r : OptRec) : Nat := bitsOf r.w 28 4
def OptRec.addr (r : OptRec) : Nat := bitsOf r.w 0 24

/-- The controller and object of a mapping pair. -/
def OptRec.obj (r : OptRec) : Nat × Nat := (bitsOf r.w 8 2, bitsOf r.w 0 6)

/-- NREC and GEN of a copy, and its records. -/
def copyNrec (bs : List Byte) : Nat := leAt bs 6 2
def copyGen (bs : List Byte) : Nat := leAt bs 8 4
def copyRecs (bs : List Byte) : List OptRec :=
  (List.range (copyNrec bs)).map (fun k => ⟨leAt bs (0x20 + 8 * k) 4, leAt bs (0x24 + 8 * k) 4⟩)

/-- A record meets R410, and every field it gives lies within its range. -/
def recOk (r : OptRec) : Bool :=
  decide (bitsOf r.w 24 4 = 0) &&
  (match r.kind with
   | 0 => match regAt r.addr with
     | some (d, _, _) => optionFields d != [] &&
       (optionFields d).all (fun f => fieldOk d f (bitsOf r.v f.lo f.width)) && pairOk d r.v
     | none => false
   | 1 => decide (bitsOf r.w 10 14 = 0 ∧ bitsOf r.w 6 2 = 0 ∧ bitsOf r.v 0 8 ≤ 62 ∧ bitsOf r.v 14 2 = 0 ∧ bitsOf r.v 17 15 = 0)
   | 2 => decide (r.addr = 0 ∧ r.v ≤ 2)
   | _ => false)

/-- The pairs of one object: at most 15, of one byte order. -/
def pairsOk (rs : List OptRec) : Bool :=
  let ps := rs.filter (fun r => r.kind = 1)
  ps.all (fun r =>
    let same := ps.filter (fun q => q.obj = r.obj)
    decide (same.length ≤ 15) && same.all (fun q => bitsOf q.v 16 1 = bitsOf r.v 16 1))

/-- The value the records leave in a register, none where they give it none. -/
def recValue (rs : List OptRec) (a : Nat) : Option Nat :=
  (rs.filter (fun r => decide (r.kind = 0 ∧ r.addr = a))).getLast?.map (fun r => r.v)

/-- The discrepancy times of the safety inputs lie within their range (R370, R377). -/
def discsOk (rs : List OptRec) : Bool :=
  let time := fun (v : Nat) => bitsOf v R.SF_STO_TIME.DISC_T.lo R.SF_STO_TIME.DISC_T.width
  rs.all (fun r => decide (r.kind ≠ 0) ||
    (if r.addr = A.SF_STO_TIME then discOk 1 (time r.v)
     else match (List.range 8).find? (fun i => A.SF_SIN_TIME + 8 * i = r.addr) with
       | some i => discOk (match recValue rs (A.SF_SIN_CFG + 8 * i) with
           | some v => bitsOf v R.SF_SIN_CFG.FUNC.lo R.SF_SIN_CFG.FUNC.width | none => 0) (time r.v)
       | none => true))

/-- The bytes IMG_CRC covers. -/
def crcBytes (bs : List Byte) : List Byte := bs.take 0x1C ++ slice bs 0x20 (8 * copyNrec bs)

/-- A copy is valid (R411). -/
def copyValid (bs : List Byte) : Bool :=
  decide (leAt bs 0 4 = 0x54504F5A) && decide (leAt bs 4 2 = 1) && decide (1 ≤ copyNrec bs ∧ copyNrec bs ≤ 2044) &&
  decide (leAt bs 0x1C 4 = crc32c (crcBytes bs)) && (copyRecs bs).all recOk && pairsOk (copyRecs bs) && discsOk (copyRecs bs) &&
  decide (((copyRecs bs).filter (fun r => r.kind = 2)).length = 1)

/-- Copy 0 is copy 1 of the spec, copy 1 its copy 2. -/
def State.optCopy (s : State) (k : Nat) : List Byte := if k = 0 then s.rst.copy1 else s.rst.copy2

/-- A copy replaced. -/
def setCopy (k : Nat) (bs : List Byte) (s : State) : State :=
  { s with rst := if k = 0 then { s.rst with copy1 := bs } else { s.rst with copy2 := bs } }

/-- The valid copy with the greater GEN, copy 1 where both are equal; none where neither is valid (R411). -/
def chosenCopy (s : State) : Option Nat :=
  match copyValid s.rst.copy1, copyValid s.rst.copy2 with
  | true, true => some (if genNewer (copyGen s.rst.copy1) (copyGen s.rst.copy2) then 0 else 1)
  | true, false => some 0
  | false, true => some 1
  | false, false => none

/-- VALID1, VALID2, GEN1 and GEN2. -/
def showCopies (s : State) : State :=
  s |>.wr R.RS_OPT.VALID1 0 (b2n (copyValid s.rst.copy1)) |>.wr R.RS_OPT.VALID2 0 (b2n (copyValid s.rst.copy2))
    |>.wr R.RS_OPT_GEN1.GEN 0 (if copyValid s.rst.copy1 then copyGen s.rst.copy1 else 0)
    |>.wr R.RS_OPT_GEN2.GEN 0 (if copyValid s.rst.copy2 then copyGen s.rst.copy2 else 0)

/-! ### Loading (R411) -/

/-- A record written into the running registers, or into the mapping of a message object. -/
def applyRec (r : OptRec) (s : State) : State :=
  match r.kind with
  | 0 => match regAt r.addr with
    | some (d, _, _) => (optionFields d).foldl (fun s f =>
        s.setReg r.addr (BitVec.ofNat 32 (setBits (s.reg r.addr).toNat f.lo f.width (bitsOf r.v f.lo f.width)))) s
    | none => s
  | 1 =>
    let c := r.obj.1
    let k := r.obj.2
    let old := match (s.obj c k).map with | some (_, ps) => ps | none => []
    s.setObj c k { s.obj c k with map := some (bitAt r.v 16, old ++ [(bitsOf r.v 0 8, bitsOf r.v 8 6)]) }
  | _ => s.wr R.GR_STORE.START_SLOT 0 r.v

/-- An image applied: its records in order, and NREC. -/
def applyImage (bs : List Byte) (s : State) : State :=
  ((copyRecs bs).foldl (fun s r => applyRec r s) s).wr R.RS_OPT.NREC 0 (copyNrec bs)

/-! ### OPTION_WRITE (R415) -/

/-- The copy to be written. -/
def targetCopy (s : State) : Nat :=
  match copyValid s.rst.copy1, copyValid s.rst.copy2 with
  | false, _ => 0
  | true, false => 1
  | true, true => if genNewer (copyGen s.rst.copy1) (copyGen s.rst.copy2) then 1 else 0

/-- The addresses of every instance of a register. -/
def regAddrs (r : RegDef) : List Nat :=
  (List.range r.count).flatMap (fun i => (List.range r.count2).map (fun j => r.base + i * r.stride + j * r.stride2))

/-- The registers R410 admits, in ascending address order. -/
def optionAddrs : List Nat :=
  sortBy (fun a b => decide (a ≤ b)) ((regTable.filter (fun r => optionFields r != [])).flatMap regAddrs)

/-- The mapping pairs of every message object, as records. -/
def pairRecs (s : State) : List OptRec :=
  (List.range 4).flatMap (fun c => (List.range 64).flatMap (fun k =>
    match (s.obj c k).map with
    | some (big, ps) => ps.map (fun p => ⟨0x10000000 + 256 * c + k, p.1 + 256 * p.2 + 65536 * b2n big⟩)
    | none => []))

/-- The records of the running configuration. -/
def runningRecs (s : State) : List OptRec :=
  optionAddrs.map (fun a => ⟨a, (viewReg s a).toNat⟩) ++ pairRecs s ++ [⟨0x20000000, s.rd R.GR_STORE.START_SLOT⟩]

/-- GEN of the next image: one above the greatest valid GEN; 1 where no copy is valid (log entry 61). -/
def nextGen (s : State) : Nat :=
  match chosenCopy s with
  | some k => (copyGen (s.optCopy k) + 1) % 2 ^ 32
  | none => 1

/-- An image as bytes: header, IMG_CRC and records (R409). -/
def imageBytes (gen : Nat) (rs : List OptRec) : List Byte :=
  let head := le 4 0x54504F5A ++ le 2 1 ++ le 2 rs.length ++ le 4 gen ++ List.replicate 16 0
  let body := rs.flatMap (fun r => le 4 r.w ++ le 4 r.v)
  head ++ le 4 (crc32c (head ++ body)) ++ body

/-- Writes to a copy so far. -/
def copyWear (s : State) (k : Nat) : Nat := if k = 0 then s.rd R.RS_OPT_WEAR.WEAR1 else s.rd R.RS_OPT_WEAR.WEAR2

/-- OPTION_WRITE after its authentication step: the copy being written is invalid until its read-back (R425). -/
def optionWriteChecks (h : Hdr) (s : State) : Res :=
  let k := targetCopy s
  if s.rst.optRun.isSome ∨ rewriting s then refuse stBusy s
  else if 10000 ≤ copyWear s k then refuse stNoResource s
  else
    let img := imageBytes (nextGen s) (runningRecs s)
    let s1 := setCopy k [] (s.countUp (if k = 0 then R.RS_OPT_WEAR.WEAR1 else R.RS_OPT_WEAR.WEAR2))
    let s2 := { s1 with rst := { s1.rst with optRun := some (k, img) } }
    ⟨stAccepted, [], none, beginRun 0x0105 h.seq 0 (s2.raise R.RS_OPT.OPT_BUSY)⟩

def optionWriteBody (h : Hdr) (s : State) : Res := withAuth h 0x0105 [] .any s (optionWriteChecks h)

def execOptionWrite (h : Hdr) (s : State) : Host.Outcome State Fault Refusal :=
  .next (acceptCmd h 0x0105 [] (optionWriteBody h) s)

/-- OPTION_WRITE_DONE: the read-back of the copy. A configuration of more records than a copy holds is not read back as
valid. -/
def optionWriteDone (ok : Bool) (s : State) : State :=
  match s.rst.optRun with
  | none => s
  | some (k, img) =>
    let s1 := { s with rst := { s.rst with optRun := none } } |>.clear R.RS_OPT.OPT_BUSY
    if ok ∧ copyValid img then
      let s2 := setCopy k img { s1 with rst := { s1.rst with retained := some img } }
      endRun 0x0105 0 1 ((showCopies s2).wr R.RS_OPT.NREC 0 (copyNrec img))
    else endRun 0x0105 0 2 ((showCopies s1).raise R.RS_EVENT.OPT_WR_EV)

def execOptionWriteDone (ok : Bool) (s : State) : Host.Outcome State Fault Refusal := .next (optionWriteDone ok s)

/-! ### GRAPH_START (R416) -/

/-- An image with another start slot, its GEN kept. -/
def withStartSlot (slot : Nat) (bs : List Byte) : List Byte :=
  imageBytes (copyGen bs) ((copyRecs bs).map (fun r => if r.kind = 2 then { r with v := slot } else r))

/-- GRAPH_START after its authentication step: the valid copy with the greater GEN and the retained RAM image take the
start slot; the rewrite may run for 1 ms after the reply (log entry 121). -/
def graphStartChecks (slot : Nat) (s : State) : Res :=
  if 2 < slot then refuse stBadParam s
  else if s.rd R.ID_STATUS.OPT_SRC = 3 then refuse stWrongMode s
  else if s.rst.optRun.isSome then refuse stBusy s
  else
    let s1 := match chosenCopy s with
      | some k =>
        let t := setCopy k (withStartSlot slot (s.optCopy k)) s
        { t with rst := { t.rst with rewrite := some (k, t.now + tMs) } }
      | none => s
    let s2 := { s1 with rst := { s1.rst with retained := s1.rst.retained.map (withStartSlot slot) } }
    done (s2.wr R.GR_STORE.START_SLOT 0 slot)

def graphStartBody (h : Hdr) (slot : Nat) (s : State) : Res :=
  withAuth h 0x0306 (le 1 slot) .any s (graphStartChecks slot)

def execGraphStart (h : Hdr) (slot : Nat) (s : State) : Host.Outcome State Fault Refusal :=
  .next (acceptCmd h 0x0306 (le 1 slot) (graphStartBody h slot) s)

end Sys2Proof.Machine
end

