-- ==== Sys2Proof/Machine/Traction.lean ====
section
/-! DEFINITION. Encoder interfaces (R142 to R146) and pulse inputs (R147). -/

namespace Sys2Proof.Machine

open Sys2Proof

/-! ### Ownership (R142, R147) -/

/-- The bridge that owns encoder `e`: exactly one names it. -/
def encOwner (s : State) (e : Nat) : Option Nat :=
  match (List.range 4).filter (fun b => s.flag R.TR_ENC_CFG.ENC_EN b && decide (s.rd R.TR_ENC_CFG.ENC_SEL b = e)) with
  | [b] => some b
  | _ => none

/-- The bridge that owns pulse input `p`. -/
def pulseOwner (s : State) (p : Nat) : Option Nat :=
  match (List.range 4).filter (fun b => s.flag R.TR_PULSE_CFG.PULSE_EN b && decide (s.rd R.TR_PULSE_CFG.PULSE_SEL b = p)) with
  | [b] => some b
  | _ => none

/-- The bridge's graph runs (R64). -/
def graphRuns (s : State) (b : Nat) : Bool := (s.br b).placed.isSome

/-! ### Encoder edges (R143 to R146) -/

/-- Counts per revolution: 4L. -/
def encTurn (s : State) (b : Nat) : Nat := 4 * (s.rd R.TR_ENC_CFG.LINES_M1 b + 1)

/-- Whether a single accepted edge counts up: A leads B (R143). `lv` holds the new levels, `aChanged` which input moved. -/
def encUp (lv : Nat) (aChanged : Bool) : Bool :=
  if aChanged then bitAt lv 0 != bitAt lv 1 else bitAt lv 0 == bitAt lv 1

/-- The numbering of the counts moved by `d`: the marks of the speed formula move with it. -/
def encShift (d : Int) (x : Enc) : Enc :=
  { x with
    count := x.count + d
    last := x.last.map (fun e => (e.1 + d, e.2))
    base := x.base.map (fun e => (e.1 + d, e.2)) }

/-- An accepted index (R146); of two multiples of 4L that are equally near it takes the lower one (DESIGN CHOICE, log entry
127): the first one since the count was set to 0 is remembered in every Z_MODE, and zeroes the
count where Z_MODE is not 0 then. -/
def encIndex (s : State) (b : Nat) (x : Enc) : Enc :=
  let x1 := { x with index := (x.index + 1) % 65536, ref := true }
  let m : Int := (encTurn s b : Nat)
  let r := x1.count % m
  if s.rd R.TR_ENC_OFS.Z_MODE b = 0 then x1
  else if !x.ref then encShift (-x1.count) x1
  else if s.rd R.TR_ENC_OFS.Z_MODE b = 2 ∧ 4 < min r (m - r) then
    { encShift (if r ≤ m - r then -r else m - r) x1 with idxErr := true }
  else x1

/-- An edge less than 20 ticks after the last one (R144). -/
def encFast (now : Nat) (x : Enc) : Bool := match x.last with | some (_, t) => decide (now < t + 20) | none => false

/-- The edge of the other input is in the same tick as the last one: the two are an illegal transition (R144). -/
def encTogether (now : Nat) (aChanged : Bool) (x : Enc) : Option Int :=
  match x.prev, x.last with
  | some (a, d), some (_, t) => if a ≠ aChanged ∧ t = now then some d else none
  | _, _ => none

/-- What the accepted edges of A and B do: the interface after them, and whether they make a rate error. An illegal
transition leaves the count as it was before both edges, which are accepted edges all the same (DEDUCED, log entry 79). -/
def encCount (now : Nat) (lv : Nat) (a b dir : Bool) (x : Enc) : Enc × Bool :=
  if a && b then
    let f := encFast now x
    ({ x with illegal := true, last := some (x.count, now), prev := none, fresh := true, rate := x.rate || f }, f)
  else
    match encTogether now a x with
    | some d =>
      ({ x with count := x.count - d, last := some (x.count - d, now), prev := none, illegal := true, fresh := true }, false)
    | none =>
      let d : Int := if encUp lv a != dir then 1 else -1
      let f := encFast now x
      ({ x with
        count := x.count + d, last := some (x.count + d, now), prev := some (a, d), fresh := true,
        rate := x.rate || f }, f)

/-- ENCODER_EDGE: the levels of A, B and Z (bits 0 to 2) have been stable for `stable` ticks (R144). An interface that no bridge
owns takes its inputs' levels and counts nothing (R142). -/
def encoderEdge (e levels stable : Nat) (s : State) : State :=
  match encOwner s e with
  | none => if e < 4 then s.setEnc e { s.enc e with lvl := levels % 8 } else s
  | some b =>
    let x := s.enc e
    let lv := levels % 8
    let diff := lv ^^^ x.lvl
    if diff = 0 then s
    else if stable < s.rd R.TR_ENC_CFG.FILT b then
      (s.setEnc e { x with lost := true }).countUp R.TR_ENC_CNT.LOST b
    else
      let x0 := { x with lvl := lv }
      let r := if bitAt diff 0 || bitAt diff 1 then
          encCount s.now lv (bitAt diff 0) (bitAt diff 1) (s.flag R.TR_ENC_OFS.DIR b) x0
        else (x0, false)
      let s1 := s.setEnc e (if bitAt diff 2 && bitAt lv 2 then encIndex s b r.1 else r.1)
      let s2 := if r.2 then s1.countUp R.TR_ENC_CNT.RATE_ERR b else s1
      if (bitAt diff 0 && bitAt diff 1) || ((bitAt diff 0 || bitAt diff 1) && (encTogether s.now (bitAt diff 0) x0).isSome) then
        s2.countUp R.TR_ENC_CNT.ILLEGAL b
      else s2

def execEncoderEdge (encoder levels stable : Nat) (s : State) : Host.Outcome State Fault Refusal :=
  .next (encoderEdge encoder levels stable s)

/-- The position signal (R143). -/
def encPosition (s : State) (b : Nat) (x : Enc) : Nat :=
  let m : Int := (encTurn s b : Nat)
  let q : Rat := 2 * (s.rd R.TR_ENC_CFG.POLE_PAIRS b : Rat) * ((x.count % m : Int) : Rat) / (m : Rat)
    + (toSigned 16 (s.rd R.TR_ENC_OFS.ANG_OFS b) : Rat) / 32768
  ofSigned 16 (roundHalfUp (wrapR q * 32768))

/-- No edge has been accepted within ZERO_T ms (R143, R145). -/
def encZero (s : State) (b : Nat) (x : Enc) : Bool :=
  match x.last with | some (_, t) => decide (t + s.rd R.TR_ENC_OFS.ZERO_T b * 400000 < s.now) | none => true

/-- The speed of R143 where its formula has a value: both marks stand and lie apart. -/
def encSpeed (s : State) (b : Nat) (x : Enc) : Option Int :=
  match loadedGraph s b with
  | none => some 0
  | some g =>
    if encZero s b x then some 0
    else
      match x.last, x.base with
      | some (c1, t1), some (c0, t0) =>
        if t1 = t0 ∨ x.baseIp + s.rd R.TR_ENC_OFS.ZERO_T b * 400000 < s.now then none
        else
          let dt : Rat := ((t1 : Rat) - (t0 : Rat)) * 25 / 10000000000
          let v : Rat := ((c1 - c0 : Int) : Rat) * (s.rd R.TR_ENC_CFG.POLE_PAIRS b : Rat)
            / ((encTurn s b : Rat) * dt * ((g.fb : Rat) / 1000))
          some (roundHalfUp (v * 8192))
      | _, _ => none

/-- The status signal (R145). -/
def encStatus (s : State) (b : Nat) (x : Enc) : Nat :=
  b2n x.rate + 2 * b2n x.illegal + 4 * b2n x.lost + 8 * b2n x.idxErr
    + 16 * b2n (decide (s.rd R.TR_ENC_OFS.Z_MODE b ≠ 0) && !x.ref) + 32 * b2n (encZero s b x)

/-- A write cycle of encoder `e` for its owner (R142 to R145): position and speed are withheld where the interval held a
rate error or an illegal transition. -/
def encWrite (e b : Nat) (s : State) : State :=
  let x := s.enc e
  let bad := x.rate || x.illegal
  let s1 :=
    if bad then s.raise R.TR_EVENT.ENC_ERR b
    else
      let w := s.sigWrite (0x060 + 4 * e) (encPosition s b x)
      match encSpeed s b x with
      | some v => w.sigWrite (0x061 + 4 * e) (ofSigned 16 (clampInt (-32768) 32767 v))
          (decide (v < -32768) || decide (32767 < v))
      | none => ((drawFree w).2).sigWrite (0x061 + 4 * e) (drawFree w).1
  let s2 := (s1.sigWrite (0x062 + 4 * e) x.index).sigWrite (0x063 + 4 * e) (encStatus s b x)
  s2.setEnc e { x with
    base := if x.fresh then x.last else x.base
    baseIp := if x.fresh then s.now else x.baseIp
    fresh := false, idxErr := false, lost := false, illegal := false, rate := false }

/-- A write of TR_ENC_CFG, or a reset of the owner's block, sets the count to 0, and no index has been seen since (R142, R145). The
edges accepted and the errors of the interval stand; so does the index count (DESIGN CHOICE, log entry 127). -/
def encClear (e : Nat) (s : State) : State :=
  let x := s.enc e
  s.setEnc e { encShift (-x.count) x with ref := false }

/-- A reset of the interface keeps the levels of its inputs, and the index count too (DESIGN CHOICE, log entry 127). -/
def encRestart (e : Nat) (s : State) : State := s.setEnc e { lvl := (s.enc e).lvl, index := (s.enc e).index }

/-! ### Pulse inputs (R147) -/

/-- PULSE_INPUT_EDGE: the level has been stable for `stable` ticks. An input that no bridge owns is not read: its level stands as
it is, and no period spans the gap (R147). -/
def pulseInputEdge (p : Nat) (high : Bool) (stable : Nat) (s : State) : State :=
  match pulseOwner s p with
  | none => if p < 4 then s.setPul p { s.pul p with lvl := high, rise := none, fall := none } else s
  | some b =>
    let x := s.pul p
    if x.lvl = high then s
    else if stable < s.rd R.TR_PULSE_CFG.FILT b then s.countUp R.TR_ENC_CNT.LOST b
    else if high then
      s.setPul p { x with
        lvl := true, rise := some s.now
        per := match x.rise, x.fall with
          | some r, some f => if r ≤ f then some (s.now - r, f - r) else x.per
          | _, _ => x.per }
    else s.setPul p { x with lvl := false, fall := some s.now }

def execPulseInputEdge (input : Nat) (high : Bool) (stable : Nat) (s : State) : Host.Outcome State Fault Refusal :=
  .next (pulseInputEdge input high stable s)

/-- A rising edge has been accepted within PTO ms. -/
def pulseAlive (s : State) (b : Nat) (x : Pulse) : Bool :=
  match x.rise with | some t => decide (s.now ≤ t + s.rd R.TR_PULSE_CFG.PTO b * 400000) | none => false

/-- A write cycle of pulse input `p` for its owner (R147). With a rising edge within PTO and no complete period yet there is no
period to write: it writes neither signal and sets PULSE_LOST, as without an edge (DESIGN CHOICE, log entry 127). -/
def pulseWrite (p b : Nat) (s : State) : State :=
  let x := s.pul p
  match x.per with
  | some (per, hi) =>
    if pulseAlive s b x ∧ 0 < per then
      let f : Rat := 10000000000 / (25 * (per : Rat)) / (s.rd R.TR_PULSE_FS.FS_HZ b : Rat)
      let q := roundHalfUp (f * 8192)
      let on_ : Nat := if s.flag R.TR_PULSE_CFG.POL b then per - hi else hi
      let d := roundHalfUp ((on_ : Rat) / (per : Rat) * 8192)
      (s.sigWrite (0x070 + 2 * p) (ofSigned 16 (clampInt 0 32767 q)) (decide (32767 < q))).sigWrite (0x071 + 2 * p)
        (ofSigned 16 d)
    else s.raise R.TR_EVENT.PULSE_LOST b
  | none => s.raise R.TR_EVENT.PULSE_LOST b

/-- The encoders and pulse inputs that bridge `b` owns write their signals. -/
def sourcesWrite (b : Nat) (s : State) : State :=
  let s1 := s.each ((List.range 4).filter (fun e => encOwner s e = some b)) (fun s e => encWrite e b s)
  s1.each ((List.range 4).filter (fun p => pulseOwner s p = some b)) (fun s p => pulseWrite p b s)

end Sys2Proof.Machine
end

