-- ==== Sys2Proof/Machine/ResetCtl.lean ====
section
/-! DEFINITION. The reset controller (R399 to R407): sources and levels, what each level returns to its reset state, and the
assertion and release of a source. -/

namespace Sys2Proof.Machine

open Sys2Proof

/-! ### Sources and the fuse map (R402, R403) -/

/-- The default level and the permitted levels of each source. -/
def sourceTable : List (Nat × List Nat) :=
  [(0, [0]), (0, [0]), (0, [0]), (1, [0, 1]), (4, [0, 1, 2, 4]), (1, [0, 1, 2]), (1, [0, 1]), (1, [0, 1]), (1, [0, 1]),
   (1, [0, 1]), (1, [0, 1]), (4, [0, 1, 4]), (2, [0, 1, 2]), (1, [0, 1]), (1, [0, 1]), (1, [0, 1]), (1, [0, 1]),
   (2, [0, 1, 2]), (1, [0, 1]), (2, [0, 1, 2]), (1, [0, 1]), (1, [0, 1]), (1, [0, 1, 2]), (1, [1, 2, 3, 4]), (1, [1]),
   (1, [0, 1])]

/-- The field of a source in a fuse map. -/
def mapField (m : List (Nat × Nat)) (n : Nat) : Nat := bitsOf (sget (fun _ => 0) m (n / 10)) (3 * (n % 10)) 3

/-- The acting level of a source whose map field is `f`: the encoded level, or the largest permitted level below it. A
fixed source ignores the map. -/
def actLevelOf (n f : Nat) : Nat :=
  match sourceTable[n]? with
  | none => 0
  | some (d, permitted) =>
    if n = 23 ∨ permitted.length = 1 then d else (permitted.filter (fun l => decide (l ≤ f ^^^ d))).foldl max 0

/-- The acting level of a source under the map the last start read. -/
def actLevel (s : State) (n : Nat) : Nat := actLevelOf n (mapField s.rst.map n)

/-- The sources that stay asserted until their supply, the pin or the hold releases them (R404, R424). -/
def heldSource (n : Nat) : Bool := decide (n ≤ 5) || decide (n = 24)

/-- The sources of R402 that a watchdog or a lockstep mismatch asserts (R395). -/
def fatalSource (n : Nat) : Bool := decide (7 ≤ n ∧ n ≤ 13)

/-- A source as asserted. -/
def isAsserted (s : State) (n : Nat) : Bool := s.rst.asserted.any (fun e => decide (e.source = n))

/-- A source of a level is asserted. -/
def levelHeld (s : State) (l : Nat) : Bool := s.rst.asserted.any (fun e => decide (e.level = l))

/-- RS_CAUSE, RS_COUNT and the list of asserted sources take an assertion (R406). -/
def recordSource (n l : Nat) (s : State) : State :=
  let s1 := s.raiseBit R.RS_CAUSE.CAUSE n
  let s2 := match l with
    | 1 => s1.countUp R.RS_COUNT.L1_CNT
    | 2 => s1.countUp R.RS_COUNT.L2_CNT
    | 3 => s1.countUp R.RS_COUNT.L3_CNT
    | 4 => s1.countUp R.RS_COUNT.L4_CNT
    | _ => s1
  { s2 with rst := { s2.rst with
    asserted := s2.rst.asserted.filter (fun e => decide (e.source ≠ n)) ++ [⟨n, l, s.now⟩] } }

/-! ### Registers (R9, R399) -/

/-- The registers of the units that Level 2 reaches: of the driver dies the counts and events, which no level is named to
keep, and what a field's own table returns. -/
def inReach2 (a : Nat) : Bool :=
  decide (a = A.GR_STAGE) || decide (0x480024 ≤ a ∧ a < 0x480038) || decide (0x100000 ≤ a ∧ a < 0x200000) || decide (0x300000 ≤ a ∧ a < 0x480000) ||
  decide (0x480C00 ≤ a ∧ a < 0x600000) || decide (0x700000 ≤ a ∧ a < 0x780000)

/-- Whether a level returns a field to its reset value. Level 2 keeps the running configuration. -/
def resetsAt (l : Nat) (r : RegDef) (f : FieldDef) : Bool :=
  !f.keep.contains l && (decide (l ≠ 2) || f.keep != [] || (f.src != .option && inReach2 r.base))

/-- A register word with the selected fields at their reset values. -/
def resetWord (sel : RegDef → FieldDef → Bool) (a : Nat) (w : Word) : Word :=
  match regAt a with
  | none => w
  | some (r, _, _) =>
    r.fields.foldl (fun w f => if sel r f then BitVec.ofNat 32 (setBits w.toNat f.lo f.width f.rst) else w) w

/-- The selected fields of every register at their reset values; a register the map does not list has them already. -/
def resetRegs (sel : Nat → RegDef → FieldDef → Bool) (s : State) : State :=
  { s with regs := s.regs.foldl (fun m e => sput regReset m e.1 (resetWord (sel e.1) e.1 e.2)) [] }

/-! ### Fuses (R417) -/

/-- The bits `v` of fuse word `w` blown. -/
def blowFuses (w v : Nat) (s : State) : State :=
  let old := sget (fun _ => 0) s.rst.fuses w
  { s with
    rst := { s.rst with fuses := sput (fun _ => 0) s.rst.fuses w (old ||| v) },
    sec := { s.sec with dbgLock := s.sec.dbgLock || (decide (w = 0x10) && bitAt v 0) } }

/-- A reset during a programming pulse: sources 0 to 3 leave any subset of its bits blown, every other one waits for its
end (R425). -/
def cutPulse (n : Nat) (s : State) : State :=
  match s.rst.fuseRun with
  | none => s
  | some r =>
    let s0 := { s with rst := { s.rst with fuseRun := none } }
    if n ≤ 3 then blowFuses r.word (r.value &&& (drawFree s0).1) (drawFree s0).2 else blowFuses r.word r.value s0

/-! ### What a level returns to its reset state (R399) -/

/-- Canopy remembers which engines were FAILED before the start, also across a further reset ahead of it (R153, R154). -/
def markFailed (s : State) : State :=
  s.each (List.range 16) (fun s e =>
    s.setEng e { s.eng e with failed := (s.eng e).failed || decide (s.rd R.EN_STATUS.STATE e = 5) })

/-- BIST_AGO and SINCE_CP begin at 0 again (R9). -/
def restartAges (s : State) : State :=
  let s1 := s.each (List.range 16) (fun s e => s.setEng e { s.eng e with passAt := s.now })
  { s1 with ledger := { s1.ledger with cpFrom := s1.now } }

/-- The capture units: a record being filled is lost, a full one stays in DRAM, and a read begins again. -/
def resetCapture (lost : Bool) (s : State) : State :=
  { s with
    capture := {
      units := if lost then []
        else (List.range 8).foldl (fun m u => sput (fun _ => ({} : Unit_)) m u { used := (s.unit u).used }) [],
      records := if lost then [] else s.capture.records.map (fun r => { r with reading := false }),
      pins := s.capture.pins } }

/-- The inputs of encoders and pulse inputs keep their levels; every count starts again. -/
def resetTraction (s : State) : State :=
  let s1 := s.each (List.range 4) (fun s e => encRestart e s)
  s1.each (List.range 4) (fun s p => s.setPul p { lvl := (s.pul p).lvl })

/-- A reset during the bank write of a FW_COMMIT (log entry 100). -/
def tornBank (s : State) : State := if s.sec.commit.isSome then spoilBank s else s

/-- A reset during a GRAPH_START's rewrite: that copy and the retained RAM image fail their CRC (R416). -/
def tornRewrite (s : State) : State :=
  match s.rst.rewrite with
  | some (k, t) =>
    let s1 := { s with rst := { s.rst with rewrite := none } }
    if s.now < t then { setCopy k [] s1 with rst := { (setCopy k [] s1).rst with retained := none } } else s1
  | none => s

/-- What Levels 0 and 1 return beside the registers. -/
def systemParts (l n : Nat) (s : State) : State :=
  let t := s.now
  let s1 := tornRewrite (cutPulse n (resetTraction (resetCapture (decide (l = 0)) s)))
  let s2 := tornBank (match s1.graphs.storing with | some (slot, _) => setSlot slot none false s1 | none => s1)
  let s3 := { s2 with
    board := [], aged := [], host := {}, legs := [], dies := [], convs := [], pairs := [], latched := [], cans := [], clk := {},
    bridges := [],
    sec := { s2.sec with cpRun := none, resync := none, revokes := [], load := none, fwLen := none, fwData := [], commit := none },
    graphs := { slot0 := s2.graphs.slot0, slot1 := s2.graphs.slot1 },
    cal := { copies := s2.cal.copies },
    canopy := { engines := if l = 0 then [] else s2.canopy.engines },
    ledger := if l = 0 then { copies := s2.ledger.copies } else { s2.ledger with run := none, next := [] },
    log := { s2.log with
      buf := [], recent := [], corAt := [], dropped := 0,
      next := match s2.log.flash.getLast? with | some e => e.seq + 1 | none => 0 },
    bg := { s2.bg with streams := [], patrolAt := t },
    sill := if l = 0 then {} else { log := s2.sill.log },
    rst := { s2.rst with
      starting := none, joint := none, cmds := [], fuseRun := none, optRun := none,
      retained := if l = 0 then none else s2.rst.retained } }
  s3.each (List.range 4) (fun s b => s.setBr b { modeAt := t })

/-- The crossings that Level 2 reaches (R435). -/
def controlCrossing (id : Nat) : Bool := decide (id ≤ 18) || id ∈ [20, 21, 22, 27]

/-- What Level 2 returns beside the registers. -/
def controlParts (s : State) : State :=
  let s1 := resetTraction (resetCapture false s)
  let s2 := match s1.graphs.storing with | some (slot, _) => setSlot slot none false s1 | none => s1
  let s3 := { s2 with
    board := s2.board.filter (fun e => decide (0x140 ≤ e.1 ∧ e.1 ≤ 0x1FF)),
    aged := s2.aged.filter (fun e => decide (0x140 ≤ e.1 ∧ e.1 ≤ 0x1FF)),
    legs := [], convs := [], pairs := [],
    graphs := { slot0 := s2.graphs.slot0, slot1 := s2.graphs.slot1 },
    cal := { s2.cal with runs := [], dac := 0 },
    canopy := { engines := s2.canopy.engines },
    clk := { s2.clk with xings := s2.clk.xings.filter (fun e => !controlCrossing e.1) },
    rst := { s2.rst with joint := none } }
  let s4 := s3.each (List.range 4) (fun s b =>
    s.setBr b { ram := (s.br b).ram, modeAt := s.now, opAcc := (s.br b).opAcc, opFrom := (s.br b).opFrom })
  let s5 := s4.each (List.range 48) (fun s k => s.setDie k { s.die k with linkLost := false })
  (s5.clear R.RS_STATUS.SHUTDOWN).wr R.CN_LEDGER.CP_BUSY 0 (b2n s5.ledger.run.isSome)

/-- The ACCEPTED commands that a Level 2 reset ends: averages, GRAPH_STORE and SHUTDOWN. -/
def endControlRuns (s : State) : State :=
  let s1 := s.each (s.cal.runs.map (fun e => e.1)) (fun s n => endAverage n 7 s)
  endRun 0x0104 0 3 (if s1.graphs.storing.isSome then endRun 0x0305 0 2 s1 else s1)

/-- A reset of Level 0, 1 or 2 by source `n`: every bridge seals with reason 0, and what the level reaches is as after
reset. -/
def levelReset (l n : Nat) (s : State) : State :=
  let s1 := markFailed (s.each (List.range 4) (fun s b => sealBridge b { reason := 0, pull := false } s))
  let s2 := if l = 2 then endControlRuns s1 else s1
  let s3 := resetRegs (fun _ r f => resetsAt l r f) s2
  let s4 := restartAges (if l = 2 then controlParts s3 else systemParts l n s3)
  { s4.clear R.RS_STATUS.START_DONE with rst := { (s4.clear R.RS_STATUS.START_DONE).rst with owed := some l } }

/-! ### Levels 3 and 4 (R401) -/

/-- The registers in the reach of a reset of bridge `b`: its own block, its placement in Canopy's, the sash blocks of its legs
and the blocks of its converters. -/
def inBridge (s : State) (b a : Nat) : Bool :=
  decide (0x100000 + 0x400 * b ≤ a ∧ a < 0x100400 + 0x400 * b) ||
  decide (0x380100 + 0x20 * b ≤ a ∧ a < 0x380120 + 0x20 * b) ||
  (legsOf s b).any (fun n => decide (0x400000 + 0x100 * n ≤ a ∧ a < 0x400100 + 0x100 * n)) ||
  (List.range 16).any (fun c => decide (convOwner s c = some b) && decide (0x500000 + 0x80 * c ≤ a ∧ a < 0x500080 + 0x80 * c))

/-- A reset of Level 3 or 4 during SHUTDOWN: the shutdown is abandoned (R425, log entry 100). -/
def abandonShutdown (s : State) : State :=
  if s.flag R.RS_STATUS.SHUTDOWN then endRun 0x0104 0 3 (s.clear R.RS_STATUS.SHUTDOWN) else s

/-- A reset of Level 3: the bridge seals with reason 0 and without a final ledger pull, its registers, its legs, the lists of its
converters and the counts of its encoders (R142) are as after reset. -/
def bridgeReset (b : Nat) (s : State) : State :=
  if 3 < b then s
  else
    let own := (List.range 16).filter (fun c => decide (convOwner s c = some b))
    let encs := (List.range 4).filter (fun e => encOwner s e = some b)
    let s0 := sealBridge b { reason := 0, pull := false } s
    let s1 := (s0.setBr b { s0.br b with modeAt := s0.now }).each encs (fun s e => encClear e s)
    let s2 := resetRegs (fun a r f => f.src != .option && !f.keep.contains 3 && inBridge s b a && decide (r.base ≠ A.BR_MODE_MS)) s1
    let s3 := s2.each (legsOf s b) (fun s n => s.setLeg n {})
    let s4 := s3.each own (fun s c => s.setConv c { s.conv c with slot := none, trig := 0, trigAt := none })
    abandonShutdown (startCarriers s4)

/-- BRIDGE_RESET: the effect of a Level 3 reset. -/
def execBridgeReset (bridge : Nat) (s : State) : Host.Outcome State Fault Refusal := .next (bridgeReset bridge s)

/-- A reset of Level 4: the command context of the application cores is empty, and no reply is in transmission. -/
def interpreterReset (s0 : State) : State :=
  let s := (abandonShutdown (tornRewrite s0)).each (List.range 4) (fun s c => s.setObj c 64 {})
  { s with
    host := { s.host with
      spi := { s.host.spi with rx := [], rp := [], last := none }, can := { s.host.can with rx := [], rp := [], last := none },
      seg := none, segSent := 0, heldMask := 0, held := none, heldDue := 0 },
    rst := { s.rst with cmds := [] } }

/-- INTERPRETER_RESET: the effect of a Level 4 reset. -/
def execInterpreterReset (s : State) : Host.Outcome State Fault Refusal := .next (interpreterReset s)

/-! ### Assertion and release (R404, R406, R407) -/

/-- The interpreter does not serve. -/
def stopServing (s : State) : State := { s with host := { s.host with serving := false } }

/-- What a source of a level does where nothing deeper or equal is in force. A start it meets in progress begins again at the
deeper of the two levels (R413; past the loader, log entry 119). -/
def takeReset (n l : Nat) (s : State) : State :=
  if l ≤ 2 then
    let s1 := levelReset l n s
    let owed := match s.rst.starting, s.rst.owed with | some _, some b => min b l | _, _ => l
    { s1 with rst := { s1.rst with owed := some owed, fatal := fatalSource n && decide (l ≤ 1) } }
  else if l = 4 then stopServing (interpreterReset s)
  else s

/-- The parts a reset of a level would reach are in reset already: the reset's start is still to come, or it is in progress
and has not brought up the parts of Level 2, or a source of Level 2 still holds them (R406, R407). -/
def inForce (s : State) (l : Nat) : Bool :=
  (match s.rst.starting, s.rst.owed with
   | none, some b => decide (b ≤ l)
   | some _, _ => decide (l = 2 ∨ l = 3)
   | none, none => false) || (s.rst.joint.isSome && decide (2 ≤ l))

/-- A source asserts at its level: recorded and counted, and acted on unless a reset as deep is in force. A source that
stays asserted does not assert again. -/
def assertSource (n l : Nat) (s : State) : State :=
  if heldSource n && isAsserted s n then s
  else recordSource n l (if inForce s l then s else takeReset n l s)

/-- A source asserts at its fuse-map level. -/
def assertMapped (n : Nat) (s : State) : State := assertSource n (actLevel s n) s

/-- The source of a memory of critical state. -/
def storeSource : CriticalStore → Nat
  | .optionImage => 14 | .safety => 15 | .keySlot => 16 | .signalBoard => 17 | .coreMemory => 18 | .imageRam => 19
  | .retention => 20 | .safetyLog => 21

/-- An uncorrectable error in critical state; in retention RAM it also loses retention (R402). -/
def storeError (x : CriticalStore) (s : State) : State :=
  let s1 := assertMapped (storeSource x) s
  if x = .retention then { s1 with rst := { s1.rst with retBad := true } } else s1

end Sys2Proof.Machine
end

