-- ==== Sys2Proof/Machine/Start.lean ====
section
/-! DEFINITION. The starts (R400, R407, R411 to R414, R418 to R423): what a cold and a warm start bring up, and with what. -/

namespace Sys2Proof.Machine

open Sys2Proof

/-! ### Level 0 and 1: the parts beside those of Level 2 -/

/-- The fuse map is read (R403): MAP_BAD, and RS_FMAP with the acting levels. -/
def readMap (ok : Bool) (s : State) : State :=
  let m := if ok then s.rst.fuses.filter (fun e => decide (e.1 < 4)) else []
  let s1 := { s with rst := { s.rst with map := m } } |>.wr R.RS_STATUS.MAP_BAD 0 (b2n (!ok))
  s1.each (List.range 26) (fun s n =>
    if n = 23 then s else s.wr { R.RS_FMAP.LEVEL0 with lo := 3 * (n % 10) } (n / 10) (actLevelOf n (mapField m n)))

/-- The timestamp starts at 0, and the start is counted (R436, R459). -/
def beginTimestamp (s : State) : State :=
  { s with
    clk := { s.clk with tsOff := -64 * (s.now : Int), loadDue := true },
    log := { s.log with starts := s.log.starts + 1 } }

/-- Sealed defaults (R413, R414): every option field has its reset value. -/
def sealedDefaults (s : State) : State :=
  (s.wr R.ID_STATUS.OPT_SRC 0 3).raise R.RS_EVENT.DEFAULTS_EV

/-- The option loader (R411 to R413). -/
def loadOptions (warm ramOk : Bool) (s : State) : State :=
  let bad := fun (s : State) =>
    if copyValid s.rst.copy1 && copyValid s.rst.copy2 then s else s.raise R.RS_EVENT.LOAD_EV
  showCopies (
    if s.rd R.ID_STATUS.OPT_FAILS = 3 then sealedDefaults s
    else
      match (if warm && ramOk then s.rst.retained else none), chosenCopy s with
      | some img, _ => ((applyImage img s).wr R.ID_STATUS.OPT_SRC 0 2).clear R.ID_STATUS.OPT_FAILS
      | none, some k =>
        let img := s.optCopy k
        let s1 := applyImage img { s with rst := { s.rst with retained := some img } }
        bad ((s1.wr R.ID_STATUS.OPT_SRC 0 k).clear R.ID_STATUS.OPT_FAILS)
      | none, none => bad (sealedDefaults s))

/-- The configuration of every bridge evaluated, bridge A first (R411). -/
def checkAll (s : State) : State := s.each (List.range 4) (fun s b => checkConfig b s)

/-- The clocks (R427, R429, R437, R444, R448): what CK_CFG and DL_CFG hold now is in force until the next such start. The
head stands at position 0, is aligned by definition, and takes a new EPOCH. -/
def startClocks (pllA : Bool) (s : State) : State :=
  let s1 := { s with clk := { s.clk with ck := s.reg A.CK_CFG, dl := s.reg A.DL_CFG } }
  let s2 := s1 |>.wr R.CK_STATUS.PLLA_LOCK 0 (b2n pllA) |>.wr R.CK_STATUS.BYPASS 0 (b2n (!pllA))
    |>.wr R.CK_STATUS.REF_ACT 0 (if pllA then s.rd R.CK_CFG.REF_SEL else 0)
  if pllA = false then s2
  else
    let s3 := if isHead s2 then
        s2 |>.clear R.TS_STATUS.NOT_ALIGNED |>.wr R.TS_STATUS.EPOCH 0 s.log.starts |>.wr R.DL_STATUS.POS 0 0
          |>.raise R.DL_STATUS.POS_OK
      else s2
    if linkOn s3 then { s3 with clk := { s3.clk with training := some {} } } |>.wr R.DL_STATUS.OUT_STATE 0 1 else s3

/-- The TRNG's start-up test, at every start (R391). -/
def startTrng (trng : Bool) (s : State) : State := if trng then s.clear R.SEC_STATUS.TRNG else trngHealthFail s

/-- The security island: the firmware bank, the TRNG's start-up test, the counters and the certified configuration
(R389, R391, R395). -/
def startSecurity (warm trng : Bool) (s : State) : State :=
  evalCert (restoreCounters warm (startTrng trng (chooseBank s.rst.fatal s)))

/-- The calibration in force from a record; R253 without one. -/
def putCalibration (vals : List (Nat × (Nat × Nat × Bool))) (s : State) : State :=
  s.each vals (fun s e =>
    ((s.wr R.IN_OFS.OFS e.1 e.2.1).wr R.IN_GAIN.GAIN e.1 e.2.2.1).wr R.IN_STATUS.CAL_OK e.1 (b2n e.2.2.2))

/-- The calibration at a cold start (R253, R274). -/
def restoreCalibration (s : State) : State :=
  match s.cal.copies.find? (fun c => c.ok) with
  | some c => putCalibration c.vals s
  | none => (putCalibration ((List.range 64).map (fun n => (n, (0, 0x10000000, false)))) s).raise R.CV_EVENT.CAL_LOST

/-- The flash integrity scan (R182, R274, R418 step 8): the ledger and the calibration at a cold start, the store slots at
every one. Candidates are discarded; the counts of the DRAM banks begin again at a cold start (R176). -/
def startStores (warm : Bool) (s : State) : State :=
  let s1 := s.each (List.range 64) (fun s n => dropCandidates n s)
  let s2 := if warm then s1
    else
      let s3 := (restoreCalibration (restoreLedger s1)).each (List.range 8)
        (fun s k => (s.clear R.CN_DRAM.QUAR k).clear R.CN_DRAM.COR_ERR k)
      { s3 with capture := { s3.capture with records := [] } }
  s2 |>.wr R.GR_STORE.SLOT0_OK 0 (b2n (slotPasses s2 0)) |>.wr R.GR_STORE.SLOT1_OK 0 (b2n (slotPasses s2 1))

/-- The CAN controllers go on the bus or stay in CONFIG (R337). -/
def startCan (s : State) : State :=
  s.each (List.range 4) (fun s c => showTriple c (setCanState c (b2n (s.flag R.CF_MODE.START c)) s))

/-- The safety island: the inputs judged at the start, the configuration code, and what the functions demand. -/
def startSafety (s : State) : State := applySafety (recode (judgeInputs true false (noteKon s)))

/-- Converter trims that fail their check leave every converter FAILED (R412). -/
def trimConverters (ok : Bool) (s : State) : State :=
  if ok then s
  else s.each (List.range 16) (fun s c => (s.wr R.CV_STATUS.STATE c 2).raise R.CV_EVENT.SELF_FAIL)

/-- A Level 0 or 1 start as far as the interpreter serving (R418 steps 1 to 4, R419). Without DRAM retention the safety log begins
again (R379). -/
def earlyStart (warm : Bool) (env : StartEnv) (s : State) : State :=
  let s0 := if warm then s else { s with sill := { s.sill with log := [] } }
  let s1 := checkAll (loadOptions warm env.optRam (beginTimestamp (readMap env.fuseMap s0)))
  let s2 := trimConverters env.convTrim (startSecurity warm env.trng (startClocks env.pllA s1))
  let s3 := if islandsHeld s2 then s2 else startCan s2
  startSafety s3 |>.wr R.RS_MIN.PLLA 0 (b2n (!env.pllA)) |>.wr R.RS_MIN.CORE1 0 (b2n (!env.cores))
    |>.wr R.RS_MIN.TRIM 0 (b2n (!env.trim))

/-- What follows beside the parts of Level 2 (R418 steps 5 and 8); at a Level 2 start the tests and the evaluation of every
start (R391, R396). -/
def lateStart (l : Nat) (warm : Bool) (env : StartEnv) (s : State) : State :=
  if l ≤ 1 then (startStores warm s).wr R.RS_MIN.DRAM 0 (b2n (!warm && !env.dram))
  else evalCert (startTrng env.trng s)

/-! ### The parts of Level 2 -/

/-- The die of switch `k` (R234, R248): after Level 2 a die that answers keeps its state. -/
def startDie (l : Nat) (present : Bool) (k : Nat) (s : State) : State :=
  if present = false then (s.wr R.DRV_STATUS.STATE k 0).clear R.DRV_ID.DIE_SER k |>.clear R.DRV_ID.DIE_REV k
  else
    let s1 := (s.wr R.DRV_ID.DIE_REV k (Config.dieId k / 2 ^ 24)).wr R.DRV_ID.DIE_SER k (Config.dieId k)
    louvreInit k (if l ≠ 2 ∨ dieState s k = 0 then s1.wr R.DRV_STATUS.STATE k 1 else s1)

/-- Every die handshaken, and DIES_OK. -/
def startDies (l dies : Nat) (s : State) : State :=
  (s.each (List.range 48) (fun s k => startDie l (bitAt dies k) k s)).wr R.ID_STATUS.DIES_OK 0 (popCount 48 dies)

/-- A converter (R268, R412): tested at a cold start, as it was at a warm one; without its trims it is FAILED. -/
def startConverter (l : Nat) (warm trims passes : Bool) (c : Nat) (s : State) : State :=
  let fails := fun (s : State) => (s.wr R.CV_STATUS.STATE c 2).raise R.CV_EVENT.SELF_FAIL
  if l ≤ 1 ∧ trims = false then fails s
  else if warm then s
  else if s.flag R.CV_CFG.EN c = false then s.wr R.CV_STATUS.STATE c 0
  else if passes then s.wr R.CV_STATUS.STATE c 1
  else fails s

/-- The engines (R154, R170): all tested at a cold start, at a warm one those that were FAILED; the lowest that passes is
the fallow engine. One whose test still runs shows FAILED until it ends (R419, log entry 122). -/
def startEngines (warm : Bool) (env : StartEnv) (s : State) : State :=
  let tested := fun (e : Nat) => !warm || (s.eng e).failed
  let late := fun (e : Nat) => warm && tested e && bitAt env.engineLate e
  let passes := fun (e : Nat) => !tested e || (bitAt env.engines e && !late e)
  let ok := (List.range 16).filter passes
  let s1 := s.each (List.range 16) (fun s e =>
    let x := s.eng e
    let s := s.setEng e { x with
      passAt := if tested e && passes e then s.now else x.passAt,
      lastOk := if tested e then passes e else x.lastOk, failed := false, testing := late e }
    if passes e then
      let s := if tested e then s.wr R.EN_STATUS.FAIL_CAUSE e 0 else s
      s.wr R.EN_STATUS.STATE e (if ok.head? = some e then 3 else 0)
    else if late e then (s.wr R.EN_STATUS.STATE e 5).clearBit R.CN_STATUS.IN_SERVICE e
    else failEngine e (if bitAt env.engineMem e && !bitAt env.engineLogic e then 2 else 1) (s.countUp R.EN_COUNT.BIST_FAIL e))
  let s1 := if ok.isEmpty ∧ s.flag R.CN_STATUS.NO_FALLOW = false then s1.raise R.CN_EVENT.NO_FALLOW_EV else s1
  s1 |>.wr R.CN_STATUS.IN_SERVICE 0 (bitsMask ok) |>.wr R.CN_STATUS.FALLOW 0 (ok.head?.getD 0)
    |>.wr R.CN_STATUS.NO_FALLOW 0 (b2n ok.isEmpty) |>.wr R.RS_MIN.ENGINES 0 (b2n (decide (ok.length < 2)))

/-- The graphs at the start (R76): the start slot, or after Level 2 with image RAM intact those that were loaded. -/
def startGraphs (l : Nat) (imageRam : Bool) (s : State) : State :=
  if l = 2 ∧ imageRam then s
  else loadStartSlot (s.each (List.range 4) (fun s b => unloadGraph b s))

/-- ID_STATUS MIN_SERVICE, also while the recovery loader runs (R395, log entry 120), in which the CAN transport does not run, and the reason every bridge is SEALED with at START_DONE
(R319, R420, R423, R460). -/
def showMinimum (s : State) : State :=
  let m := decide ((s.reg A.RS_MIN).toNat ≠ 0) || s.flag R.SEC_STATUS.RECOVERY
  let s0 := s.wr R.ID_STATUS.MIN_SERVICE 0 (b2n m)
  let s1 := if m then stopAllCan s0 else s0
  let reason := if m ∨ s1.rd R.ID_STATUS.OPT_SRC = 3 then 16 else 0
  s1.each (List.range 4) (fun s b => s.wr R.BR_REASON.SEAL_REASON b reason)

/-- The timebase measures NCAL at the start (R220): a free value within its valid range (log entry 93). -/
def startTimebase (s0 : State) : State :=
  let (n, s) := drawFree s0
  s.wr R.SH_TB.NCAL 0 (40 + n % 81)

/-- The parts of Level 2 at a start whose reset had level `l` (R418, R419). -/
def controlStart (l : Nat) (warm : Bool) (env : StartEnv) (s : State) : State :=
  let s1 := startDies l env.dies s
  let s2 := s1.each (List.range 16) (fun s c => startConverter l warm env.convTrim (bitAt env.converters c) c s)
  let s3 := startEngines warm env s2
  let gen := match (validCopies s3).head? with | some c => c.gen | none => 0
  let s4 := startTimebase (if l ≤ 1 ∧ warm = false then s3 else s3.wr R.CN_GEN.GEN 0 gen)
  let s4 := if l = 2 then checkAll s4 else startCarriers s4
  startGraphs l env.imageRam (s4.wr R.RS_MIN.PWM_ADC 0 (b2n (!env.pwmAdc)))

/-! ### COLD_START and WARM_START -/

/-- What a completed start shows: START_DONE, its level, kind and duration since `began`, and its entry in the event log. The
interpreter serves unless a source of Level 4 still holds it (R407, R420). -/
def startDone (l : Nat) (warm : Bool) (began ms : Nat) (s : State) : State :=
  let t := min ms 65535
  let s1 := { s with
    rst := { s.rst with owed := none, starting := none, retBad := false, fatal := false },
    host := { s.host with serving := true } }
  let s2 := s1 |>.raise R.RS_STATUS.START_DONE |>.wr R.RS_STATUS.LAST_LEVEL 0 l |>.wr R.RS_START.START_MS 0 t
    |>.wr R.ID_STATUS.START_WARM 0 (b2n warm)
    |>.wr R.RS_STATUS.RET_LOST 0 (if l = 2 then s.rd R.RS_STATUS.RET_LOST else b2n (decide (l = 1) && !warm))
  let s3 := if levelHeld s2 4 then stopServing (interpreterReset s2) else s2
  logEvent 0x0001 (b2n warm) (le 4 (s3.rd R.RS_CAUSE.CAUSE) ++ le 2 t) (reachTime (began + ms * tMs) s3)

/-- The rest of a start, past the interpreter serving (R418, R419): the parts of Level 2 stay in reset with the minimum
service set alone, and while a source of Level 2 holds them (R407). -/
def finishStart (l : Nat) (r : StartRun) (env : StartEnv) (s : State) : State :=
  let env1 := { env with convTrim := r.trims }
  let s1 := lateStart l r.warm env s
  let s2 := if islandsHeld s1 then s1
    else if levelHeld s1 2 then { s1 with rst := { s1.rst with joint := some (r.warm, env1) } }
    else controlStart l r.warm env1 s1
  startDone l r.warm r.began env.startMs (showMinimum s2)

/-- A start of Level 0 or 1 has come as far as the interpreter serving, which a source of Level 4 still holds (R407,
R420). -/
def serveEarly (r : StartRun) (ms : Nat) (s : State) : State :=
  let s1 := showMinimum s
  reachTime (r.began + ms * tMs) { s1 with
    rst := { s1.rst with starting := some r }, host := { s1.host with serving := !levelHeld s1 4 } }

/-- A start of the given kind after the reset that is owed one; nothing where a source still asserted reaches as deep as the
interpreter's own parts (R407), or where a part of the minimum service set fails and the start is retried (R422). A reset that
meets the option loader is counted, and the start begins again (R413). -/
def runStart (warm : Bool) (env : StartEnv) (s : State) : State :=
  match s.rst.owed with
  | none => s
  | some l =>
    if s.rst.asserted.any (fun e => decide (e.level ≤ max l 1)) ∨ env.minSet = false then s
    else
      match s.rst.starting with
      | some r => if r.warm = warm ∧ env.serves = false then finishStart l r env s else s
      | none =>
        let r : StartRun := ⟨warm, s.now, env.convTrim⟩
        if l ≤ 1 ∧ env.loadCut ∧ s.rd R.ID_STATUS.OPT_FAILS < 3 then
          s.wr R.ID_STATUS.OPT_FAILS 0 (s.rd R.ID_STATUS.OPT_FAILS + 1)
        else if 1 < l then (if env.serves then s else finishStart l r env s)
        else if env.serves then serveEarly r env.startMs (earlyStart warm env s)
        else finishStart l r env (earlyStart warm env s)

/-- COLD_START: after Level 0, and after Level 1 when retention is not intact (R400). -/
def coldStart (env : StartEnv) (s : State) : State := if s.rst.owed = some 2 then s else runStart false env s

def execColdStart (env : StartEnv) (s : State) : Host.Outcome State Fault Refusal := .next (coldStart env s)

/-- WARM_START: after Level 2, and after Level 1 with retention intact (R400). -/
def warmStart (env : StartEnv) (s : State) : State :=
  if s.rst.owed = some 0 ∨ (s.rst.owed = some 1 ∧ s.rst.retBad) then s else runStart true env s

def execWarmStart (env : StartEnv) (s : State) : Host.Outcome State Fault Refusal := .next (warmStart env s)

/-- The parts a released source of Level 2 held join, as the kind of the start that left them would have started them
(R407). -/
def joinParts (s : State) : State :=
  match s.rst.owed, s.rst.joint with
  | none, some (warm, env) =>
    if levelHeld s 2 then s
    else showMinimum (controlStart (s.rd R.RS_STATUS.LAST_LEVEL) warm env { s with rst := { s.rst with joint := none } })
  | _, _ => s

/-- A source releases: nothing visible happens while another as deep as Level 2 is asserted; then the interpreter context
joins, or stays in reset where a source of Level 4 is left (R407). -/
def dropSource (n : Nat) (s : State) : State :=
  let s1 := { s with rst := { s.rst with asserted := s.rst.asserted.filter (fun e => decide (e.source ≠ n)) } }
  let s2 := joinParts s1
  let up := match s2.rst.owed with | none => true | some l => decide (l = 2) || s2.rst.starting.isSome
  if up = false ∨ s2.rst.asserted.any (fun e => decide (e.level ≤ 2)) then s2
  else if levelHeld s2 4 then stopServing (interpreterReset s2)
  else { s2 with host := { s2.host with serving := true } }

/-- RESET_RELEASE: a source that is no supply releases 10 µs after it asserted; RST_N and the hold have their own release
(R404). -/
def resetRelease (n : Nat) (s : State) : State :=
  match s.rst.asserted.find? (fun e => e.source = n) with
  | none => s
  | some e =>
    if n = 5 ∨ n = 24 then s
    else if n ≤ 4 then dropSource n s
    else dropSource n (reachTime (e.at_ + 4000) s)

def execResetRelease (source : Nat) (s : State) : Host.Outcome State Fault Refusal := .next (resetRelease source s)

end Sys2Proof.Machine
end

