-- ==== Sys2Proof/Machine/Reset.lean ====
section
/-! DEFINITION. The reset sources of R402 as events, and the commands RESET, SHUTDOWN and FUSE_PROGRAM (R405, R417, R424). -/

namespace Sys2Proof.Machine

open Sys2Proof

/-! ### Sources (R402, R404) -/

/-- POWER_ON: VAUX rises; nothing else is asserted, and a hold ends with the power (R424). -/
def powerOn (s : State) : State :=
  let s1 := { s with rst := { s.rst with asserted := [], hold := false, holdLow := false } }
  recordSource 0 0 (levelReset 0 0 s1)

def execPowerOn (s : State) : Host.Outcome State Fault Refusal := .next (powerOn s)

/-- The source of a supply. -/
def supplySource : Supply → Nat
  | .vaux => 1 | .core => 2 | .dram => 3 | .flash => 3 | .vio => 4

def execSupplyBrownOut (supply : Supply) (s : State) : Host.Outcome State Fault Refusal :=
  .next (assertMapped (supplySource supply) s)

/-- RST_N_ASSERT: low for 1 µs; a hold sees it (R424). -/
def rstNAssert (s : State) : State :=
  assertMapped 5 (if s.rst.hold then { s with rst := { s.rst with holdLow := true } } else s)

def execRstNAssert (s : State) : Host.Outcome State Fault Refusal := .next (rstNAssert s)

/-- RST_N_RELEASE: the pin goes high; the hold of a shutdown ends with it (R424). -/
def rstNRelease (s : State) : State :=
  if isAsserted s 5 = false then s
  else
    let s1 := if s.rst.hold && s.rst.holdLow then
        { s with rst := { s.rst with
          hold := false, holdLow := false, asserted := s.rst.asserted.filter (fun e => decide (e.source ≠ 24)) } }
      else s
    dropSource 5 s1

def execRstNRelease (s : State) : Host.Outcome State Fault Refusal := .next (rstNRelease s)

/-- PLLA_LOCK_LOSS: after the first lock of a start (R429). -/
def pllaLockLoss (s : State) : State :=
  if s.flag R.CK_STATUS.PLLA_LOCK then assertMapped 6 (s.clear R.CK_STATUS.PLLA_LOCK) else s

def execPllaLockLoss (s : State) : Host.Outcome State Fault Refusal := .next (pllaLockLoss s)

def execLockstepMismatch (s : State) : Host.Outcome State Fault Refusal := .next (assertMapped 7 s)

/-- The source of a watchdog. -/
def dogSource : Watchdog → Nat
  | .sill => 8 | .core0 => 9 | .core1 => 10 | .interpreter => 11 | .grove => 12 | .security => 13

/-- Since when a packet has waited with none completed: its arrival, or the last acceptance after it (R402, log
entry 12). -/
def waitingSince (s : State) : Option Nat :=
  match (s.host.spi.rx ++ s.host.can.rx).map (fun x => x.at_) with
  | [] => none
  | t :: ts => some (max (ts.foldl min t)
      (([s.host.spi.last, s.host.can.last].filterMap (fun m => m.map (fun l => l.at_))).foldl max 0))

/-- WATCHDOG_EXPIRY: that of the interpreter expires only where a packet has waited for 100 ms with none completed (R402). -/
def watchdogExpiry (dog : Watchdog) (s : State) : State :=
  match dog with
  | .interpreter => match waitingSince s with
    | some t => assertMapped 11 (reachTime (t + 100 * tMs) s)
    | none => s
  | _ => assertMapped (dogSource dog) s

def execWatchdogExpiry (dog : Watchdog) (s : State) : Host.Outcome State Fault Refusal := .next (watchdogExpiry dog s)

def execUncorrectableError (store : CriticalStore) (s : State) : Host.Outcome State Fault Refusal :=
  .next (storeError store s)

def execOverTemperature (s : State) : Host.Outcome State Fault Refusal := .next (assertMapped 22 s)

/-- DEBUG_RESET_REQUEST: never asserted once DBG_LOCK is blown (R402). -/
def debugResetRequest (s : State) : State := if s.sec.dbgLock then s else assertMapped 25 s

def execDebugResetRequest (s : State) : Host.Outcome State Fault Refusal := .next (debugResetRequest s)

/-! ### RESET (R405) -/

/-- RESET: levels 2 and 3 act as soon as the reply is queued; levels 1 and 4 wait for it to be read out. -/
def resetBody (h : Hdr) (level b : Nat) (s : State) : Res :=
  if level = 0 ∨ 4 < level ∨ (level = 3 ∧ 3 < b) then refuse stBadParam s
  else if level = 2 then done (assertSource 23 2 s)
  else if level = 3 then done (recordSource 23 3 (if inForce s 3 then s else bridgeReset b s))
  else
    let c : ResetCmd := ⟨h.can, level, s.now, replyBytes h 0x0103 (done s) false⟩
    done { s with rst := { s.rst with cmds := s.rst.cmds ++ [c] } }

def execReset (h : Hdr) (level bridge : Nat) (s : State) : Host.Outcome State Fault Refusal :=
  .next (acceptCmd h 0x0103 (le 1 level ++ le 1 bridge) (resetBody h level bridge) s)

/-- RESET_COMMAND_ACT: the oldest waiting reset acts, at once where its reply has been read out, otherwise 10 ms after it
was queued. Level 1 clears the count of interrupted loads (R413). -/
def resetCommandAct (s : State) : State :=
  match s.rst.cmds with
  | [] => s
  | c :: rest =>
    let s1 := if (s.transport c.can).rp.contains c.reply then reachTime (c.at_ + 10 * tMs) s else s
    let s2 := { s1 with rst := { s1.rst with cmds := rest } }
    assertSource 23 c.level (if c.level = 1 then s2.clear R.ID_STATUS.OPT_FAILS else s2)

def execResetCommandAct (s : State) : Host.Outcome State Fault Refusal := .next (resetCommandAct s)

/-! ### SHUTDOWN (R424) -/

/-- A bridge that is not SEALED ramps as SET_MODE to SEALED in ramp style does (R34, R424 step 1). -/
def shutBridge (h : Hdr) (b : Nat) (s : State) : State :=
  if modeOf s b = 0 then s
  else if stepOf s b = 0 ∧ (s.br b).ramp.isNone ∧ modeOf s b ≠ 5 then
    startRamp b 0 (s.rd R.BR_TIMES.RAMP_MS b * tMs) 2 false s
  else (setSealed h b 1 s).st

/-- SHUTDOWN. -/
def shutdownBody (h : Hdr) (s : State) : Res :=
  if s.flag R.RS_STATUS.SHUTDOWN then refuse stBusy s
  else ⟨stAccepted, [], none,
    (beginRun 0x0104 h.seq 0 (s.raise R.RS_STATUS.SHUTDOWN)).each (List.range 4) (fun s b => shutBridge h b s)⟩

def execShutdown (h : Hdr) (s : State) : Host.Outcome State Fault Refusal :=
  .next (acceptCmd h 0x0104 [] (shutdownBody h) s)

/-- A flash or option write runs (R424 step 2). -/
def writing (s : State) : Bool :=
  s.graphs.storing.isSome || s.sec.commit.isSome || s.sec.load.isSome || s.sec.cpRun.isSome || s.cal.store.isSome ||
  s.ledger.run.isSome || s.rst.optRun.isSome || s.rst.fuseRun.isSome

/-- SHUTDOWN_FINISH: the checkpoints are written, and source 24 holds the device (R424 steps 2 to 4). -/
def shutdownFinish (s : State) : State :=
  if s.flag R.RS_STATUS.SHUTDOWN && allSealed s && !writing s then
    let s1 := ledgerCheckpointDone true (beginCheckpoint 1 s)
    let ahead := (List.range 16).filter (fun k => hasCounter s1 k && decide (s1.rd R.SEC_CP.CP 0 k < s1.rd R.SEC_CTR.C 0 k))
    let s2 := counterCheckpointDone true (startCheckpoint ahead s1)
    assertSource 24 1 { s2 with rst := { s2.rst with hold := true, holdLow := false } }
  else s

def execShutdownFinish (s : State) : Host.Outcome State Fault Refusal := .next (shutdownFinish s)

/-! ### FUSE_PROGRAM (R417) -/

/-- The bits a word of fuses has; none where there is no such word. -/
def fuseBits (w : Nat) : Option Nat :=
  if w ≤ 2 then some 30 else if w = 3 then some 6 else if w = 0x10 then some 1 else none

/-- FUSE_PROGRAM after its authentication step. -/
def fuseProgramChecks (h : Hdr) (w v : Nat) (s : State) : Res :=
  match fuseBits w with
  | none => refuse stBadParam s
  | some n =>
    if 2 ^ n ≤ v then refuse stBadParam s
    else if allSealed s = false then refuse stWrongMode s
    else if s.rst.fuseRun.isSome then refuse stBusy s
    else ⟨stAccepted, [], none, beginRun 0x0106 h.seq 0 { s with rst := { s.rst with fuseRun := some ⟨w, v⟩ } }⟩

def fuseProgramBody (h : Hdr) (w v : Nat) (s : State) : Res :=
  withAuth h 0x0106 (le 2 w ++ le 4 v) .adminOnly s (fuseProgramChecks h w v)

def execFuseProgram (h : Hdr) (word value : Nat) (s : State) : Host.Outcome State Fault Refusal :=
  .next (acceptCmd h 0x0106 (le 2 word ++ le 4 value) (fuseProgramBody h word value) s)

/-- FUSE_PROGRAM_DONE: the read-back shows every bit blown, or does not and a subset of the bits is (R417). DBG_LOCK takes
effect at once. -/
def fuseProgramDone (ok : Bool) (s : State) : State :=
  match s.rst.fuseRun with
  | none => s
  | some r =>
    let s0 := { s with rst := { s.rst with fuseRun := none } }
    let s1 := if ok then blowFuses r.word r.value s0
      else blowFuses r.word (r.value &&& (drawFree s0).1) (drawFree s0).2
    let result := if ok then 1 else 2
    endRun 0x0106 0 result (logEvent 0x0053 0x0106 (le 1 result ++ le 1 r.word) (evalCert s1))

def execFuseProgramDone (ok : Bool) (s : State) : Host.Outcome State Fault Refusal := .next (fuseProgramDone ok s)

end Sys2Proof.Machine
end

