-- ==== Sys2Proof/Machine/Clocks.lean ====
section
/-! DEFINITION. PLLs, the timestamp, the Dellan link and the transom crossings (16_clocks_islands.md). A symbol's receive row
stands at its receipt instant. Instants of the link are in fine steps of the PWM time base. -/

namespace Sys2Proof.Machine

open Sys2Proof

/-! ### PLL A's reference (R430) -/

/-- REF_IN_LOST: with REF_FB the crystal takes over; without it PLL A unlocks and source 6 asserts. -/
def refInLost (s : State) : State :=
  if s.rd R.CK_STATUS.REF_ACT ≠ 1 then s
  else if fldOf R.CK_CFG.REF_FB s.clk.ck ≠ 0 then (s.clear R.CK_STATUS.REF_ACT).raise R.CK_EVENT.REF_SW_EV
  else pllaLockLoss s

def execRefInLost (s : State) : Host.Outcome State Fault Refusal := .next (refInLost s)

/-! ### PLL B and coasting (R437, R441, R449) -/

/-- PLL B locked, its outputs not gated. -/
def pllbUp (s : State) : Bool := s.flag R.CK_STATUS.PLLB_LOCK && !s.flag R.CK_STATUS.PLLB_GATED

/-- A module outside the chain (R444). -/
def outside (s : State) : Bool := s.flag R.DL_STATUS.CHAIN_ERR

/-- A training that runs is abandoned; it restarts when the reference has returned (R450). -/
def abandonTraining (s : State) : State :=
  if trains s then { s with clk := { s.clk with training := none, downAt := s.now, retrain := true } } |>.wr R.DL_STATUS.OUT_STATE 0 0
  else s

/-- PLL B gated off, where it was not: the timestamp coasts on PLL A, also where the reference is lost before PLL B locked
(R441); in the head NOT_ALIGNED stays 0 (R440). -/
def coast (s : State) : State :=
  let locked := s.flag R.CK_STATUS.PLLB_LOCK
  if locked = false ∧ s.flag R.TS_STATUS.COAST then s
  else
    let s0 := if locked then s.raise R.CK_EVENT.PLLB_LOST_EV else s
    let s1 := (s0.clear R.CK_STATUS.PLLB_LOCK).raise R.CK_STATUS.PLLB_GATED
      |>.raise R.TS_STATUS.COAST |>.countUp R.TS_CNT.COASTS
    let s2 := if isHead s1 then s1 else markNotAligned s1
    { s2 with clk := { s2.clk with coastAt := s2.now, coastN := 0 } }

/-- DELLAN_REF_LOST: the reference is lost on DLN_CKI, or PLL B unlocks. The head ignores DLN_CKI (R437). -/
def dellanRefLost (cki : Bool) (s : State) : State :=
  if cki then
    if isHead s then s
    else
      let s1 := if s.flag R.DL_STATUS.REF_LOST then s
        else (s.raise R.DL_STATUS.REF_LOST).raise R.DL_EVENT.LINK_EV
      let s2 := { s1 with clk := { s1.clk with backAt := none } }
      coast (abandonTraining (s2.wr R.DL_STATUS.IN_STATE 0 0))
  else if s.flag R.CK_STATUS.PLLB_LOCK then coast s
  else s

def execDellanRefLost (cki : Bool) (s : State) : Host.Outcome State Fault Refusal := .next (dellanRefLost cki s)

/-- DELLAN_REF_RETURN: DLN_CKI is present again, and after 10 ms counts as back (R449). -/
def dellanRefReturn (stable : Bool) (s : State) : State :=
  if isHead s ∨ s.flag R.CK_STATUS.PLLB_LOCK then s
  else
    let since := s.clk.backAt.getD s.now
    let s1 := { s with clk := { s.clk with backAt := some since } }
    if stable then reachTime (since + 10 * tMs) ((s1.clear R.DL_STATUS.REF_LOST).wr R.DL_STATUS.IN_STATE 0 2)
    else s1.wr R.DL_STATUS.IN_STATE 0 1

def execDellanRefReturn (stable : Bool) (s : State) : Host.Outcome State Fault Refusal := .next (dellanRefReturn stable s)

/-- Training of the output hop begins: a symbol in progress completes, and those that wait are discarded (R448, R450). -/
def beginTraining (s : State) : State :=
  if linkOn s then
    let begun := fun (o : OutSym) => decide (o.sched ≤ fineNow s 0)
    let s1 := s.each (s.clk.out.filter (fun o => !begun o)) (fun s _ => dropSymbol s)
    { s1 with clk := { s1.clk with training := some {}, retrain := false, out := s.clk.out.filter begun } } |>.wr R.DL_STATUS.OUT_STATE 0 1
  else s

/-- PLLB_LOCK: the outputs are ungated; a module that is not the head sends TRAIN_REQ, and begins
again a training that the loss of its reference abandoned (R437, R449, R450). -/
def pllbLock (s : State) : State :=
  if s.flag R.CK_STATUS.PLLB_LOCK ∨ (isHead s = false ∧ s.flag R.DL_STATUS.REF_LOST) then s
  else
    let s1 := (s.raise R.CK_STATUS.PLLB_LOCK).clear R.CK_STATUS.PLLB_GATED |>.raise R.CK_EVENT.PLLB_LOCK_EV
    let s2 := { s1 with clk := { s1.clk with timeAt := s1.now } }
    if isHead s2 then s2.clear R.TS_STATUS.COAST
    else if linkOn s2 then
      let s3 := { s2 with clk := { s2.clk with reqOut := true } } |>.wr R.DL_STATUS.IN_STATE 0 3
      if s3.clk.retrain then beginTraining s3 else s3
    else s2

def execPllbLock (s : State) : Host.Outcome State Fault Refusal := .next (pllbLock s)

/-! ### Alignment (R438 to R442) -/

/-- TS_ERR takes the error, held to 32 bits. -/
def showErr (e : Int) (s : State) : State :=
  s.wr R.TS_ERR.ERR 0 (ofSigned 32 (clampInt (-(2 ^ 31)) (2 ^ 31 - 1) e))

/-- A measurement of `e` (R438, R440): `left` is what of it the steps taken since its receipt instant leave. 2 ns are 51.2
fine steps. -/
def measure (e left : Int) (s : State) : State :=
  let s1 := showErr e { s with clk := { s.clk with err := left } }
  if pllbUp s1 ∧ e.natAbs ≤ 51 then
    let s2 := s1.clear R.TS_STATUS.COAST
    if s2.flag R.TS_STATUS.NOT_ALIGNED then (s2.clear R.TS_STATUS.NOT_ALIGNED).raise R.DL_EVENT.ALIGN_EV else s2
  else
    let s2 := if pllbUp s1 then s1.clear R.TS_STATUS.COAST else s1
    if e.natAbs ≤ 51 then s2 else markNotAligned s2

/-- A load (R439): TS becomes TS_head + D at the receipt instant. `z` is the step in fine steps. -/
def loadTimestamp (e z : Int) (epoch : Nat) (s : State) : State :=
  let s1 := showErr e { s with clk := { s.clk with tsOff := s.clk.tsOff + z, err := 0, loadDue := false } }
  markNotAligned (s1 |>.countUp R.TS_CNT.LOADS |>.raise R.TS_STATUS.LOADED |>.clear R.TS_STATUS.COAST
    |>.wr R.TS_STATUS.EPOCH 0 epoch)

/-- A TIME compared with the SYNC of the same SEQ. A load waits until PLL B is locked (R450). -/
def compareTime (y : SyncSeen) (t : TimeSymbol) (s : State) : State :=
  let z : Int := 64 * (t.ts : Int) + y.d - y.local_
  let e := toSigned 54 (ofSigned 54 z)
  let taken := s.clk.tsOff - y.off
  if s.clk.loadDue ∨ t.epoch ≠ s.rd R.TS_STATUS.EPOCH then
    if pllbUp s then loadTimestamp e (z - taken) t.epoch s else s
  else measure e (e - taken) s

/-- A symbol whose CRC fails is discarded and counted (R445). Nothing comes while the link is off. -/
def checkedSymbol (crcOk : Bool) (k : State → State) (s : State) : State :=
  if linkOn s = false then s else if crcOk then k s else s.countUp R.DL_CNT.CRC_ERR

/-- The module measures its error: at a chain position from 1 on (R438, R444). -/
def takesTime (s : State) : Bool := !isHead s && !outside s && s.flag R.DL_STATUS.POS_OK

/-- The offset of the timestamp before a fine step of this very tick (R438). -/
def offBefore (s : State) : Int :=
  if s.clk.stepAt = some s.now then s.clk.tsOff - (if s.clk.stepUp then 1 else -1) else s.clk.tsOff

/-- SYNC_SYMBOL_RECEIVE: TS_local and D at the receipt instant, and the repeat with what the module adds to D (R438, R447). -/
def syncReceive (y : SyncSymbol) (s : State) : State :=
  if isHead s ∨ outside s then s
  else
    let r := fineNow s y.phase
    let s1 := if takesTime s then
        { s with clk := { s.clk with sync := some ⟨y.seqNo, r + offBefore s, y.d, offBefore s⟩ } }
      else s
    let t := repeatFrom s r 48
    if repeats s then sendSymbol { kind := 2, sched := t, bits := 48, a := y.seqNo, d := y.d + (t - r).toNat } s1 else s1

def execSyncSymbolReceive (symbol : SyncSymbol) (s : State) : Host.Outcome State Fault Refusal :=
  .next (checkedSymbol symbol.crcOk (syncReceive symbol) s)

/-- A TIME as sent or repeated. -/
def sendTime (t : TimeSymbol) (sched : Int) (s : State) : State :=
  let s1 := sendSymbol { kind := 3, sched := sched, bits := 80, a := t.seqNo, b := t.epoch, d := t.ts } s
  if trains s then s1 else { s1 with clk := { s1.clk with timeOut := some t } }

/-- TIME_SYMBOL_RECEIVE: the error is measured, or TS loaded, and the symbol repeated (R438, R439, R449). -/
def timeReceive (t : TimeSymbol) (s : State) : State :=
  if isHead s then s
  else
    let s1 := { s with clk := { s.clk with timeAt := s.now } } |>.clear R.DL_STATUS.SYM_LOST
    if outside s then s1 else
    let s2 := match s1.clk.sync with
      | some y => if y.seqNo = t.seqNo then compareTime y t { s1 with clk := { s1.clk with sync := none } } else s1
      | none => s1
    if repeats s then sendTime t (repeatFrom s (fineNow s 0) 80) s2 else s2

def execTimeSymbolReceive (symbol : TimeSymbol) (s : State) : Host.Outcome State Fault Refusal :=
  .next (checkedSymbol symbol.crcOk (timeReceive symbol) s)

/-- TRIGGER_SYMBOL_RECEIVE: D_LAST, the fire of R299 and the repeat (R297, R446). -/
def triggerReceive (y : TrigSymbol) (s : State) : State :=
  if outside s then s
  else
    let r := fineNow s y.phase
    let t := repeatFrom s r 48
    let s1 := triggerSymbol y.line y.origin y.d y.phase (s.wr R.DL_DLAST.D_LAST 0 y.d)
    if repeats s then
      sendTrigSymbol false { kind := 1, sched := t, bits := 48, a := y.line, b := y.origin, d := y.d + (t - r).toNat } s1
    else s1

def execTriggerSymbolReceive (symbol : TrigSymbol) (s : State) : Host.Outcome State Fault Refusal :=
  .next (checkedSymbol symbol.crcOk (triggerReceive symbol) s)

/-- One fine step of the timestamp. -/
def stepTimestamp (up : Bool) (s : State) : State :=
  { s with clk := { s.clk with tsOff := s.clk.tsOff + (if up then 1 else -1), stepAt := some s.now, stepUp := up } }

/-- The correction of the holdover (R441), signed. -/
def holdPpb (s : State) : Int := toSigned 32 (s.rd R.TS_HOLD.HOLD_PPB)

/-- The ticks from the beginning of coasting to step number `n` at `p` parts in 10⁹ (R441). -/
def coastTicks (n p : Nat) : Nat := (ceilRat ((n * 1000000000 : Nat) / ((64 * p : Nat) : Rat))).toNat

/-- TS_FINE_STEP: at most one step in 16,000 ticks, towards e = 0, or while coasting at the rate HOLD_PPB gives (R438,
R441). -/
def tsFineStep (s : State) : State :=
  if s.flag R.TS_STATUS.COAST then
    let p := holdPpb s
    if p = 0 then s
    else
      let n := s.clk.coastN + 1
      let s2 := reachTime (s.clk.coastAt + coastTicks n p.natAbs) s
      stepTimestamp (decide (0 < p)) { s2 with clk := { s2.clk with coastN := n } }
  else if s.clk.err = 0 then s
  else
    let up := decide (0 < s.clk.err)
    let s1 := match s.clk.stepAt with | some t => reachTime (t + 16000) s | none => s
    stepTimestamp up { s1 with clk := { s1.clk with err := s.clk.err - (if up then 1 else -1) } }

def execTsFineStep (s : State) : Host.Outcome State Fault Refusal := .next (tsFineStep s)

/-- HOLD_RATE_MEASURE: the rate of PLL B against PLL A over 1 s, and the mean of the last 16 (R441). -/
def holdRateMeasure (ppb : Int) (s : State) : State :=
  if notAligned s ∨ pllbUp s = false ∨ s.flag R.TS_STATUS.COAST then s
  else
    let l := (ppb :: s.clk.rates).take 16
    { s with clk := { s.clk with rates := l } }
      |>.wr R.TS_HOLD.HOLD_PPB 0 (ofSigned 32 (roundOpen 8 ((l.foldl (· + ·) 0 : Int) / (l.length : Rat))))

def execHoldRateMeasure (ppb : Int) (s : State) : Host.Outcome State Fault Refusal := .next (holdRateMeasure ppb s)

/-- PPS_EDGE: in the head with PPS_EN, the error to the nearest whole second (R442). -/
def ppsEdge (s : State) : State :=
  if isHead s ∧ fldOf R.CK_CFG.PPS_EN s.clk.ck ≠ 0 then
    let sec : Int := 64 * 400000000
    let ts := fineNow s 0 + offBefore s
    let e := (ts + sec / 2) / sec * sec - ts
    showErr e { s with clk := { s.clk with err := e } }
  else s

def execPpsEdge (s : State) : Host.Outcome State Fault Refusal := .next (ppsEdge s)

/-- SYNC_SCHEDULE: at the next multiple of 400,000 ticks of TS the head schedules a SYNC, and a TIME with the same SEQ
directly after it (R445). -/
def syncSchedule (s : State) : State :=
  if isHead s && linkOn s then
    let ts := fineNow s 0 + s.clk.tsOff
    let ms : Int := 64 * 400000
    let k := max s.clk.seqNo ((ts + ms - 1) / ms).toNat
    let at_ : Int := ms * k - s.clk.tsOff
    let s1 := reachTime ((at_ + 63) / 64).toNat s
    let s2 := sendSymbol { kind := 2, sched := at_, bits := 48, a := k % 256 } s1
    let s3 := sendTime ⟨k % 256, s.rd R.TS_STATUS.EPOCH, 400000 * k % 2 ^ 48, true⟩ at_ s2
    { s3 with clk := { s3.clk with seqNo := k + 1 } }
  else s

def execSyncSchedule (s : State) : Host.Outcome State Fault Refusal := .next (syncSchedule s)

/-- SYMBOL_LOSS: no valid TIME for 3 ms while PLL B is locked (R449). -/
def symbolLoss (s : State) : State :=
  if isHead s ∨ linkOn s = false ∨ pllbUp s = false then s
  else reachTime (s.clk.timeAt + 3 * tMs) (s.raise R.DL_STATUS.SYM_LOST)

def execSymbolLoss (s : State) : Host.Outcome State Fault Refusal := .next (symbolLoss s)

/-! ### Training (R448) -/

/-- TRAIN_REQ from downstream. -/
def execTrainReq (crcOk : Bool) (s : State) : Host.Outcome State Fault Refusal := .next (checkedSymbol crcOk beginTraining s)

/-- TRAIN: answered while LAST is 0; with LAST 1 it gives the position and IN_HOP (R444, R448). -/
def trainReceive (y : TrainSymbol) (s : State) : State :=
  if isHead s then s
  else if y.last = false then { s with clk := { s.clk with replyOut := some (s.rd R.DL_STATUS.POS, y.count) } }
  else
    let s1 := (s.wr R.DL_HOP.IN_HOP 0 y.hop).wr R.DL_STATUS.IN_STATE 0 4
    if 15 ≤ y.pos then
      let s2 := (s1.raise R.DL_STATUS.CHAIN_ERR).clear R.DL_STATUS.POS_OK
      if outside s then s2 else s2.raise R.DL_EVENT.CHAIN_EV
    else (s1.wr R.DL_STATUS.POS 0 (y.pos + 1)).raise R.DL_STATUS.POS_OK |>.clear R.DL_STATUS.CHAIN_ERR

def execTrain (symbol : TrainSymbol) (s : State) : Host.Outcome State Fault Refusal :=
  .next (checkedSymbol symbol.crcOk (trainReceive symbol) s)

/-- TRAIN_REPLY: one round trip; 16 symbols in a row without a reply make a gap. -/
def trainReply (y : TrainReply) (s : State) : State :=
  match s.clk.training with
  | none => s
  | some t =>
    let t1 : Training := ⟨t.sum + y.roundTrip, t.n + 1, y.count + 1, t.gap || decide (t.next + 16 ≤ y.count)⟩
    { s with clk := { s.clk with training := some t1 } }

def execTrainReply (reply : TrainReply) (s : State) : Host.Outcome State Fault Refusal :=
  .next (checkedSymbol reply.crcOk (trainReply reply) s)

/-- OUT_HOP: half of what the mean round trip leaves of both symbols, the turnaround and the fixed paths. -/
def outHop (t : Training) : Nat :=
  (roundOpen 9 (((t.sum : Rat) / t.n - 49152 - 5120 - Config.dellanPaths) / 2)).toNat

/-- TRAINING_END: the hop is UP with OUT_HOP and the final TRAIN goes out, or it is DOWN. -/
def trainingEnd (s : State) : State :=
  match s.clk.training with
  | none => s
  | some t =>
    let s1 := { s with clk := { s.clk with training := none } }
    if t.gap ∨ t.n = 0 ∨ t.next + 16 ≤ 256 then
      { s1 with clk := { s1.clk with downAt := s1.now } } |>.wr R.DL_STATUS.OUT_STATE 0 0
    else
      let s2 := (s1.wr R.DL_HOP.OUT_HOP 0 (outHop t)).wr R.DL_STATUS.OUT_STATE 0 2 |>.countUp R.DL_CNT.TRAINS
        |>.raise R.DL_EVENT.TRAIN_EV
      { s2 with clk := { s2.clk with trainOut := some (s2.rd R.DL_STATUS.POS, s2.rd R.DL_HOP.OUT_HOP) } }

def execTrainingEnd (s : State) : Host.Outcome State Fault Refusal := .next (trainingEnd s)

/-- TRAINING_RETRY: 100 ms after a training that ended DOWN; not one that waits for the return of the reference (R450). -/
def trainingRetry (s : State) : State :=
  if s.rd R.DL_STATUS.OUT_STATE = 0 ∧ linkOn s ∧ s.clk.retrain = false then beginTraining (reachTime (s.clk.downAt + 100 * tMs) s) else s

def execTrainingRetry (s : State) : Host.Outcome State Fault Refusal := .next (trainingRetry s)

/-! ### Transom crossings (R433 to R435) -/

/-- XG_BAD of a crossing rises: XG_EV, and an engine's crossing has its engine evacuated (R435). -/
def crossingFails (id : Nat) (s0 : State) : State :=
  let s := s0.raise R.CK_EVENT.XG_EV
  if id < 16 then engineBad id 0xFFFF false 3 s else s

/-- The check of conservation at an event: a count that has been broken in two cycles, or a credit that stays away, latches
XG_BAD (R435). -/
def checkCrossing (id : Nat) (x : Crossing) (s : State) : State :=
  let ok := decide (x.avail + x.flight + x.sync = 8) && !creditLate id x s
  let y := { x with broken := if ok then none else some (x.broken.getD s.now) }
  let bad := crossingBad id y s
  let s1 := setCrossing id { y with bad := bad } s
  if bad && !x.bad then crossingFails id s1 else s1

/-- The same check in a cycle without an event of the crossing. -/
def watchCrossing (s : State) (id : Nat) : State :=
  if crossingBad id (crossing s id) s && !(crossing s id).bad then
    crossingFails id (setCrossing id { crossing s id with bad := true } s)
  else s

/-- The check of every crossing (R435). -/
def watchCrossings (s : State) : State := s.each (s.clk.xings.map (fun e => e.1)) watchCrossing

/-- What an idle tick brings about: a reply held back may fall due (R332), and the check of the crossings is made (R435). -/
def idleTick (s : State) : State := watchCrossings (expireHeld { s with now := s.now + 1 })

/-- TRANSOM_SEND: a credit is used and an entry written, or the sender waits, and this cycle counts in STALLS (R434). -/
def transomSend (id : Nat) (s : State) : State :=
  if 27 < id then s
  else
    let x := crossing s id
    checkCrossing id (if 0 < usable id x s.now ∧ x.waits = 0 then { x with avail := x.avail - 1, flight := x.flight + 1 }
      else { x with
        stalls := min (x.stalls + (if x.waits = 0 then 1 else 0)) 0xFFFFFFFF, waits := x.waits + 1, waitAt := s.now }) s

def execTransomSend (crossing : Nat) (s : State) : Host.Outcome State Fault Refusal := .next (transomSend crossing s)

/-- TRANSOM_DRAIN: the receiver drains an entry and returns its credit. -/
def transomDrain (id : Nat) (s : State) : State :=
  if 27 < id then s
  else
    let x := crossing s id
    if x.flight = 0 then s
    else checkCrossing id { x with flight := x.flight - 1, sync := x.sync + 1, drainAt := s.now } s

def execTransomDrain (crossing : Nat) (s : State) : Host.Outcome State Fault Refusal := .next (transomDrain crossing s)

/-- CREDIT_RETURN: a credit leaves the synchroniser. One that no drain returned breaks the count (R435). -/
def creditReturn (id : Nat) (s : State) : State :=
  if 27 < id then s
  else
    let x := crossing s id
    let same := decide (x.retAt / sendCycle id = s.now / sendCycle id)
    if x.avail = 8 then checkCrossing id x s
    else checkCrossing id { x with
      sync := x.sync - 1, avail := x.avail + 1, retAt := s.now, retN := (if same then x.retN else 0) + 1 } s

def execCreditReturn (crossing : Nat) (s : State) : Host.Outcome State Fault Refusal := .next (creditReturn crossing s)

end Sys2Proof.Machine
end

