-- ==== Sys2Proof/Machine/Background.lean ====
section
/-! DEFINITION. Background activities and telemetry (17_background.md): scrubs, the parity patrol, flash wear and patrol, and
the telemetry streams. -/

namespace Sys2Proof.Machine

open Sys2Proof

/-! ### Scrubs (R453, R455) -/

/-- A corrected error of a DRAM bank: COR_ERR, the quarantine at 64, and the event log (R176, R455). -/
def bankCorrected (k : Nat) (s : State) : State :=
  if 7 < k then s
  else
    let s1 := s.countUp R.CN_DRAM.COR_ERR k
    logCorrected (16 + k) (if 64 ≤ s1.rd R.CN_DRAM.COR_ERR k then s1.raise R.CN_DRAM.QUAR k else s1)

/-- An uncorrectable word in a capture pane: returned as read, counted and logged, unless the pane is free (R453). -/
def paneBad (n addr : Nat) (s : State) : State :=
  if (usedPanes s).contains n then
    logEvent 0x0041 n (le 4 addr) ((s.countUp R.BG_ECC.DRAM_UNC).raise R.BG_EVENT.DRAM_UNC_EV)
  else s

/-- An uncorrectable word at a DRAM address, which lies in pane ⌊addr / 0x1_0000⌋ (R175, R453): in a safety-log pane it is its reset
source, in a migration pane the hinges of its engines restart. -/
def dramBad (addr : Nat) (s : State) : State :=
  let pane := addr / 0x10000
  if pane % 256 = 0 then storeError .safetyLog s
  else if pane % 256 = 1 then s.each (List.range 4) (fun s b => hingeRestart (pane / 256) b s)
  else paneBad pane addr s

/-- DRAM_PATROL_SCRUB: what the patrol or another access finds, from the start that brings it up to the next reset of Level 0 or 1
(R452). -/
def dramFound (f : DramFinding) (s : State) : State :=
  if systemUp s = false then s
  else match f with
  | .clean => s
  | .corrected k => bankCorrected k s
  | .uncorrectable addr => dramBad addr s
  | .passDone sec => (s.wr R.BG_DRAM.PASS_S 0 (min sec 120)).countWrap R.BG_DRAM.PASSES

def execDramPatrolScrub (found : DramFinding) (s : State) : Host.Outcome State Fault Refusal := .next (dramFound found s)

/-- Image RAM of bridge `b` comes to differ from its digest, unseen until it is compared (R77; log entry 109). -/
def imageChanges (b : Nat) (s : State) : State :=
  if 3 < b then s else s.setBr b { s.br b with ram := (s.br b).ram.map (fun r => { r with differs := true }) }

/-- The copy of record `i` on engine `e` comes to differ, unseen until it is compared (R77; log entry 109). -/
def copyChanges (e i : Nat) (s : State) : State :=
  s.each (List.range 4) (fun s b => match (s.br b).placed with
    | some p =>
      if (asgHeld p).any (fun a => decide (a.rcd = i) && decide (a.eng = e)) then
        s.setBr b { s.br b with placed := some { p with differs := (i, e) :: p.differs.filter (· ≠ (i, e)) } }
      else s
    | none => s)

/-- SRAM_SCRUB: single-bit errors are counted; an uncorrectable one in critical state is its reset source. It runs as the DRAM patrol
does (R452). -/
def sramFound (f : SramFinding) (s : State) : State :=
  if systemUp s = false then s
  else match f with
  | .clean => s
  | .corrected => logCorrected 24 (s.countUp R.BG_ECC.SRAM_COR)
  | .engine n => if 15 < n then s else logCorrected n (s.countUp R.EN_COUNT.ECC_COR n)
  | .uncorrectable x => storeError x s
  | .imageDiffers b => imageChanges b s
  | .copyDiffers e i => copyChanges e i s

def execSramScrub (found : SramFinding) (s : State) : Host.Outcome State Fault Refusal := .next (sramFound found s)

/-- PARITY_PATROL: a word of the signal board with a parity fault is reset source 17; it runs while the parts of Level 2 are up (R56, R452,
R455). -/
def parityPatrol (s : State) : State :=
  if s.board.all (fun e => parityOk e.2) ∨ controlUp s = false then s else storeError .signalBoard s

def execParityPatrol (s : State) : Host.Outcome State Fault Refusal := .next (parityPatrol s)

/-! ### Flash (R456, R458) -/

/-- The sectors of each ring area: ledger, security, event log, calibration. -/
def areaSectors (area : Nat) : Nat := [512, 64, 1024, 32].getD area 0

/-- The oldest sector of a ring holds no record that is still held: none of the two newest; of the event log, whose erase drops the
entries of its sector, that is when less than a sector is erased ahead (R456, R459; DESIGN CHOICE, log entry 130). -/
def mayErase (s : State) (area : Nat) : Bool :=
  decide (4096 ≤ (ring s area).used) &&
    (if area = 2 then decide (ringRoom s area < 4096)
     else decide (2 * ringRecord area + 4096 ≤ (ring s area).used))

/-- ERASE_AHEAD: the sector is erased while no flash operation of a higher precedence is pending; WEAR_EV when the area's
highest count reaches 90,000 (R456 to R459). A sector that is erased already, or whose records are held, is left. -/
def eraseAhead (area sector : Nat) (s : State) : State :=
  if areaSectors area ≤ sector ∨ flashFree s = false ∨ systemUp s = false ∨ flushDue s then s
  else if mayErase s area = false ∨ oldestSector s area ≠ sector then s
  else eraseSector area s

def execEraseAhead (area sector : Nat) (s : State) : Host.Outcome State Fault Refusal := .next (eraseAhead area sector s)

/-- The copies of a ring after a patrol: all hold, or those fail that `bad` names, bit 0 the newer and bit 1 the older. -/
def marked {α : Type} (mark : Bool → α → α) (bad : Nat) (l : List α) : List α :=
  (List.range l.length).zip l |>.map (fun e => mark (!bitAt bad e.1) e.2)

/-- The CRC of structure `k` as the patrol has read it: an unsound bank or slot holds decayed bytes, and of an unsound ring
the newer copy, the older one or both fail, which the spec leaves open (free value, log entry 87). -/
def patrolMark (k : Nat) (sound : Bool) (s0 : State) : State :=
  let (n, s) := if sound ∨ k < 4 ∨ 7 ≤ k then (0, s0) else drawFree s0
  let bad := if sound then 0 else 1 + n % 3
  let put_ := fun (m j : Nat) => (if bitAt m j then m - 2 ^ j else m) + (if sound then 0 else 2 ^ j)
  if k < 2 then { s with sec := { s.sec with bankBad := put_ s.sec.bankBad k } }
  else if k < 4 then { s with graphs := { s.graphs with slotBad := put_ s.graphs.slotBad (k - 2) } }
  else if k = 4 then
    { s with ledger := { s.ledger with copies := marked (fun ok (c : Checkpoint) => { c with ok := ok }) bad s.ledger.copies } }
  else if k = 5 then { s with sec := { s.sec with cpBad := bad } }
  else if k = 6 then
    { s with cal := { s.cal with copies := marked (fun ok (c : CalRec) => { c with ok := ok }) bad s.cal.copies } }
  else s

/-- Structure `k` of the patrol is being written: a bank, a slot, or a record of its ring (R462). -/
def beingWritten (s : State) (k : Nat) : Bool :=
  match k with
  | 0 | 1 => flashPending s 4 && decide (bankIdle s = k)
  | 2 | 3 => s.graphs.storing.any (fun e => decide (e.1 + 2 = k))
  | 4 => flashPending s 3
  | 5 => flashPending s 1
  | 6 => flashPending s 2
  | _ => false

/-- The patrol goes on to the structure after `k`; the last one ends the pass (R458). -/
def patrolOn (k : Nat) (s : State) : State :=
  let s1 := s.wr R.BG_FLASH.PATROL_BUSY 0 (b2n (decide (k < 7)))
  { s1 with bg := { s1.bg with patrolNext := (k + 1) % 8, patrolAt := if k = 7 then s1.now else s1.bg.patrolAt } }

/-- The patrol has read structure `k`: FAIL, PATROL_EV, SLOT0_OK or SLOT1_OK, and the event log (R458). -/
def patrolRead (k : Nat) (sound : Bool) (s : State) : State :=
  if sound then s.clearBit R.BG_FLASH.FAIL k
  else
    let s3 := (s.raiseBit R.BG_FLASH.FAIL k).raise R.BG_EVENT.PATROL_EV
    let s4 := if k = 2 then s3.clear R.GR_STORE.SLOT0_OK else if k = 3 then s3.clear R.GR_STORE.SLOT1_OK else s3
    logEvent 0x0054 k (le 4 (s4.rd R.BG_FLASH.FAIL)) s4

/-- FLASH_PATROL: structure `k`, the next of the pass in the order of the FAIL bits. One that is being written is skipped until the next
pass (R462); it is read while no flash operation of a higher precedence is pending (R457, R458). -/
def flashPatrol (k : Nat) (sound : Bool) (s : State) : State :=
  if k ≠ s.bg.patrolNext ∨ 7 < k ∨ systemUp s = false then s
  else if beingWritten s k then patrolOn k s
  else if flashFree s = false ∨ flushDue s then s
  else patrolRead k sound (patrolOn k (patrolMark k sound s))

def execFlashPatrol (structure_ : Nat) (sound : Bool) (s : State) : Host.Outcome State Fault Refusal :=
  .next (flashPatrol structure_ sound s)

/-! ### Telemetry (R460, R461) -/

/-- The signal indices of a configuration. -/
def streamSigs (config : List Byte) : List Nat := halvesOf (config.drop 4)

/-- A configuration is within its ranges (R460). -/
def streamOk (config : List Byte) : Bool :=
  decide (4 ≤ config.length ∧ config.length ≤ 64 ∧ config.length % 2 = 0 ∧ byteAt config 0 ≤ 1 ∧ byteAt config 1 = 0) &&
  decide (1 ≤ leAt config 2 2 ∧ leAt config 2 2 ≤ 60000) && (streamSigs config).all (fun i => decide (i < 4096))

def tlmCfgBody (k : Nat) (config : List Byte) (s : State) : Res :=
  if 7 < k ∨ streamOk config = false then refuse stBadParam s
  else if (stream s k).on_ then refuse stBusy s
  else done (setStream k { set := true, can := decide (byteAt config 0 = 1), period := leAt config 2 2,
                           sigs := streamSigs config } s)

def execTlmCfg (h : Hdr) (stream : Nat) (config : List Byte) (s : State) : Host.Outcome State Fault Refusal :=
  .next (acceptCmd h 0x0901 (le 1 stream ++ config) (tlmCfgBody stream config) s)

/-- The samples per second of a list of streams. -/
def streamLoad (s : State) (ks : List Nat) : Rat := (ks.map (fun k => (1000 : Rat) / (stream s k).period)).foldl (· + ·) 0

def tlmStartBody (mask : Nat) (s : State) : Res :=
  let ks := maskBits 8 mask
  let all := (List.range 8).filter (fun k => ks.contains k || (stream s k).on_)
  if ks.any (fun k => !(stream s k).set) then refuse stBadParam s
  else if ks.any (fun k => (stream s k).can) && !canOn s then refuse stNoResource s
  else if 2000 < streamLoad s all then refuse stNoResource s
  else done (s.each ks (fun s k =>
    if (stream s k).on_ then s else setStream k { stream s k with on_ := true, start := tsNow s, next := 0 } s))

def execTlmStart (h : Hdr) (mask : Nat) (s : State) : Host.Outcome State Fault Refusal :=
  .next (acceptCmd h 0x0902 (le 1 mask) (tlmStartBody mask) s)

def tlmStopBody (mask : Nat) (s : State) : Res := done (stopStreams (maskBits 8 mask) s)

def execTlmStop (h : Hdr) (mask : Nat) (s : State) : Host.Outcome State Fault Refusal :=
  .next (acceptCmd h 0x0903 (le 1 mask) (tlmStopBody mask) s)

/-- The loss limit of a signal outside a graph: for a host or CAN-mapped signal what the first loaded graph that declares
it gives, otherwise 2 (R54). -/
def lossAnywhere (s : State) (i : Nat) : Nat :=
  match (List.range 4).findSome? (fun b => match loadedGraph s b with
    | some g => if (isHostSig i || isCanSig i) && (g.decl i).isSome then some (lossOf g i) else none
    | none => none) with
  | some n => n
  | none => 2

/-- What a sample carries after its TS: STALE and the values, or the four status registers (R461). -/
def sampleBody (sigs : List Nat) (s : State) : List Byte :=
  if sigs = [] then [A.DEV_STATUS, A.DEV_EVENT, A.ID_STATUS, A.SF_STATUS].flatMap (fun a => le 4 (viewReg s a).toNat)
  else
    let stale := (List.range sigs.length).filter (fun k =>
      let i := sigs.getD k 0
      staleWord (lossAnywhere s i) i (s.sigWord i))
    le 4 (bitsMask stale) ++ sigs.flatMap (fun i => le 2 (s.sig i).val)

/-- The TLM_DATA packet of sample `n` (R461). -/
def samplePacket (k n : Nat) (sigs : List Nat) (s : State) : List Byte :=
  packetBytes ⟨n % 256, 0x0905, 2, le 1 0 ++ le 1 k ++ le 4 n ++ le 8 (tsNow s) ++ sampleBody sigs s, none⟩

/-- The tick at which the timestamp reaches `t`. -/
def tickOfTs (s : State) (t : Nat) : Nat := ((64 * (t : Int) - s.clk.tsOff + 63) / 64).toNat

/-- The timestamp of the next sample of stream `k`. -/
def sampleDue (s : State) (k : Nat) : Nat := (stream s k).start + ((stream s k).next + 1) * (stream s k).period * tMs

/-- No running stream has a sample to take before the next one of stream `k`: those of one ms are taken in ascending stream order, and
those of an earlier ms first (R461). -/
def sampleFirst (s : State) (k : Nat) : Bool :=
  (List.range 8).all (fun j => !(stream s j).on_ ||
    decide (sampleDue s k / tMs < sampleDue s j / tMs ∨ (sampleDue s k / tMs = sampleDue s j / tMs ∧ k ≤ j)))

/-- TLM_SAMPLE: the next multiple of PERIOD since TLM_START; the packet is queued where the reply queue holds fewer than
four entries, otherwise the sample is skipped (R461). -/
def tlmSample (k : Nat) (s : State) : State :=
  let x := stream s k
  if 7 < k ∨ x.on_ = false ∨ sampleFirst s k = false then s
  else
    let s1 := reachTime (tickOfTs s (sampleDue s k)) s
    let s2 := setStream k { x with next := x.next + 1 } s1
    if wordsSound s1 x.sigs = false then storeError .signalBoard s2
    else if (s2.transport x.can).rp.length < 4 then queueReply x.can (samplePacket k x.next x.sigs s1) s2
    else s2.countUp R.TLM_SKIP.SKIP

def execTlmSample (stream : Nat) (s : State) : Host.Outcome State Fault Refusal := .next (tlmSample stream s)

end Sys2Proof.Machine
end

