-- ==== Sys2Proof/Machine/Zone.lean ====
section
/-! DEFINITION. The zone temperature of a switch (R244). -/

namespace Sys2Proof.Machine

open Sys2Proof

/-- The zone temperature of switch `k` in °C, none where the input is open, shorted or out of range. -/
def ntcTemp (s : State) (k : Nat) : NtcReading → Option Rat
  | .openCircuit => none
  | .shorted => none
  | .ohms r =>
    let t := Config.ntcTemp (s.rd R.DRV_NTC.NTC_B k) (s.rd R.DRV_NTC.NTC_R25 k) r
    if -55 ≤ t ∧ t ≤ 150 then some t else none

/-- The die converts the reading it holds: the temperature signal at the scale of R89, NTC_ERR and the warning. -/
def ntcConvert (k : Nat) (s : State) : State :=
  match (s.die k).ntc with
  | none => s
  | some r =>
    match ntcTemp s k r with
    | none => s.raise R.DRV_STATUS.NTC_ERR k
    | some t =>
      let s1 := (s.clear R.DRV_STATUS.NTC_ERR k).sigWrite (0x0B0 + k) (ofSigned 16 (roundOpen 7 (t * 8192 / 100)))
      if (s.rd R.DRV_NTC.OT_TH k : Rat) < t then
        let s2 := s1.raise R.DRV_STATUS.OT_WARN k
        if s.flag R.DRV_STATUS.OT_WARN k then s2 else s2.raise R.DRV_EVENT.OT_EV k
      else s1.clear R.DRV_STATUS.OT_WARN k

/-- NTC_WRITE: the reading that the die's input gives from here on. With a graph on the owning bridge its input points write the
signal; otherwise the row is a write cycle of the die (R142, R244; log entry 97). -/
def ntcWrite (k : Nat) (r : NtcReading) (s : State) : State :=
  if 47 < k ∨ s.rd R.DRV_STATUS.STATE k = 0 then s
  else
    let s1 := s.setDie k { s.die k with ntc := some r }
    match bridgeOfLeg s (k / 2) with
    | some b => if graphRuns s b then s1 else ntcConvert k s1
    | none => ntcConvert k s1

def execNtcWrite (switch : Nat) (reading : NtcReading) (s : State) : Host.Outcome State Fault Refusal :=
  .next (ntcWrite switch reading s)

end Sys2Proof.Machine
end

