-- ==== Sys2Proof/Machine/Beat.lean ====
section
/-! DEFINITION. The beat of a bridge (R57 to R63): the input point with its system signals, its judgements and its
blocks; the output point with duties, strobe and sinks; overruns, ageing, and the writes of sources whose owner runs no
graph. -/

namespace Sys2Proof.Machine

open Sys2Proof

/-! ### System signals (R116, R137, R140, R141, R185, R267) -/

/-- RAMP_K at time `t` of a ramp (R141, R365). -/
def rampK (r : Ramp) (t : Nat) : Nat :=
  match r.tr with
  | some tr => (max 0 (roundHalfUp (8192 * (1 - ((t : Rat) - (tr : Rat)) / (r.len : Rat))))).toNat
  | none => 0x2000

/-- A ramp that waits takes this input point as tr (R141). -/
def beginRamp (b : Nat) (s : State) : State :=
  match (s.br b).ramp with
  | some r => s.setBr b { s.br b with ramp := some { r with tr := some (r.tr.getD s.now) } }
  | none => s

/-- The words a SYNC_CHECK reads: port `k` of the first one of the graph, and whether it is stale (R117, R137). -/
def syncPort (s : State) (g : Graph) (k : Nat) : Option (Nat × Bool) :=
  (g.typed 0x1B).map (fun r =>
    let i := r.inSig k
    ((s.sig i).val, staleWord (lossOf g i) i (s.sigWord i)))

/-- RESYNC_ACT (R137). -/
def resyncAct (s : State) (b : Nat) (g : Graph) : Bool :=
  s.flag R.GF_CTRL.RESYNC b && decide (modeOf s b = 4) && decide (stepOf s b = 0) &&
  (match syncPort s g 0 with | some (_, stale) => !stale | none => false)

/-- BS_TGT (R116). -/
def bsTarget (s : State) (b : Nat) : Nat :=
  if modeOf s b < 3 ∨ (modeOf s b = 3 ∧ (stepOf s b = 1 ∨ stepOf s b = 2)) then 0 else s.rd R.GF_CFG.VTGT b

/-- The twin word of a pair (R267). -/
def twinWord (s : State) (p : Nat) : Nat :=
  s.rd R.TW_STATUS.FAIL p + 2 * s.rd R.TW_STATUS.SUSP_A p + 4 * s.rd R.TW_STATUS.SUSP_B p

/-- The shares of a bridge whose STEER_EN is 0 return to 0x2000 (R187). -/
def settleShares (b : Nat) (s : State) : State :=
  if s.flag R.CN_STEER.STEER_EN b then s else s.each (legsOf s b) (fun s n => setShare n 0x2000 s)

/-- The temperature signals of the switches of bridge `b` (R244). -/
def ntcWrites (b : Nat) (s : State) : State := s.each (switchesOf s b) (fun s k => ntcConvert k s)

/-- The signals of the sources bridge `b` owns, and its system signals, which are judged from them (R59, R137). -/
def systemWrites (b : Nat) (g : Graph) (s0 : State) : State :=
  let s := ntcWrites b (sourcesWrite b s0)
  let act := resyncAct s b g
  let en := act || (decide (modeOf s b = 4) && decide (stepOf s b = 5 ∨ stepOf s b = 1))
  let k := match (s.br b).ramp with | some r => rampK r s.now | none => 0x2000
  let s1 := s |>.sigWrite (0x120 + 4 * b) (bsTarget s b)
    |>.sigWrite (0x121 + 4 * b) (b2n en)
    |>.sigWrite (0x122 + 4 * b) (b2n act)
    |>.sigWrite (0x123 + 4 * b) (modeOf s b + 16 * stepOf s b)
    |>.sigWrite (0x130 + 4 * b) k
    |>.sigWrite (0x131 + 4 * b) (s.rd R.TR_STATUS.OBS_ACT b)
    |>.wr R.GF_STATUS.SYNC_EN b (b2n en)
    |>.wr R.TR_RAMP.RAMP_K b k
  let s2 := s1.each ((List.range 8).filter (fun p => pairOwner s p = some b))
    (fun s p => s.sigWrite (0x110 + p) (twinWord s p))
  let s3 := settleShares b s2
  s3.each (legsOf s3 b) (fun s n => s.sigWrite (0x0E0 + n) (shareSignal s n))

/-! ### Judgements at the input point (R26, R117, R124, R125, R133) -/

/-- The bus magnitude and frequency are in band (R117). -/
def busInBand (s : State) (b : Nat) (g : Graph) : Bool :=
  match syncPort s g 4, syncPort s g 2 with
  | some (v, vs), some (w, ws) =>
    !vs && !ws &&
    decide (absR (puOf v - puOf (s.rd R.GF_CFG.VTGT b)) ≤ (s.rd R.BR_BAND.VBAND b : Rat) / 1000) &&
    decide (absR (puOf w - 1) * ((g.fb : Rat) / 1000) ≤ (s.rd R.BR_BAND.FBAND b : Rat) / 100)
  | _, _ => false

/-- The sample is at or above DEAD_V (R26, R117). -/
def busLive (s : State) (b : Nat) (g : Graph) : Bool :=
  match syncPort s g 4, syncPort s g 2 with
  | some (v, vs), some (_, ws) => vs || ws || decide ((s.rd R.BR_BAND.DEAD_V b : Rat) / 200 ≤ puOf v)
  | _, _ => true

/-- The entry condition of RT_ENVELOPE holds on its inputs (R133). -/
def rideThrough (s : State) (g : Graph) : Bool :=
  match g.typed 0x21 with
  | some r =>
    let p := recPars g r
    let v := puOf (s.sig (r.inSig 0)).val
    decide (v < puOf (p.getD 0 0)) || decide (puOf (p.getD 1 0) < v)
      || decide (puOf (p.getD 3 0) < puOf (s.sig (r.inSig 1)).val)
  | none => false

/-- The device's judgement of the beat. A sample in band after a return from HOLD begins HOLD again at once (R125). -/
def judgeBeat (b : Nat) (g : Graph) (s : State) : State :=
  match modeOf s b, stepOf s b with
  | 3, 2 => if busLive s b g then sealFor b 8 s else s
  | 3, 3 =>
    if busInBand s b g ∧ (s.br b).back then
      setStep b 4 (s.setBr b { s.br b with inBand := true, holdAt := some s.now, back := false })
    else s.setBr b { s.br b with inBand := busInBand s b g }
  | 3, 4 =>
    if busInBand s b g then
      s.setBr b { s.br b with inBand := true, holdAt := some ((s.br b).holdAt.getD s.now) }
    else setStep b 3 (s.setBr b { s.br b with inBand := false, holdAt := none, back := true })
  | 4, 6 | 5, 6 =>
    if rideThrough s g then sealBridge b { reason := 1, latch := reactionRamp s b } s else s
  | _, _ => s

/-! ### The input point -/

/-- The signals of the capture rows due at this input point of bridge `b`. -/
def captureReads (s : State) (b : Nat) : List Nat :=
  ((List.range 8).filter (fun u => capMode s u = 0 ∧ s.rd R.CAP_CFG.BR u = b ∧ takesRows s u ∧ (s.unit u).div + 1 = capDiv s u)).flatMap
    (capChans s)

/-- The rows of the capture units that follow the input points of bridge `b`: every DIV-th one (R277, R278). `lost` is the mask of
the units whose FIFO is full (R292). -/
def captureInput (b lost : Nat) (s : State) : State :=
  s.each ((List.range 8).filter (fun u => capMode s u = 0 ∧ s.rd R.CAP_CFG.BR u = b ∧ takesRows s u))
    (fun s u =>
      let d := (s.unit u).div + 1
      let s1 := s.setUnit u { s.unit u with div := if d = capDiv s u then 0 else d }
      if d = capDiv s u then takeRow u (chanRow s1 u (fun i => (s1.sig i).val)) (bitAt lost u) s1 else s1)

/-- A graph sink of a capture unit reads 0 at the input point: its source may fire again (R293). -/
def rearmSinks (g : Graph) (s : State) : State :=
  s.each ((List.range 8).filter (fun u => g.writes.contains (0xF50 + u) && decide ((s.sig (0xF50 + u)).val = 0)))
    (fun s u => s.setUnit u { s.unit u with sinkOn := false })

/-- What an input point does to the placement before its blocks run: the beat is counted and its end is known, parameters swap,
the words of PREV are kept, and the signals of a first beat take INIT. -/
def openBeat (b : Nat) (p : Placed) (s : State) : State :=
  let s1 := match p.lastIp with
    | some t => (s.countWrap R.GR_BEATNO.BEATNO b).wr R.GR_BEAT.BEAT_TICKS b (s.now - t)
    | none => initSignals p.graph s
  let s2 := applySwap b s1
  match (s2.br b).placed with
  | some q => s2.setBr b { s2.br b with
      isoOk := false
      placed := some { q with
        prev := wordsNow s2 (q.graph.writes.eraseDups), firstIp := some (q.firstIp.getD s2.now)
        nextEdge := q.nextEdge + q.graph.beatHalf, endEdge := q.nextEdge + q.graph.beatHalf, late := false } }
  | none => s2

/-- The hinges and the evacuations at an input point (R164, R172, R173): an error found in the last beat moves the engine now,
or seals the bridge where no engine takes over, and one not yet found is found in this beat. -/
def moveBlocks (b : Nat) (s : State) : State :=
  let s1 := hingeAdvance b s
  match (s1.br b).placed with
  | none => s1
  | some p =>
    let found := p.evacs.filter (fun v => v.found)
    if found.any (fun v => v.tgt.isNone && decide (leftBehind p v.engine ≠ [])) then sealFor b 15 s1
    else
      findErrors b (s1.each ((found.map (fun v => (v.engine, v.tgt))).eraseDups) (fun s e => evacuate b e.1 e.2 s))

/-- The states of the records `late` have not reached their targets by this input point: of those that execute in its beat, which
would be k + 1, the hinge starts again (R166). -/
def hingeLate (b : Nat) (late : List Nat) (s : State) : State :=
  hingeAgain b (fun p i => late.contains i &&
    dueNow (p.graph.recAt i).rate (p.phases.getD i 0) (s.rd R.GR_BEATNO.BEATNO b) s.now p.lastIp) s

/-- A duty sink is left unwritten in this beat: a record with a bad word is due and writes one (R172). -/
def dutyLost (p : Placed) (beatno ip : Nat) (before : Option Nat) : Bool :=
  (List.range p.graph.blocks.length).any (fun i =>
    mutedRecord p i && dueNow (p.graph.recAt i).rate (p.phases.getD i 0) beatno ip before &&
      (p.graph.recAt i).wrote.any (fun g => decide (0xF00 ≤ g ∧ g ≤ 0xF17)))

/-- The snapshot is taken and the due blocks run; the beat waits for its output point. `bad` is the record whose hinge
differs. -/
def runBeat (b : Nat) (bad : Option Nat) (s : State) : State :=
  match (s.br b).placed with
  | none => s
  | some p =>
    let before := p.lastIp
    let n := s.rd R.GR_BEATNO.BEATNO b
    let p1 := { p with
      snap := wordsNow s (snapshotSigs p.graph), lastIp := some s.now, ranBeat := true
      noDuty := dutyLost p n s.now before }
    runDue b s.now n before bad (s.setBr b { s.br b with placed := some p1 })

/-- The signals that the blocks of a graph read (R59). -/
def graphReads (g : Graph) : List Nat := (g.blocks.flatMap (fun r => r.ins.map portSig)).eraseDups

/-- The input point of the beat that starts at carrier edge `h`: IP ticks after it (R57, R262). -/
def inputPoint (s : State) (b h : Nat) : Nat := edgeTick s b h + s.rd R.MS_IP.IP b

/-- BEAT_INPUT_POINT (R57, R59, R262): at the carrier edge that starts the beat, steps advance on what the previous beat showed;
IP ticks later the beat opens, system signals are written, the device judges, capture rows and the snapshot are taken, blocks
move, and the due blocks run. A word of wrong parity among those the beat reads, the graph's own written words (which PREV, a stale
behaviour and the sinks take) included, is a reset source, and its value is not used (R56). -/
def beatInputPoint (b : Nat) (x : BeatShown) (s : State) : State :=
  if 3 < b then s
  else
    match (s.br b).placed with
    | none => s
    | some p =>
      if edgeBegun (s.br b) p.nextEdge = false then s
      else
        let e0 := reachTime (edgeTick s b p.nextEdge) s
        let e1 := if p.lastIp.isSome ∨ (e0.br b).stepOver then settleStep b e0 else e0
        let s1 := openBeat b p (reachTime (inputPoint s b p.nextEdge) e1)
        let s2 := systemWrites b p.graph (beginRamp b s1)
        if (e1.br b).placed.isNone then e1
        else if wordsSound s2 (graphReads p.graph ++ p.graph.writes ++ captureReads s2 b) = false then storeError .signalBoard s2
        else
          let s3 := judgeBeat b p.graph s2
          let s4 := rearmSinks p.graph (captureInput b x.lost s3)
          let s5 := runBeat b x.mismatch (moveBlocks b (hingeLate b x.late s4))
          match x.mismatch with | some i => hingeMismatch b i s5 | none => s5

def execBeatInputPoint (bridge : Nat) (shown : BeatShown) (s : State) : Host.Outcome State Fault Refusal :=
  .next (beatInputPoint bridge shown s)

/-! ### The output point -/

/-- The mode and step release pulses at a strobe (R124, R216). -/
def releases (s : State) (b : Nat) : Bool :=
  match modeOf s b with
  | 1 | 2 | 5 => decide (stepOf s b = 0 ∨ stepOf s b = 6)
  | 3 => decide (stepOf s b = 3 ∨ stepOf s b = 4)
  | 4 => if stepOf s b = 5 then motorIsolated s b else decide (stepOf s b = 0 ∨ stepOf s b = 1 ∨ stepOf s b = 6)
  | _ => false

/-- What the Shutter line and the pulses do at a strobe (R35, R216, R358). -/
def strobePulses (b : Nat) (s : State) : State :=
  if releases s b = false then setPulses b false s
  else if (s.br b).open_ then setPulses b true s
  else if safetyActs s b then s
  else openShutter b s

/-- The load-all strobe: the shadow duties and the PER shadow to the pending stages, with the carrier edge `e` at which their
beat ends (R202, R203, R205). -/
def loadAll (b e : Nat) (s : State) : State :=
  let per := s.rd R.SH_CARRIER.PER (masterLeg s b)
  (s.setBr b { s.br b with strobePer := some (per, e) }).each (legsOf s b)
    (fun s n => s.setLeg n { s.leg n with pend := some ((s.leg n).shadow, e), pendT := none })

/-- The duties at 0xF00 + n pass to the shadows (R59). -/
def takeDuties (b : Nat) (s : State) : State :=
  s.each (legsOf s b) (fun s n => s.setLeg n { s.leg n with shadow := (s.sig (0xF00 + n)).val })

/-- What the device copies from SYNC_CHECK and RT_ENVELOPE (R129, GF_RT). -/
def copyGrid (b : Nat) (g : Graph) (s : State) : State :=
  let s1 := match g.typed 0x1B with
    | some r =>
      let ok := bitAt (s.sig (r.outSig 0)).val 0
      let x := s.br b
      ((s.wr R.GF_STATUS.SYNC_OK b (b2n ok)).wr R.GF_STATUS.DTH b (s.sig (r.outSig 1)).val).setBr b { x with
        syncOk := decide (modeOf s b = 4) && decide (stepOf s b = 5) && ok && x.isoOk }
    | none => s
  match g.typed 0x21 with
  | some r => (s1.wr R.GF_RT.ILIM b (s1.sig (r.outSig 1)).val).wr R.GF_RT.TIN b (s1.sig (r.outSig 2)).val
  | none => s1

/-- The first action on a code since the placement counts and sets its event bit (R148): REACT_CNT with REACT_SEAL or REACT_RAMP,
OBS_CNT with OBS_ENTRY. -/
def countReaction (b code : Nat) (ramp first : Bool) (s : State) : State :=
  if first = false then s
  else if code = 3 then (s.countUp R.TR_COUNT.OBS_CNT b).raise R.TR_EVENT.OBS_ENTRY b
  else if ramp then (s.countUp R.TR_COUNT.REACT_CNT b).raise R.TR_EVENT.REACT_RAMP b
  else (s.countUp R.TR_COUNT.REACT_CNT b).raise R.TR_EVENT.REACT_SEAL b

/-- Codes 1 to 3 of the reaction sink (R148, R149): a code that repeats the one last acted on changes nothing. A code 2 that acts as
code 1 sets REACT_SEAL and leaves REACT_CODE 2 (DESIGN CHOICE, log entry 114). -/
def reactTraction (b code reason : Nat) (s : State) : State :=
  if (s.br b).acted = code then s
  else
    let first := !bitAt (s.br b).actedMask code
    let x := { s.br b with acted := code, actedMask := (s.br b).actedMask ||| 2 ^ code }
    let s1 := ((s.setBr b x).wr R.TR_STATUS.REACT_CODE b code).wr R.TR_STATUS.REACT_REASON b reason
    let sealNow := fun (s : State) =>
      sealBridge b { reason := reason, latch := reactionRamp s b } (countReaction b code false first s)
    if code = 3 then countReaction b code false first (s1.raise R.TR_STATUS.OBS_ACT b)
    else if code = 1 then sealNow s1
    else
      match (s.br b).ramp with
      | some r =>
        let r1 := if r.kind = 2 then { r with latch := true } else { r with reason := reason, latch := true }
        refuseBeat b (countReaction b code true first (s1.setBr b { s1.br b with ramp := some r1 }))
      | none =>
        if stepOf s b = 0 then
          refuseBeat b (countReaction b code true first (startRamp b 1 (s.rd R.BR_TIMES.RAMP_MS b * tMs) reason true s1))
        else sealNow s1

/-- The log entry of a ride-through event (R459). -/
def rideLog (b code : Nat) (s : State) : State := logEvent 0x0014 b (le 1 code ++ le 2 (s.rd R.GF_RT.TIN b)) s

/-- Codes 4 to 6 of the reaction sink (R38, R131, R134). -/
def reactGrid (b code reason : Nat) (s : State) : State :=
  let mode := modeOf s b
  let step := stepOf s b
  if code = 4 ∧ mode = 4 ∧ step = 0 then
    rideLog b 4 (((changeMode b 5 0 s).raise R.DEV_EVENT.RT_ENTRY).countUp R.GF_COUNT.RT_CNT b)
  else if code = 4 ∧ mode = 4 ∧ step = 6 then
    sealBridge b { reason := 1, latch := reactionRamp s b } s
  else if code = 5 ∧ mode = 5 then rideLog b 5 ((changeMode b 4 0 s).raise R.GF_EVENT.RT_RETURN b)
  else if code = 6 ∧ (mode = 5 ∨ (mode = 4 ∧ step = 0)) then
    sealFor b reason (rideLog b 6 (s.raise R.GF_EVENT.RT_EXCEED b))
  else s.raise R.GF_EVENT.REQ_IGN b

/-- The reaction sink of the bridge (R90, R131, R148); a code of 0 or above 6 is ignored. A sink that the placed graph does not write
holds what an earlier graph left, and is not read (DEDUCED, log entry 78). -/
def readReaction (b : Nat) (g : Graph) (s : State) : State :=
  let w := (s.sig (0xF40 + b)).val
  let code := w % 16
  let reason := bitsOf w 8 5
  if g.writes.contains (0xF40 + b) = false ∨ code = 0 ∨ 6 < code then s
  else if code ≤ 3 then reactTraction b code reason s
  else reactGrid b code reason s

/-- The test DAC takes the sink value of the graph that writes it (R255). -/
def takeDac (g : Graph) (s : State) : State :=
  if g.writes.contains 0xF60 ∧ s.rd R.TD_CFG.SRC = 0 then
    let v := clampInt 0 8192 (s.sigInt 0xF60)
    { s with cal := { s.cal with dac := (roundHalfUp ((v : Rat) * 4095 / 8192)).toNat } }
  else s

/-- The capture sinks the graph writes: a level that has become active fires once, with the input point as its fire time
(R281, R293). -/
def fireSinks (g : Graph) (ip : Nat) (s : State) : State :=
  s.each ((List.range 8).filter (fun u => g.writes.contains (0xF50 + u)))
    (fun s u =>
      if (s.sig (0xF50 + u)).val ≠ 0 ∧ (s.unit u).sinkOn = false then
        triggerSink u ip (s.setUnit u { s.unit u with sinkOn := true })
      else s)

/-- A beat whose duties did not reach the shadows in time (R63): the second in succession seals the bridge. Its output point is
still to come, and the sinks are read there (R131, R148). -/
def countOverrun (b : Nat) (p : Placed) (s : State) : State :=
  let s1 := s.countUp R.GR_EVENTS.OVERRUN b
  if p.overrun then sealFor b 15 s1
  else s1.setBr b { s1.br b with placed := some { p with overrun := true, late := true } }

/-- The strobe of a beat: duties, the load-all strobe, isolation and pulses. In SYNC, from KON_WAIT after its entry, a strobe that
does not find the motor isolated seals the bridge with reason 12 (R35). -/
def strobe (b e : Nat) (s : State) : State :=
  let s1 := loadAll b e (takeDuties b s)
  let s2 := s1.setBr b { s1.br b with isoOk := motorIsolated s1 b }
  if modeOf s2 b = 4 ∧ stepOf s2 b = 5 ∧ konWaitEnd s2 b ≤ s2.now ∧ motorIsolated s2 b = false then sealFor b 12 s2
  else strobePulses b s2

/-- The latest strobe point of the present beat: its end less STRB_GUARD (R202). -/
def lastStrobe (s : State) (b : Nat) (p : Placed) : Nat :=
  edgeTick s b p.endEdge - s.rd R.SH_STRB.STRB_GUARD (masterLeg s b)

/-- The length of the present beat, ticks: from its carrier edge to the edge that ends it. -/
def beatLength (s : State) (b : Nat) (p : Placed) : Nat :=
  edgeTick s b p.endEdge - edgeTick s b (p.endEdge - p.graph.beatHalf)

/-- The conditions under which the class-0 work of a beat can miss the latest strobe point (R162): a beat shorter than BEAT_MIN, or
one in which an uncorrectable error is found. A placement that is lost seals its bridge. -/
def mayOverrun (s : State) (b : Nat) (p : Placed) : Bool :=
  decide (beatLength s b p < p.graph.beatMin) || p.evacs.any (fun v => v.found)

/-- The signals an output point reads: the sinks, and what is copied of SYNC_CHECK and RT_ENVELOPE. -/
def outputReads (g : Graph) : List Nat :=
  ((g.writes.filter isSinkSig) ++
    (match g.typed 0x1B with | some r => [r.outSig 0, r.outSig 1] | none => []) ++
    (match g.typed 0x21 with | some r => [r.outSig 1, r.outSig 2] | none => [])).eraseDups

/-- BEAT_OUTPUT_POINT (R59): duties to the shadows and the strobe, then the sinks are read. A beat that left a duty unwritten (R172),
or whose output point lies past the latest strobe point where that can happen (R162), counts an overrun in place of its strobe
(R63, R202). A word of wrong parity among those it reads is a reset source (R56). -/
def beatOutputPoint (b : Nat) (s : State) : State :=
  if 3 < b then s
  else
    match (s.br b).placed with
    | none => s
    | some p =>
      if p.ranBeat = false then s
      else if wordsSound s (outputReads p.graph) = false then storeError .signalBoard s
      else
        let q := { p with ranBeat := false }
        let s0 := s.setBr b { s.br b with placed := some q }
        let s1 := if p.late then s0
          else if p.noDuty ∨ (mayOverrun s b p ∧ lastStrobe s b p < s.now) then countOverrun b q s0
          else strobe b p.endEdge (s.setBr b { s.br b with placed := some { q with overrun := false } })
        if modeOf s1 b = 0 then s1
        else
          let g := p.graph
          let s2 := takeDac g (copyGrid b g s1)
          fireSinks g (p.lastIp.getD s.now) (readReaction b g s2)

def execBeatOutputPoint (bridge : Nat) (s : State) : Host.Outcome State Fault Refusal := .next (beatOutputPoint bridge s)

/-- BEAT_OVERRUN (R63): the class-0 work has not finished by the latest strobe point, where R162 lets that happen. -/
def beatOverrun (b : Nat) (s : State) : State :=
  if 3 < b then s
  else
    match (s.br b).placed with
    | some p =>
      if p.ranBeat ∧ p.late = false ∧ mayOverrun s b p then countOverrun b p (reachTime (lastStrobe s b p) s) else s
    | none => s

def execBeatOverrun (bridge : Nat) (s : State) : Host.Outcome State Fault Refusal := .next (beatOverrun bridge s)

/-! ### Without a beat -/

/-- A bridge's beat, ticks, while its graph runs; otherwise the step in which its sources age (R53). -/
def ownerPeriod (s : State) (owner : Option Nat) (without : Nat) : Nat :=
  match owner with
  | some b => match (s.br b).placed with | some p => p.graph.beatHalf * masterPer s b / 2 | none => without
  | none => without

/-- The rate of the placed record that writes graph or sink signal `i`, ticks; none while no placed graph writes it, and then the
signal does not age (DESIGN CHOICE, log entry 94). -/
def graphPeriod (s : State) (i : Nat) : Option Nat :=
  (List.range 4).findSome? (fun b => match (s.br b).placed with
    | some p => (p.graph.blocks.find? (fun r => (r.outs.map portSig).contains i)).map (fun r => nominalDt s b p.graph r.rate)
    | none => none)

/-- The owner of the converters that convert diagnostic channel `j`. -/
def diagOwner (s : State) (j : Nat) : Option Nat :=
  (ownersOf s ((List.range 16).filter (fun c => s.flag R.CV_CFG.EN c && (convCodes s c).contains (0x10 + j)))).head?

/-- The period of the writer's rate of signal `i`, ticks (R53). -/
def writerPeriod (s : State) (i : Nat) : Option Nat :=
  if isGraphSig i || isSinkSig i then graphPeriod s i
  else some (
    if isHostSig i || isCanSig i then 400000
    else if i < 0x050 then ownerPeriod s (inputOwner s (i - 0x010)) 40000
    else if i < 0x060 then ownerPeriod s (diagOwner s (i - 0x050)) 40000
    else if i < 0x070 then ownerPeriod s (encOwner s ((i - 0x060) / 4)) 40000
    else if i < 0x080 then ownerPeriod s (pulseOwner s ((i - 0x070) / 2)) 40000
    else if i < 0x0B0 then ownerPeriod s (bridgeOfLeg s ((i - 0x080) / 2)) 40000
    else if i < 0x0E0 then ownerPeriod s (bridgeOfLeg s ((i - 0x0B0) / 2)) 40000
    else if i < 0x100 then ownerPeriod s (bridgeOfLeg s (i - 0x0E0)) 400000
    else if i < 0x120 then ownerPeriod s (pairOwner s (i - 0x110)) 400000
    else ownerPeriod s (some (i % 16 / 4)) 400000)

/-- SIGNAL_AGEING: a period of the writer's rate has passed without a write (R52, R53). -/
def signalAgeing (i : Nat) (s : State) : State := match writerPeriod s i with | some t => sigAge i t s | none => s

def execSignalAgeing (index : Nat) (s : State) : Host.Outcome State Fault Refusal := .next (signalAgeing index s)

/-- NO_GRAPH_WRITE_CYCLE: every 100 µs the encoders and pulse inputs of owners that run no graph write their signals (R142, R147);
every 1 ms (`slow`) the twin words and the shares do (R185, R267). -/
def noGraphWriteCycle (slow : Bool) (s : State) : State :=
  if slow then
    let s1 := s.each ((List.range 8).filter (fun p => match pairOwner s p with | some b => !graphRuns s b | none => true))
      (fun s p => s.sigWrite (0x110 + p) (twinWord s p))
    s1.each ((List.range 24).filter (fun n => match bridgeOfLeg s n with | some b => !graphRuns s b | none => true))
      (fun s n => s.sigWrite (0x0E0 + n) (shareSignal s n))
  else
    s.each ((List.range 4).filter (fun b => !graphRuns s b)) (fun s b => sourcesWrite b s)

def execNoGraphWriteCycle (slow : Bool) (s : State) : Host.Outcome State Fault Refusal := .next (noGraphWriteCycle slow s)

end Sys2Proof.Machine
end

