-- ==== Sys2Proof/Machine/Window.lean ====
section
/-! DEFINITION. The register window: what READ_WIN and WRITE_WIN check and do, for every register of the window (R8 to R13,
R327 to R330, and the write rules of each chapter). The conditions that tie a field to others are judged on the values
the whole WRITE_WIN leaves, since all registers of a block take their values at once (R330); modes and states are judged
as they are before it (log entry 62). -/

namespace Sys2Proof.Machine

open Sys2Proof

/-! ### Addresses (R11, R12, R327, R329) -/

/-- The addresses of a range. -/
def winAddrs (addr count : Nat) : List Nat := (List.range count).map (fun k => addr + 4 * k)

/-- An address that R11 admits. -/
def winAddrOk (a : Nat) : Bool := decide (a % 4 = 0) && decide (a ≤ 0xA02FFC)

/-- The first address of a range that R11 refuses. -/
def winFault (addr count : Nat) : Option Nat := (winAddrs addr count).find? (fun a => !winAddrOk a)

/-- Check 1 of R327 and R329. -/
def winShapeOk (addr count : Nat) : Bool := decide (addr < 2 ^ 24) && decide (1 ≤ count ∧ count ≤ 256)

/-- VG_ERR_ADDR at a refusal at check 2 or 4. -/
def refuseAt (status a : Nat) (s : State) : Res := refuse status (s.wr R.VG_ERR_ADDR.ADDR 0 a)

/-- The register holds a WA field (R12). -/
def holdsWa (a : Nat) : Bool :=
  match regAt a with | some (r, _, _) => r.fields.any (fun f => f.acc == .WA) | none => false

/-! ### Reads (R8, R13, R328, R347) -/

/-- The registers whose read latches the register above (R13). -/
def pairLow (base : Nat) : Bool :=
  base ∈ [A.ID_SERIAL_LO, A.TS_LO, A.GR_DIGEST_LO, A.LG_ENERGY_LO, A.CAP_PANES0, A.BUF_TS_LO]

/-- The registers a pair's lower register latches. -/
def pairHigh (base : Nat) : Bool :=
  base ∈ [A.ID_SERIAL_HI, A.TS_HI, A.GR_DIGEST_HI, A.LG_ENERGY_HI, A.CAP_PANES1, A.BUF_TS_HI]

/-- The value the upper register of a pair returns: the latched one where its lower register has been read (R13). -/
def latchedView (s : State) (a : Nat) : Word :=
  match s.latched.find? (fun e => e.1 = a - 4) with
  | some e => e.2
  | none => viewReg s a

/-- The RC fields of a register cleared by its read (R8). -/
def clearRc (r : RegDef) (a : Nat) (s : State) : State :=
  if r.fields.any (fun f => f.acc == .RC) then
    s.setReg a (r.fields.foldl (fun w f =>
      if f.acc == .RC then BitVec.ofNat 32 (setBits w.toNat f.lo f.width 0) else w) (s.reg a))
  else s

/-- What the read of a register does beside returning it. -/
def readEffect (r : RegDef) (a i j : Nat) (s : State) : State :=
  let s1 := clearRc r a s
  if pairLow r.base then { s1 with latched := sins a (viewReg s (a + 4)) (serase s1.latched a) }
  else if r.base = A.XG_STALL then
    let id := s1.rd R.XG_SEL.ID
    setCrossing id { crossing s1 id with stalls := 0 } s1
  else if r.base = A.BUF_ID then takeLock i s1
  else if r.base = A.BUF_DATA ∧ j = 15 then readLastWord i s1
  else s1

/-- The read of one register: its value and the state after it. -/
def readReg (a : Nat) (s : State) : Word × State :=
  match winSignal a, regAt a with
  | none, some (r, i, j) => (if pairHigh r.base then latchedView s a else viewReg s a, readEffect r a i j s)
  | _, _ => (viewReg s a, s)

/-- The registers of a range in ascending address order (R328). -/
def readRegs : List Nat → State → List Byte × State
  | [], s => ([], s)
  | a :: t, s =>
    let x := readReg a s
    let y := readRegs t x.2
    (le 4 x.1.toNat ++ y.1, y.2)

/-- READ_WIN (R327, R328). A signal word of wrong parity is never returned: it is a reset source (R56), and the command ends with
INTERNAL (log entry 98). -/
def readWinBody (addr count : Nat) (s : State) : Res :=
  if winShapeOk addr count = false then refuse stBadParam s
  else
    match winFault addr count with
    | some a => refuseAt stBadParam a s
    | none =>
      if wordsSound s ((winAddrs addr count).filterMap winSignal) then
        let x := readRegs (winAddrs addr count) s
        doneWith x.1 x.2
      else refuse stInternal (storeError .signalBoard s)

/-! ### Storing (R8, R10, R80, R330) -/

/-- The word a register holds after a write: RW and WA fields take their bits, W1C bits written 1 clear, every other bit
stays (R8, R10). -/
def mergeWord (r : RegDef) (old new : Word) : Word :=
  r.fields.foldl (fun w f =>
    match f.acc with
    | .RW | .WA => BitVec.ofNat 32 (setBits w.toNat f.lo f.width (bitsOf new.toNat f.lo f.width))
    | .W1C => BitVec.ofNat 32 (setBits w.toNat f.lo f.width
        (bitsOf (w &&& ~~~new).toNat f.lo f.width))
    | _ => w) old

/-- Word `k` of the buffer of the object MO_SEL names (R349). -/
def storeBuf (r : RegDef) (c k : Nat) (w : Word) (s : State) : State :=
  let n := s.rd R.MO_SEL.MO_SEL c
  let old := (s.obj c n).buf.getD k 0
  s.setObj c n { s.obj c n with buf := (s.obj c n).buf.set k (mergeWord r (BitVec.ofNat 32 old) w).toNat }

/-- A host signal takes VALUE from bits 15:0 (R80). -/
def storeSignal (n : Nat) (w : Word) (s : State) : State := s.sigWrite n (w.toNat % 65536)

/-- One register written, without what follows from it. -/
def storeWord (a : Nat) (w : Word) (s : State) : State :=
  match winSignal a with
  | some n => storeSignal n w s
  | none =>
    match regAt a with
    | none => s
    | some (r, i, j) =>
      if r.base = A.BUF_ID then storeBuf r i 0 w s
      else if r.base = A.BUF_CTL then storeBuf r i 1 w s
      else if r.base = A.BUF_DATA then storeBuf r i (4 + j) w s
      else if r.base = A.LG_CFG then s.setEntry i { s.entry i with nfSel := fldOf R.LG_CFG.NF_SEL w }
      else s.setReg a (mergeWord r (s.reg a) w)

/-! ### Ranges: BAD_PARAM -/

/-- The value written to a field, at instance (i, j). -/
def wf (w : Word) (f : Fld) : Nat := fldOf f w

/-- Every RW and WA field takes a value in its range. BR_CFG and BR_PHASE are judged by R22 instead. -/
def fieldsOk (r : RegDef) (w : Word) : Bool :=
  if r.base = A.BR_CFG ∨ r.base = A.BR_PHASE then true
  else r.fields.all (fun f =>
    match f.acc with
    | .RW | .WA => fieldOk r f (bitsOf w.toNat f.lo f.width)
    | _ => true) && pairOk r w.toNat

/-- A period that R194 and R196 admit for the carrier of bridge `b`; `s` holds the values the write leaves. -/
def periodOk (s : State) (b p : Nat) : Bool :=
  (match loadedGraph s b with
    | some g => !imageOk s b || decide (2 * g.beatMin ≤ g.beatHalf * p ∧ g.beatHalf * p ≤ 2 * g.beatMax)
    | none => true) &&
  (legsOf s b).all (fun n => decide (s.rd R.SH_PULSE.MINP n + minOff s n ≤ 64 * p)) &&
  (legsOf s b).all (fun n => decide (s.rd R.SH_PHASE.PHASE_OFS n < 64 * p))

/-- The bridge whose master leg is `n`. -/
def mastersBridge (s : State) (n : Nat) : Option Nat :=
  match bridgeOfLeg s n with
  | some b => if masterLeg s b = n then some b else none
  | none => none

/-- The period PHASE_OFS is held to: that of the leg's carrier, or its own field where it has none (R195). -/
def phasePeriod (s : State) (n : Nat) : Nat :=
  if (s.leg n).perF = 0 then s.rd R.SH_CARRIER.PER n else (s.leg n).per

/-- Conditions on the sash registers of leg `n` (R194 to R196, R210). -/
def sashOk (s s' : State) (base n : Nat) : Bool :=
  if base = A.SH_CARRIER then
    (s'.flag R.SH_CARRIER.CMODE n || decide (s'.rd R.SH_CARRIER.PER n % 2 = 0)) &&
    !(s'.flag R.SH_CARRIER.CMODE n && s'.flag R.SH_CARRIER.UPD n) &&
    (match mastersBridge s n with | some b => periodOk s' b (s'.rd R.SH_CARRIER.PER n) | none => true)
  else if base = A.SH_DEAD ∨ base = A.SH_PULSE then
    ((s.leg n).perF == 0 || decide (s'.rd R.SH_PULSE.MINP n + minOff s' n ≤ 64 * (s.leg n).perF)) &&
    (base == A.SH_DEAD || !s'.flag R.SH_BOOT.BOOT_EN n || decide (6400 ≤ s'.rd R.SH_PULSE.MINP n))
  else if base = A.SH_PHASE then decide (s'.rd R.SH_PHASE.PHASE_OFS n < 64 * phasePeriod s' n)
  else if base = A.SH_BOOT then !s'.flag R.SH_BOOT.BOOT_EN n || decide (6400 ≤ s'.rd R.SH_PULSE.MINP n)
  else true

/-- Conditions on the fall-back registers of bridge `b` (R194, R196, R221). -/
def fallbackOk (s' : State) (base b j : Nat) : Bool :=
  if base = A.FB_PER then
    !cfgOk s' b ||
      ((sawtooth s' b || decide (s'.rd R.FB_PER.PER b % 2 = 0)) && periodOk s' b (s'.rd R.FB_PER.PER b))
  else if base = A.FB_DUTY then decide (s'.rd R.FB_DUTY.TON b j ≤ 64 * s'.rd R.FB_PER.PER b)
  else true

/-- Another bridge owns the encoder or the pulse input that bridge `b` takes (R150). -/
def tractionOk (s' : State) (base b : Nat) : Bool :=
  let others := (List.range 4).filter (fun c => c != b)
  if base = A.TR_ENC_CFG then
    !s'.flag R.TR_ENC_CFG.ENC_EN b || others.all (fun c => !s'.flag R.TR_ENC_CFG.ENC_EN c ||
      decide (s'.rd R.TR_ENC_CFG.ENC_SEL c ≠ s'.rd R.TR_ENC_CFG.ENC_SEL b))
  else if base = A.TR_PULSE_CFG then
    !s'.flag R.TR_PULSE_CFG.PULSE_EN b || others.all (fun c => !s'.flag R.TR_PULSE_CFG.PULSE_EN c ||
      decide (s'.rd R.TR_PULSE_CFG.PULSE_SEL c ≠ s'.rd R.TR_PULSE_CFG.PULSE_SEL b))
  else true

/-- Conditions on the driver registers of switch `k` (R235, R237, R242). -/
def driverOk (s' : State) (base k : Nat) : Bool :=
  if base = A.DRV_LOUVRE then
    let v := fun (f : Fld) => s'.rd f k
    decide (v R.DRV_LOUVRE.ON_MIN_M1 ≤ v R.DRV_LOUVRE.ON_INIT_M1 ∧ v R.DRV_LOUVRE.ON_INIT_M1 ≤ v R.DRV_LOUVRE.ON_MAX_M1) &&
    decide (v R.DRV_LOUVRE.OFF_MIN_M1 ≤ v R.DRV_LOUVRE.OFF_INIT_M1 ∧ v R.DRV_LOUVRE.OFF_INIT_M1 ≤ v R.DRV_LOUVRE.OFF_MAX_M1)
  else if base = A.DRV_SC ∨ base = A.DRV_OC then decide (s'.rd R.DRV_OC.OC_TH k < s'.rd R.DRV_SC.SC_TH k)
  else if base = A.DRV_CFG then !s'.flag R.DRV_CFG.BOOT_SUP k || decide (k % 2 = 0)
  else true

/-- Conditions on the converter and input registers of instance `i` (R260, R276). -/
def measureOk (s' : State) (base i : Nat) : Bool :=
  if base = A.CV_CFG then decide ((ownersOf s' [2 * (i / 2), 2 * (i / 2) + 1]).length ≤ 1)
  else if base = A.CV_SLOTS0 ∨ base = A.CV_SLOTS1 then
    (List.range 8).all (fun k => decide ((ownersOf s' (inputConvs s' (8 * (i / 2) + k))).length ≤ 1))
  else if base = A.IN_WC then
    decide (toSigned 16 (s'.rd R.IN_WC.WC_LO i) ≤ toSigned 16 (s'.rd R.IN_WC.WC_HI i))
  else true

/-- Conditions on the registers of CAN controller `c` (R334, R336, R339, R349, R353). -/
def canCfgOk (s' : State) (base c : Nat) (w : Word) : Bool :=
  if base = A.CF_NBT then timingOk s' c
  else if base = A.CF_DBT then timingOk s' c && !tdcMissing s' c
  else if base = A.CF_TDC then !tdcMissing s' c
  else if base = A.CF_MODE then
    !(s'.flag R.CF_MODE.TM_EN c && (s'.flag R.CF_MODE.MON c || s'.flag R.CF_MODE.TS_EN c))
  else if base = A.BUF_CTL then decide (wf w R.BUF_CTL.FDF = 1 ∨ wf w R.BUF_CTL.DLC ≤ 8)
  else true

/-- Conditions on the other registers: capture, Vangat, clocks and safety (R302, R333, R428, R377). -/
def otherOk (s' : State) (base i j : Nat) : Bool :=
  if base = A.CAP_PRE then decide (s'.rd R.CAP_PRE.PRE i < s'.rd R.CAP_ROWS.ROWS i)
  else if base = A.VG_CAN_CMD_ID then s'.flag R.VG_CAN_CFG.IDE || decide (s'.rd R.VG_CAN_CMD_ID.ID < 2048)
  else if base = A.VG_CAN_RSP_ID then s'.flag R.VG_CAN_CFG.IDE || decide (s'.rd R.VG_CAN_RSP_ID.ID < 2048)
  else if base = A.CK_CFG then !(s'.flag R.CK_CFG.REF_FREQ && decide (s'.rd R.CK_CFG.RDIV_A = 0))
  else if base = A.SF_SIN_TIME then discOk (s'.rd R.SF_SIN_CFG.FUNC 0 j) (s'.rd R.SF_SIN_TIME.DISC_T 0 j)
  else if base = A.SF_STO_TIME then discOk 1 (s'.rd R.SF_STO_TIME.DISC_T)
  else true

/-- The fields of a write lie in their ranges: `s` before the WRITE_WIN, `s'` with all its values stored. -/
def rangesOk (s s' : State) (r : RegDef) (i j : Nat) (w : Word) : Bool :=
  fieldsOk r w && sashOk s s' r.base i && fallbackOk s' r.base i j && tractionOk s' r.base i && driverOk s' r.base i &&
    measureOk s' r.base i && canCfgOk s' r.base i w && otherOk s' r.base i j

/-! ### Modes and states: WRONG_MODE and BUSY -/

/-- An owner that is SEALED, or none. -/
def sealedOr (s : State) (o : Option Nat) : Bool := match o with | some b => decide (modeOf s b = 0) | none => true

/-- The leg's bridge is SEALED, or the leg is in no bridge. -/
def legFree (s : State) (n : Nat) : Bool := sealedOr s (bridgeOfLeg s n)

/-- The registers of a bridge block that are writable only in SEALED (R21, R43, R138, R150, R276). -/
def sealedOnly (base : Nat) : Bool :=
  base ∈ [A.BR_CFG, A.BR_PHASE, A.BR_KON, A.BR_BAND, A.BR_TIMES, A.GF_CFG, A.TR_ENC_CFG, A.TR_ENC_OFS, A.TR_PULSE_CFG,
    A.TR_PULSE_FS, A.MS_IP]

/-- The registers of a leg that are writable while its bridge is SEALED or it is in none (R218, R250). -/
def legOnly (base : Nat) : Bool :=
  base ∈ [A.SH_DEAD, A.SH_PULSE, A.SH_PHASE, A.SH_BOOT, A.SH_TRIP, A.SH_ADC, A.SH_STRB, A.IL_CFG]

/-- The registers of a switch with the same condition on its leg (R250). -/
def switchOnly (base : Nat) : Bool :=
  base ∈ [A.DRV_CFG, A.DRV_LOUVRE, A.DRV_TARGET, A.DRV_DRAIN, A.DRV_SC, A.DRV_OC, A.DRV_SUP, A.DRV_NTC]

/-- The configuration registers of a capture unit (R288). -/
def unitOnly (base : Nat) : Bool := base ∈ [A.CAP_CFG, A.CAP_ROWS, A.CAP_PRE, A.CAP_TRIG, A.CAP_CH]

/-- The registers of a CAN controller that are writable only in CONFIG (R357). -/
def configOnly (base : Nat) : Bool :=
  base ∈ [A.CF_NBT, A.CF_DBT, A.CF_TDC, A.CF_MODE, A.CF_REF_ID, A.CF_REF_PER, A.CF_WK_ID, A.CF_WK_MASK, A.CF_WK_DATA,
    A.CF_WK_DMASK]

/-- DONE or a status. -/
def need (ok : Bool) (status : Nat) : Nat := if ok then stDone else status

/-- A write of 1 to TX_REQ (R339, R349); an object that is no enabled TX object has nothing to transmit (DEDUCED, log
entry 63). -/
def txStatus (s : State) (c k : Nat) : Nat :=
  if s.flag R.MO_CFG.EN c k && s.flag R.MO_CFG.DIR c k then (txRequest c k s).1 else stWrongMode

/-- A write of the buffer window (R349). -/
def bufStatus (s : State) (c : Nat) : Nat :=
  let k := s.rd R.MO_SEL.MO_SEL c
  if s.flag R.MO_CFG.DIR c k = false then stWrongMode else need (!s.flag R.MO_STAT.TX_PEND c k) stBusy

/-- Conditions of the registers of legs and switches. -/
def legStatus (s s' : State) (base i : Nat) (w : Word) : Nat :=
  if legOnly base then need (legFree s i) stWrongMode
  else if switchOnly base then need (legFree s (i / 2)) stWrongMode
  else if base = A.SH_CARRIER then
    need (legFree s i || (decide (s.rd R.SH_CARRIER.CMODE i = s'.rd R.SH_CARRIER.CMODE i) &&
      decide (s.rd R.SH_CARRIER.UPD i = s'.rd R.SH_CARRIER.UPD i))) stWrongMode
  else if base = A.SH_CTRL then need (legFree s i || decide (wf w R.SH_CTRL.LATCH_CLR = 0)) stWrongMode
  else if base = A.DRV_CTRL then need (legFree s (i / 2) || decide (wf w R.DRV_CTRL.DRV_CLR = 0)) stWrongMode
  else need (legFree s i || decide (wf w R.IL_STATUS.XCHK_TRIP = 0)) stWrongMode

/-- Conditions of the converter, pair and input registers: the owner before and after the write (R276). -/
def measureStatus (s s' : State) (base i : Nat) : Nat :=
  let o := fun (s : State) =>
    if base = A.TW_CFG then pairOwner s i else if base = A.IN_WC then inputOwner s i else convOwner s i
  need (sealedOr s (o s) && sealedOr s (o s')) stWrongMode

/-- The mode and state conditions of a register. -/
def stateStatus (s s' : State) (base i j : Nat) (w : Word) : Nat :=
  if sealedOnly base then need (decide (modeOf s i = 0)) stWrongMode
  else if legOnly base || switchOnly base || base ∈ [A.SH_CARRIER, A.SH_CTRL, A.DRV_CTRL, A.IL_STATUS] then
    legStatus s s' base i w
  else if base ∈ [A.CV_CFG, A.CV_SLOTS0, A.CV_SLOTS1, A.TW_CFG, A.IN_WC] then measureStatus s s' base i
  else if unitOnly base then need (decide (capState s i = 0)) stBusy
  else if base = A.CAP_GROUP then need ((groupUnits s).all (fun u => decide (capState s u = 0))) stBusy
  else if configOnly base then need (decide (canState s i = 0)) stWrongMode
  else if base = A.MO_ID ∨ base = A.MO_MASK then need (!s.flag R.MO_CFG.EN i j) stWrongMode
  else if base = A.MO_STAT then if wf w R.MO_STAT.TX_REQ = 1 then txStatus s i j else stDone
  else if base ∈ [A.BUF_ID, A.BUF_CTL, A.BUF_TS_LO, A.BUF_TS_HI, A.BUF_DATA] then bufStatus s i
  else stDone

/-- The safety block, but for SF_EVENT (R377). -/
def inSafety (a : Nat) : Bool := decide (0x800000 ≤ a ∧ a < 0x900000 ∧ a ≠ A.SF_EVENT)

/-- Check 4 of R329 for one register: ranges before modes. -/
def checkWord (s s' : State) (a : Nat) (w : Word) : Nat :=
  match winSignal a with
  | some n => need (decide (0x140 ≤ n ∧ n ≤ 0x1BF)) stBadParam
  | none =>
    let own := match regAt a with
      | none => stDone
      | some (r, i, j) => if rangesOk s s' r i j w then stateStatus s s' r.base i j w else stBadParam
    if own ≠ stDone then own else need (!inSafety a || decide (devState s ≠ 2)) stWrongMode

/-! ### What follows from a write -/

/-- A write of PER of a master leg in SEALED is applied when it is accepted (R196). -/
def applyPer (n : Nat) (s : State) : State :=
  match mastersBridge s n with
  | some b =>
    if modeOf s b ≠ 0 then s
    else if (s.leg n).perF = 0 then startCarriers s
    else s.each (legsOf s b) (fun s k => s.setLeg k { s.leg k with per := s.rd R.SH_CARRIER.PER n })
  | none => s

/-- After a write of BR_CFG, BR_PHASE or BR_KON (R21, R22, R376). -/
def bridgeWritten (b : Nat) (s : State) : State := applySafety (recode (checkConfig b (unloadGraph b s)))

/-- After a write of TR_ENC_CFG: the count of the encoder it owned and of the one it owns (R142). -/
def encoderWritten (s0 : State) (b : Nat) (s : State) : State :=
  let clear := fun (from_ s : State) =>
    if from_.flag R.TR_ENC_CFG.ENC_EN b then encClear (from_.rd R.TR_ENC_CFG.ENC_SEL b) s else s
  clear s (clear s0 s)

/-- After a write of CN_STEER: with STEER_EN at 0 every share of the bridge returns to 0x2000 (R187). -/
def steerWritten (b : Nat) (s : State) : State :=
  if s.flag R.CN_STEER.STEER_EN b then s else s.each (legsOf s b) (fun s n => setShare n 0x2000 s)

/-- After a write of a Vangat CAN register that changes it (R333, R460). -/
def vangatWritten (s0 : State) (a : Nat) (s : State) : State :=
  if s0.reg a = s.reg a then s else stopCanStreams (dropSegments s)

/-- After a write of CV_CFG: off, or OK where it is not FAILED (R268). -/
def convWritten (c : Nat) (s : State) : State :=
  let s1 := if s.flag R.CV_CFG.EN c ∧ s.flag R.CV_CFG.MODE c = false then s
    else s.setConv c { s.conv c with slot := none, trig := s.now }
  if s.rd R.CV_STATUS.STATE c = 2 then s1 else s1.wr R.CV_STATUS.STATE c (b2n (s.flag R.CV_CFG.EN c))

/-- After a write of a fall-back register: its tag, and it is pending (R206). -/
def fbWritten (b : Nat) (duty : Option Nat) (s : State) : State :=
  match duty with
  | none => (s.wr R.FB_PER.TAG b (s.br b).tag).setBr b { s.br b with fbPer := true }
  | some j => (s.wr2 R.FB_DUTY.TAG b j (s.br b).tag).setBr b { s.br b with
      fbDuty := if j ∈ (s.br b).fbDuty then (s.br b).fbDuty else (s.br b).fbDuty ++ [j] }

/-- A write of 1 to FAULT_CLR: a word of wrong parity among those that judge the cause is a reset source, and its value is not used
(R41, R56). -/
def faultClear (b : Nat) (s : State) : State :=
  if wordsSound s (causeReads s b) then clearLatch b s else storeError .signalBoard s

/-- The actions of the bridge block and of the engines' steering. -/
def actBridge (s0 : State) (base i j : Nat) (w : Word) (s : State) : State :=
  if base ∈ [A.BR_CFG, A.BR_PHASE, A.BR_KON] then bridgeWritten i s
  else if base = A.BR_CTRL then if wf w R.BR_CTRL.FAULT_CLR = 1 then faultClear i s else s
  else if base = A.TR_ENC_CFG then encoderWritten s0 i s
  else if base = A.FB_PER then fbWritten i none s
  else if base = A.FB_DUTY then fbWritten i (some j) s
  else if base = A.CN_STEER then steerWritten i s
  else s

/-- The actions of the sash, driver, interlock and measurement blocks. -/
def actPower (base i : Nat) (w : Word) (s : State) : State :=
  if base = A.SH_CARRIER then applyPer i s
  else if base = A.SH_CTRL then if wf w R.SH_CTRL.LATCH_CLR = 1 then clearLatchOff i s else s
  else if base = A.DRV_LOUVRE then louvreInit i s
  else if base = A.DRV_SUP then supplyWritten i s
  else if base = A.DRV_CTRL then if wf w R.DRV_CTRL.DRV_CLR = 1 then clearDie i s else s
  else if base = A.IL_CFG then interlocks s
  else if base = A.CV_CFG then convWritten i s
  else if base = A.TW_CTRL then if wf w R.TW_CTRL.TW_CLR = 1 then clearTwin i s else s
  else if base = A.TD_CFG then
    if s.flag R.TD_CFG.SRC then { s with cal := { s.cal with dac := s.rd R.TD_CFG.HOST_CODE } } else s
  else s

/-- The actions of the CAN, Vangat, Dellan and safety blocks. -/
def actLink (s0 : State) (a base i j : Nat) (w : Word) (s : State) : State :=
  if base ∈ [A.VG_CAN_CFG, A.VG_CAN_CMD_ID, A.VG_CAN_RSP_ID] then vangatWritten s0 a s
  else if base = A.CF_NBT then showTriple i s
  else if base = A.CF_CTRL then if wf w R.CF_CTRL.CFG_REQ = 1 then requestConfig i s else s
  else if base = A.MO_SEL then releaseLock i s
  else if base = A.MO_STAT then if wf w R.MO_STAT.TX_REQ = 1 then (txRequest i j s).2 else s
  else if base = A.DL_CTRL then
    if wf w R.DL_CTRL.RETRAIN = 1 ∧ s.clk.training = none then beginTraining s else s
  else if inSafety a then applySafety (recode (blankChannels (noteKon s)))
  else s

/-- What follows from the write of one register; `s0` is the state before the WRITE_WIN. -/
def actWord (s0 : State) (a : Nat) (w : Word) (s : State) : State :=
  match winSignal a, regAt a with
  | none, some (r, i, j) =>
    actLink s0 a r.base i j w (actPower r.base i w (actBridge s0 r.base i j w s))
  | _, _ => s

/-- Every register written in ascending address order, then what follows from each (R330). -/
def writeAll (ws : List (Nat × Word)) (s : State) : State :=
  ws.foldl (fun t e => actWord s e.1 e.2 t) (ws.foldl (fun t e => storeWord e.1 e.2 t) s)

/-- The first register of the range at fault, with its status (check 4). -/
def firstRefused (s s' : State) : List (Nat × Word) → Option (Nat × Nat)
  | [] => none
  | e :: t => if checkWord s s' e.1 e.2 = stDone then firstRefused s s' t else some (e.1, checkWord s s' e.1 e.2)

/-- Checks 4 and 5 of R329. -/
def writeChecked (ws : List (Nat × Word)) (s : State) : Res :=
  match firstRefused s (ws.foldl (fun t e => storeWord e.1 e.2 t) s) ws with
  | some (a, st) => refuseAt st a s
  | none => done (writeAll ws s)

/-- The parameters of a WRITE_WIN. -/
def writeParams (addr : Nat) (values : List Word) : List Byte :=
  le 4 addr ++ le 2 values.length ++ values.flatMap (fun v => le 4 v.toNat)

/-- WRITE_WIN (R329). -/
def writeWinBody (h : Hdr) (addr : Nat) (values : List Word) (s : State) : Res :=
  if winShapeOk addr values.length = false then refuse stBadParam s
  else
    match winFault addr values.length with
    | some a => refuseAt stBadParam a s
    | none =>
      let ws := (winAddrs addr values.length).zip values
      if (winAddrs addr values.length).any holdsWa then
        withAuth h 0x0402 (writeParams addr values) .any s (writeChecked ws)
      else writeChecked ws s

end Sys2Proof.Machine
end

