-- ==== Sys2Proof/Machine/WindowRows.lean ====
section
/-! DEFINITION. The commands that name a register access: PING, GET_STATUS, READ_WIN, WRITE_WIN and the rows of the opcode
table that write or read one register (R327, R329, R331). -/

namespace Sys2Proof.Machine

open Sys2Proof

/-! ### PING and GET_STATUS (R331) -/

/-- The words of some registers. -/
def regBytes (as_ : List Nat) (s : State) : List Byte := as_.flatMap (fun a => le 4 (viewReg s a).toNat)

/-- PING: ID_PART, ID_REV and ID_FW. -/
def pingBody (s : State) : Res := doneWith (regBytes [A.ID_PART, A.ID_REV, A.ID_FW] s) s

def execPing (h : Hdr) (s : State) : Host.Outcome State Fault Refusal := .next (acceptCmd h 0x0101 [] pingBody s)

/-- GET_STATUS: DEV_STATUS, DEV_EVENT, ID_STATUS and VG_EVENT. -/
def getStatusBody (s : State) : Res :=
  doneWith (regBytes [A.DEV_STATUS, A.DEV_EVENT, A.ID_STATUS, A.VG_EVENT] s) s

def execGetStatus (h : Hdr) (s : State) : Host.Outcome State Fault Refusal :=
  .next (acceptCmd h 0x0102 [] getStatusBody s)

/-! ### The window -/

/-- A READ_WIN as a command. -/
def readWin (h : Hdr) (addr count : Nat) (s : State) : State :=
  acceptCmd h 0x0401 (le 4 addr ++ le 2 count) (readWinBody addr count) s

/-- A WRITE_WIN as a command. -/
def writeWin (h : Hdr) (addr : Nat) (values : List Word) (s : State) : State :=
  acceptCmd h 0x0402 (writeParams addr values) (writeWinBody h addr values) s

def execReadWin (h : Hdr) (addr count : Nat) (s : State) : Host.Outcome State Fault Refusal := .next (readWin h addr count s)

def execWriteWin (h : Hdr) (addr : Nat) (values : List Word) (s : State) : Host.Outcome State Fault Refusal :=
  .next (writeWin h addr values s)

/-! ### Bridge registers -/

/-- BRIDGE_CONFIG_WRITE (R21): register 0 is BR_CFG, 1 BR_PHASE, 2 BR_KON. -/
def execBridgeConfigWrite (h : Hdr) (bridge reg : Nat) (value : Word) (s : State) : Host.Outcome State Fault Refusal :=
  .next (writeWin h (A.BR_CFG + 0x400 * bridge + 4 * reg) [value] s)

/-- FAULT_CLR (R41): 1 written to BR_CTRL. -/
def execFaultClr (h : Hdr) (bridge : Nat) (s : State) : Host.Outcome State Fault Refusal :=
  .next (writeWin h (A.BR_CTRL + 0x400 * bridge) [1] s)

/-- RESYNC_WRITE (R136): RESYNC of GF_CTRL. -/
def execResyncWrite (h : Hdr) (bridge : Nat) (resync : Bool) (s : State) : Host.Outcome State Fault Refusal :=
  .next (writeWin h (A.GF_CTRL + 0x400 * bridge) [word (b2n resync)] s)

/-- ENCODER_CONFIG_WRITE (R142): TR_ENC_CFG. -/
def execEncoderConfigWrite (h : Hdr) (bridge : Nat) (value : Word) (s : State) : Host.Outcome State Fault Refusal :=
  .next (writeWin h (A.TR_ENC_CFG + 0x400 * bridge) [value] s)

/-- FALLBACK_WRITE (R206): from register `index`, where 0 is FB_PER and 1 + i is FB_DUTYi. -/
def execFallbackWrite (h : Hdr) (bridge index : Nat) (values : List Word) (s : State) : Host.Outcome State Fault Refusal :=
  .next (writeWin h (A.FB_PER + 0x400 * bridge + 4 * index) values s)

/-- STEER_WRITE (R187): CN_STEER and CN_STEER2 in one WRITE_WIN. -/
def execSteerWrite (h : Hdr) (bridge : Nat) (steer steer2 : Word) (s : State) : Host.Outcome State Fault Refusal :=
  .next (writeWin h (A.CN_STEER + 0x20 * bridge) [steer, steer2] s)

/-! ### Signals, legs, switches and pairs -/

/-- HOST_SIGNAL_WRITE (R80): the signals from `index` on. -/
def execHostSignalWrite (h : Hdr) (index : Nat) (values : List Word) (s : State) : Host.Outcome State Fault Refusal :=
  .next (writeWin h (0x200000 + 4 * index) values s)

/-- PER_WRITE (R196): SH_CARRIER. -/
def execPerWrite (h : Hdr) (leg : Nat) (value : Word) (s : State) : Host.Outcome State Fault Refusal :=
  .next (writeWin h (A.SH_CARRIER + 0x100 * leg) [value] s)

/-- LATCH_CLR (R214): 1 written to SH_CTRL. -/
def execLatchClr (h : Hdr) (leg : Nat) (s : State) : Host.Outcome State Fault Refusal :=
  .next (writeWin h (A.SH_CTRL + 0x100 * leg) [1] s)

/-- XCHK_TRIP_CLEAR (R229): 1 written to XCHK_TRIP. -/
def execXchkTripClear (h : Hdr) (leg : Nat) (s : State) : Host.Outcome State Fault Refusal :=
  .next (writeWin h (A.IL_STATUS + 0x10 * leg) [0x40000000] s)

/-- LOUVRE_WRITE (R234): DRV_LOUVRE. -/
def execLouvreWrite (h : Hdr) (switch : Nat) (value : Word) (s : State) : Host.Outcome State Fault Refusal :=
  .next (writeWin h (A.DRV_LOUVRE + 0x40 * switch) [value] s)

/-- DRV_CLR (R246): 1 written to DRV_CTRL. -/
def execDrvClr (h : Hdr) (switch : Nat) (s : State) : Host.Outcome State Fault Refusal :=
  .next (writeWin h (A.DRV_CTRL + 0x40 * switch) [1] s)

/-- TW_CLR (R266): 1 written to TW_CTRL. -/
def execTwClr (h : Hdr) (pair : Nat) (s : State) : Host.Outcome State Fault Refusal :=
  .next (writeWin h (A.TW_CTRL + 0x100 * pair) [1] s)

/-! ### Safety, Vangat and capture configuration -/

/-- SAFETY_CONFIG_WRITE (R377): registers of the safety block from `addr` on. -/
def execSafetyConfigWrite (h : Hdr) (addr : Nat) (values : List Word) (s : State) : Host.Outcome State Fault Refusal :=
  .next (writeWin h addr values s)

/-- VANGAT_CAN_CONFIG_WRITE (R333): register 0 is VG_CAN_CFG, 1 VG_CAN_CMD_ID, 2 VG_CAN_RSP_ID. -/
def execVangatCanConfigWrite (h : Hdr) (reg : Nat) (value : Word) (s : State) : Host.Outcome State Fault Refusal :=
  .next (writeWin h (A.VG_CAN_CFG + 4 * reg) [value] s)

/-- CAPTURE_CONFIG_WRITE (R288): registers of a capture unit from `offset` on. -/
def execCaptureConfigWrite (h : Hdr) (unit offset : Nat) (values : List Word) (s : State) : Host.Outcome State Fault Refusal :=
  .next (writeWin h (A.CAP_CFG + 0x100 * unit + offset) values s)

/-! ### CAN controllers and Dellan -/

/-- CFG_REQ (R338): 1 written to CF_CTRL. -/
def execCfgReq (h : Hdr) (ctrl : Nat) (s : State) : Host.Outcome State Fault Refusal :=
  .next (writeWin h (A.CF_CTRL + 0x1000 * ctrl) [1] s)

/-- TX_REQ (R349): 1 written to bit 0 of MO_STAT. -/
def execTxReq (h : Hdr) (ctrl obj : Nat) (s : State) : Host.Outcome State Fault Refusal :=
  .next (writeWin h (A.MO_STAT + 0x1000 * ctrl + 0x10 * obj) [1] s)

/-- BUF_ID_READ (R347): a READ_WIN of BUF_ID. -/
def execBufIdRead (h : Hdr) (ctrl : Nat) (s : State) : Host.Outcome State Fault Refusal :=
  .next (readWin h (A.BUF_ID + 0x1000 * ctrl) 1 s)

/-- BUF_DATA15_READ (R347): a READ_WIN of BUF_DATA15. -/
def execBufData15Read (h : Hdr) (ctrl : Nat) (s : State) : Host.Outcome State Fault Refusal :=
  .next (readWin h (A.BUF_DATA + 0x1000 * ctrl + 60) 1 s)

/-- MO_SEL_WRITE (R347): MO_SEL. -/
def execMoSelWrite (h : Hdr) (ctrl obj : Nat) (s : State) : Host.Outcome State Fault Refusal :=
  .next (writeWin h (A.MO_SEL + 0x1000 * ctrl) [word obj] s)

/-- RETRAIN (R448): 1 written to DL_CTRL. -/
def execRetrain (h : Hdr) (s : State) : Host.Outcome State Fault Refusal := .next (writeWin h A.DL_CTRL [1] s)

end Sys2Proof.Machine
end

