-- ==== Sys2Proof/Machine/Interp.lean ====
section
/-! DEFINITION. The command interpreter: PACKET_TAKE, the checks of R307 on a delivered packet, the repeats of R324 and the
command an opcode names (R323, R331). -/

namespace Sys2Proof.Machine

open Sys2Proof

/-! ### Opcodes (R331) -/

/-- The register values a byte string spells. -/
def valuesOf (bs : List Byte) : List Word := (wordsOf bs).map word

/-- Opcodes 0x01xx to 0x03xx. -/
def bodyLow (h : Hdr) (op : Nat) (p : List Byte) : Option (State → Res) :=
  let b := byteAt p
  match op with
  | 0x0101 => some pingBody
  | 0x0102 => some getStatusBody
  | 0x0103 => some (resetBody h (b 0) (b 1))
  | 0x0104 => some (shutdownBody h)
  | 0x0105 => some (optionWriteBody h)
  | 0x0106 => some (fuseProgramBody h (leAt p 0 2) (leAt p 2 4))
  | 0x0201 => some (setModeBody h (b 0) (b 1) (b 2))
  | 0x0202 => some (sashLoadBody (b 0))
  | 0x0203 => some (getModeBody (b 0))
  | 0x0301 => some (graphBeginBody (leAt p 0 4))
  | 0x0302 => some (graphDataBody (leAt p 0 4) (p.drop 4))
  | 0x0303 => some graphCheckBody
  | 0x0304 => some (graphLoadBody h (b 0) (b 1))
  | 0x0305 => some (graphStoreBody h (b 0))
  | 0x0306 => some (graphStartBody h (b 0))
  | 0x0307 => some (graphUnloadBody (b 0))
  | 0x0308 => some (graphInfoBody (b 0))
  | 0x0309 => some (graphVerifyBody (b 0))
  | _ => none

/-- READ_WIN and WRITE_WIN from their parameters: P is 6 + 4 × COUNT (R327, R329 check 1). -/
def bodyWindow (h : Hdr) (op : Nat) (p : List Byte) : Option (State → Res) :=
  match op with
  | 0x0401 => some (readWinBody (leAt p 0 4) (leAt p 4 2))
  | 0x0402 => some (fun s =>
    if p.length = 6 + 4 * leAt p 4 2 then writeWinBody h (leAt p 0 4) (valuesOf (p.drop 6)) s else refuse stBadParam s)
  | _ => none

/-- Opcodes 0x05xx to 0x07xx. -/
def bodyMiddle (h : Hdr) (op : Nat) (p : List Byte) : Option (State → Res) :=
  let b := byteAt p
  match op with
  | 0x0501 => some (capArmBody (b 0))
  | 0x0502 => some (capDisarmBody (b 0))
  | 0x0503 => some (capForceBody (b 0))
  | 0x0504 => some capListBody
  | 0x0505 => some (capReadBody (b 0) (leAt p 1 4) (leAt p 5 4) (leAt p 9 2))
  | 0x0506 => some (capReleaseBody (b 0) (leAt p 1 4))
  | 0x0601 => some (calZeroBody h (b 0) (b 1))
  | 0x0602 => some (calFullBody h (b 0) (b 1) (leAt p 2 2))
  | 0x0603 => some (calStoreBody h (leAt p 0 8))
  | 0x0604 => some (calDiscardBody (leAt p 0 8))
  | 0x0605 => some (calReadBody (b 0))
  | 0x0701 => some safetyStatusBody
  | 0x0702 => some safetyCodeBody
  | 0x0703 => some (safetyLogBody (leAt p 0 2))
  | _ => none

/-- Opcodes 0x08xx and 0x09xx. -/
def bodySecurity (h : Hdr) (op : Nat) (p : List Byte) : Option (State → Res) :=
  let b := byteAt p
  match op with
  | 0x0801 => some (getCounterBody (b 0))
  | 0x0802 => some (counterResyncBody h (b 0) (leAt p 1 4))
  | 0x0803 => some (keyLoadBody h (b 0) (p.drop 1))
  | 0x0804 => some (keyRevokeBody h (b 0))
  | 0x0805 => some (keyInfoBody (b 0))
  | 0x0806 => some (fwBeginBody h (leAt p 0 4))
  | 0x0807 => some (fwDataBody (leAt p 0 4) (p.drop 4))
  | 0x0808 => some (fwCommitBody h)
  | 0x0809 => some fwInfoBody
  | 0x080A => some (trngReadBody (b 0))
  | 0x0901 => some (tlmCfgBody (b 0) (p.drop 1))
  | 0x0902 => some (tlmStartBody (b 0))
  | 0x0903 => some (tlmStopBody (b 0))
  | 0x0904 => some (logReadBody (leAt p 0 4))
  | _ => none

/-- Opcodes 0x0Axx to 0x0Cxx. -/
def bodyHigh (h : Hdr) (op : Nat) (p : List Byte) : Option (State → Res) :=
  let b := byteAt p
  match op with
  | 0x0A01 => some (canBusOnBody h (b 0))
  | 0x0A02 => some (canMapBody (b 0) (p.drop 1))
  | 0x0A03 => some (canSleepBody h (b 0))
  | 0x0A04 => some (canStatusBody (b 0))
  | 0x0B01 => some (canopyMapBody (b 0))
  | 0x0B02 => some (canopyWhereBody (b 0) (leAt p 1 2))
  | 0x0B03 => some (canopyHoldBody (b 0) (b 1))
  | 0x0C01 => some (ledgerReadBody (b 0))
  | 0x0C02 => some (ledgerNfBody h (b 0) (valuesOf (p.drop 1)))
  | 0x0C03 => some (ledgerNfReadBody (b 0))
  | 0x0C04 => some (ledgerSaveBody h)
  | 0x0C05 => some (ledgerResetBody h (leAt p 0 6))
  | _ => none

/-- The command an opcode names, with the parameters of its packet; none where the opcode is not in the table. -/
def bodyOf (h : Hdr) (op : Nat) (p : List Byte) : Option (State → Res) :=
  match op / 256 with
  | 1 | 2 | 3 => bodyLow h op p
  | 4 => bodyWindow h op p
  | 5 | 6 | 7 => bodyMiddle h op p
  | 8 | 9 => bodySecurity h op p
  | _ => bodyHigh h op p

/-! ### Checks 1 to 4 of R307 -/

/-- The reply to bytes that are no packet: SEQ from byte 3 and OPCODE from bytes 4 and 5 where they were delivered. -/
def badPacket (can : Bool) (status : Nat) (bs : List Byte) (s : State) : State :=
  let seq := if 4 ≤ bs.length then byteAt bs 3 else 0
  let op := if 6 ≤ bs.length then leAt bs 4 2 else 0
  let h : Hdr := ⟨can, seq, none⟩
  queueReply can (replyBytes h op (refuse status s) false)
    ((recordRefusal h op status (s.countUp R.VG_COUNT.FRAME_ERR)).raise R.VG_EVENT.FRAME_EV)

/-- A taken packet through the checks of R307. -/
def interpret (can : Bool) (x : RxPkt) (s : State) : State :=
  if frameOk x.bytes = false then badPacket can stBadFrame x.bytes s
  else if crcOk x.bytes = false then badPacket can stBadCrc x.bytes s
  else if isRepeat (s.transport can).last x then answerRepeat can s
  else
    let p := parsePacket x.bytes
    let h : Hdr := ⟨can, p.seq, p.auth⟩
    match bodyOf h p.opcode p.params with
    | some body => acceptCmd h p.opcode p.params body s
    | none =>
      sendReply can x.bytes (replyBytes h p.opcode (refuse stUnknownOpcode s) false)
        (recordRefusal h p.opcode stUnknownOpcode s)

/-! ### PACKET_TAKE (R323) -/

/-- The first waiting packet of a transport the interpreter may take from. -/
def candidate (can : Bool) (s : State) : Option RxPkt :=
  if takes s can then (s.transport can).rx.head? else none

/-- The first packet of a transport taken and interpreted. -/
def takeFrom (can : Bool) (x : RxPkt) (s : State) : State :=
  interpret can x (s.setTransport can { s.transport can with rx := (s.transport can).rx.tail })

/-- PACKET_TAKE: the packet whose last byte arrived first, of two of one tick that of SPI (R323). -/
def packetTake (s : State) : State :=
  match candidate false s, candidate true s with
  | some a, some b => if a.at_ ≤ b.at_ then takeFrom false a s else takeFrom true b s
  | some a, none => takeFrom false a s
  | none, some b => takeFrom true b s
  | none, none => s

def execPacketTake (s : State) : Host.Outcome State Fault Refusal := .next (packetTake (expireHeld s))

end Sys2Proof.Machine
end

