-- ==== Sys2Proof/Machine/Rows.lean ====
section
/-! DEFINITION. The row clocks of capture units that follow no placed graph (R277, R278). A word of wrong parity that a row
would hold is an uncorrectable error (R56). -/

namespace Sys2Proof.Machine

open Sys2Proof

/-- The row clock of a unit has struck; a row is due at every DIV-th input point of MODE 0. -/
def clockRow (u : Nat) (every : Nat) (lost : Bool) (s : State) : State :=
  let x := s.unit u
  let d := x.div + 1
  let s1 := s.setUnit u { x with clockAt := some s.now, div := if every ≤ d then 0 else d }
  if every ≤ d then
    if wordsSound s1 (capChans s1 u) then takeRow u (chanRow s1 u (fun i => (s1.sig i).val)) lost s1
    else storeError .signalBoard s1
  else s1

/-- CAPTURE_ROW: the row clock of MODE 1, and of MODE 0 while BR holds no placed graph (R277, R278). Rows of a placed
MODE 0 unit are taken at its input points, rows of MODE 2 at its converter's results. -/
def captureRow (u : Nat) (lost : Bool) (s : State) : State :=
  let b := s.rd R.CAP_CFG.BR u
  if 7 < u ∨ takesRows s u = false then s
  else if capMode s u = 1 then clockRow u 1 lost (reachTime (timebaseStrike s u) s)
  else if capMode s u = 0 ∧ (s.br b).placed.isNone ∧ 0 < presentPer s b then
    clockRow u (capDiv s u) lost (reachTime (peakStrike s u b) s)
  else s

def execCaptureRow (unit : Nat) (lost : Bool) (s : State) : Host.Outcome State Fault Refusal :=
  .next (captureRow unit lost s)

end Sys2Proof.Machine
end

