-- ==== Sys2Proof/Machine/Dispatch.lean ====
section
/-! DEFINITION. The meaning of every command: one arm for each constructor of `Instr`, one direct call of its meaning. -/

namespace Sys2Proof.Machine

open Sys2Proof

def exec (i : Instr) (s : State) : Host.Outcome State Fault Refusal :=
  match i with
  | .ping h => Sys2Proof.Machine.execPing h s
  | .getStatus h => Sys2Proof.Machine.execGetStatus h s
  | .reset h level bridge => Sys2Proof.Machine.execReset h level bridge s
  | .resetCommandAct => Sys2Proof.Machine.execResetCommandAct s
  | .shutdown h => Sys2Proof.Machine.execShutdown h s
  | .shutdownFinish => Sys2Proof.Machine.execShutdownFinish s
  | .optionWrite h => Sys2Proof.Machine.execOptionWrite h s
  | .optionWriteDone ok => Sys2Proof.Machine.execOptionWriteDone ok s
  | .fuseProgram h word value => Sys2Proof.Machine.execFuseProgram h word value s
  | .fuseProgramDone ok => Sys2Proof.Machine.execFuseProgramDone ok s
  | .setMode h bridge mode style => Sys2Proof.Machine.execSetMode h bridge mode style s
  | .getMode h bridge => Sys2Proof.Machine.execGetMode h bridge s
  | .sashLoad h bridge => Sys2Proof.Machine.execSashLoad h bridge s
  | .graphBegin h length => Sys2Proof.Machine.execGraphBegin h length s
  | .graphData h offset data => Sys2Proof.Machine.execGraphData h offset data s
  | .graphCheck h => Sys2Proof.Machine.execGraphCheck h s
  | .graphLoad h mask style => Sys2Proof.Machine.execGraphLoad h mask style s
  | .parameterSwap bridge => Sys2Proof.Machine.execParameterSwap bridge s
  | .graphStore h slot => Sys2Proof.Machine.execGraphStore h slot s
  | .graphStoreDone ok => Sys2Proof.Machine.execGraphStoreDone ok s
  | .graphStart h slot => Sys2Proof.Machine.execGraphStart h slot s
  | .graphUnload h bridge => Sys2Proof.Machine.execGraphUnload h bridge s
  | .graphInfo h bridge => Sys2Proof.Machine.execGraphInfo h bridge s
  | .graphVerify h bridge => Sys2Proof.Machine.execGraphVerify h bridge s
  | .graphVerifyPeriodic => Sys2Proof.Machine.execGraphVerifyPeriodic s
  | .readWin h addr count => Sys2Proof.Machine.execReadWin h addr count s
  | .writeWin h addr values => Sys2Proof.Machine.execWriteWin h addr values s
  | .bridgeConfigWrite h bridge reg value => Sys2Proof.Machine.execBridgeConfigWrite h bridge reg value s
  | .faultClr h bridge => Sys2Proof.Machine.execFaultClr h bridge s
  | .resyncWrite h bridge resync => Sys2Proof.Machine.execResyncWrite h bridge resync s
  | .encoderConfigWrite h bridge value => Sys2Proof.Machine.execEncoderConfigWrite h bridge value s
  | .hostSignalWrite h index values => Sys2Proof.Machine.execHostSignalWrite h index values s
  | .perWrite h leg value => Sys2Proof.Machine.execPerWrite h leg value s
  | .fallbackWrite h bridge index values => Sys2Proof.Machine.execFallbackWrite h bridge index values s
  | .latchClr h leg => Sys2Proof.Machine.execLatchClr h leg s
  | .xchkTripClear h leg => Sys2Proof.Machine.execXchkTripClear h leg s
  | .louvreWrite h switch value => Sys2Proof.Machine.execLouvreWrite h switch value s
  | .drvClr h switch => Sys2Proof.Machine.execDrvClr h switch s
  | .twClr h pair => Sys2Proof.Machine.execTwClr h pair s
  | .steerWrite h bridge steer steer2 => Sys2Proof.Machine.execSteerWrite h bridge steer steer2 s
  | .safetyConfigWrite h addr values => Sys2Proof.Machine.execSafetyConfigWrite h addr values s
  | .vangatCanConfigWrite h reg value => Sys2Proof.Machine.execVangatCanConfigWrite h reg value s
  | .captureConfigWrite h unit offset values => Sys2Proof.Machine.execCaptureConfigWrite h unit offset values s
  | .cfgReq h ctrl => Sys2Proof.Machine.execCfgReq h ctrl s
  | .canConfigEnter ctrl => Sys2Proof.Machine.execCanConfigEnter ctrl s
  | .txReq h ctrl obj => Sys2Proof.Machine.execTxReq h ctrl obj s
  | .bufIdRead h ctrl => Sys2Proof.Machine.execBufIdRead h ctrl s
  | .bufData15Read h ctrl => Sys2Proof.Machine.execBufData15Read h ctrl s
  | .moSelWrite h ctrl obj => Sys2Proof.Machine.execMoSelWrite h ctrl obj s
  | .lockTimeout ctrl => Sys2Proof.Machine.execLockTimeout ctrl s
  | .retrain h => Sys2Proof.Machine.execRetrain h s
  | .capArm h unit => Sys2Proof.Machine.execCapArm h unit s
  | .capDisarm h unit => Sys2Proof.Machine.execCapDisarm h unit s
  | .capForce h unit => Sys2Proof.Machine.execCapForce h unit s
  | .capList h => Sys2Proof.Machine.execCapList h s
  | .capRead h unit recNo offset length => Sys2Proof.Machine.execCapRead h unit recNo offset length s
  | .capRelease h unit recNo => Sys2Proof.Machine.execCapRelease h unit recNo s
  | .calZero h input log2n => Sys2Proof.Machine.execCalZero h input log2n s
  | .calFull h input log2n refq => Sys2Proof.Machine.execCalFull h input log2n refq s
  | .calAverageEnd input => Sys2Proof.Machine.execCalAverageEnd input s
  | .calStore h mask => Sys2Proof.Machine.execCalStore h mask s
  | .calStoreDone ok => Sys2Proof.Machine.execCalStoreDone ok s
  | .calDiscard h mask => Sys2Proof.Machine.execCalDiscard h mask s
  | .calRead h input => Sys2Proof.Machine.execCalRead h input s
  | .safetyStatus h => Sys2Proof.Machine.execSafetyStatus h s
  | .safetyCode h => Sys2Proof.Machine.execSafetyCode h s
  | .safetyLog h entry => Sys2Proof.Machine.execSafetyLog h entry s
  | .getCounter h slot => Sys2Proof.Machine.execGetCounter h slot s
  | .counterResync h slot value => Sys2Proof.Machine.execCounterResync h slot value s
  | .keyLoad h slot record => Sys2Proof.Machine.execKeyLoad h slot record s
  | .keyLoadDone ok => Sys2Proof.Machine.execKeyLoadDone ok s
  | .keyRevoke h slot => Sys2Proof.Machine.execKeyRevoke h slot s
  | .keyInfo h slot => Sys2Proof.Machine.execKeyInfo h slot s
  | .fwBegin h length => Sys2Proof.Machine.execFwBegin h length s
  | .fwData h offset data => Sys2Proof.Machine.execFwData h offset data s
  | .fwCommit h => Sys2Proof.Machine.execFwCommit h s
  | .fwCommitDone ok => Sys2Proof.Machine.execFwCommitDone ok s
  | .fwInfo h => Sys2Proof.Machine.execFwInfo h s
  | .trngRead h count => Sys2Proof.Machine.execTrngRead h count s
  | .tlmCfg h stream config => Sys2Proof.Machine.execTlmCfg h stream config s
  | .tlmStart h mask => Sys2Proof.Machine.execTlmStart h mask s
  | .tlmStop h mask => Sys2Proof.Machine.execTlmStop h mask s
  | .logRead h entry => Sys2Proof.Machine.execLogRead h entry s
  | .canBusOn h ctrl => Sys2Proof.Machine.execCanBusOn h ctrl s
  | .canMap h ctrl entry => Sys2Proof.Machine.execCanMap h ctrl entry s
  | .canSleep h ctrl => Sys2Proof.Machine.execCanSleep h ctrl s
  | .canSleepEnter ctrl => Sys2Proof.Machine.execCanSleepEnter ctrl s
  | .canStatus h ctrl => Sys2Proof.Machine.execCanStatus h ctrl s
  | .canopyMap h bridge => Sys2Proof.Machine.execCanopyMap h bridge s
  | .canopyWhere h bridge record => Sys2Proof.Machine.execCanopyWhere h bridge record s
  | .canopyHold h bridge seconds => Sys2Proof.Machine.execCanopyHold h bridge seconds s
  | .canopyHoldExpiry => Sys2Proof.Machine.execCanopyHoldExpiry s
  | .ledgerRead h switch => Sys2Proof.Machine.execLedgerRead h switch s
  | .ledgerNf h table words => Sys2Proof.Machine.execLedgerNf h table words s
  | .ledgerNfRead h table => Sys2Proof.Machine.execLedgerNfRead h table s
  | .ledgerSave h => Sys2Proof.Machine.execLedgerSave h s
  | .ledgerReset h mask => Sys2Proof.Machine.execLedgerReset h mask s
  | .pktWrite packet => Sys2Proof.Machine.execPktWrite packet s
  | .pktWriteQ packet => Sys2Proof.Machine.execPktWriteQ packet s
  | .pktRead clocked => Sys2Proof.Machine.execPktRead clocked s
  | .pktReadQ clocked => Sys2Proof.Machine.execPktReadQ clocked s
  | .status => Sys2Proof.Machine.execStatus s
  | .badInstruction byte => Sys2Proof.Machine.execBadInstruction byte s
  | .canSegmentReceive frame => Sys2Proof.Machine.execCanSegmentReceive frame s
  | .segmentTimeout => Sys2Proof.Machine.execSegmentTimeout s
  | .packetTake => Sys2Proof.Machine.execPacketTake s
  | .canReplySend sent => Sys2Proof.Machine.execCanReplySend sent s
  | .powerOn => Sys2Proof.Machine.execPowerOn s
  | .supplyBrownOut supply => Sys2Proof.Machine.execSupplyBrownOut supply s
  | .rstNAssert => Sys2Proof.Machine.execRstNAssert s
  | .rstNRelease => Sys2Proof.Machine.execRstNRelease s
  | .pllaLockLoss => Sys2Proof.Machine.execPllaLockLoss s
  | .lockstepMismatch => Sys2Proof.Machine.execLockstepMismatch s
  | .watchdogExpiry dog => Sys2Proof.Machine.execWatchdogExpiry dog s
  | .uncorrectableError store => Sys2Proof.Machine.execUncorrectableError store s
  | .overTemperature => Sys2Proof.Machine.execOverTemperature s
  | .debugResetRequest => Sys2Proof.Machine.execDebugResetRequest s
  | .resetRelease source => Sys2Proof.Machine.execResetRelease source s
  | .coldStart env => Sys2Proof.Machine.execColdStart env s
  | .warmStart env => Sys2Proof.Machine.execWarmStart env s
  | .bridgeReset bridge => Sys2Proof.Machine.execBridgeReset bridge s
  | .interpreterReset => Sys2Proof.Machine.execInterpreterReset s
  | .beatInputPoint bridge shown => Sys2Proof.Machine.execBeatInputPoint bridge shown s
  | .beatOutputPoint bridge => Sys2Proof.Machine.execBeatOutputPoint bridge s
  | .beatOverrun bridge => Sys2Proof.Machine.execBeatOverrun bridge s
  | .signalAgeing index => Sys2Proof.Machine.execSignalAgeing index s
  | .noGraphWriteCycle slow => Sys2Proof.Machine.execNoGraphWriteCycle slow s
  | .stepAdvance bridge => Sys2Proof.Machine.execStepAdvance bridge s
  | .busCheckWaitExpiry bridge => Sys2Proof.Machine.execBusCheckWaitExpiry bridge s
  | .konWaitExpiry bridge => Sys2Proof.Machine.execKonWaitExpiry bridge s
  | .holdTimerExpiry bridge => Sys2Proof.Machine.execHoldTimerExpiry bridge s
  | .blackstartTimeout bridge => Sys2Proof.Machine.execBlackstartTimeout bridge s
  | .syncTimeout bridge => Sys2Proof.Machine.execSyncTimeout bridge s
  | .rampEnd bridge => Sys2Proof.Machine.execRampEnd bridge s
  | .ss1SillTimeout bridge => Sys2Proof.Machine.execSs1SillTimeout bridge s
  | .scoContactorForce input => Sys2Proof.Machine.execScoContactorForce input s
  | .rotationStep => Sys2Proof.Machine.execRotationStep s
  | .bistDone engine result => Sys2Proof.Machine.execBistDone engine result s
  | .engineUncorrectableError engine word => Sys2Proof.Machine.execEngineUncorrectableError engine word s
  | .ledgerPass => Sys2Proof.Machine.execLedgerPass s
  | .ledgerCheckpoint => Sys2Proof.Machine.execLedgerCheckpoint s
  | .ledgerCheckpointDone ok => Sys2Proof.Machine.execLedgerCheckpointDone ok s
  | .delayLineMeasurement taps => Sys2Proof.Machine.execDelayLineMeasurement taps s
  | .delayLineTimeout => Sys2Proof.Machine.execDelayLineTimeout s
  | .updatePoint leg peak beatEnd => Sys2Proof.Machine.execUpdatePoint leg peak beatEnd s
  | .masterValley bridge => Sys2Proof.Machine.execMasterValley bridge s
  | .tripWindowExpire leg => Sys2Proof.Machine.execTripWindowExpire leg s
  | .bootstrapRefresh leg => Sys2Proof.Machine.execBootstrapRefresh leg s
  | .cycleTrip leg source => Sys2Proof.Machine.execCycleTrip leg source s
  | .converterTrigger conv => Sys2Proof.Machine.execConverterTrigger conv s
  | .conversionResult conv result => Sys2Proof.Machine.execConversionResult conv result s
  | .autozero conv => Sys2Proof.Machine.execAutozero conv s
  | .passThroughEdge input high => Sys2Proof.Machine.execPassThroughEdge input high s
  | .conflictResume leg => Sys2Proof.Machine.execConflictResume leg s
  | .dieStatusFrame switch frame => Sys2Proof.Machine.execDieStatusFrame switch frame s
  | .dieLinkLost switch => Sys2Proof.Machine.execDieLinkLost switch s
  | .dieCommandTimeout switch => Sys2Proof.Machine.execDieCommandTimeout switch s
  | .stuckGate switch => Sys2Proof.Machine.execStuckGate switch s
  | .switchEdgeMeasurement switch edge => Sys2Proof.Machine.execSwitchEdgeMeasurement switch edge s
  | .shortCircuit switch => Sys2Proof.Machine.execShortCircuit switch s
  | .softTurnOffEnd switch => Sys2Proof.Machine.execSoftTurnOffEnd switch s
  | .overcurrentWarning switch => Sys2Proof.Machine.execOvercurrentWarning switch s
  | .supplyUndervoltage switch neg => Sys2Proof.Machine.execSupplyUndervoltage switch neg s
  | .dieOverTemperature switch => Sys2Proof.Machine.execDieOverTemperature switch s
  | .ntcWrite switch reading => Sys2Proof.Machine.execNtcWrite switch reading s
  | .encoderEdge encoder levels stable => Sys2Proof.Machine.execEncoderEdge encoder levels stable s
  | .pulseInputEdge input high stable => Sys2Proof.Machine.execPulseInputEdge input high stable s
  | .captureRow unit lost => Sys2Proof.Machine.execCaptureRow unit lost s
  | .paneWaitRearm unit => Sys2Proof.Machine.execPaneWaitRearm unit s
  | .captureFire unit => Sys2Proof.Machine.execCaptureFire unit s
  | .trigPinInput pin high samples => Sys2Proof.Machine.execTrigPinInput pin high samples s
  | .trigOutputPulseEnd pin => Sys2Proof.Machine.execTrigOutputPulseEnd pin s
  | .frameReceive ctrl frame => Sys2Proof.Machine.execFrameReceive ctrl frame s
  | .frameTransmit ctrl obj outcome => Sys2Proof.Machine.execFrameTransmit ctrl obj outcome s
  | .integrationDone ctrl => Sys2Proof.Machine.execIntegrationDone ctrl s
  | .busOffRecoveryDone ctrl => Sys2Proof.Machine.execBusOffRecoveryDone ctrl s
  | .referenceMessageDue ctrl => Sys2Proof.Machine.execReferenceMessageDue ctrl s
  | .canWake ctrl wake => Sys2Proof.Machine.execCanWake ctrl wake s
  | .safetyInputSample levels => Sys2Proof.Machine.execSafetyInputSample levels s
  | .discrepancyTick => Sys2Proof.Machine.execDiscrepancyTick s
  | .testPulse output => Sys2Proof.Machine.execTestPulse output s
  | .testPulseBlankEnd output levels => Sys2Proof.Machine.execTestPulseBlankEnd output levels s
  | .contactorReadbackAccept kon level => Sys2Proof.Machine.execContactorReadbackAccept kon level s
  | .konFault kon => Sys2Proof.Machine.execKonFault kon s
  | .testDue bridge => Sys2Proof.Machine.execTestDue bridge s
  | .testOverdueSs1 bridge => Sys2Proof.Machine.execTestOverdueSs1 bridge s
  | .oscCheck ratioPpm => Sys2Proof.Machine.execOscCheck ratioPpm s
  | .sealSwitchRead levels pulsed => Sys2Proof.Machine.execSealSwitchRead levels pulsed s
  | .counterCheckpointDone ok => Sys2Proof.Machine.execCounterCheckpointDone ok s
  | .trngHealthFail => Sys2Proof.Machine.execTrngHealthFail s
  | .refInLost => Sys2Proof.Machine.execRefInLost s
  | .pllbLock => Sys2Proof.Machine.execPllbLock s
  | .dellanRefLost cki => Sys2Proof.Machine.execDellanRefLost cki s
  | .dellanRefReturn stable => Sys2Proof.Machine.execDellanRefReturn stable s
  | .tsFineStep => Sys2Proof.Machine.execTsFineStep s
  | .holdRateMeasure ppb => Sys2Proof.Machine.execHoldRateMeasure ppb s
  | .syncSchedule => Sys2Proof.Machine.execSyncSchedule s
  | .syncSymbolReceive symbol => Sys2Proof.Machine.execSyncSymbolReceive symbol s
  | .timeSymbolReceive symbol => Sys2Proof.Machine.execTimeSymbolReceive symbol s
  | .triggerSymbolReceive symbol => Sys2Proof.Machine.execTriggerSymbolReceive symbol s
  | .ppsEdge => Sys2Proof.Machine.execPpsEdge s
  | .trainReq crcOk => Sys2Proof.Machine.execTrainReq crcOk s
  | .train symbol => Sys2Proof.Machine.execTrain symbol s
  | .trainReply reply => Sys2Proof.Machine.execTrainReply reply s
  | .trainingEnd => Sys2Proof.Machine.execTrainingEnd s
  | .trainingRetry => Sys2Proof.Machine.execTrainingRetry s
  | .symbolLoss => Sys2Proof.Machine.execSymbolLoss s
  | .transomSend crossing => Sys2Proof.Machine.execTransomSend crossing s
  | .transomDrain crossing => Sys2Proof.Machine.execTransomDrain crossing s
  | .creditReturn crossing => Sys2Proof.Machine.execCreditReturn crossing s
  | .dramPatrolScrub found => Sys2Proof.Machine.execDramPatrolScrub found s
  | .sramScrub found => Sys2Proof.Machine.execSramScrub found s
  | .parityPatrol => Sys2Proof.Machine.execParityPatrol s
  | .eventLogFlush ok => Sys2Proof.Machine.execEventLogFlush ok s
  | .eraseAhead area sector => Sys2Proof.Machine.execEraseAhead area sector s
  | .flashPatrol structure_ sound => Sys2Proof.Machine.execFlashPatrol structure_ sound s
  | .tlmSample stream => Sys2Proof.Machine.execTlmSample stream s
  | .zoneSupplyRecovery switch neg => Sys2Proof.Machine.execZoneSupplyRecovery switch neg s
  | .canReceiveError ctrl error => Sys2Proof.Machine.execCanReceiveError ctrl error s

end Sys2Proof.Machine
end

