-- ==== Sys2Proof/Machine/Step.lean ====
section
/-! DEFINITION. One step of the block: the command at the front of the queue, or one tick of the time base. -/

namespace Sys2Proof.Machine

open Sys2Proof

/-- One step: the front command runs on the state with the rest of the queue. With no command waiting the block
idles for one tick of the 400 MHz time base (DESIGN CHOICE, log entry 2). -/
def step (s : State) : Host.Outcome State Fault Refusal :=
  match s.pending with
  | [] => .next (idleTick s)
  | c :: rest => exec c { s with pending := rest }

/-- `s` with the command a word spells put at the front of its queue: the table gives no row any bits, so no word
spells a command and `s` is answered unchanged. -/
def State.withFetchWord (s : State) (nbits w : Nat) : State :=
  match decodeTableWord nbits w with
  | some c => { s with pending := c :: s.pending }
  | none => s

end Sys2Proof.Machine
end

