-- ==== Sys2Proof/Machine/Pins.lean ====
section
/-! DEFINITION. What the device drives on its pins (R421, with R227, R294, R320, R337, R369, R374 and R468), as a view of the
state. -/

namespace Sys2Proof.Machine

open Sys2Proof

/-- A pin: high-impedance, an output that is off, or a level. -/
inductive PinState where
  | highZ | off | low | high
  deriving DecidableEq, Repr

/-- An output of the Sill monitor. -/
def sillPin (on_ : Bool) : PinState := if on_ then .high else .off

/-- KON0 to KON3: off during reset and before the option image, then under R374. -/
def konPin (s : State) (k : Nat) : PinState := sillPin (systemUp s && konOut s k)

/-- TPO0 to TPO3: off during reset and before the option image; then on but for their pulses (R369). -/
def tpoPin (s : State) (o : Nat) : PinState := sillPin (systemUp s && !inPulse s o)

/-- ATTN_N: high-impedance until the interpreter serves; driven low under R320, and otherwise left to its pull-up. -/
def attnPin (s : State) : PinState := if attn s then .low else .highZ

/-- SPI_IO0 to SPI_IO3 are driven with the bytes of the transaction that is answered, once the interpreter serves (R312). -/
def spiDriven (s : State) : Bool := s.host.serving && decide (s.host.spiOut ≠ [])

/-- CANn_TX between frames: high-impedance during reset, before the option image and while the timing islands are held in reset;
then recessive, which is 1 (R337). -/
def canTxPin (s : State) : PinState := if systemUp s && !islandsHeld s then .high else .highZ

/-- TRIG0 to TRIG3: an output, which is at its active level during its pulse, or an input (R294). -/
def trigPin (s : State) (n : Nat) : PinState :=
  if controlUp s = false ∨ s.flag R.CAP_PIN.DIR 0 n = false then .highZ
  else if bitAt s.capture.pulsing n == s.flag R.CAP_PIN.POL 0 n then .high else .low

/-- DLN_SYO, which idles at 1 (R443), with the Dellan enabled; DLN_CKO carries the reference clock then. -/
def dlnPin (s : State) : PinState :=
  if systemUp s && !islandsHeld s && s.flag R.DL_CFG.DL_EN then .high else .highZ

/-- Gnn_OUT is held at VNEG (R223, R421): with no on state of the die, and during reset and before the option image by the zone's
pull-down. -/
def gateAtVneg (s : State) (k : Nat) : Bool := !(controlUp s && s.flag R.DRV_STATUS.GATE k)

/-- DBG_TDO is held high-impedance, and DBG_TCK, DBG_TMS and DBG_TDI are ignored (R468). -/
def tdoHighZ (s : State) : Bool := s.sec.dbgLock

end Sys2Proof.Machine
end

