-- ==== Sys2Proof/WellFormed.lean ====
section
/-! DEFINITION. Well-formed commands: every operand lies in the range its encoding, or the unit it names, admits. -/

namespace Sys2Proof

/-- The header of a command packet: SEQ is a byte; KEY_SLOT a byte, COUNTER 32 bits and TAG eight bytes (R303). -/
def Hdr.wf (h : Hdr) : Bool :=
  decide (h.seq < 256) && (match h.auth with
    | none => true
    | some a => decide (a.slot < 256) && decide (a.counter < 2 ^ 32) && decide (a.tag.length = 8))

/-- A frame of a CAN bus: an identifier of 11 or 29 bits, a DLC of four bits, and at most 64 data bytes, 8 in a Classical
frame (12_can_fd.md). -/
def frameOperand (f : CanFrame) : Bool :=
  decide (f.id < (if f.ide then 2 ^ 29 else 2 ^ 11)) && decide (f.dlc < 16) &&
    decide (f.data.length ≤ (if f.fdf then 64 else 8))

/-- The operands of a command lie in their ranges. -/
def Instr.wf : Instr → Bool
  | .ping h => h.wf
  | .getStatus h => h.wf
  | .reset h level bridge => h.wf && decide (level < 256) && decide (bridge < 256)
  | .resetCommandAct => true
  | .shutdown h => h.wf
  | .shutdownFinish => true
  | .optionWrite h => h.wf
  | .optionWriteDone _ => true
  | .fuseProgram h word value => h.wf && decide (word < 65536) && decide (value < 2 ^ 32)
  | .fuseProgramDone _ => true
  | .setMode h bridge mode style => h.wf && decide (bridge < 256) && decide (mode < 256) && decide (style < 256)
  | .getMode h bridge => h.wf && decide (bridge < 256)
  | .sashLoad h bridge => h.wf && decide (bridge < 256)
  | .graphBegin h length => h.wf && decide (length < 2 ^ 32)
  | .graphData h offset data => h.wf && decide (offset < 2 ^ 32) && decide (data.length ≤ 1024)
  | .graphCheck h => h.wf
  | .graphLoad h mask style => h.wf && decide (mask < 256) && decide (style < 256)
  | .parameterSwap bridge => decide (bridge < 4)
  | .graphStore h slot => h.wf && decide (slot < 256)
  | .graphStoreDone _ => true
  | .graphStart h slot => h.wf && decide (slot < 256)
  | .graphUnload h bridge => h.wf && decide (bridge < 256)
  | .graphInfo h bridge => h.wf && decide (bridge < 256)
  | .graphVerify h bridge => h.wf && decide (bridge < 256)
  | .graphVerifyPeriodic => true
  | .readWin h addr count => h.wf && decide (addr < 2 ^ 32) && decide (count < 65536)
  | .writeWin h addr values => h.wf && decide (addr < 2 ^ 32) && decide (values.length ≤ 256)
  | .bridgeConfigWrite h bridge reg _ => h.wf && decide (bridge < 4) && decide (reg < 3)
  | .faultClr h bridge => h.wf && decide (bridge < 4)
  | .resyncWrite h bridge _ => h.wf && decide (bridge < 4)
  | .encoderConfigWrite h bridge _ => h.wf && decide (bridge < 4)
  | .hostSignalWrite h index values => h.wf && decide (index < 4096) && decide (values.length ≤ 256)
  | .perWrite h leg _ => h.wf && decide (leg < 24)
  | .fallbackWrite h bridge index values => h.wf && decide (bridge < 4) && decide (index < 13) && decide (index + values.length ≤ 13)
  | .latchClr h leg => h.wf && decide (leg < 24)
  | .xchkTripClear h leg => h.wf && decide (leg < 24)
  | .louvreWrite h switch _ => h.wf && decide (switch < 48)
  | .drvClr h switch => h.wf && decide (switch < 48)
  | .twClr h pair => h.wf && decide (pair < 8)
  | .steerWrite h bridge _ _ => h.wf && decide (bridge < 4)
  | .safetyConfigWrite h addr values => h.wf && decide (0x800000 ≤ addr ∧ addr < 0x900000) && decide (values.length ≤ 256)
  | .vangatCanConfigWrite h reg _ => h.wf && decide (reg < 3)
  | .captureConfigWrite h unit offset values => h.wf && decide (unit < 8) && decide (offset % 4 = 0 ∧ offset < 0x100) && decide (values.length ≤ 64)
  | .cfgReq h ctrl => h.wf && decide (ctrl < 4)
  | .canConfigEnter ctrl => decide (ctrl < 4)
  | .txReq h ctrl obj => h.wf && decide (ctrl < 4) && decide (obj < 64)
  | .bufIdRead h ctrl => h.wf && decide (ctrl < 4)
  | .bufData15Read h ctrl => h.wf && decide (ctrl < 4)
  | .moSelWrite h ctrl obj => h.wf && decide (ctrl < 4) && decide (obj < 64)
  | .lockTimeout ctrl => decide (ctrl < 4)
  | .retrain h => h.wf
  | .capArm h unit => h.wf && decide (unit < 256)
  | .capDisarm h unit => h.wf && decide (unit < 256)
  | .capForce h unit => h.wf && decide (unit < 256)
  | .capList h => h.wf
  | .capRead h unit recNo offset length => h.wf && decide (unit < 256) && decide (recNo < 2 ^ 32) && decide (offset < 2 ^ 32) && decide (length < 65536)
  | .capRelease h unit recNo => h.wf && decide (unit < 256) && decide (recNo < 2 ^ 32)
  | .calZero h input log2n => h.wf && decide (input < 256) && decide (log2n < 256)
  | .calFull h input log2n refq => h.wf && decide (input < 256) && decide (log2n < 256) && decide (refq < 65536)
  | .calAverageEnd input => decide (input < 64)
  | .calStore h mask => h.wf && decide (mask < 2 ^ 64)
  | .calStoreDone _ => true
  | .calDiscard h mask => h.wf && decide (mask < 2 ^ 64)
  | .calRead h input => h.wf && decide (input < 256)
  | .safetyStatus h => h.wf
  | .safetyCode h => h.wf
  | .safetyLog h entry => h.wf && decide (entry < 65536)
  | .getCounter h slot => h.wf && decide (slot < 256)
  | .counterResync h slot value => h.wf && decide (slot < 256) && decide (value < 2 ^ 32)
  | .keyLoad h slot record => h.wf && decide (slot < 256) && decide (record.length ≤ 160)
  | .keyLoadDone _ => true
  | .keyRevoke h slot => h.wf && decide (slot < 256)
  | .keyInfo h slot => h.wf && decide (slot < 256)
  | .fwBegin h length => h.wf && decide (length < 2 ^ 32)
  | .fwData h offset data => h.wf && decide (offset < 2 ^ 32) && decide (data.length ≤ 1024)
  | .fwCommit h => h.wf
  | .fwCommitDone _ => true
  | .fwInfo h => h.wf
  | .trngRead h count => h.wf && decide (count < 256)
  | .tlmCfg h stream config => h.wf && decide (stream < 256) && decide (config.length ≤ 64)
  | .tlmStart h mask => h.wf && decide (mask < 256)
  | .tlmStop h mask => h.wf && decide (mask < 256)
  | .logRead h entry => h.wf && decide (entry < 2 ^ 32)
  | .canBusOn h ctrl => h.wf && decide (ctrl < 256)
  | .canMap h ctrl entry => h.wf && decide (ctrl < 256) && decide (entry.length ≤ 32)
  | .canSleep h ctrl => h.wf && decide (ctrl < 256)
  | .canSleepEnter ctrl => decide (ctrl < 4)
  | .canStatus h ctrl => h.wf && decide (ctrl < 256)
  | .canopyMap h bridge => h.wf && decide (bridge < 256)
  | .canopyWhere h bridge record => h.wf && decide (bridge < 256) && decide (record < 65536)
  | .canopyHold h bridge seconds => h.wf && decide (bridge < 256) && decide (seconds < 256)
  | .canopyHoldExpiry => true
  | .ledgerRead h switch => h.wf && decide (switch < 256)
  | .ledgerNf h table words => h.wf && decide (table < 256) && decide (words.length ≤ 128)
  | .ledgerNfRead h table => h.wf && decide (table < 256)
  | .ledgerSave h => h.wf
  | .ledgerReset h mask => h.wf && decide (mask < 2 ^ 48)
  | .pktWrite _ => true
  | .pktWriteQ _ => true
  | .pktRead _ => true
  | .pktReadQ _ => true
  | .status => true
  | .badInstruction _ => true
  | .canSegmentReceive frame => frameOperand frame
  | .segmentTimeout => true
  | .packetTake => true
  | .canReplySend _ => true
  | .powerOn => true
  | .supplyBrownOut _ => true
  | .rstNAssert => true
  | .rstNRelease => true
  | .pllaLockLoss => true
  | .lockstepMismatch => true
  | .watchdogExpiry _ => true
  | .uncorrectableError _ => true
  | .overTemperature => true
  | .debugResetRequest => true
  | .resetRelease source => decide (source < 26)
  | .coldStart _ => true
  | .warmStart _ => true
  | .bridgeReset bridge => decide (bridge < 4)
  | .interpreterReset => true
  | .beatInputPoint bridge shown =>
    decide (bridge < 4) && decide (shown.lost < 256) && shown.late.all (fun i => decide (i < 4096)) &&
      (match shown.mismatch with | some i => decide (i < 4096) | none => true)
  | .beatOutputPoint bridge => decide (bridge < 4)
  | .beatOverrun bridge => decide (bridge < 4)
  | .signalAgeing index => decide (index < 4096)
  | .noGraphWriteCycle _ => true
  | .stepAdvance bridge => decide (bridge < 4)
  | .busCheckWaitExpiry bridge => decide (bridge < 4)
  | .konWaitExpiry bridge => decide (bridge < 4)
  | .holdTimerExpiry bridge => decide (bridge < 4)
  | .blackstartTimeout bridge => decide (bridge < 4)
  | .syncTimeout bridge => decide (bridge < 4)
  | .rampEnd bridge => decide (bridge < 4)
  | .ss1SillTimeout bridge => decide (bridge < 4)
  | .scoContactorForce input => decide (input < 9)
  | .rotationStep => true
  | .bistDone engine result => decide (engine < 16) && decide (result < 4)
  | .engineUncorrectableError engine word => decide (engine < 16) && decide (word.record < 65536)
  | .ledgerPass => true
  | .ledgerCheckpoint => true
  | .ledgerCheckpointDone _ => true
  | .delayLineMeasurement _ => true
  | .delayLineTimeout => true
  | .updatePoint leg _ _ => decide (leg < 24)
  | .masterValley bridge => decide (bridge < 4)
  | .tripWindowExpire leg => decide (leg < 24)
  | .bootstrapRefresh leg => decide (leg < 24)
  | .cycleTrip leg source => decide (leg < 24) && decide (source < 12)
  | .converterTrigger conv => decide (conv < 16)
  | .conversionResult conv result => decide (conv < 16) && decide (result.raw < 65536) && decide (result.lost < 256)
  | .autozero conv => decide (conv < 16)
  | .passThroughEdge input _ => decide (input < 8)
  | .conflictResume leg => decide (leg < 24)
  | .dieStatusFrame switch _ => decide (switch < 48)
  | .dieLinkLost switch => decide (switch < 48)
  | .dieCommandTimeout switch => decide (switch < 48)
  | .stuckGate switch => decide (switch < 48)
  | .switchEdgeMeasurement switch edge => decide (switch < 48) && decide (edge.time < 16384)
  | .shortCircuit switch => decide (switch < 48)
  | .softTurnOffEnd switch => decide (switch < 48)
  | .overcurrentWarning switch => decide (switch < 48)
  | .supplyUndervoltage switch _ => decide (switch < 48)
  | .dieOverTemperature switch => decide (switch < 48)
  | .ntcWrite switch _ => decide (switch < 48)
  | .encoderEdge encoder levels _ => decide (encoder < 4) && decide (levels < 8)
  | .pulseInputEdge input _ _ => decide (input < 4)
  | .captureRow unit _ => decide (unit < 8)
  | .paneWaitRearm unit => decide (unit < 8)
  | .captureFire unit => decide (unit < 8)
  | .trigPinInput pin _ _ => decide (pin < 4)
  | .trigOutputPulseEnd pin => decide (pin < 4)
  | .frameReceive ctrl frame => decide (ctrl < 4) && frameOperand frame
  | .frameTransmit ctrl obj _ => decide (ctrl < 4) && decide (obj ≤ 65)
  | .integrationDone ctrl => decide (ctrl < 4)
  | .busOffRecoveryDone ctrl => decide (ctrl < 4)
  | .referenceMessageDue ctrl => decide (ctrl < 4)
  | .canWake ctrl _ => decide (ctrl < 4)
  | .safetyInputSample levels => decide (levels < 2 ^ 18)
  | .discrepancyTick => true
  | .testPulse output => decide (output < 4)
  | .testPulseBlankEnd output levels => decide (output < 4) && decide (levels < 2 ^ 18)
  | .contactorReadbackAccept kon _ => decide (kon < 4)
  | .konFault kon => decide (kon < 4)
  | .testDue bridge => decide (bridge < 4)
  | .testOverdueSs1 bridge => decide (bridge < 4)
  | .oscCheck _ => true
  | .sealSwitchRead levels pulsed => decide (levels < 65536) && decide (pulsed < 65536)
  | .counterCheckpointDone _ => true
  | .trngHealthFail => true
  | .refInLost => true
  | .pllbLock => true
  | .dellanRefLost _ => true
  | .dellanRefReturn _ => true
  | .tsFineStep => true
  | .holdRateMeasure _ => true
  | .syncSchedule => true
  | .syncSymbolReceive symbol => decide (symbol.seqNo < 256 ∧ symbol.d < 2 ^ 20 ∧ symbol.phase < 64)
  | .timeSymbolReceive symbol => decide (symbol.seqNo < 256 ∧ symbol.epoch < 256 ∧ symbol.ts < 2 ^ 48)
  | .triggerSymbolReceive symbol => decide (symbol.line < 4 ∧ symbol.origin < 16 ∧ symbol.d < 2 ^ 20 ∧ symbol.phase < 64)
  | .ppsEdge => true
  | .trainReq _ => true
  | .train symbol => decide (symbol.pos < 16 ∧ symbol.hop < 65536 ∧ symbol.count < 256)
  | .trainReply reply => decide (reply.count < 256)
  | .trainingEnd => true
  | .trainingRetry => true
  | .symbolLoss => true
  | .transomSend crossing => decide (crossing < 28)
  | .transomDrain crossing => decide (crossing < 28)
  | .creditReturn crossing => decide (crossing < 28)
  | .dramPatrolScrub _ => true
  | .sramScrub found =>
    match found with
    | .engine n => decide (n < 16)
    | .imageDiffers b => decide (b < 4)
    | .copyDiffers e i => decide (e < 16) && decide (i < 4096)
    | _ => true
  | .parityPatrol => true
  | .eventLogFlush _ => true
  | .eraseAhead area sector => decide (area < 4) && decide (sector < 1024)
  | .flashPatrol structure_ _ => decide (structure_ < 8)
  | .tlmSample stream => decide (stream < 8)
  | .zoneSupplyRecovery switch _ => decide (switch < 48)
  | .canReceiveError ctrl _ => decide (ctrl < 4)

end Sys2Proof
end

