-- ==== Sys2Proof/Safety.lean ====
section
/-! DEFINITION. What the statements about the block speak of: a command answered, the parts of the state a command may
touch, and the invariants of the machine. -/

namespace Sys2Proof.Machine

open Sys2Proof

/-- `t` follows `s` with a command answered: a reply of status `st` with `data` stands at the end of the reply queue of the
command's transport (R303, R305). -/
def Answered (h : Hdr) (op st : Nat) (data : List Byte) (s t : State) : Prop :=
  ∃ key, (t.transport h.can).rp = (s.transport h.can).rp ++ [replyBytes h op ⟨st, data, key, s⟩ false]

/-- A command is taken, and its authentication step passes (R307, R309, R420). -/
def authReady (h : Hdr) (op : Nat) (params : List Byte) (rule : AuthRule) (s : State) : Bool :=
  ready s h op params && decide (authStatus h op params rule s = stDone)

/-- The packet of a host command: its header, its opcode and the bytes of its parameters (R331, R327, R329, and the tables
of the chapters that define commands); none for a row that is no packet. -/
def hostRow : Instr → Option (Hdr × Nat × List Byte)
  | .ping h => some (h, 0x0101, [])
  | .getStatus h => some (h, 0x0102, [])
  | .reset h level bridge => some (h, 0x0103, le 1 level ++ le 1 bridge)
  | .shutdown h => some (h, 0x0104, [])
  | .optionWrite h => some (h, 0x0105, [])
  | .fuseProgram h word value => some (h, 0x0106, le 2 word ++ le 4 value)
  | .setMode h bridge mode style => some (h, 0x0201, le 1 bridge ++ le 1 mode ++ le 1 style)
  | .getMode h bridge => some (h, 0x0203, le 1 bridge)
  | .sashLoad h bridge => some (h, 0x0202, le 1 bridge)
  | .graphBegin h length => some (h, 0x0301, le 4 length)
  | .graphData h offset data => some (h, 0x0302, le 4 offset ++ data)
  | .graphCheck h => some (h, 0x0303, [])
  | .graphLoad h mask style => some (h, 0x0304, le 1 mask ++ le 1 style)
  | .graphStore h slot => some (h, 0x0305, le 1 slot)
  | .graphStart h slot => some (h, 0x0306, le 1 slot)
  | .graphUnload h bridge => some (h, 0x0307, le 1 bridge)
  | .graphInfo h bridge => some (h, 0x0308, le 1 bridge)
  | .graphVerify h bridge => some (h, 0x0309, le 1 bridge)
  | .readWin h addr count => some (h, 0x0401, le 4 addr ++ le 2 count)
  | .writeWin h addr values => some (h, 0x0402, writeParams addr values)
  | .bridgeConfigWrite h bridge reg value => some (h, 0x0402, writeParams (A.BR_CFG + 0x400 * bridge + 4 * reg) [value])
  | .faultClr h bridge => some (h, 0x0402, writeParams (A.BR_CTRL + 0x400 * bridge) [1])
  | .resyncWrite h bridge resync => some (h, 0x0402, writeParams (A.GF_CTRL + 0x400 * bridge) [word (b2n resync)])
  | .encoderConfigWrite h bridge value => some (h, 0x0402, writeParams (A.TR_ENC_CFG + 0x400 * bridge) [value])
  | .hostSignalWrite h index values => some (h, 0x0402, writeParams (0x200000 + 4 * index) values)
  | .perWrite h leg value => some (h, 0x0402, writeParams (A.SH_CARRIER + 0x100 * leg) [value])
  | .fallbackWrite h bridge index values => some (h, 0x0402, writeParams (A.FB_PER + 0x400 * bridge + 4 * index) values)
  | .latchClr h leg => some (h, 0x0402, writeParams (A.SH_CTRL + 0x100 * leg) [1])
  | .xchkTripClear h leg => some (h, 0x0402, writeParams (A.IL_STATUS + 0x10 * leg) [0x40000000])
  | .louvreWrite h switch value => some (h, 0x0402, writeParams (A.DRV_LOUVRE + 0x40 * switch) [value])
  | .drvClr h switch => some (h, 0x0402, writeParams (A.DRV_CTRL + 0x40 * switch) [1])
  | .twClr h pair => some (h, 0x0402, writeParams (A.TW_CTRL + 0x100 * pair) [1])
  | .steerWrite h bridge steer steer2 => some (h, 0x0402, writeParams (A.CN_STEER + 0x20 * bridge) [steer, steer2])
  | .safetyConfigWrite h addr values => some (h, 0x0402, writeParams addr values)
  | .vangatCanConfigWrite h reg value => some (h, 0x0402, writeParams (A.VG_CAN_CFG + 4 * reg) [value])
  | .captureConfigWrite h unit offset values => some (h, 0x0402, writeParams (A.CAP_CFG + 0x100 * unit + offset) values)
  | .cfgReq h ctrl => some (h, 0x0402, writeParams (A.CF_CTRL + 0x1000 * ctrl) [1])
  | .txReq h ctrl obj => some (h, 0x0402, writeParams (A.MO_STAT + 0x1000 * ctrl + 0x10 * obj) [1])
  | .bufIdRead h ctrl => some (h, 0x0401, le 4 (A.BUF_ID + 0x1000 * ctrl) ++ le 2 1)
  | .bufData15Read h ctrl => some (h, 0x0401, le 4 (A.BUF_DATA + 0x1000 * ctrl + 60) ++ le 2 1)
  | .moSelWrite h ctrl obj => some (h, 0x0402, writeParams (A.MO_SEL + 0x1000 * ctrl) [word obj])
  | .retrain h => some (h, 0x0402, writeParams A.DL_CTRL [1])
  | .capArm h unit => some (h, 0x0501, le 1 unit)
  | .capDisarm h unit => some (h, 0x0502, le 1 unit)
  | .capForce h unit => some (h, 0x0503, le 1 unit)
  | .capList h => some (h, 0x0504, [])
  | .capRead h unit recNo offset length => some (h, 0x0505, le 1 unit ++ le 4 recNo ++ le 4 offset ++ le 2 length)
  | .capRelease h unit recNo => some (h, 0x0506, le 1 unit ++ le 4 recNo)
  | .calZero h input log2n => some (h, 0x0601, le 1 input ++ le 1 log2n)
  | .calFull h input log2n refq => some (h, 0x0602, le 1 input ++ le 1 log2n ++ le 2 refq)
  | .calStore h mask => some (h, 0x0603, le 8 mask)
  | .calDiscard h mask => some (h, 0x0604, le 8 mask)
  | .calRead h input => some (h, 0x0605, le 1 input)
  | .safetyStatus h => some (h, 0x0701, [])
  | .safetyCode h => some (h, 0x0702, [])
  | .safetyLog h entry => some (h, 0x0703, le 2 entry)
  | .getCounter h slot => some (h, 0x0801, le 1 slot)
  | .counterResync h slot value => some (h, 0x0802, le 1 slot ++ le 4 value)
  | .keyLoad h slot record => some (h, 0x0803, le 1 slot ++ record)
  | .keyRevoke h slot => some (h, 0x0804, le 1 slot)
  | .keyInfo h slot => some (h, 0x0805, le 1 slot)
  | .fwBegin h length => some (h, 0x0806, le 4 length)
  | .fwData h offset data => some (h, 0x0807, le 4 offset ++ data)
  | .fwCommit h => some (h, 0x0808, [])
  | .fwInfo h => some (h, 0x0809, [])
  | .trngRead h count => some (h, 0x080A, le 1 count)
  | .tlmCfg h stream config => some (h, 0x0901, le 1 stream ++ config)
  | .tlmStart h mask => some (h, 0x0902, le 1 mask)
  | .tlmStop h mask => some (h, 0x0903, le 1 mask)
  | .logRead h entry => some (h, 0x0904, le 4 entry)
  | .canBusOn h ctrl => some (h, 0x0A01, le 1 ctrl)
  | .canMap h ctrl entry => some (h, 0x0A02, le 1 ctrl ++ entry)
  | .canSleep h ctrl => some (h, 0x0A03, le 1 ctrl)
  | .canStatus h ctrl => some (h, 0x0A04, le 1 ctrl)
  | .canopyMap h bridge => some (h, 0x0B01, le 1 bridge)
  | .canopyWhere h bridge record => some (h, 0x0B02, le 1 bridge ++ le 2 record)
  | .canopyHold h bridge seconds => some (h, 0x0B03, le 1 bridge ++ le 1 seconds)
  | .ledgerRead h switch => some (h, 0x0C01, le 1 switch)
  | .ledgerNf h table words => some (h, 0x0C02, le 1 table ++ wordBytes words)
  | .ledgerNfRead h table => some (h, 0x0C03, le 1 table)
  | .ledgerSave h => some (h, 0x0C04, [])
  | .ledgerReset h mask => some (h, 0x0C05, le 6 mask)
  | .resetCommandAct | .shutdownFinish | .optionWriteDone _ | .fuseProgramDone _ | .parameterSwap _
  | .graphStoreDone _ | .graphVerifyPeriodic | .canConfigEnter _ | .lockTimeout _ | .calAverageEnd _
  | .calStoreDone _ | .keyLoadDone _ | .fwCommitDone _ | .canSleepEnter _ | .canopyHoldExpiry | .pktWrite _
  | .pktWriteQ _ | .pktRead _ | .pktReadQ _ | .status | .badInstruction _ | .canSegmentReceive _ | .segmentTimeout
  | .packetTake | .canReplySend _ | .powerOn | .supplyBrownOut _ | .rstNAssert | .rstNRelease | .pllaLockLoss
  | .lockstepMismatch | .watchdogExpiry _ | .uncorrectableError _ | .overTemperature | .debugResetRequest
  | .resetRelease _ | .coldStart _ | .warmStart _ | .bridgeReset _ | .interpreterReset | .beatInputPoint _ _
  | .beatOutputPoint _ | .beatOverrun _ | .signalAgeing _ | .noGraphWriteCycle _ | .stepAdvance _
  | .busCheckWaitExpiry _ | .konWaitExpiry _ | .holdTimerExpiry _ | .blackstartTimeout _ | .syncTimeout _
  | .rampEnd _ | .ss1SillTimeout _ | .scoContactorForce _ | .rotationStep | .bistDone _ _
  | .engineUncorrectableError _ _ | .ledgerPass | .ledgerCheckpoint | .ledgerCheckpointDone _
  | .delayLineMeasurement _ | .delayLineTimeout | .updatePoint _ _ _ | .masterValley _ | .tripWindowExpire _
  | .bootstrapRefresh _ | .cycleTrip _ _ | .converterTrigger _ | .conversionResult _ _ | .autozero _
  | .passThroughEdge _ _ | .conflictResume _ | .dieStatusFrame _ _ | .dieLinkLost _ | .dieCommandTimeout _
  | .stuckGate _ | .switchEdgeMeasurement _ _ | .shortCircuit _ | .softTurnOffEnd _ | .overcurrentWarning _
  | .supplyUndervoltage _ _ | .dieOverTemperature _ | .ntcWrite _ _ | .encoderEdge _ _ _ | .pulseInputEdge _ _ _
  | .captureRow _ _ | .paneWaitRearm _ | .captureFire _ | .trigPinInput _ _ _ | .trigOutputPulseEnd _
  | .frameReceive _ _ | .frameTransmit _ _ _ | .integrationDone _ | .busOffRecoveryDone _ | .referenceMessageDue _
  | .canWake _ _ | .safetyInputSample _ | .discrepancyTick | .testPulse _ | .testPulseBlankEnd _ _
  | .contactorReadbackAccept _ _ | .konFault _ | .testDue _ | .testOverdueSs1 _ | .oscCheck _ | .sealSwitchRead _ _
  | .counterCheckpointDone _ | .trngHealthFail | .refInLost | .pllbLock | .dellanRefLost _ | .dellanRefReturn _
  | .tsFineStep | .holdRateMeasure _ | .syncSchedule | .syncSymbolReceive _ | .timeSymbolReceive _
  | .triggerSymbolReceive _ | .ppsEdge | .trainReq _ | .train _ | .trainReply _ | .trainingEnd | .trainingRetry
  | .symbolLoss | .transomSend _ | .transomDrain _ | .creditReturn _ | .dramPatrolScrub _ | .sramScrub _
  | .parityPatrol | .eventLogFlush _ | .eraseAhead _ _ | .flashPatrol _ _ | .tlmSample _ | .zoneSupplyRecovery _ _
  | .canReceiveError _ _ => none

/-- The command is taken and its own checks decide (R307, R420). -/
def cmdReady (c : Instr) (s : State) : Bool :=
  match hostRow c with
  | some (h, op, ps) => ready s h op ps
  | none => false

/-- The authentication step of the command passes (R309). -/
def cmdAuth (c : Instr) (rule : AuthRule) (s : State) : Bool :=
  match hostRow c with
  | some (h, op, ps) => cmdReady c s && decide (authStatus h op ps rule s = stDone)
  | none => false

/-- The header of a host command. -/
def hdrOf (c : Instr) : Hdr := match hostRow c with | some (h, _, _) => h | none => ⟨false, 0, none⟩

/-- The state after a passed authentication step: the counter of the slot is consumed (R309, R387). -/
def used (c : Instr) (s : State) : State := authConsume (hdrOf c) stDone s

/-- The state `t` with the command answered: a reply of status `st` with `data`, unsigned, queued on the transport of the
command, and remembered for a repeat (R303, R305, R324). -/
def answer (c : Instr) (st : Nat) (data : List Byte) (t : State) : State :=
  match hostRow c with
  | some (h, op, ps) => sendReply h.can (packetBytes (commandPacket h op ps)) (replyBytes h op ⟨st, data, none, t⟩ false) t
  | none => t

/-- The same with a reply signed by the key that authenticated the command in the state `s` (R311). -/
def signed (c : Instr) (st : Nat) (data : List Byte) (s t : State) : State :=
  match hostRow c with
  | some (h, op, ps) => sendReply h.can (packetBytes (commandPacket h op ps))
      (replyBytes h op ⟨st, data, some (authKey h s), t⟩ false) t
  | none => t

/-- The state with the last refusal of the command shown in VG_ERR (R333). -/
def refusedBy (c : Instr) (st : Nat) (s : State) : State :=
  match hostRow c with
  | some (h, op, _) => recordRefusal h op st s
  | none => s

/-- A read of the address returns its value and changes nothing: no RC field, no half of a pair, no crossing counter, no
buffer word that locks or frees (R8, R13, R347, R435). -/
def plainRead (a : Nat) : Bool :=
  match winSignal a, regAt a with
  | none, some (r, _, _) => !r.fields.any (fun f => f.acc == .RC) && !pairLow r.base && !pairHigh r.base &&
      !decide (r.base = A.XG_STALL ∨ r.base = A.BUF_ID ∨ r.base = A.BUF_DATA)
  | _, _ => true

/-- `t` is `s` but for the registers at the addresses `l`. -/
def OnlyRegs (s t : State) (l : List Nat) : Prop := t = { s with regs := t.regs } ∧ ∀ a, a ∉ l → t.reg a = s.reg a

/-- A write of the value at the address passes check 4 of R329 and lies in no field that an authentication guards. -/
def writeOpen (a : Nat) (w : Word) (s : State) : Bool :=
  !holdsWa a && decide (checkWord s (storeWord a w s) a w = stDone)

/-- Nothing follows from a write of the register but its value: it is no configuration, control or clear register of the
tables of R21, R41, R142, R187, R196, R206, R214, R234, R246, R266, R268, R333, R335, R338, R347, R349 and R377. -/
def plainWrite (a : Nat) : Bool :=
  match winSignal a, regAt a with
  | none, some (r, _, _) =>
    !decide (r.base ∈ [A.BR_CFG, A.BR_PHASE, A.BR_KON, A.BR_CTRL, A.TR_ENC_CFG, A.FB_PER, A.FB_DUTY, A.CN_STEER,
      A.SH_CARRIER, A.SH_CTRL, A.DRV_LOUVRE, A.DRV_CTRL, A.DRV_SUP, A.IL_CFG, A.CV_CFG, A.TW_CTRL, A.TD_CFG, A.VG_CAN_CFG,
      A.VG_CAN_CMD_ID, A.VG_CAN_RSP_ID, A.CF_NBT, A.CF_CTRL, A.MO_SEL, A.MO_STAT, A.DL_CTRL, A.BUF_ID, A.BUF_CTL,
      A.BUF_DATA, A.LG_CFG]) && !inSafety a
  | _, _ => false

end Sys2Proof.Machine
end

