-- ==== Sys2Proof/Certificates/Slice0/Obligations.lean ====
section
/-! DEFINITION. The statements about the block, one definition each, for the provers. -/

open Sys2Proof Sys2Proof.Machine

/-- A step runs the command at the front of the queue, and an empty queue idles one tick. For every command and every
state, the step with the command at the front of the queue is the command's effect on the state with the queue's rest.
With no command waiting the block idles for one tick of the time base, at which a reply held back too long goes out as
INTERNAL and the check of the crossings is made; with no reply held back and no crossing whose XG_BAD rises nothing
else changes (the model's choice, log entry 2). -/
def Obligations.StepRunsFrontCommand : Prop :=
  ∀ s : State,
    (∀ (c : Instr) (rest : List Instr), step { s with pending := c :: rest } = exec c { s with pending := rest }) ∧
    (s.pending = [] → step s = .next (idleTick s) ∧
      (s.host.heldMask = 0 → (∀ u : State, u = { s with now := s.now + 1 } → ∀ id, crossingBad id (crossing u id) u = (crossing u id).bad) →
        step s = .next { s with now := s.now + 1 }))

/-- Every step completes, keeps the registers in their one canonical form, takes the front command alone and never turns
time back. From every state whose register map is canonical (addresses strictly rising, no entry equal to the reset
value of its register), a step answers a next state whatever command is at the front of the queue: neither a fault nor
a refusal. There the register map is canonical again, so that equal registers are equal data; the queue is the rest of
the queue; and the time base has not run back. -/
def Obligations.EveryStepKeepsTheBlock : Prop :=
  ∀ s : State, swf regReset s.regs = true →
    ∃ t, step s = .next t ∧ swf regReset t.regs = true ∧ t.pending = s.pending.tail ∧ s.now ≤ t.now

/-- The state of reset: every field at its Level 0 value, the shipped key slots, every bridge SEALED, and nothing waiting.
After reset the register map is canonical; every field of every register of the tables but the key slots holds the
value of its Reset column; slots 0, 14 and 15 are ACTIVE as shipped; every bridge is SEALED at STEP 0 with no graph;
every contactor output is off; nothing waits in a queue or in the command queue, and a start of Level 0 is owed. In
every state in which the parts of Level 1 are not up the contactor and the test outputs are off and CANn_TX and the
Dellan's outputs are high-impedance; until those of Level 2 are up the TRIG pins are high-impedance and every gate is
held at VNEG; until the interpreter serves the SPI data pins and ATTN_N are high-impedance (R421). The values of state
that no register shows are the model's choice (log entry 3). -/
def Obligations.ResetLeavesTheBlock : Prop :=
  swf regReset State.reset.regs = true ∧
  (∀ r ∈ regTable, ∀ f ∈ r.fields, ∀ i j, i < r.count → j < r.count2 →
    r.base + r.stride * i + r.stride2 * j ∉ [0x900004, 0x900040, 0x90007C] →
    bitsOf (State.reset.reg (r.base + r.stride * i + r.stride2 * j)).toNat f.lo f.width = f.rst % 2 ^ f.width) ∧
  (∀ b, b < 4 → modeOf State.reset b = 0 ∧ stepOf State.reset b = 0 ∧ (State.reset.br b).placed = none ∧ (State.reset.br b).ram = none) ∧
  (∀ k, k < 4 → konOut State.reset k = false) ∧
  State.reset.pending = [] ∧ State.reset.host.spi.rx = [] ∧ State.reset.host.can.rx = [] ∧ State.reset.board = [] ∧
  State.reset.rst.owed = some 0 ∧ State.reset.now = 0 ∧
  (∀ (s : State) (k : Nat),
    (systemUp s = false → konPin s k = .off ∧ tpoPin s k = .off ∧ canTxPin s = .highZ ∧ dlnPin s = .highZ) ∧
    (controlUp s = false → trigPin s k = .highZ ∧ gateAtVneg s k = true) ∧
    (s.host.serving = false → attnPin s = .highZ ∧ spiDriven s = false))

/-- The CRC of packets is CRC-32C, and the other structures use the same one. For every string of bytes the CRC is the bit
reversal of the register that takes each byte with its bit 0 first, shifts towards bit 31, and subtracts the
polynomial 0x1EDC_6F41 where the bit that falls out differs from the bit that comes in, from the initial value
0xFFFF_FFFF, with the final XOR 0xFFFF_FFFF. The nine ASCII bytes give 0xE306_9283. A packet, a ledger entry, an event
log entry and a capture header end in this CRC of what stands before it. -/
def Obligations.ChecksumIsCrc32c : Prop :=
  (∀ l : List Byte, crc32c l = (List.range 32).foldl (fun n k => n + (if bitAt (l.foldl (fun r b =>
      (List.range 8).foldl (fun r k => (2 * r % 2 ^ 32) ^^^ (if bitAt r 31 != bitAt b.toNat k then 0x1EDC6F41 else 0)) r) 0xFFFFFFFF)
      (31 - k) then 2 ^ k else 0)) 0 ^^^ 0xFFFFFFFF) ∧
  crc32c [0x31, 0x32, 0x33, 0x34, 0x35, 0x36, 0x37, 0x38, 0x39] = 0xE3069283 ∧
  (∀ p : Packet, ∃ l, packetBytes p = l ++ le 4 (crc32c l)) ∧
  (∀ e : Entry, ∃ l, entryBytes e = l ++ le 4 (crc32c l) ∧ l.length = 540) ∧
  (∀ e : LogEntry, ∃ l, logBytes e = l ++ le 4 (crc32c l)) ∧
  (∀ (s : State) (u : Nat) (tr : Bool), ∃ l rows, recordBytes s u tr = l ++ le 4 (crc32c l) ++ rows ∧ l.length = 252)

/-- The signal board window: a READ_WIN returns the live words, and a WRITE_WIN is for host signals alone. A taken
READ_WIN of signals of the window whose words have even parity answers the live word of each, at 0x20_0000 + 4 × i,
and changes nothing; one that meets a word of odd parity asserts reset source 17 in place of returning it, and where
that reset leaves the port serving it ends with INTERNAL (the model's choice, log entry 98). A taken WRITE_WIN within
the host signals is DONE: it takes VALUE from bits 15:0 of each word and updates each signal as a write does (VALUE,
SEQ + 1 modulo 256, AGE, SAT and TAINT 0), from which its age counts, and no other signal. A taken WRITE_WIN within
the window that covers any other signal completes with BAD_PARAM and writes no signal and no register but the record
of the refusal. -/
def Obligations.SignalWindowReadsAndWrites : Prop :=
  ∀ (h : Hdr) (i : Nat) (s : State),
    (∀ n, cmdReady (.readWin h (0x200000 + 4 * i) n) s = true → 0 < n → n ≤ 256 → i + n ≤ 4096 →
      (wordsSound s ((List.range n).map (fun k => i + k)) = true → exec (.readWin h (0x200000 + 4 * i) n) s = .next (answer (.readWin h (0x200000 + 4 * i) n) stDone
          ((List.range n).flatMap (fun k => le 4 (s.sigWord (i + k)).toNat)) s)) ∧
      (wordsSound s ((List.range n).map (fun k => i + k)) = false → (storeError .signalBoard s).host.serving = true →
        exec (.readWin h (0x200000 + 4 * i) n) s = .next (answer (.readWin h (0x200000 + 4 * i) n) stInternal []
          (refusedBy (.readWin h (0x200000 + 4 * i) n) stInternal (storeError .signalBoard s))))) ∧
    (∀ vs : List Word, cmdReady (.writeWin h (0x200000 + 4 * i) vs) s = true → vs ≠ [] → vs.length ≤ 256 → i + vs.length ≤ 4096 →
      (0x140 ≤ i → i + vs.length ≤ 0x1C0 →
        ∃ t, exec (.writeWin h (0x200000 + 4 * i) vs) s = .next (answer (.writeWin h (0x200000 + 4 * i) vs) stDone [] t) ∧
          t = { s with board := t.board, aged := t.aged } ∧
          (∀ n, n < i ∨ i + vs.length ≤ n → t.sigWord n = s.sigWord n ∧ t.agedAt n = s.agedAt n) ∧
          ∀ k, k < vs.length → t.agedAt (i + k) = s.now ∧ t.sig (i + k) = ⟨(vs.getD k 0).toNat % 65536, ((s.sig (i + k)).seq + 1) % 256, 0, false, false⟩) ∧
      (i < 0x140 ∨ 0x1C0 < i + vs.length →
        ∃ t, exec (.writeWin h (0x200000 + 4 * i) vs) s = .next (answer (.writeWin h (0x200000 + 4 * i) vs) stBadParam []
            (refusedBy (.writeWin h (0x200000 + 4 * i) vs) stBadParam t)) ∧ OnlyRegs s t [A.VG_ERR_ADDR]))

/-- WA registers need authentication, and BR_BAND and BR_TIMES take values in their ranges in SEALED alone. A taken
WRITE_WIN of any length and place in the window without authentication that covers a register with a WA field
completes with AUTH_REQUIRED and writes nothing. A taken write of BR_BAND or BR_TIMES with a field outside its range
completes with BAD_PARAM, one in range outside SEALED with WRONG_MODE, and neither changes anything but the record of
the refusal; one in range in SEALED is DONE, stores the value, and changes nothing else. -/
def Obligations.GuardedRegisterWrites : Prop :=
  ∀ (h : Hdr) (s : State),
    (∀ a vs, cmdReady (.writeWin h a vs) s = true → h.auth = none → a < 2 ^ 24 → 1 ≤ vs.length → vs.length ≤ 256 →
      winFault a vs.length = none → (winAddrs a vs.length).any holdsWa = true →
      exec (.writeWin h a vs) s = .next (answer (.writeWin h a vs) stAuthRequired [] (refusedBy (.writeWin h a vs) stAuthRequired s))) ∧
    (∀ b a r w, b < 4 → a = A.BR_BAND + 0x400 * b ∨ a = A.BR_TIMES + 0x400 * b → regAt a = some (r, b, 0) →
      cmdReady (.writeWin h a [w]) s = true →
      (fieldsOk r w = false → ∃ t, exec (.writeWin h a [w]) s =
        .next (answer (.writeWin h a [w]) stBadParam [] (refusedBy (.writeWin h a [w]) stBadParam t)) ∧ OnlyRegs s t [A.VG_ERR_ADDR]) ∧
      (fieldsOk r w = true → modeOf s b ≠ 0 → ∃ t, exec (.writeWin h a [w]) s =
        .next (answer (.writeWin h a [w]) stWrongMode [] (refusedBy (.writeWin h a [w]) stWrongMode t)) ∧ OnlyRegs s t [A.VG_ERR_ADDR]) ∧
      (fieldsOk r w = true → modeOf s b = 0 → ∃ t, exec (.writeWin h a [w]) s =
        .next (answer (.writeWin h a [w]) stDone [] t) ∧ OnlyRegs s t [a] ∧
          ∀ f ∈ r.fields, f.acc = .RW → bitsOf (t.reg a).toNat f.lo f.width = bitsOf w.toNat f.lo f.width))

/-- A transom crossing moves its credits, a send without one waits and counts its cycles, and a broken count latches
XG_BAD and sets XG_EV. On a crossing 0 to 27 whose available credits, entries in flight and credits in the
synchroniser add up to 8, with no returned credit overdue and no send waiting, and with nothing else of the state
changed: TRANSOM_SEND with a credit that did not come back in this cycle moves one from available to in flight;
without one the send waits and this cycle counts in STALLS; TRANSOM_DRAIN of an entry in flight moves its credit to
the synchroniser; CREDIT_RETURN of a credit in the synchroniser makes it available, to a send from the next cycle on.
The broken check ends. A send that waits on a crossing with no credit until a credit returns k sender cycles later is
carried out in the cycle after, and STALLS has counted k + 1 cycles. On a crossing whose count does not add up to 8
and was broken in an earlier cycle too, or where a drained credit has stayed away for more than 3 sender cycles, and
whose XG_BAD is not yet latched, a TRANSOM_SEND without a credit latches XG_BAD and sets XG_EV: on a crossing 16 to 27
nothing else changes but the crossing, and on an engine's crossing 0 to 15 the engine is taken out with cause 3. The
check is made in every idle tick too, where a crossing 16 or above that is found so latches XG_BAD and sets XG_EV (the
sender island is the first R435 names: the model's choice, log entry 74). -/
def Obligations.TransomCrossings : Prop :=
  (∀ (id : Nat) (s : State), id ≤ 27 →
    (crossing s id).avail + (crossing s id).flight + (crossing s id).sync = 8 →
    creditLate id (crossing s id) s = false → (crossing s id).waits = 0 →
    (0 < usable id (crossing s id) s.now → exec (.transomSend id) s = .next (setCrossing id { crossing s id with
      avail := (crossing s id).avail - 1, flight := (crossing s id).flight + 1, broken := none } s)) ∧
    (usable id (crossing s id) s.now = 0 → exec (.transomSend id) s = .next (setCrossing id { crossing s id with
      stalls := min ((crossing s id).stalls + 1) 0xFFFFFFFF, waits := 1, waitAt := s.now, broken := none } s)) ∧
    (0 < (crossing s id).flight → exec (.transomDrain id) s = .next (setCrossing id { crossing s id with
      flight := (crossing s id).flight - 1, sync := (crossing s id).sync + 1, drainAt := s.now, broken := none } s)) ∧
    (0 < (crossing s id).sync → ∃ t, exec (.creditReturn id) s = .next t ∧
      t = setCrossing id { crossing s id with
        sync := (crossing s id).sync - 1, avail := (crossing s id).avail + 1, retAt := s.now, retN := (crossing t id).retN,
        broken := none } s ∧
      usable id (crossing t id) t.now ≤ (crossing s id).avail)) ∧
  (∀ (id k : Nat) (s : State), id ≤ 27 → (crossing s id).avail = 0 → 0 < (crossing s id).sync →
    (crossing s id).flight + (crossing s id).sync = 8 → (crossing s id).waits = 0 →
    s.now + sendCycle id * k ≤ (crossing s id).drainAt + 3 * sendCycle id →
    ∃ t u, exec (.transomSend id) s = .next t ∧
      exec (.creditReturn id) { t with now := s.now + sendCycle id * k } = .next u ∧
      (crossing { u with now := s.now + sendCycle id * (k + 1) } id).flight = (crossing s id).flight + 1 ∧
      (crossing { u with now := s.now + sendCycle id * (k + 1) } id).avail = 0 ∧
      (crossing { u with now := s.now + sendCycle id * (k + 1) } id).waits = 0 ∧
      (crossing { u with now := s.now + sendCycle id * (k + 1) } id).stalls =
        min ((crossing s id).stalls + (k + 1)) 0xFFFFFFFF) ∧
  (∀ (id : Nat) (s : State), id ≤ 27 → (crossing s id).avail = 0 → (crossing s id).waits = 0 →
    ((crossing s id).flight + (crossing s id).sync ≠ 8 ∧
        (crossing s id).broken.any (fun t => decide (t / sendCycle id < s.now / sendCycle id)) = true ∨
      creditLate id (crossing s id) s = true) →
    (crossing s id).bad = false →
    ∃ t, t = (setCrossing id { crossing s id with
        stalls := min ((crossing s id).stalls + 1) 0xFFFFFFFF, waits := 1, waitAt := s.now,
        broken := some ((crossing s id).broken.getD s.now), bad := true } s).raise R.CK_EVENT.XG_EV ∧
      (16 ≤ id → exec (.transomSend id) s = .next t) ∧
      (id < 16 → exec (.transomSend id) s = .next (engineBad id 0xFFFF false 3 t))) ∧
  (∀ (id : Nat) (s u : State), s.pending = [] → s.host.heldMask = 0 → 16 ≤ id → u = { s with now := s.now + 1 } →
    (∀ k, k ≠ id → crossingBad k (crossing u k) u = (crossing u k).bad) →
    crossingBad id (crossing u id) u = true → (crossing u id).bad = false →
    step s = .next ((setCrossing id { crossing u id with bad := true } u).raise R.CK_EVENT.XG_EV))

/-- The loss and the return of the clock references, and the lock of PLL B. REF_IN_LOST with REF_FB 1 clears REF_ACT and
sets REF_SW_EV. In a module that is not the head, with PLL B locked, DELLAN_REF_LOST on DLN_CKI sets REF_LOST and
LINK_EV where it was not lost, brings IN_STATE to DOWN, drops the lock, gates PLL B, sets PLLB_LOST_EV, COAST and
NOT_ALIGNED, counts COASTS, and starts the coasting now; a training that runs is abandoned with OUT_STATE DOWN, to
begin again when the reference is back. The head ignores DLN_CKI. DELLAN_REF_RETURN brings IN_STATE to 1 and marks the
instant, and as stable it clears REF_LOST with IN_STATE 2, 10 ms after that instant at the earliest. PLLB_LOCK with
the link on locks and ungates PLL B, sets PLLB_LOCK_EV, takes the time of the last TIME as now and sends TRAIN_REQ
with IN_STATE 3; a training abandoned with the reference begins again with OUT_STATE 1. In the head it locks and
ungates PLL B and ends the coasting. SYMBOL_LOSS 3 ms after the last TIME sets SYM_LOST. -/
def Obligations.ClockReferencesLost : Prop :=
  ∀ s : State,
    (s.rd R.CK_STATUS.REF_ACT = 1 → fldOf R.CK_CFG.REF_FB s.clk.ck ≠ 0 →
      exec .refInLost s = .next ((s.clear R.CK_STATUS.REF_ACT).raise R.CK_EVENT.REF_SW_EV)) ∧
    (isHead s = true → exec (.dellanRefLost true) s = .next s) ∧
    (∀ g : Training, isHead s = false → s.clk.training = some g → s.flag R.CK_STATUS.PLLB_LOCK = true →
      ∃ t, exec (.dellanRefLost true) s = .next t ∧ t.clk.training = none ∧ t.clk.retrain = true ∧
        t.rd R.DL_STATUS.OUT_STATE = 0 ∧ t.rd R.CK_STATUS.PLLB_LOCK = 0 ∧ t.rd R.DL_STATUS.REF_LOST = 1) ∧
    (isHead s = false → s.flag R.CK_STATUS.PLLB_LOCK = true → s.clk.training = none →
      ∃ t, exec (.dellanRefLost true) s = .next t ∧ t.rd R.DL_STATUS.REF_LOST = 1 ∧ t.rd R.DL_STATUS.IN_STATE = 0 ∧
        (s.flag R.DL_STATUS.REF_LOST = false → t.rd R.DL_EVENT.LINK_EV = 1) ∧ t.rd R.CK_STATUS.PLLB_LOCK = 0 ∧
        t.rd R.CK_STATUS.PLLB_GATED = 1 ∧ t.rd R.CK_EVENT.PLLB_LOST_EV = 1 ∧ t.rd R.TS_STATUS.COAST = 1 ∧
        t.rd R.TS_STATUS.NOT_ALIGNED = 1 ∧ t.rd R.TS_CNT.COASTS = min 255 (s.rd R.TS_CNT.COASTS + 1) ∧
        t.clk = { s.clk with coastAt := s.now, coastN := 0, backAt := none } ∧ t.now = s.now ∧ t.board = s.board) ∧
    (isHead s = false → s.flag R.CK_STATUS.PLLB_LOCK = false →
      (s.clk.backAt = none → exec (.dellanRefReturn false) s =
        .next ({ s with clk := { s.clk with backAt := some s.now } }.wr R.DL_STATUS.IN_STATE 0 1)) ∧
      (∀ since, s.clk.backAt = some since → ∃ t, exec (.dellanRefReturn true) s = .next t ∧ t.rd R.DL_STATUS.REF_LOST = 0 ∧
        t.rd R.DL_STATUS.IN_STATE = 2 ∧ t.now = max s.now (since + 10 * tMs) ∧ t.clk = s.clk ∧ t.board = s.board)) ∧
    (isHead s = false → s.flag R.CK_STATUS.PLLB_LOCK = false → s.flag R.DL_STATUS.REF_LOST = false → linkOn s = true →
      ∃ t, exec .pllbLock s = .next t ∧ t.rd R.CK_STATUS.PLLB_LOCK = 1 ∧ t.rd R.CK_STATUS.PLLB_GATED = 0 ∧
        t.rd R.CK_EVENT.PLLB_LOCK_EV = 1 ∧ t.rd R.DL_STATUS.IN_STATE = 3 ∧
        (s.clk.retrain = false → t.clk = { s.clk with timeAt := s.now, reqOut := true }) ∧
        (s.clk.retrain = true → t.clk.training = some {} ∧ t.clk.retrain = false ∧ t.rd R.DL_STATUS.OUT_STATE = 1) ∧
        t.now = s.now ∧ t.board = s.board) ∧
    (isHead s = true → s.flag R.CK_STATUS.PLLB_LOCK = false →
      ∃ t, exec .pllbLock s = .next t ∧ t.rd R.CK_STATUS.PLLB_LOCK = 1 ∧ t.rd R.CK_STATUS.PLLB_GATED = 0 ∧
        t.rd R.CK_EVENT.PLLB_LOCK_EV = 1 ∧ t.rd R.TS_STATUS.COAST = 0 ∧ t.clk = { s.clk with timeAt := s.now } ∧
        t.now = s.now ∧ t.board = s.board) ∧
    (isHead s = false → linkOn s = true → pllbUp s = true →
      exec .symbolLoss s = .next (reachTime (s.clk.timeAt + 3 * tMs) (s.raise R.DL_STATUS.SYM_LOST)))

/-- A SYNC and its TIME measure the error, fine steps take it back, and a load puts TS to TS_head + D. In a module of the
chain that is not the head, with the link on: a SYNC is recorded with TS_local at its receipt instant (before a fine
step of that tick) and its D, and where the module repeats symbols and its output is free it is repeated with its SEQ
and with D grown by the time to the repeat; a TIME of the same SEQ with the EPOCH last aligned to clears SYM_LOST,
puts e = TS_head + D − TS_local in TS_ERR and makes it the error to slew. A fine step while not coasting moves TS by
one fine step towards e = 0, not earlier than 16,000 ticks after the last one; one while coasting moves it by one fine
step in the direction of HOLD_PPB, at the tick that rate gives. HOLD_RATE_MEASURE while aligned keeps the last 16
rates. PPS_EDGE in the head with PPS_EN measures against the nearest second. With PLL B locked and not gated, a TIME
whose SYNC was recorded at the present timestamp offset, received when the first measurement of a start is still to
come or with another EPOCH than the one last aligned to, moves the timestamp so that TS at the receipt instant is
TS_head + D, takes the EPOCH, increments LOADS (to its greatest value) and sets NOT_ALIGNED; with the EPOCH unchanged
after that first measurement no error, however large, moves the timestamp. -/
def Obligations.TimestampFollows : Prop :=
  (∀ s : State,
    (∀ y : SyncSymbol, y.crcOk = true → linkOn s = true → takesTime s = true →
      ∃ t, exec (.syncSymbolReceive y) s = .next t ∧
        t.clk.sync = some ⟨y.seqNo, 64 * (s.now : Int) + y.phase + offBefore s, y.d, offBefore s⟩ ∧
        (s.clk.stepAt ≠ some s.now → offBefore s = s.clk.tsOff) ∧
        t.clk.tsOff = s.clk.tsOff ∧ t.board = s.board ∧ t.now = s.now ∧
        (repeats s = false → t = { s with clk := { s.clk with sync := t.clk.sync } }) ∧
        (repeats s = true → s.clk.training = none → s.clk.out = [] →
          t.regs = s.regs ∧ t.clk.out.map (fun o => (o.kind, o.sched, o.bits, o.a, o.d)) = [(2, repeatFrom s (fineNow s y.phase) 48, 48, y.seqNo,
            y.d + (repeatFrom s (fineNow s y.phase) 48 - fineNow s y.phase).toNat)])) ∧
    (∀ (t : TimeSymbol) (y : SyncSeen), t.crcOk = true → linkOn s = true → takesTime s = true →
      s.clk.sync = some y → y.seqNo = t.seqNo → s.clk.loadDue = false → t.epoch = s.rd R.TS_STATUS.EPOCH →
      ∃ u, exec (.timeSymbolReceive t) s = .next u ∧ u.rd R.DL_STATUS.SYM_LOST = 0 ∧ u.clk.sync = none ∧
        u.clk.timeAt = s.now ∧ u.clk.tsOff = s.clk.tsOff ∧ u.now = s.now ∧
        u.rd R.TS_ERR.ERR = ofSigned 32 (clampInt (-(2 ^ 31)) (2 ^ 31 - 1)
          (toSigned 54 (ofSigned 54 (64 * (t.ts : Int) + y.d - y.local_)))) ∧
        u.clk.err = toSigned 54 (ofSigned 54 (64 * (t.ts : Int) + y.d - y.local_)) - (s.clk.tsOff - y.off)) ∧
    (s.flag R.TS_STATUS.COAST = false → 0 < s.clk.err →
      ∃ u, exec .tsFineStep s = .next u ∧ u.clk.tsOff = s.clk.tsOff + 1 ∧ u.clk.err = s.clk.err - 1 ∧
        u.clk.stepAt = some u.now ∧ s.now ≤ u.now ∧ (∀ k, s.clk.stepAt = some k → k + 16000 ≤ u.now) ∧
        u.regs = s.regs ∧ u.board = s.board) ∧
    (s.flag R.TS_STATUS.COAST = false → s.clk.err < 0 →
      ∃ u, exec .tsFineStep s = .next u ∧ u.clk.tsOff = s.clk.tsOff - 1 ∧ u.clk.err = s.clk.err + 1 ∧
        u.clk.stepAt = some u.now ∧ s.now ≤ u.now ∧ (∀ k, s.clk.stepAt = some k → k + 16000 ≤ u.now) ∧
        u.regs = s.regs ∧ u.board = s.board) ∧
    (s.flag R.TS_STATUS.COAST = true → holdPpb s ≠ 0 →
      ∃ u, exec .tsFineStep s = .next u ∧ u.clk.tsOff = s.clk.tsOff + (if 0 < holdPpb s then 1 else -1) ∧
        u.clk.coastN = s.clk.coastN + 1 ∧ u.now = max s.now (s.clk.coastAt + coastTicks (s.clk.coastN + 1) (holdPpb s).natAbs) ∧
        u.clk.err = s.clk.err ∧ u.regs = s.regs ∧ u.board = s.board) ∧
    (∀ ppb : Int, notAligned s = false → pllbUp s = true → s.flag R.TS_STATUS.COAST = false →
      ∃ u, exec (.holdRateMeasure ppb) s = .next u ∧ u.clk = { s.clk with rates := (ppb :: s.clk.rates).take 16 } ∧
        (s.clk.rates = [] → u.rd R.TS_HOLD.HOLD_PPB = ofSigned 32 ppb) ∧ u.board = s.board ∧ u.now = s.now) ∧
    (isHead s = true → fldOf R.CK_CFG.PPS_EN s.clk.ck ≠ 0 →
      ∃ (u : State) (k : Int), exec .ppsEdge s = .next u ∧
        u.clk = { s.clk with err := k * 25600000000 - (64 * (s.now : Int) + offBefore s) } ∧
        -12800000000 ≤ u.clk.err ∧ u.clk.err ≤ 12800000000 ∧ u.board = s.board ∧ u.now = s.now)) ∧
  (∀ (s : State) (t : TimeSymbol) (y : SyncSeen), t.crcOk = true → linkOn s = true → takesTime s = true →
    s.clk.sync = some y → y.seqNo = t.seqNo → pllbUp s = true → y.off = s.clk.tsOff →
    ((s.clk.loadDue = true ∨ t.epoch ≠ s.rd R.TS_STATUS.EPOCH) →
      ∃ u, exec (.timeSymbolReceive t) s = .next u ∧
        (y.local_ - s.clk.tsOff) + u.clk.tsOff = 64 * (t.ts : Int) + y.d ∧
        u.rd R.TS_CNT.LOADS = min 255 (s.rd R.TS_CNT.LOADS + 1) ∧
        u.rd R.TS_STATUS.EPOCH = t.epoch % 256 ∧ u.rd R.TS_STATUS.NOT_ALIGNED = 1 ∧ u.clk.loadDue = false) ∧
    (s.clk.loadDue = false → t.epoch = s.rd R.TS_STATUS.EPOCH →
      ∃ u, exec (.timeSymbolReceive t) s = .next u ∧ u.clk.tsOff = s.clk.tsOff ∧
        u.rd R.TS_CNT.LOADS = s.rd R.TS_CNT.LOADS))

/-- The symbols of the Dellan bus, and the training of a hop. In the head with the link on and no training running,
SYNC_SCHEDULE sends a SYNC and a TIME of the same SEQ: the TIME carries the EPOCH and a TS that is a multiple of
400,000 ticks, not before the present TS, and the number of the next millisecond follows it. A TRIGGER with a good CRC
received in the chain puts its D in DL_DLAST and fires as R299 says; where the module repeats symbols and its output
is free, the TRIGGER sent carries its LINE and ORIGIN and its D with the time to the repeat added. One with a bad CRC
is counted and discarded. A TRIGGER or a SYNC goes out as 48 bits and a TIME as 80. With the link on: TRAIN_REQ with a
good CRC begins a training with OUT_STATE 1, in which the symbols that wait at the output are discarded and counted in
DROPPED. A TRAIN with LAST 0 is answered with its CNT (and the module's own POS: the model's choice, log entry 131);
one with LAST 1 and a POS below 15 gives POS + 1, POS_OK, IN_HOP and IN_STATE 4, and one with POS 15 sets CHAIN_ERR,
and CHAIN_EV where CHAIN_ERR rises. A TRAIN_REPLY adds its round trip to the training. A training with its replies
complete ends with OUT_STATE 2, TRAIN_EV and TRAINS counted; one with a gap of 16 ends with OUT_STATE 0.
TRAINING_RETRY of a hop that is DOWN begins one 100 ms later, but not one that waits for the return of the reference. -/
def Obligations.DellanSymbolsAndTraining : Prop :=
  (∀ s : State,
    (isHead s = true → linkOn s = true → s.clk.training = none →
      ∃ (t : State) (k : Nat), exec .syncSchedule s = .next t ∧ s.clk.seqNo ≤ k ∧ t.clk.seqNo = k + 1 ∧
        t.clk.timeOut = some ⟨k % 256, s.rd R.TS_STATUS.EPOCH, 400000 * k % 2 ^ 48, true⟩ ∧
        64 * (s.now : Int) + s.clk.tsOff ≤ 25600000 * k ∧ s.now ≤ t.now ∧ t.regs = s.regs ∧ t.board = s.board) ∧
    (∀ y : TrigSymbol, y.crcOk = true → linkOn s = true → outside s = false → repeats s = false →
      exec (.triggerSymbolReceive y) s = .next (triggerSymbol y.line y.origin y.d y.phase (s.wr R.DL_DLAST.D_LAST 0 y.d))) ∧
    (∀ y : TrigSymbol, y.crcOk = true → linkOn s = true → repeats s = true → s.clk.training = none → s.clk.out = [] →
      ∃ t, exec (.triggerSymbolReceive y) s = .next t ∧ t.clk.trigOut = some (y.line, y.origin,
        y.d + (repeatFrom s (fineNow s y.phase) 48 - fineNow s y.phase).toNat)) ∧
    (∀ o : OutSym, (o.kind = 1 ∨ o.kind = 2 → (outBits o).length = 48) ∧ (2 < o.kind → (outBits o).length = 80)) ∧
    (∀ y : TrigSymbol, linkOn s = true → y.crcOk = false →
      exec (.triggerSymbolReceive y) s = .next (s.countUp R.DL_CNT.CRC_ERR))) ∧
  (∀ s : State, linkOn s = true →
    (s.clk.out = [] → exec (.trainReq true) s = .next
      ({ s with clk := { s.clk with training := some {}, retrain := false } }.wr R.DL_STATUS.OUT_STATE 0 1)) ∧
    (∃ t, exec (.trainReq true) s = .next t ∧ t.rd R.DL_STATUS.OUT_STATE = 1 ∧
      t.clk = { s.clk with training := some {}, retrain := false, out := s.clk.out.filter (fun o => decide (o.sched ≤ fineNow s 0)) } ∧
      t.rd R.DL_CNT.DROPPED = min 255 (s.rd R.DL_CNT.DROPPED +
        (s.clk.out.filter (fun o => decide (fineNow s 0 < o.sched))).length) ∧ t.now = s.now ∧ t.board = s.board) ∧
    (∀ y : TrainSymbol, y.crcOk = true → isHead s = false →
      (y.last = false → exec (.train y) s = .next { s with clk := { s.clk with replyOut := some (s.rd R.DL_STATUS.POS, y.count) } }) ∧
      (y.last = true → y.pos < 15 → ∃ t, exec (.train y) s = .next t ∧ t.rd R.DL_STATUS.POS = y.pos + 1 ∧
        t.rd R.DL_STATUS.POS_OK = 1 ∧ t.rd R.DL_STATUS.CHAIN_ERR = 0 ∧ t.rd R.DL_HOP.IN_HOP = y.hop % 65536 ∧
        t.rd R.DL_STATUS.IN_STATE = 4 ∧ t.clk = s.clk) ∧
      (y.last = true → y.pos = 15 → ∃ t, exec (.train y) s = .next t ∧ t.rd R.DL_STATUS.CHAIN_ERR = 1 ∧
        t.rd R.DL_STATUS.POS_OK = 0 ∧
        (s.flag R.DL_STATUS.CHAIN_ERR = false → t.rd R.DL_EVENT.CHAIN_EV = 1) ∧
        (s.flag R.DL_STATUS.CHAIN_ERR = true → t.rd R.DL_EVENT.CHAIN_EV = s.rd R.DL_EVENT.CHAIN_EV) ∧ t.clk = s.clk)) ∧
    (∀ (y : TrainReply) (g : Training), y.crcOk = true → s.clk.training = some g →
      ∃ t g', exec (.trainReply y) s = .next t ∧ t.clk = { s.clk with training := some g' } ∧ t.regs = s.regs ∧
        g'.sum = g.sum + y.roundTrip ∧ g'.n = g.n + 1 ∧ g'.next = y.count + 1) ∧
    (∀ g : Training, s.clk.training = some g →
      (g.gap = false → 0 < g.n → 240 < g.next → ∃ t, exec .trainingEnd s = .next t ∧ t.clk.training = none ∧
        t.rd R.DL_STATUS.OUT_STATE = 2 ∧ t.rd R.DL_EVENT.TRAIN_EV = 1 ∧
        t.rd R.DL_CNT.TRAINS = min 255 (s.rd R.DL_CNT.TRAINS + 1) ∧
        t.clk.trainOut = some (s.rd R.DL_STATUS.POS, t.rd R.DL_HOP.OUT_HOP)) ∧
      (g.gap = true → ∃ t, exec .trainingEnd s = .next t ∧ t.clk.training = none ∧ t.rd R.DL_STATUS.OUT_STATE = 0 ∧
        t.clk.downAt = s.now)) ∧
    (s.rd R.DL_STATUS.OUT_STATE = 0 → s.clk.retrain = true → exec .trainingRetry s = .next s) ∧
    (s.rd R.DL_STATUS.OUT_STATE = 0 → s.clk.retrain = false → ∃ t, exec .trainingRetry s = .next t ∧ t.clk.training = some {} ∧
      t.rd R.DL_STATUS.OUT_STATE = 1 ∧ s.clk.downAt + 100 * tMs ≤ t.now ∧ t.board = s.board))

/-- What each SPI transaction delivers, shifts out and leaves queued. Each transaction acts on the state in which a reply
held back too long has gone out, once. With no such reply and while the port serves: a PKT_WRITE of either width puts
its packet, marked with its arrival, at the end of the receive queue where it holds fewer than two, and otherwise
counts RX_OVF, sets RX_OVF_EV and discards it; a PKT_READ of either width shifts out the oldest reply followed by
0x00, and takes it off the queue only where its last byte was clocked out; STATUS shifts out four bytes and changes
nothing, RX_BUSY in bit 0 while the reply of an SPI command is held back; a transaction with an unknown instruction
byte counts BAD_INS and drives nothing. The rest of the state stays. -/
def Obligations.SpiTransactions : Prop :=
  (∀ (s : State) (c : Instr), (∃ p, c = .pktWrite p ∨ c = .pktWriteQ p) ∨ (∃ n, c = .pktRead n ∨ c = .pktReadQ n) ∨ c = .status →
    exec c s = exec c (expireHeld s)) ∧
  ∀ s : State, s.host.serving = true → expireHeld s = s →
    (∀ p : List Byte, s.host.spi.rx.length < 2 → ∀ c, c = Instr.pktWrite p ∨ c = Instr.pktWriteQ p →
      exec c s = .next { s with host := { s.host with
        spiOut := [], spi := { s.host.spi with rx := s.host.spi.rx ++ [⟨s.now, p⟩] } } }) ∧
    (∀ p : List Byte, 2 ≤ s.host.spi.rx.length → ∀ c, c = Instr.pktWrite p ∨ c = Instr.pktWriteQ p →
      exec c s = .next { (s.countUp R.VG_COUNT2.RX_OVF).raise R.VG_EVENT.RX_OVF_EV with host := { s.host with spiOut := [] } }) ∧
    (∀ (n : Nat) (r : List Byte) (rest : List (List Byte)), s.host.spi.rp = r :: rest → r.length ≤ n →
      ∀ c, c = Instr.pktRead n ∨ c = Instr.pktReadQ n →
      exec c s = .next { s with host := { s.host with
        spiOut := r ++ List.replicate (n - r.length) 0,
        spi := { s.host.spi with rp := rest } } }) ∧
    (∀ (n : Nat) (r : List Byte) (rest : List (List Byte)), s.host.spi.rp = r :: rest → n < r.length →
      ∀ c, c = Instr.pktRead n ∨ c = Instr.pktReadQ n →
      exec c s = .next { s with host := { s.host with spiOut := r.take n } }) ∧
    (∀ n : Nat, s.host.spi.rp = [] → ∀ c, c = Instr.pktRead n ∨ c = Instr.pktReadQ n →
      exec c s = .next { s with host := { s.host with spiOut := List.replicate n 0 } }) ∧
    (∃ out : List Byte, exec .status s = .next { s with host := { s.host with spiOut := out } } ∧ out.length = 4 ∧
      byteAt out 0 / 16 = 0xA ∧ (bitAt (byteAt out 0) 3 = attn s) ∧
      (bitAt (byteAt out 0) 2 = decide (s.host.spi.rx.length < 2)) ∧
      (bitAt (byteAt out 0) 1 = decide (s.host.spi.rp ≠ [])) ∧
      (bitAt (byteAt out 0) 0 = (match s.host.held with | some r => !r.can | none => false)) ∧
      (s.host.spi.rp.length ≤ 8 → byteAt out 1 = s.host.spi.rp.length) ∧
      (∀ r rest, s.host.spi.rp = r :: rest → r.length < 65536 → leAt out 2 2 = r.length)) ∧
    (∀ b : Byte, b ∉ [(0x02 : Byte), 0x32, 0x0B, 0x6B, 0x05] →
      exec (.badInstruction b) s = .next { s.countUp R.VG_COUNT2.BAD_INS with host := { s.host with spiOut := [] } })

/-- Segments of a CAN packet are assembled, a gap or a missing segment ends it, and a reply leaves as segments in order.
With the CAN transport on and its controller on the bus, a CAN FD data frame with CMD_ID that is no reference message
of a time slave counts as received (REC falls as R340 says). One that is segment 0 and does not hold the whole packet
is held with the next segment awaited; a segment, 0 or the one awaited, that completes the packet under LENGTH
delivers it, and nothing is held; a segment that is not the one awaited ends the packet, whose bytes so far go to the
interpreter and fail check 1 (also where the queue is full: the model's choice, log entry 123). A frame with CMD_ID
that is no CAN FD data frame counts FRAME_ERR alone. A gap longer than SEG_TO ends the packet in the same way, after
that time. A CAN reply that was sent, with the controller on its bus and no held reply due, leaves the queue; an
abandoned one counts RP_DROP and ABANDONED and sets ABT_EV too; a controller in bus monitoring sends none. The
segments of a packet have an index byte and a CAN FD data length, and joined give back the packet, followed by padding
alone. -/
def Obligations.CanTransportSegments : Prop :=
  (∀ (s : State) (f : CanFrame) (t : State), canOn s = true → canOnBus s (canSel s) = true → isCommandFrame s f = true →
    t = receiveOk (canSel s) s →
    (f.fdf = true → f.rtr = false → isReference s (canSel s) f = false →
      (∀ r, s.host.seg = some r → s.now ≤ r.at_ + s.rd R.VG_CAN_CFG.SEG_TO * 400000) →
      (byteAt f.data 0 = 0 → f.data.length = 64 → 63 < leAt (f.data.drop 1) 1 2 → leAt (f.data.drop 1) 1 2 ≤ 1280 →
        exec (.canSegmentReceive f) s = .next { t with host := { t.host with
          seg := some ⟨f.data.drop 1, 1, s.now⟩ } }) ∧
      (byteAt f.data 0 = 0 → 4 ≤ f.data.length → 3 ≤ leAt (f.data.drop 1) 1 2 → leAt (f.data.drop 1) 1 2 ≤ f.data.length - 1 →
        s.host.can.rx.length < 2 →
        exec (.canSegmentReceive f) s = .next { t with host := { t.host with
          seg := none, can := { t.host.can with rx := s.host.can.rx ++
            [⟨s.now, (f.data.drop 1).take (max (leAt (f.data.drop 1) 1 2) 6)⟩] } } }) ∧
      (∀ (r : SegRx) (l : List Byte), s.host.seg = some r → r.next ≠ 0 → l = r.bytes ++ f.data.drop 1 →
        (byteAt f.data 0 = r.next → 3 ≤ l.length → leAt l 1 2 ≤ l.length → s.host.can.rx.length < 2 →
          exec (.canSegmentReceive f) s = .next { t with host := { t.host with
            seg := none, can := { t.host.can with rx := s.host.can.rx ++ [⟨s.now, l.take (max (leAt l 1 2) 6)⟩] } } }) ∧
        (byteAt f.data 0 ≠ r.next → byteAt f.data 0 ≠ 0 →
          exec (.canSegmentReceive f) s = .next { t with host := { t.host with
            seg := none, can := { t.host.can with rx := s.host.can.rx ++ [⟨s.now, r.bytes⟩] } } }))) ∧
    (f.fdf = false → isReference s (canSel s) f = false →
      exec (.canSegmentReceive f) s = .next (t.countUp R.VG_COUNT.FRAME_ERR))) ∧
  (∀ s : State,
    (∀ r : SegRx, s.host.seg = some r →
      ∃ t, exec .segmentTimeout s = .next t ∧ t.now = max s.now (r.at_ + s.rd R.VG_CAN_CFG.SEG_TO * 400000 + 1) ∧
        t.host = { s.host with
          seg := none, can := { s.host.can with rx := s.host.can.rx ++ [⟨t.now, r.bytes⟩] } } ∧
        t.regs = s.regs ∧ t.board = s.board) ∧
    (∀ (r : List Byte) (rest : List (List Byte)), canOn s = true → canOnBus s (canSel s) = true → expireHeld s = s →
      s.host.can.rp = r :: rest →
      (s.flag R.CF_MODE.MON (canSel s) = false →
        exec (.canReplySend true) s = .next ({ s with host := { s.host with
          segSent := 0, can := { s.host.can with rp := rest } } }.setObj (canSel s) 64 {}) ∧
        ∃ t, exec (.canReplySend false) s = .next t ∧
          t.host = { s.host with segSent := 0, can := { s.host.can with rp := rest } } ∧
          t.rd R.VG_COUNT2.RP_DROP = min 255 (s.rd R.VG_COUNT2.RP_DROP + 1) ∧
          t.rd R.CF_CNT.ABANDONED (canSel s) =
            min (2 ^ R.CF_CNT.ABANDONED.width - 1) (s.rd R.CF_CNT.ABANDONED (canSel s) + 1) ∧
          t.flag R.CF_EVENT.ABT_EV (canSel s) = true ∧ t.board = s.board ∧ t.now = s.now) ∧
      (s.flag R.CF_MODE.MON (canSel s) = true → ∀ sent, exec (.canReplySend sent) s = .next s))) ∧
  (∀ p : List Byte,
    (∀ k, k < segCount p.length → (segmentData p k).length ∈ fdLengths ∧ byteAt (segmentData p k) 0 = k % 256) ∧
    ((List.range (segCount p.length)).flatMap (fun k => (segmentData p k).drop 1)).take p.length = p)

/-- A packet taken from a receive queue runs exactly the command its bytes spell. For every row of the host command table,
every header and every operand the encoding admits: when the bytes of that command wait alone in the receive queue of
its transport, the interpreter may take it, and it does not repeat the last packet executed, PACKET_TAKE is that
command run on the state with the packet gone from its queue. (So the bytes of each packet pass the checks of R307,
are read back field by field, and reach the meaning of their own row.) -/
def Obligations.PacketTakeRunsCommands : Prop :=
  ∀ (i : Instr) (h : Hdr) (op : Nat) (ps : List Byte) (s : State) (t : Nat), hostRow i = some (h, op, ps) → i.wf = true →
    takes s h.can = true → (s.transport h.can).rx = [⟨t, packetBytes (commandPacket h op ps)⟩] →
    (s.transport (!h.can)).rx = [] →
    isRepeat (s.transport h.can).last ⟨t, packetBytes (commandPacket h op ps)⟩ = false →
    exec .packetTake s = exec i (s.setTransport h.can { s.transport h.can with rx := [] })

/-- Reading the bytes of a packet gives back the packet, and they pass the frame and CRC checks. For every packet whose
SEQ, OPCODE, KEY_SLOT and COUNTER fit their fields, whose FLAGS is 1 with an authentication part of an 8-byte tag and
0 without one, and whose length is at most 1,280 bytes: its bytes pass checks 1 and 2 of R307 and read back as the
packet. -/
def Obligations.PacketBytesRoundTrip : Prop :=
  ∀ p : Packet, p.seq < 256 → p.opcode < 65536 → p.flags = b2n p.auth.isSome → packetLength p ≤ 1280 →
    (∀ a, p.auth = some a → a.slot < 256 ∧ a.counter < 2 ^ 32 ∧ a.tag.length = 8) →
    frameOk (packetBytes p) = true ∧ crcOk (packetBytes p) = true ∧ parsePacket (packetBytes p) = p

/-- The interpreter takes the packet that arrived first, and answers what is no packet. With a packet waiting on both
transports, and both of them free to be taken from, the one that arrived first is interpreted, of two of one tick that
of SPI (the model's choice, log entry 102). A taken packet that fails check 1 or 2 is answered with the status of that
check, and counts FRAME_ERR and sets FRAME_EV; one that repeats the last packet executed within 1 s is answered with
the stored reply and counts DUPS, without running again; one of an opcode outside the table is answered
UNKNOWN_OPCODE. A reply held back for a second more than the maximum of its command goes out as INTERNAL, which VG_ERR
shows, and nothing is held back any more. -/
def Obligations.PacketsTakenInOrder : Prop :=
  ∀ (s : State) (x : RxPkt),
    (∀ y : RxPkt, candidate false s = some x → candidate true s = some y →
      exec .packetTake s = .next (if x.at_ ≤ y.at_ then takeFrom false x s else takeFrom true y s)) ∧
    (∀ can : Bool, frameOk x.bytes = false → ∃ t, interpret can x s = t ∧
      (t.transport can).rp = (s.transport can).rp ++
        [replyBytes ⟨can, if 4 ≤ x.bytes.length then byteAt x.bytes 3 else 0, none⟩
          (if 6 ≤ x.bytes.length then leAt x.bytes 4 2 else 0) (refuse 0x10 s) false] ∧
      t.rd R.VG_COUNT.FRAME_ERR = min (2 ^ R.VG_COUNT.FRAME_ERR.width - 1) (s.rd R.VG_COUNT.FRAME_ERR + 1) ∧
      t.rd R.VG_EVENT.FRAME_EV = 1 ∧ t.board = s.board) ∧
    (∀ (can : Bool) (l : LastPkt), frameOk x.bytes = true → crcOk x.bytes = true → (s.transport can).last = some l →
      l.bytes = x.bytes → x.at_ ≤ l.at_ + 400000000 →
      ∃ t, interpret can x s = t ∧ (t.transport can).rp = (s.transport can).rp ++ [dupReply l.reply s] ∧
        t.regs = (s.countUp R.VG_COUNT2.DUPS).regs ∧ t.board = s.board ∧ t.bridges = s.bridges) ∧
    (∀ can : Bool, frameOk x.bytes = true → crcOk x.bytes = true → (s.transport can).last = none →
      bodyOf ⟨can, (parsePacket x.bytes).seq, (parsePacket x.bytes).auth⟩ (parsePacket x.bytes).opcode
        (parsePacket x.bytes).params = none →
      ∃ t, interpret can x s = t ∧ t.rd R.VG_ERR.LAST_ERR = 0x12 ∧
        t.rd R.VG_ERR.LAST_OP = (parsePacket x.bytes).opcode % 65536 ∧ t.board = s.board ∧ t.bridges = s.bridges) ∧
    (∀ r : Held, s.host.held = some r → s.host.heldMask ≠ 0 → s.host.heldDue ≤ s.now →
      ((expireHeld s).transport r.can).rp = (s.transport r.can).rp ++ [r.internal] ∧ (expireHeld s).host.held = none ∧
      (expireHeld s).host.heldMask = 0 ∧ (expireHeld s).rd R.VG_ERR.LAST_ERR = stInternal ∧
      (expireHeld s).board = s.board ∧ (expireHeld s).bridges = s.bridges)

/-- PING and GET_STATUS answer with their registers and change nothing. When it is taken, PING is answered DONE with
ID_PART, ID_REV and ID_FW, and GET_STATUS with DEV_STATUS, DEV_EVENT, ID_STATUS and VG_EVENT, each as a read of the
register shows it; nothing of the state changes but the reply queue and the memory of the last packet. -/
def Obligations.IdentityAndStatusAnswered : Prop :=
  ∀ (h : Hdr) (s : State),
    (cmdReady (.ping h) s = true → exec (.ping h) s = .next (answer (.ping h) stDone
      (le 4 (viewReg s A.ID_PART).toNat ++ le 4 (viewReg s A.ID_REV).toNat ++ le 4 (viewReg s A.ID_FW).toNat) s)) ∧
    (cmdReady (.getStatus h) s = true → exec (.getStatus h) s = .next (answer (.getStatus h) stDone
      (le 4 (viewReg s A.DEV_STATUS).toNat ++ le 4 (viewReg s A.DEV_EVENT).toNat ++ le 4 (viewReg s A.ID_STATUS).toNat ++
        le 4 (viewReg s A.VG_EVENT).toNat) s))

/-- READ_WIN answers the registers of its range in ascending order, and a range R11 forbids is BAD_PARAM. A taken READ_WIN
over registers whose reads have no effect, and signal words of even parity, is answered DONE with the value of each,
four bytes little-endian, in ascending address order, and changes nothing; one that reaches an address R11 forbids is
answered BAD_PARAM, transfers nothing, and shows that address in VG_ERR_ADDR. A read of one register with RC fields
clears those fields and no other part of the state. -/
def Obligations.ReadWindowReads : Prop :=
  ∀ (h : Hdr) (addr count : Nat) (s : State), cmdReady (.readWin h addr count) s = true → winShapeOk addr count = true →
    (winFault addr count = none → (∀ a ∈ winAddrs addr count, plainRead a = true) →
      wordsSound s ((winAddrs addr count).filterMap winSignal) = true →
      exec (.readWin h addr count) s = .next (answer (.readWin h addr count) stDone
        ((winAddrs addr count).flatMap (fun a => le 4 (viewReg s a).toNat)) s)) ∧
    (∀ a, winFault addr count = some a → exec (.readWin h addr count) s = .next (answer (.readWin h addr count) stBadParam []
      (refusedBy (.readWin h addr count) stBadParam (s.wr R.VG_ERR_ADDR.ADDR 0 a)))) ∧
    (count = 1 → winFault addr 1 = none → winSignal addr = none → ∀ r i j, regAt addr = some (r, i, j) →
      pairLow r.base = false → pairHigh r.base = false → r.base ≠ A.XG_STALL → r.base ≠ A.BUF_ID → r.base ≠ A.BUF_DATA →
      exec (.readWin h addr count) s = .next (answer (.readWin h addr count) stDone (le 4 (viewReg s addr).toNat)
        (clearRc r addr s)) ∧ OnlyRegs s (clearRc r addr s) [addr] ∧
      (∀ f ∈ r.fields, f.acc = .RC → bitsOf ((clearRc r addr s).reg addr).toNat f.lo f.width = 0))

/-- WRITE_WIN stores the writable fields of a register and nothing else, and writes nothing where a check fails. A taken
WRITE_WIN of one register whose write has no further effect, that passes every check, is answered DONE: in the
register every RW and WA field takes its bits of the value, every W1C bit written 1 clears, every other bit stays, and
nothing else of the state changes. One whose registers do not all pass check 4 is answered with the status of the
first that fails, which VG_ERR_ADDR shows, and stores nothing; one over a WA field without authentication is answered
AUTH_REQUIRED and stores nothing; one that reaches an address R11 forbids is BAD_PARAM. -/
def Obligations.WriteWindowWrites : Prop :=
  ∀ (h : Hdr) (addr : Nat) (values : List Word) (s : State), cmdReady (.writeWin h addr values) s = true →
    winShapeOk addr values.length = true →
    (∀ w r i j, values = [w] → winAddrOk addr = true → plainWrite addr = true → regAt addr = some (r, i, j) →
      writeOpen addr w s = true →
      ∃ t, exec (.writeWin h addr values) s = .next (answer (.writeWin h addr values) stDone [] t) ∧ OnlyRegs s t [addr] ∧
        (∀ f ∈ r.fields, bitsOf (t.reg addr).toNat f.lo f.width =
          (match f.acc with
            | .RW | .WA => bitsOf w.toNat f.lo f.width
            | .W1C => bitsOf (s.reg addr &&& ~~~w).toNat f.lo f.width
            | _ => bitsOf (s.reg addr).toNat f.lo f.width)) ∧
        (∀ k, k < 32 → (∀ f ∈ r.fields, ¬ (f.lo ≤ k ∧ k < f.lo + f.width)) → bitAt (t.reg addr).toNat k = bitAt (s.reg addr).toNat k)) ∧
    (∀ a st, winFault addr values.length = none → (winAddrs addr values.length).any holdsWa = false →
      firstRefused s (((winAddrs addr values.length).zip values).foldl (fun t e => storeWord e.1 e.2 t) s)
        ((winAddrs addr values.length).zip values) = some (a, st) →
      exec (.writeWin h addr values) s = .next (answer (.writeWin h addr values) st []
        (refusedBy (.writeWin h addr values) st (s.wr R.VG_ERR_ADDR.ADDR 0 a)))) ∧
    (winFault addr values.length = none → (winAddrs addr values.length).any holdsWa = true → h.auth = none →
      exec (.writeWin h addr values) s = .next (answer (.writeWin h addr values) stAuthRequired []
        (refusedBy (.writeWin h addr values) stAuthRequired s))) ∧
    (∀ a, winFault addr values.length = some a → exec (.writeWin h addr values) s = .next (answer (.writeWin h addr values)
      stBadParam [] (refusedBy (.writeWin h addr values) stBadParam (s.wr R.VG_ERR_ADDR.ADDR 0 a))))

/-- Writes of the bridge configuration, FAULT_CLR, RESYNC and the encoder configuration. For each bridge, when the command
is taken and its checks pass. A write of BR_CFG, BR_PHASE or BR_KON is answered DONE with a signed reply; its value is
stored, the bridge's graph is unloaded with IMAGE_OK 0, the configuration is checked afresh, and the safety code and
the functions follow. FAULT_CLR, where the words that judge the cause have even parity, clears LATCHED exactly where
the cause is gone and the beat in which the bridge sealed by itself is over, and changes no other register. A write of
GF_CTRL leaves RESYNC as written and changes no other register. A write of TR_ENC_CFG stores the value and sets the
count of the encoder that the bridge owns by it to 0. -/
def Obligations.BridgeRegisterCommands : Prop :=
  ∀ (h : Hdr) (b : Nat) (s : State), b < 4 →
    (∀ (reg : Nat) (w : Word), reg < 3 → cmdAuth (.bridgeConfigWrite h b reg w) .any s = true → modeOf s b = 0 →
      (∀ r, regAt (A.BR_CFG + 0x400 * b + 4 * reg) = some (r, b, 0) → fieldsOk r w = true) →
      exec (.bridgeConfigWrite h b reg w) s = .next (signed (.bridgeConfigWrite h b reg w) stDone [] s
        (applySafety (recode (checkConfig b (unloadGraph b
          (storeWord (A.BR_CFG + 0x400 * b + 4 * reg) w (used (.bridgeConfigWrite h b reg w) s)))))))) ∧
    (cmdReady (.faultClr h b) s = true → wordsSound s (causeReads s b) = true →
      ∃ t, exec (.faultClr h b) s = .next (answer (.faultClr h b) stDone [] t) ∧
        OnlyRegs s t [A.BR_CTRL + 0x400 * b, A.BR_STATUS + 0x400 * b] ∧ modeOf t b = modeOf s b ∧
        t.rd R.BR_STATUS.LATCHED b = if causePresent s b = true ∨ s.now < (s.br b).refuseTill then s.rd R.BR_STATUS.LATCHED b else 0) ∧
    (∀ r : Bool, cmdReady (.resyncWrite h b r) s = true →
      ∃ t, exec (.resyncWrite h b r) s = .next (answer (.resyncWrite h b r) stDone [] t) ∧
        OnlyRegs s t [A.GF_CTRL + 0x400 * b] ∧ t.flag R.GF_CTRL.RESYNC b = r) ∧
    (∀ w : Word, cmdReady (.encoderConfigWrite h b w) s = true → writeOpen (A.TR_ENC_CFG + 0x400 * b) w s = true →
      ∃ t, exec (.encoderConfigWrite h b w) s = .next (answer (.encoderConfigWrite h b w) stDone [] t) ∧
        t.rd R.TR_ENC_CFG.ENC_SEL b = fldOf R.TR_ENC_CFG.ENC_SEL w ∧ t.rd R.TR_ENC_CFG.ENC_EN b = fldOf R.TR_ENC_CFG.ENC_EN w ∧
        (fldOf R.TR_ENC_CFG.ENC_EN w = 1 → (t.enc (fldOf R.TR_ENC_CFG.ENC_SEL w)).count = 0 ∧
          (t.enc (fldOf R.TR_ENC_CFG.ENC_SEL w)).ref = false) ∧
        t = { s with regs := t.regs, encs := t.encs } ∧
        (∀ a, a ≠ A.TR_ENC_CFG + 0x400 * b → t.reg a = s.reg a))

/-- Writes of the carrier, the fall-back registers, LATCH_CLR and XCHK_TRIP. When the command is taken and its checks
pass. A PER write is answered DONE, stores the value, and is applied at once where the leg is the master of a SEALED
bridge. A fall-back write of FB_PER or one FB_DUTYi stores it with the tag of its bridge and makes it pending.
LATCH_CLR clears LATCH_OFF and the trip window of its leg, whose trips count as expired. The clear of XCHK_TRIP clears
that bit, where the leg's bridge is SEALED or none, and nothing else. -/
def Obligations.SashRegisterCommands : Prop :=
  ∀ (h : Hdr) (s : State),
    (∀ (n : Nat) (w : Word), n < 24 → cmdReady (.perWrite h n w) s = true → writeOpen (A.SH_CARRIER + 0x100 * n) w s = true →
      exec (.perWrite h n w) s = .next (answer (.perWrite h n w) stDone []
        (applyPer n (storeWord (A.SH_CARRIER + 0x100 * n) w s)))) ∧
    (∀ (b : Nat) (w : Word), b < 4 → cmdReady (.fallbackWrite h b 0 [w]) s = true →
      writeOpen (A.FB_PER + 0x400 * b) w s = true →
      ∃ t, exec (.fallbackWrite h b 0 [w]) s = .next (answer (.fallbackWrite h b 0 [w]) stDone [] t) ∧
        t.rd R.FB_PER.PER b = fldOf R.FB_PER.PER w ∧ t.rd R.FB_PER.TAG b = (s.br b).tag % 128 ∧
        t.br b = { s.br b with fbPer := true } ∧ t = { s with regs := t.regs, bridges := t.bridges } ∧
        (∀ a, a ≠ A.FB_PER + 0x400 * b → t.reg a = s.reg a)) ∧
    (∀ (b j : Nat) (w : Word), b < 4 → j < 12 → cmdReady (.fallbackWrite h b (1 + j) [w]) s = true →
      writeOpen (A.FB_DUTY + 0x400 * b + 4 * j) w s = true →
      ∃ t, exec (.fallbackWrite h b (1 + j) [w]) s = .next (answer (.fallbackWrite h b (1 + j) [w]) stDone [] t) ∧
        t.rd R.FB_DUTY.TON b j = fldOf R.FB_DUTY.TON w ∧ t.rd R.FB_DUTY.TAG b j = (s.br b).tag % 128 ∧
        j ∈ (t.br b).fbDuty ∧ t = { s with regs := t.regs, bridges := t.bridges } ∧
        (∀ a, a ≠ A.FB_DUTY + 0x400 * b + 4 * j → t.reg a = s.reg a)) ∧
    (∀ n : Nat, n < 24 → cmdReady (.latchClr h n) s = true → legFree s n = true →
      ∃ t, exec (.latchClr h n) s = .next (answer (.latchClr h n) stDone [] t) ∧
        t.rd R.SH_STATUS.LATCH_OFF n = 0 ∧ t.rd R.SH_STATUS.WIN_SUM n = 0 ∧
        t.rd R.SH_TRIPS.TRIP_EXP n = (s.rd R.SH_TRIPS.TRIP_EXP n + s.rd R.SH_STATUS.WIN_SUM n) % 2 ^ R.SH_TRIPS.TRIP_EXP.width ∧
        t.leg n = { s.leg n with slots := [] } ∧ t = { s with regs := t.regs, legs := t.legs } ∧
        (∀ a, a ∉ [A.SH_CTRL + 0x100 * n, A.SH_STATUS + 0x100 * n, A.SH_TRIPS + 0x100 * n] → t.reg a = s.reg a)) ∧
    (∀ n : Nat, n < 24 → cmdReady (.xchkTripClear h n) s = true → legFree s n = true →
      ∃ t, exec (.xchkTripClear h n) s = .next (answer (.xchkTripClear h n) stDone [] t) ∧
        t.rd R.IL_STATUS.XCHK_TRIP n = 0 ∧ OnlyRegs s t [A.IL_STATUS + 0x10 * n])

/-- Writes of the Louvre taps, DRV_CLR, TW_CLR and the steering registers. When the command is taken and its checks pass.
A Louvre write stores the value, and the taps in use become its initial taps. DRV_CLR returns a die in FAULT whose
cause is gone to READY with cause 0, leaves it in FAULT where the cause stays and in the very tick of the fault, and
leaves a die in another state as it is. A write of DRV_SUP stores the value, and with VNEG_UV 0 ends an undervoltage
of VNEG. TW_CLR clears FAIL and both suspect bits of a pair whose inputs agreed and whose bridge is SEALED or none,
and nothing else otherwise. A steering write, authenticated and signed, stores both registers in one command; with
STEER_EN 0 every leg of the bridge returns to the share 0x2000. -/
def Obligations.DriverRegisterCommands : Prop :=
  ∀ (h : Hdr) (s : State),
    (∀ (k : Nat) (w : Word), k < 48 → cmdReady (.louvreWrite h k w) s = true → writeOpen (A.DRV_LOUVRE + 0x40 * k) w s = true →
      ∃ t, exec (.louvreWrite h k w) s = .next (answer (.louvreWrite h k w) stDone [] t) ∧
        t.rd R.DRV_STATUS.NON_M1 k = fldOf R.DRV_LOUVRE.ON_INIT_M1 w ∧
        t.rd R.DRV_STATUS.NOFF_M1 k = fldOf R.DRV_LOUVRE.OFF_INIT_M1 w ∧
        OnlyRegs s t [A.DRV_LOUVRE + 0x40 * k, A.DRV_STATUS + 0x40 * k]) ∧
    (∀ k : Nat, k < 48 → cmdReady (.drvClr h k) s = true → legFree s (k / 2) = true →
      ∃ t, exec (.drvClr h k) s = .next (answer (.drvClr h k) stDone [] t) ∧
        (dieState s k = 2 → (s.die k).faultAt ≠ s.now → (s.die k).again = none → (causeGone k s).1 = true →
          dieState t k = 1 ∧ t.rd R.DRV_STATUS.FAULT_CAUSE k = 0) ∧
        (dieState s k = 2 → (s.die k).again = none → (causeGone k s).1 = false →
          dieState t k = 2 ∧ t.rd R.DRV_STATUS.FAULT_CAUSE k = s.rd R.DRV_STATUS.FAULT_CAUSE k) ∧
        (dieState s k = 2 → (s.die k).faultAt = s.now → dieState t k = 2) ∧
        (dieState s k ≠ 2 → OnlyRegs s t [A.DRV_CTRL + 0x40 * k] ∧ dieState t k = dieState s k)) ∧
    (∀ (k : Nat) (w : Word), k < 48 → cmdReady (.writeWin h (A.DRV_SUP + 0x40 * k) [w]) s = true →
      writeOpen (A.DRV_SUP + 0x40 * k) w s = true →
      exec (.writeWin h (A.DRV_SUP + 0x40 * k) [w]) s = .next (answer (.writeWin h (A.DRV_SUP + 0x40 * k) [w]) stDone []
        (supplyWritten k (storeWord (A.DRV_SUP + 0x40 * k) w s)))) ∧
    (∀ p : Nat, p < 8 → cmdReady (.twClr h p) s = true →
      ∃ t, exec (.twClr h p) s = .next (answer (.twClr h p) stDone [] t) ∧
        OnlyRegs s t [A.TW_CTRL + 0x100 * p, A.TW_STATUS + 0x100 * p] ∧
        ((s.pair p).agreed = true → (∀ b, pairOwner s p = some b → modeOf s b = 0) →
          t.rd R.TW_STATUS.FAIL p = 0 ∧ t.rd R.TW_STATUS.SUSP_A p = 0 ∧ t.rd R.TW_STATUS.SUSP_B p = 0) ∧
        ((s.pair p).agreed = false → t.rd R.TW_STATUS.FAIL p = s.rd R.TW_STATUS.FAIL p)) ∧
    (∀ (b : Nat) (v w : Word), b < 4 → cmdAuth (.steerWrite h b v w) .any s = true →
      firstRefused (used (.steerWrite h b v w) s)
        (storeWord (A.CN_STEER2 + 0x20 * b) w (storeWord (A.CN_STEER + 0x20 * b) v (used (.steerWrite h b v w) s)))
        [(A.CN_STEER + 0x20 * b, v), (A.CN_STEER2 + 0x20 * b, w)] = none →
      ∃ t, exec (.steerWrite h b v w) s = .next (signed (.steerWrite h b v w) stDone [] s t) ∧
        t.rd R.CN_STEER.STEER_EN b = fldOf R.CN_STEER.STEER_EN v ∧
        t.reg (A.CN_STEER2 + 0x20 * b) = (storeWord (A.CN_STEER2 + 0x20 * b) w s).reg (A.CN_STEER2 + 0x20 * b) ∧
        (fldOf R.CN_STEER.STEER_EN v = 0 → ∀ n ∈ legsOf s b, sget (fun _ => 0x2000) t.canopy.shares n = 0x2000))

/-- Writes of host signals, of the safety block, of the Vangat CAN registers and of a capture unit, and RETRAIN. When the
command is taken and its checks pass. A host signal write sets VALUE from the low 16 bits, increments SEQ and clears
AGE, SAT and TAINT of each signal of its range, and leaves every other signal. A write of one safety register is
answered signed, stores the value, computes the configuration code afresh and applies the functions, after the
contactor readbacks and the test-pulse blanking follow it. An authenticated write that changes a Vangat CAN register
discards the packet in reception, and nothing else of the port but its replies. A write of one capture configuration
register stores it alone. RETRAIN begins a training of an output hop that is linked and not in training. -/
def Obligations.OtherRegisterCommands : Prop :=
  ∀ (h : Hdr) (s : State),
    (∀ (i : Nat) (vs : List Word), cmdReady (.hostSignalWrite h i vs) s = true → 0x140 ≤ i → i + vs.length ≤ 0x1C0 → vs ≠ [] →
      ∃ t, exec (.hostSignalWrite h i vs) s = .next (answer (.hostSignalWrite h i vs) stDone [] t) ∧
        (∀ k, k < vs.length → t.sig (i + k) = ⟨(vs.getD k 0).toNat % 65536, ((s.sig (i + k)).seq + 1) % 256, 0, false, false⟩) ∧
        (∀ n, n < i ∨ i + vs.length ≤ n → t.sigWord n = s.sigWord n) ∧ t = { s with board := t.board, aged := t.aged }) ∧
    (∀ (a : Nat) (w : Word), cmdAuth (.safetyConfigWrite h a [w]) .any s = true → inSafety a = true → holdsWa a = true →
      winAddrOk a = true →
      checkWord (used (.safetyConfigWrite h a [w]) s) (storeWord a w (used (.safetyConfigWrite h a [w]) s)) a w = stDone →
      exec (.safetyConfigWrite h a [w]) s = .next (signed (.safetyConfigWrite h a [w]) stDone [] s
        (applySafety (recode (blankChannels (noteKon (storeWord a w (used (.safetyConfigWrite h a [w]) s)))))))) ∧
    (∀ (reg : Nat) (w : Word), reg < 3 → cmdAuth (.vangatCanConfigWrite h reg w) .any s = true →
      checkWord (used (.vangatCanConfigWrite h reg w) s)
        (storeWord (A.VG_CAN_CFG + 4 * reg) w (used (.vangatCanConfigWrite h reg w) s)) (A.VG_CAN_CFG + 4 * reg) w = stDone →
      ∃ t, exec (.vangatCanConfigWrite h reg w) s = .next (signed (.vangatCanConfigWrite h reg w) stDone [] s t) ∧
        t.reg (A.VG_CAN_CFG + 4 * reg) = (storeWord (A.VG_CAN_CFG + 4 * reg) w s).reg (A.VG_CAN_CFG + 4 * reg) ∧
        (t.reg (A.VG_CAN_CFG + 4 * reg) ≠ s.reg (A.VG_CAN_CFG + 4 * reg) → t.host = { s.host with seg := none }) ∧
        (t.reg (A.VG_CAN_CFG + 4 * reg) = s.reg (A.VG_CAN_CFG + 4 * reg) → t.host = s.host)) ∧
    (∀ (u o : Nat) (w : Word), u < 8 → o ∈ [0, 4, 8, 12, 16, 20, 24] →
      cmdReady (.captureConfigWrite h u o [w]) s = true → plainWrite (A.CAP_CFG + 0x100 * u + o) = true →
      writeOpen (A.CAP_CFG + 0x100 * u + o) w s = true →
      ∃ t, exec (.captureConfigWrite h u o [w]) s = .next (answer (.captureConfigWrite h u o [w]) stDone [] t) ∧
        OnlyRegs s t [A.CAP_CFG + 0x100 * u + o] ∧
        t.reg (A.CAP_CFG + 0x100 * u + o) = (storeWord (A.CAP_CFG + 0x100 * u + o) w s).reg (A.CAP_CFG + 0x100 * u + o)) ∧
    (cmdReady (.retrain h) s = true → linkOn s = true → s.clk.training = none →
      ∃ t, exec (.retrain h) s = .next (answer (.retrain h) stDone [] t) ∧
        t.clk = { s.clk with training := some {}, retrain := false, out := s.clk.out.filter (fun o => decide (o.sched ≤ fineNow s 0)) } ∧
        t.rd R.DL_STATUS.OUT_STATE = 1 ∧ t = { s with regs := t.regs, clk := t.clk })

/-- A seal: mode, reason, latch, Shutter line, placement and pulses. Sealing a bridge that is not SEALED leaves it in mode
0 at STEP 0 with the reason in SEAL_REASON; LATCHED is set where the reason latches or a reaction was part of it, and
stays otherwise; its Shutter line is asserted, no graph is placed on it, no ramp runs, and no leg of it gives pulses;
no other bridge changes its mode, no time passes. A bridge already SEALED does not change at all. -/
def Obligations.SealTakesEffect : Prop :=
  ∀ (b : Nat) (h : SealHow) (s : State), b < 4 → h.reason < 32 →
    (modeOf s b = 0 → sealBridge b h s = s) ∧
    (modeOf s b ≠ 0 →
      modeOf (sealBridge b h s) b = 0 ∧ stepOf (sealBridge b h s) b = 0 ∧
      (sealBridge b h s).rd R.BR_REASON.SEAL_REASON b = h.reason ∧
      (sealBridge b h s).rd R.BR_STATUS.LATCHED b =
        (if latchingReason h.reason || h.latch then 1 else s.rd R.BR_STATUS.LATCHED b) ∧
      ((sealBridge b h s).br b).open_ = false ∧ ((sealBridge b h s).br b).placed = none ∧
      ((sealBridge b h s).br b).ramp = none ∧
      (∀ n ∈ legsOf s b, (sealBridge b h s).rd R.SH_STATUS.PULSES n = 0) ∧
      (∀ c, c < 4 → c ≠ b → modeOf (sealBridge b h s) c = modeOf s c) ∧
      (sealBridge b h s).now = s.now ∧ (sealBridge b h s).pending = s.pending)

/-- SET_MODE to SEALED, SET_MODE refused by the transition table, and GET_MODE. GET_MODE, when it is taken, is answered
DONE with MODE, STEP and SEAL_REASON and changes nothing. SET_MODE to SEALED, when it is taken on a bridge outside
SEALED with no ramp under way: in style 0, in a step other than 0, or in the ride-through, it is answered DONE with
MODE 0 and STEP 0, and the bridge is sealed with reason 1; in style 1 at STEP 0 outside the ride-through it is
answered ACCEPTED with the mode and STEP 6, a host ramp of RAMP_MS is under way, the command runs, and the mode stays.
On a SEALED bridge it is answered DONE with MODE and STEP and changes nothing. During a ramp it seals at once: with
reason 4 in an SS1-t ramp, with the reaction's reason and LATCHED in a reaction ramp, and with 1 in a host ramp. In
the rest of a beat in which the bridge sealed by itself, or a reaction fell, it completes with SAFETY_REFUSED and no
bridge changes. A target of 1 to 4 other than the mode that the transition table does not admit is WRONG_MODE, which
LAST_REFUSE shows, and the mode stays (from mode 2 on the command is authenticated). -/
def Obligations.SetModeSeals : Prop :=
  (∀ (h : Hdr) (b : Nat) (s : State), b < 4 → cmdReady (.getMode h b) s = true →
    exec (.getMode h b) s = .next (answer (.getMode h b) stDone
      (le 1 (modeOf s b) ++ le 1 (stepOf s b) ++ le 1 (s.rd R.BR_REASON.SEAL_REASON b)) s)) ∧
  (∀ (h : Hdr) (b style : Nat) (s : State), b < 4 → style < 2 → cmdReady (.setMode h b 0 style) s = true →
    (s.now < (s.br b).refuseTill → ∃ t, exec (.setMode h b 0 style) s = .next (answer (.setMode h b 0 style) stSafetyRefused []
        (refusedBy (.setMode h b 0 style) stSafetyRefused t)) ∧ t.bridges = s.bridges ∧ modeOf t b = modeOf s b) ∧
    (∀ r, (s.br b).refuseTill ≤ s.now → modeOf s b ≠ 0 → (s.br b).ramp = some r → r.reason < 32 →
      ∃ t, exec (.setMode h b 0 style) s = .next (answer (.setMode h b 0 style) stDone [0, 0] t) ∧ modeOf t b = 0 ∧
        t.rd R.BR_REASON.SEAL_REASON b = (if r.kind = 2 then 4 else if r.kind = 1 ∨ r.latch = true then r.reason else 1) ∧
        (r.kind = 1 ∨ r.latch = true → t.rd R.BR_STATUS.LATCHED b = 1)) ∧
    ((s.br b).refuseTill ≤ s.now → modeOf s b ≠ 0 → (s.br b).ramp = none → (style = 0 ∨ stepOf s b ≠ 0 ∨ modeOf s b = 5) →
      exec (.setMode h b 0 style) s = .next (answer (.setMode h b 0 style) stDone [0, 0]
        (sealBridge b { reason := 1, auto := false } s)) ∧
      modeOf (sealBridge b { reason := 1, auto := false } s) b = 0) ∧
    ((s.br b).refuseTill ≤ s.now → modeOf s b ≠ 0 → modeOf s b ≠ 5 → (s.br b).ramp = none → style = 1 → stepOf s b = 0 →
      ∃ t, exec (.setMode h b 0 style) s = .next (answer (.setMode h b 0 style) stAccepted (le 1 (modeOf s b) ++ [6]) t) ∧
        modeOf t b = modeOf s b ∧ stepOf t b = 6 ∧
        (t.br b).ramp = some ⟨0, if (s.br b).placed.isSome then none else some s.now, s.rd R.BR_TIMES.RAMP_MS b * tMs, 2, false⟩ ∧
        t.host = { s.host with running := s.host.running ++ [⟨0x0201, h.seq, b⟩] } ∧
        t.sill = { s.sill with kons := t.sill.kons } ∧
        OnlyRegs { s with host := t.host, bridges := t.bridges, sill := t.sill } t [A.BR_STATUS + 0x400 * b]) ∧
    ((s.br b).refuseTill ≤ s.now → modeOf s b = 0 →
      exec (.setMode h b 0 style) s = .next (answer (.setMode h b 0 style) stDone (le 1 0 ++ le 1 (stepOf s b)) s))) ∧
  (∀ (h : Hdr) (b m : Nat) (s : State), b < 4 → 1 ≤ m → m ≤ 4 → cfgOk s b = true → s.rd R.ID_STATUS.OPT_SRC ≠ 3 →
    s.flag R.ID_STATUS.MIN_SERVICE = false → (s.br b).refuseTill ≤ s.now → modeOf s b ≠ m → modeOf s b ≠ 0 →
    (m = 1 → cmdReady (.setMode h b m 0) s = true →
      ∃ t, exec (.setMode h b m 0) s = .next (answer (.setMode h b m 0) stWrongMode []
        (refusedBy (.setMode h b m 0) stWrongMode t)) ∧ modeOf t b = modeOf s b ∧ t.bridges = s.bridges ∧
        t.rd R.BR_REASON.LAST_REFUSE b = stWrongMode) ∧
    (2 ≤ m → cmdAuth (.setMode h b m 0) .any s = true →
      ∃ t, exec (.setMode h b m 0) s = .next (signed (.setMode h b m 0) stWrongMode [] s
        (refusedBy (.setMode h b m 0) stWrongMode t)) ∧ modeOf t b = modeOf s b ∧ t.bridges = s.bridges ∧
        t.rd R.BR_REASON.LAST_REFUSE b = stWrongMode))

/-- SET_MODE from SEALED enters SERVICE at STEP 0 and a working mode at its first step. When it is taken and its checks
pass on a SEALED bridge with a valid configuration: SERVICE is answered DONE with MODE 1 and STEP 0, and the bridge
stands there; a target of 2, 3 or 4, authenticated, whose Shutter test and placement succeed, is answered ACCEPTED
under a tag with that mode and its first step (1, 2 or 5), the command runs on the bridge, and the graph is placed on
it. An entry condition of R32 that fails refuses SERVICE with SAFETY_REFUSED and leaves the bridge SEALED. In SERVICE
the current ceiling is 0.1 pu, held as 0x333 (log entry 90), and in a working mode it is none. -/
def Obligations.SetModeEnters : Prop :=
  ∀ (h : Hdr) (b : Nat) (s : State), b < 4 → cfgOk s b = true → s.rd R.ID_STATUS.OPT_SRC ≠ 3 →
    s.flag R.ID_STATUS.MIN_SERVICE = false → modeOf s b = 0 → s.flag R.RS_STATUS.SHUTDOWN = false → stepOf s b = 0 →
    (s.br b).refuseTill ≤ s.now →
    (cmdReady (.setMode h b 1 0) s = true → 1 ≤ kindOf s b → kindOf s b ≤ 3 → entryOk s b 1 = true →
      ∃ t, exec (.setMode h b 1 0) s = .next (answer (.setMode h b 1 0) stDone [1, 0] t) ∧ modeOf t b = 1 ∧ stepOf t b = 0 ∧
        (t.br b).ceiling = some 0x333) ∧
    (cmdReady (.setMode h b 1 0) s = true → 1 ≤ kindOf s b → kindOf s b ≤ 3 → entryOk s b 1 = false →
      ∃ t, exec (.setMode h b 1 0) s = .next (answer (.setMode h b 1 0) stSafetyRefused []
        (refusedBy (.setMode h b 1 0) stSafetyRefused t)) ∧ modeOf t b = 0 ∧ t.bridges = s.bridges) ∧
    (∀ m g a, 2 ≤ m → m ≤ 4 → cmdAuth (.setMode h b m 0) .any s = true → kindPermits (kindOf s b) m = true →
      entryOk (used (.setMode h b m 0) s) b m = true → shutterTest (used (.setMode h b m 0) s) b = true →
      checkEleven (shutterPasses b (used (.setMode h b m 0) s)) b m = .ok (g, a) →
      ∃ t, exec (.setMode h b m 0) s = .next (signed (.setMode h b m 0) stAccepted (le 1 m ++ le 1 (firstStep m)) s t) ∧
        modeOf t b = m ∧ stepOf t b = firstStep m ∧ isRunning t 0x0201 b = true ∧ ((t.br b).placed.map (fun p => p.graph)) = some g ∧ (t.br b).ceiling = none)

/-- The steps of traction, grid forming and blackstart follow one another at beat boundaries and end in STEP 0. Where the
end condition of its step does not hold, STEP_ADVANCE changes nothing. Where it holds, the step of a bridge with a
placed graph ends with this beat: STEP_ADVANCE marks that and changes nothing else; with no graph placed the next step
begins at once. The end of the wait drawn for BUS_CHECK, and 200 ms of in-band HOLD, end their step in the same way,
at their time. The beat boundary, at which BEAT_INPUT_POINT settles the step, takes a bridge whose step is marked as
ended, or whose end condition holds, in TRACTION from CONTACTOR to STEP 0; in BLACKSTART from BUS_CHECK to CONTACTOR,
to RAMP, to HOLD, and from HOLD to FORMING at STEP 0; in FORMING from SYNC to CONTACTOR and to STEP 0. Arriving at
STEP 0 ends the SET_MODE that runs with RESULT 1. -/
def Obligations.StepsFollowTheTable : Prop :=
  (∀ (b : Nat) (s : State), b < 4 →
    (stepEnds s b = false → exec (.stepAdvance b) s = .next s) ∧
    (stepEnds s b = true → (s.br b).placed.isSome = true →
      exec (.stepAdvance b) s = .next (s.setBr b { s.br b with stepOver := true })) ∧
    (stepEnds s b = true → (s.br b).placed = none →
      ∃ t, exec (.stepAdvance b) s = .next t ∧ t = settleStep b s ∧ t.now = s.now) ∧
    (modeOf s b = 3 → stepOf s b = 2 →
      ((s.br b).placed.isSome = true → exec (.busCheckWaitExpiry b) s =
        .next ({ s with now := max s.now (s.br b).due }.setBr b { s.br b with stepOver := true })) ∧
      ((s.br b).placed = none →
        ∃ t, exec (.busCheckWaitExpiry b) s = .next t ∧ modeOf t b = 3 ∧ stepOf t b = 1 ∧ (t.br b).due = 0 ∧
          t.now = max s.now (s.br b).due)) ∧
    (∀ t0, modeOf s b = 3 → stepOf s b = 4 → (s.br b).inBand = true → (s.br b).holdAt = some t0 →
      ((s.br b).placed.isSome = true → exec (.holdTimerExpiry b) s =
        .next ({ s with now := max s.now (t0 + 200 * tMs) }.setBr b { s.br b with stepOver := true })) ∧
      ((s.br b).placed = none →
        ∃ t, exec (.holdTimerExpiry b) s = .next t ∧ modeOf t b = 4 ∧ stepOf t b = 0 ∧
          t.now = max s.now (t0 + 200 * tMs)))) ∧
  (∀ (b : Nat) (s t : State), b < 4 → (s.br b).stepOver = true ∨ stepEnds s b = true → t = settleStep b s →
    t.now = s.now ∧
    (modeOf s b = 2 → stepOf s b = 1 → modeOf t b = 2 ∧ stepOf t b = 0 ∧ (isRunning s 0x0201 b = true → t.rd R.VG_ASYNC.RESULT = 1)) ∧
    (modeOf s b = 3 → stepOf s b = 2 → modeOf t b = 3 ∧ stepOf t b = 1) ∧
    (modeOf s b = 3 → stepOf s b = 1 → modeOf t b = 3 ∧ stepOf t b = 3) ∧
    (modeOf s b = 3 → stepOf s b = 3 → modeOf t b = 3 ∧ stepOf t b = 4 ∧ (t.br b).holdAt = none) ∧
    (modeOf s b = 3 → stepOf s b = 4 → modeOf t b = 4 ∧ stepOf t b = 0 ∧ (isRunning s 0x0201 b = true → t.rd R.VG_ASYNC.RESULT = 1)) ∧
    (modeOf s b = 4 → stepOf s b = 5 → modeOf t b = 4 ∧ stepOf t b = 1) ∧
    (modeOf s b = 4 → stepOf s b = 1 → modeOf t b = 4 ∧ stepOf t b = 0 ∧ (isRunning s 0x0201 b = true → t.rd R.VG_ASYNC.RESULT = 1)))

/-- A step that does not end in its time seals the bridge, and so does the end of a ramp. For a bridge outside SEALED, at
the time its rule gives. A step whose time has run out (CONTACTOR after KON_WAIT, reason 12; SYNC after SYNC_TO,
reason 10; RAMP or HOLD of a blackstart after RAMP_T and BS_TO, reason 9): with a graph placed the end of that beat
decides, and the bridge seals with that reason at the beat boundary unless the step has ended in the beat; with no
graph placed it seals at once unless the end condition holds. In SYNC the end of KON_WAIT changes nothing but the
time, and the strobes from then on judge whether the motor is isolated (reason 12). The end of a ramp seals with the
reason of the ramp; the Sill monitor's own SS1-t timer seals with reason 4. -/
def Obligations.StepTimeoutsSeal : Prop :=
  ∀ (b : Nat) (s : State), b < 4 → modeOf s b ≠ 0 →
    (stepOf s b = 1 → (s.br b).placed = none → konAgrees s b = false →
      ∃ t, exec (.konWaitExpiry b) s = .next t ∧ modeOf t b = 0 ∧ t.rd R.BR_REASON.SEAL_REASON b = 12 ∧ t.now = max s.now (konWaitEnd s b)) ∧
    (stepOf s b = 1 → (s.br b).placed = none → konAgrees s b = true →
      exec (.konWaitExpiry b) s = .next { s with now := max s.now (konWaitEnd s b) }) ∧
    (stepOf s b = 1 → (s.br b).placed.isSome = true →
      exec (.konWaitExpiry b) s =
        .next ({ s with now := max s.now (konWaitEnd s b) }.setBr b { s.br b with failDue := some 12 })) ∧
    (modeOf s b = 4 → stepOf s b = 5 →
      exec (.konWaitExpiry b) s = .next { s with now := max s.now (konWaitEnd s b) }) ∧
    (∀ e, modeOf s b = 4 → stepOf s b = 5 → konWaitEnd s b ≤ s.now → motorIsolated s b = false →
      modeOf (strobe b e s) b = 0 ∧ (strobe b e s).rd R.BR_REASON.SEAL_REASON b = 12) ∧
    (∀ t0, modeOf s b = 3 → stepOf s b = 3 ∨ stepOf s b = 4 → (s.br b).rampAt = some t0 →
      ((s.br b).placed = none → (s.br b).inBand = false →
        ∃ t, exec (.blackstartTimeout b) s = .next t ∧ modeOf t b = 0 ∧ t.rd R.BR_REASON.SEAL_REASON b = 9 ∧
          t.now = max s.now (t0 + s.rd R.GF_CFG.RAMP_T b * 10 * tMs + s.rd R.BR_TIMES.BS_TO b * tSec)) ∧
      ((s.br b).placed.isSome = true → exec (.blackstartTimeout b) s = .next
        ({ s with now := max s.now (t0 + s.rd R.GF_CFG.RAMP_T b * 10 * tMs + s.rd R.BR_TIMES.BS_TO b * tSec) }.setBr b
          { s.br b with failDue := some 9 }))) ∧
    (modeOf s b = 4 → stepOf s b = 5 → (s.br b).placed = none → (s.br b).syncOk = false →
      ∃ t, exec (.syncTimeout b) s = .next t ∧ modeOf t b = 0 ∧ t.rd R.BR_REASON.SEAL_REASON b = 10 ∧
        t.now = max s.now ((s.br b).stepAt + s.rd R.BR_TIMES.SYNC_TO b * tSec)) ∧
    (modeOf s b = 4 → stepOf s b = 5 → (s.br b).placed.isSome = true →
      exec (.syncTimeout b) s = .next
        ({ s with now := max s.now ((s.br b).stepAt + s.rd R.BR_TIMES.SYNC_TO b * tSec) }.setBr b
          { s.br b with failDue := some 10 })) ∧
    (∀ r, (s.br b).failDue = some r → r < 32 → (s.br b).stepOver = false → stepEnds s b = false →
      modeOf (settleStep b s) b = 0 ∧ (settleStep b s).rd R.BR_REASON.SEAL_REASON b = r) ∧
    (∀ (r : Ramp) (t0 : Nat), (s.br b).ramp = some r → r.tr = some t0 → r.reason < 32 →
      ∃ t, exec (.rampEnd b) s = .next t ∧ modeOf t b = 0 ∧ t.rd R.BR_REASON.SEAL_REASON b = r.reason ∧
        t.now = max s.now (t0 + r.len)) ∧
    (∀ t0, (s.br b).sillDue = some t0 →
      ∃ t, exec (.ss1SillTimeout b) s = .next t ∧ modeOf t b = 0 ∧ t.rd R.BR_REASON.SEAL_REASON b = 4 ∧ t.now = max s.now t0)

/-- Encoder edges count by their direction, short and double edges are errors, and pulse inputs measure their period. For
an encoder that one bridge owns: a change of A alone or of B alone that has been stable for the filter counts one up
or down by the order of the inputs and DIR, and is a rate error where the last edge lies less than 20 ticks back; one
stable for less counts LOST and leaves the count and the levels; a change of both, and an edge of the other input in
the tick of the last one, counts ILLEGAL and leaves the count as before both, and is the last accepted edge; levels
that do not change do nothing; an index counts, and is remembered in every Z_MODE. An encoder that no bridge owns
takes its levels and counts nothing. For an owned pulse input, a stable rise after a fall after a rise stores the
period between the rises and the high time; a stable fall stores its instant; an unstable edge counts LOST; a level
that does not change does nothing. An input that no bridge owns takes its level, and no period spans that time. -/
def Obligations.TractionEdgesCounted : Prop :=
  (∀ (e b : Nat) (s : State), b < 4 → encOwner s e = some b →
    (∀ lv st, lv % 8 = (s.enc e).lvl → exec (.encoderEdge e lv st) s = .next s) ∧
    (∀ lv st, lv % 8 ≠ (s.enc e).lvl → st < s.rd R.TR_ENC_CFG.FILT b →
      exec (.encoderEdge e lv st) s = .next ((s.setEnc e { s.enc e with lost := true }).countUp R.TR_ENC_CNT.LOST b)) ∧
    (∀ lv st, s.rd R.TR_ENC_CFG.FILT b ≤ st → bitAt (lv % 8 ^^^ (s.enc e).lvl) 0 ≠ bitAt (lv % 8 ^^^ (s.enc e).lvl) 1 →
      bitAt (lv % 8 ^^^ (s.enc e).lvl) 2 = false →
      (encTogether s.now (bitAt (lv % 8 ^^^ (s.enc e).lvl) 0) (s.enc e) = none →
        ∃ t, exec (.encoderEdge e lv st) s = .next t ∧ (t.enc e).lvl = lv % 8 ∧
          (t.enc e).count = (s.enc e).count +
            (if encUp (lv % 8) (bitAt (lv % 8 ^^^ (s.enc e).lvl) 0) != s.flag R.TR_ENC_OFS.DIR b then 1 else -1) ∧
          (t.enc e).last = some ((t.enc e).count, s.now) ∧ t = { s with encs := t.encs, regs := t.regs } ∧
          (∀ c0 t0, (s.enc e).last = some (c0, t0) → s.now < t0 + 20 →
            (t.enc e).rate = true ∧ t.regs = (s.countUp R.TR_ENC_CNT.RATE_ERR b).regs) ∧
          ((∀ c0 t0, (s.enc e).last = some (c0, t0) → t0 + 20 ≤ s.now) → t.regs = s.regs)) ∧
      (∀ d, encTogether s.now (bitAt (lv % 8 ^^^ (s.enc e).lvl) 0) (s.enc e) = some d →
        exec (.encoderEdge e lv st) s = .next ((s.setEnc e { s.enc e with
          lvl := lv % 8, count := (s.enc e).count - d, last := some ((s.enc e).count - d, s.now), prev := none,
          illegal := true, fresh := true }).countUp R.TR_ENC_CNT.ILLEGAL b))) ∧
    (∀ lv st, s.rd R.TR_ENC_CFG.FILT b ≤ st → bitAt (lv % 8 ^^^ (s.enc e).lvl) 0 = true → bitAt (lv % 8 ^^^ (s.enc e).lvl) 1 = true →
      bitAt (lv % 8 ^^^ (s.enc e).lvl) 2 = false →
      ∃ t, exec (.encoderEdge e lv st) s = .next t ∧ (t.enc e).lvl = lv % 8 ∧ (t.enc e).count = (s.enc e).count ∧
        (t.enc e).illegal = true ∧ (t.enc e).last = some ((s.enc e).count, s.now) ∧
        t.rd R.TR_ENC_CNT.ILLEGAL b = (s.countUp R.TR_ENC_CNT.ILLEGAL b).rd R.TR_ENC_CNT.ILLEGAL b ∧
        t = { s with encs := t.encs, regs := t.regs }) ∧
    (∀ lv st, s.rd R.TR_ENC_CFG.FILT b ≤ st → lv % 8 ^^^ (s.enc e).lvl = 4 → bitAt lv 2 = true →
      ∃ t, exec (.encoderEdge e lv st) s = .next t ∧ (t.enc e).index = ((s.enc e).index + 1) % 65536 ∧ (t.enc e).ref = true ∧
        (s.rd R.TR_ENC_OFS.Z_MODE b = 0 → (t.enc e).count = (s.enc e).count) ∧
        (s.rd R.TR_ENC_OFS.Z_MODE b ≠ 0 → (s.enc e).ref = false → (t.enc e).count = 0))) ∧
  (∀ (e lv st : Nat) (s : State), e < 4 → encOwner s e = none →
    exec (.encoderEdge e lv st) s = .next (s.setEnc e { s.enc e with lvl := lv % 8 })) ∧
  (∀ (p : Nat) (s : State),
    (∀ hi st, p < 4 → pulseOwner s p = none →
      exec (.pulseInputEdge p hi st) s = .next (s.setPul p { s.pul p with lvl := hi, rise := none, fall := none })) ∧
    (∀ c, c < 4 → pulseOwner s p = some c →
      (∀ hi st, (s.pul p).lvl = hi → exec (.pulseInputEdge p hi st) s = .next s) ∧
      (∀ hi st, (s.pul p).lvl ≠ hi → st < s.rd R.TR_PULSE_CFG.FILT c →
        exec (.pulseInputEdge p hi st) s = .next (s.countUp R.TR_ENC_CNT.LOST c)) ∧
      (∀ st r f, (s.pul p).lvl = false → s.rd R.TR_PULSE_CFG.FILT c ≤ st → (s.pul p).rise = some r → (s.pul p).fall = some f → r ≤ f →
        exec (.pulseInputEdge p true st) s = .next (s.setPul p ⟨true, some s.now, some f, some (s.now - r, f - r)⟩)) ∧
      (∀ st, (s.pul p).lvl = true → s.rd R.TR_PULSE_CFG.FILT c ≤ st →
        exec (.pulseInputEdge p false st) s = .next (s.setPul p { s.pul p with lvl := false, fall := some s.now }))))

/-- GRAPH_BEGIN empties the staging buffer and GRAPH_DATA fills it in order until it is complete. A taken GRAPH_BEGIN with
a length from 216 to 524,288, while no store is being written, is answered DONE: the length is declared, the buffer is
empty, STATE is 1 and FILL 0. A taken GRAPH_DATA in STATE 1 whose offset is FILL and whose data fit appends them, FILL
counts them, and STATE becomes 2 exactly when the declared length is reached. A wrong offset is BAD_PARAM and changes
nothing but VG_ERR. -/
def Obligations.GraphStaging : Prop :=
  ∀ (h : Hdr) (s : State),
    (∀ n, cmdReady (.graphBegin h n) s = true → 216 ≤ n → n ≤ 524288 → stageState s ≠ 5 →
      ∃ t, exec (.graphBegin h n) s = .next (answer (.graphBegin h n) stDone [] t) ∧
        t.graphs = { s.graphs with declared := n, staged := [] } ∧ stageState t = 1 ∧ t.rd R.GR_FILL.FILL = 0 ∧
        OnlyRegs { s with graphs := t.graphs } t [A.GR_STAGE, A.GR_FILL]) ∧
    (∀ o d, cmdReady (.graphData h o d) s = true → stageState s = 1 → o = s.graphs.staged.length →
      o + d.length ≤ s.graphs.declared → o + d.length < 2 ^ R.GR_FILL.FILL.width →
      ∃ t, exec (.graphData h o d) s = .next (answer (.graphData h o d) stDone [] t) ∧
        t.graphs = { s.graphs with staged := s.graphs.staged ++ d } ∧ t.rd R.GR_FILL.FILL = o + d.length ∧
        stageState t = (if o + d.length = s.graphs.declared then 2 else 1) ∧
        OnlyRegs { s with graphs := t.graphs } t [A.GR_STAGE, A.GR_FILL]) ∧
    (∀ o d, cmdReady (.graphData h o d) s = true → stageState s = 1 → o ≠ s.graphs.staged.length →
      exec (.graphData h o d) s = .next (answer (.graphData h o d) stBadParam [] (refusedBy (.graphData h o d) stBadParam s)))

/-- GRAPH_CHECK records the first failing check, and GRAPH_LOAD installs the selected graphs, swaps them, or changes no
graph. With a complete image staged, a taken GRAPH_CHECK is answered DONE, leaves STATE 3 and GRAPH_ERR 0 where every
check passes; otherwise it is answered with the status of the first failing check, leaves STATE 4, and records its
code; it loads nothing. With a complete image staged, a taken and authenticated GRAPH_LOAD in full style whose checks
pass, with a graph for every bridge of its mask and every one of them SEALED, is answered DONE and installs for each a
graph of the image with IMAGE_OK 1. In swap style, with every bridge of the mask where R74 admits it, the graphs come
into image RAM likewise: a bridge with no graph placed counts the swap at once, and if that holds of all the answer is
DONE; a load of one bridge with a graph placed leaves the swap waiting for its next input point, and holds the reply
back until then. Where a check fails either style is answered with that status and no bridge's graph changes. -/
def Obligations.GraphChecksAndLoads : Prop :=
  (∀ (h : Hdr) (s : State), cmdReady (.graphCheck h) s = true → stageReady s = true →
    ((imageErr s s.graphs.staged <|> selErr s (sections s.graphs.staged) false) = none →
      ∃ t, exec (.graphCheck h) s = .next (answer (.graphCheck h) stDone [] t) ∧ stageState t = 3 ∧
        t.rd R.GR_STAGE.GRAPH_ERR = 0 ∧ OnlyRegs s t [A.GR_STAGE]) ∧
    (∀ e, (imageErr s s.graphs.staged <|> selErr s (sections s.graphs.staged) false) = some e → e.status ≠ stDone → e.status ≠ stAccepted →
      ∃ t, exec (.graphCheck h) s = .next (answer (.graphCheck h) e.status [] (refusedBy (.graphCheck h) e.status t)) ∧ stageState t = 4 ∧
        t.rd R.GR_STAGE.GRAPH_ERR = e.code % 2 ^ R.GR_STAGE.GRAPH_ERR.width ∧ OnlyRegs s t [A.GR_STAGE])) ∧
  (∀ (h : Hdr) (mask style : Nat) (s u : State), cmdAuth (.graphLoad h mask style) .any s = true → stageReady s = true →
    0 < mask → mask < 16 → style < 2 → u = used (.graphLoad h mask style) s →
    (∀ e, (imageErr u s.graphs.staged <|> selErr u ((sections s.graphs.staged).filter (fun x => bitAt mask x.g.bridge)) (style == 1)) = some e →
      ∃ t, exec (.graphLoad h mask style) s = .next (signed (.graphLoad h mask style) e.status [] s t) ∧ t.bridges = s.bridges) ∧
    ((imageErr u s.graphs.staged <|> selErr u ((sections s.graphs.staged).filter (fun x => bitAt mask x.g.bridge)) (style == 1)) = none →
      (maskBits 4 mask).all (fun b => (sections s.graphs.staged).any (fun x => x.g.bridge = b)) = true →
      (style = 0 → (∀ b, bitAt mask b = true → modeOf s b = 0) →
        ∃ t, exec (.graphLoad h mask 0) s = .next (signed (.graphLoad h mask 0) stDone [] s t) ∧
          ∀ x ∈ sections s.graphs.staged, bitAt mask x.g.bridge = true → t.rd R.BR_STATUS.IMAGE_OK x.g.bridge = 1 ∧
            ∃ y ∈ sections s.graphs.staged, y.g.bridge = x.g.bridge ∧
              (t.br x.g.bridge).ram = some ⟨y.bytes, graphDigest y.bytes, structDigest y.bytes, false⟩) ∧
      (style = 1 → (∀ b, bitAt mask b = true → swapMode s b = true ∧ (s.br b).placed = none) →
        ∃ t, exec (.graphLoad h mask 1) s = .next (signed (.graphLoad h mask 1) stDone [] s t) ∧
          ∀ x ∈ sections s.graphs.staged, bitAt mask x.g.bridge = true → t.rd R.BR_STATUS.IMAGE_OK x.g.bridge = 1 ∧
            ∃ y ∈ sections s.graphs.staged, y.g.bridge = x.g.bridge ∧
              (t.br x.g.bridge).ram = some ⟨y.bytes, graphDigest y.bytes, structDigest y.bytes, false⟩) ∧
      (∀ (b : Nat) (p : Placed), style = 1 → b < 4 → mask = 2 ^ b → swapMode s b = true → (s.br b).placed = some p →
        ∃ t, exec (.graphLoad h mask 1) s = .next t ∧ bitAt t.host.heldMask b = true ∧ t.host.held.isSome = true ∧
          modeOf t b = modeOf s b ∧
          ∃ x ∈ sections s.graphs.staged, x.g.bridge = b ∧ (t.br b).placed = some { p with swap := some x.g } ∧
            (t.br b).ram = some ⟨x.bytes, graphDigest x.bytes, structDigest x.bytes, false⟩)))

/-- GRAPH_STORE, its end, GRAPH_START, GRAPH_UNLOAD and GRAPH_INFO. With an image that passes checks 1 to 8 staged, an
authenticated GRAPH_STORE is answered ACCEPTED, STATE is 5, and the command runs; where a check fails it is answered
with its status and nothing is stored. Its end puts the image into the slot with SLOTn_OK 1, or leaves the slot empty
where the write failed, and STATE as it was before; while another flash operation goes first it has not ended. An
authenticated GRAPH_START takes the slot as START_SLOT, in the option copy in force and the retained image too.
GRAPH_UNLOAD of a SEALED bridge leaves no graph loaded with IMAGE_OK 0, and touches no other bridge. GRAPH_INFO
answers the image ID and both digests, or zeros where no graph is loaded, and changes nothing. -/
def Obligations.GraphStoreAndUnload : Prop :=
  ∀ (h : Hdr) (s : State),
    (∀ n, cmdAuth (.graphStore h n) .any s = true → n < 2 → stageReady s = true →
      (imageErr (used (.graphStore h n) s) s.graphs.staged = none →
        ∃ t, exec (.graphStore h n) s = .next (signed (.graphStore h n) stAccepted [] s t) ∧ stageState t = 5 ∧
          t.graphs = { s.graphs with storing := some (n, stageState s) } ∧ isRunning t 0x0305 0 = true) ∧
      (∀ e, imageErr (used (.graphStore h n) s) s.graphs.staged = some e →
        ∃ t, exec (.graphStore h n) s = .next (signed (.graphStore h n) e.status [] s t) ∧ t.graphs = s.graphs)) ∧
    (∀ ok, flashNow s ≠ some 5 → exec (.graphStoreDone ok) s = .next s) ∧
    (∀ n st ok, s.graphs.storing = some (n, st) → flashNow s = some 5 → n < 2 → st < 8 →
      ∃ t, exec (.graphStoreDone ok) s = .next t ∧ t.graphs.storing = none ∧ stageState t = st ∧
        slotImage t n = (if ok then some s.graphs.staged else none) ∧ slotImage t (1 - n) = slotImage s (1 - n) ∧
        t.rd (if n = 0 then R.GR_STORE.SLOT0_OK else R.GR_STORE.SLOT1_OK) = b2n ok ∧ t.bridges = s.bridges) ∧
    (∀ n, cmdAuth (.graphStart h n) .any s = true → n ≤ 2 → s.rd R.ID_STATUS.OPT_SRC ≠ 3 → s.rst.optRun = none →
      ∃ t, exec (.graphStart h n) s = .next (signed (.graphStart h n) stDone [] s t) ∧ t.rd R.GR_STORE.START_SLOT = n ∧
        t.rst.retained = s.rst.retained.map (withStartSlot n) ∧
        (∀ k, chosenCopy s = some k → t.optCopy k = withStartSlot n (s.optCopy k)) ∧
        t.bridges = s.bridges ∧ t.graphs = s.graphs) ∧
    (∀ b, cmdReady (.graphUnload h b) s = true → b < 4 → modeOf s b = 0 →
      ∃ t, exec (.graphUnload h b) s = .next (answer (.graphUnload h b) stDone [] t) ∧ (t.br b).ram = none ∧
        t.rd R.BR_STATUS.IMAGE_OK b = 0 ∧ t.rd R.GR_ID.IMAGE_ID b = 0 ∧ modeOf t b = 0 ∧
        (∀ c, c < 4 → c ≠ b → t.br c = s.br c ∧ t.rd R.BR_STATUS.IMAGE_OK c = s.rd R.BR_STATUS.IMAGE_OK c)) ∧
    (∀ b, cmdReady (.graphInfo h b) s = true → b < 4 →
      (∀ r, (s.br b).ram = some r → imageOk s b = true → exec (.graphInfo h b) s = .next (answer (.graphInfo h b) stDone
        (le 4 (s.rd R.GR_ID.IMAGE_ID b) ++ padTo 32 r.gdig ++ padTo 32 r.sdig) s)) ∧
      ((s.br b).ram = none ∨ imageOk s b = false → exec (.graphInfo h b) s = .next (answer (.graphInfo h b) stDone (List.replicate 68 0) s)))

/-- A swap takes parameters and bases at one input point, and a verify compares image RAM with its digest. PARAMETER_SWAP
on a bridge with a swap waiting puts its graph in force, keeps the states of the blocks and the engines, and counts
SWAPS; the bridge no longer waits. GRAPH_VERIFY of a bridge with a loaded graph whose image RAM matches its digest,
with no graph placed, is answered 0 and changes nothing; where image RAM differs it is answered 2, IMAGE_OK falls and
the bridge is SEALED. The periodic verify, with the control parts up, does nothing where no bridge has a graph, and
otherwise compares every loaded graph in the same way. With a graph placed, a copy that differs has its engine named
for evacuation with cause 4 and is answered 1; where nothing differs the answer is 0 and nothing changes. -/
def Obligations.GraphSwapAndVerify : Prop :=
  ∀ (b : Nat) (s : State), b < 4 →
    (∀ p g, (s.br b).placed = some p → p.swap = some g →
      ∃ t, exec (.parameterSwap b) s = .next t ∧ ((t.br b).placed = some { p with graph := g, swap := none }) ∧
        t.rd R.GR_EVENTS.SWAPS b = min (2 ^ R.GR_EVENTS.SWAPS.width - 1) (s.rd R.GR_EVENTS.SWAPS b + 1) ∧
        bitAt t.host.heldMask b = false ∧ modeOf t b = modeOf s b ∧ t.board = s.board) ∧
    (∀ (h : Hdr) (r : RamGraph), cmdReady (.graphVerify h b) s = true → imageOk s b = true → (s.br b).ram = some r →
      (s.br b).placed = none →
      (ramDiffers r = false → exec (.graphVerify h b) s = .next (answer (.graphVerify h b) stDone [0] s)) ∧
      (ramDiffers r = true →
        ∃ t, exec (.graphVerify h b) s = .next (answer (.graphVerify h b) stDone [2] t) ∧ t.rd R.BR_STATUS.IMAGE_OK b = 0 ∧
          modeOf t b = 0)) ∧
    ((∀ c, c < 4 → (s.br c).ram = none ∨ imageOk s c = false) → exec .graphVerifyPeriodic s = .next s) ∧
    (∀ r, controlUp s = true → (s.br b).ram = some r → imageOk s b = true → ramDiffers r = true →
      (∀ c, c < 4 → (s.br c).placed = none) →
      ∃ t, exec .graphVerifyPeriodic s = .next t ∧ t.rd R.BR_STATUS.IMAGE_OK b = 0 ∧ modeOf t b = 0) ∧
    (∀ (h : Hdr) (r : RamGraph) (p : Placed), cmdReady (.graphVerify h b) s = true → imageOk s b = true → (s.br b).ram = some r →
      (s.br b).placed = some p → ramDiffers r = false → p.evacs = [] →
      (badEngines p r = [] → exec (.graphVerify h b) s = .next (answer (.graphVerify h b) stDone [0] s)) ∧
      (∀ e, badEngines p r = [e] → s.rd R.EN_STATUS.STATE e = 1 → s.rd R.EN_STATUS.OWNER e = b →
        ∃ t, exec (.graphVerify h b) s = .next (answer (.graphVerify h b) stDone [1] t) ∧ modeOf t b = modeOf s b ∧ t.now = s.now ∧
          t.rd R.EN_COUNT.ECC_UNC e = min (2 ^ R.EN_COUNT.ECC_UNC.width - 1) (s.rd R.EN_COUNT.ECC_UNC e + 1) ∧
          ∃ q, (t.br b).placed = some q ∧ q.evacs = [⟨e, 0xFFFF, false, true, 4, evacTarget s p e⟩]))

/-- The counter, key load, revoke and key information commands, and their ends. GET_COUNTER answers the counter of the
slot; KEY_INFO its STATE and USE; both change nothing. An authenticated COUNTER_RESYNC to a greater value below the
epoch limit, while no other counter record is being written, answers the value and sets the counter and its
checkpoint; while a record of rank 2 or 3 is being written it waits for its end, its reply held back. An authenticated
KEY_LOAD of a record that unwraps is ACCEPTED and runs. Its end makes the slot ACTIVE with the use, one generation up
and the new key, its counter at the epoch base, and sets KEY_EV; a failed write leaves the slot, and so does the end
on a slot REVOKED meanwhile (RESULT 2: the model's choice, log entry 117). An authenticated KEY_REVOKE that leaves
some ADMIN slot leaves the slot REVOKED, or waits, its reply held back, for a write of the slot's checkpoint that
runs, as the reply of a KEY_LOAD does. The end of a counter checkpoint leaves each CP of the record as written, and
the slots whose revocation waited REVOKED; neither it nor the end of a KEY_LOAD comes while a write it must follow is
still to end. -/
def Obligations.KeysAndCounters : Prop :=
  ∀ (h : Hdr) (s : State),
    (∀ k, cmdReady (.getCounter h k) s = true → k < 16 → exec (.getCounter h k) s = .next (answer (.getCounter h k) stDone
      (le 4 (s.rd R.SEC_CTR.C 0 k)) s)) ∧
    (∀ k, cmdReady (.keyInfo h k) s = true → k < 16 → exec (.keyInfo h k) s = .next (answer (.keyInfo h k) stDone
      (le 1 (s.rd R.SEC_SLOT.STATE 0 k) ++ le 1 (s.rd R.SEC_SLOT.USE 0 k)) s)) ∧
    (∀ k v, cmdAuth (.counterResync h k v) (.resync k) s = true → k < 16 → s.rd R.SEC_SLOT.STATE 0 k = 1 → hasCounter s k = true →
      (used (.counterResync h k v) s).rd R.SEC_CTR.C 0 k < v → v < epochLimit s → v < 2 ^ 32 →
      (used (.counterResync h k v) s).rd R.SEC_SLOT.STATE 0 k = 1 → (used (.counterResync h k v) s).sec.cpRun = none →
      s.sec.resync = none →
      (flashNow s ≠ some 2 → flashNow s ≠ some 3 →
        ∃ t, exec (.counterResync h k v) s = .next (signed (.counterResync h k v) stDone (le 4 v) s t) ∧
          t.rd R.SEC_CTR.C 0 k = v ∧ t.rd R.SEC_CP.CP 0 k = v ∧ t.bridges = s.bridges) ∧
      (flashNow s = some 2 ∨ flashNow s = some 3 →
        ∃ t, exec (.counterResync h k v) s = .next t ∧ t.sec.resync = some (k, v) ∧ bitAt t.host.heldMask 10 = true ∧
          t.host.held.isSome = true ∧ t.rd R.SEC_CP.CP 0 k = s.rd R.SEC_CP.CP 0 k)) ∧
    (∀ k rec key, cmdAuth (.keyLoad h k rec) .adminOnly s = true → keyRecordOk k rec = true → recordKey (authKey h s) rec = some key →
      (used (.keyLoad h k rec) s).rd R.SEC_SLOT.STATE 0 k ≠ 3 → s.rd R.SEC_SLOT.GEN 0 k < 4 → s.sec.load = none →
      (cpWrites k (used (.keyLoad h k rec) s) = true → ∃ t, exec (.keyLoad h k rec) s = .next t ∧ t.sec.load = some ⟨h.seq, k, byteAt rec 0, key⟩ ∧
        isRunning t 0x0803 0 = true ∧ bitAt t.host.heldMask 9 = true ∧ t.host.held.isSome = true) ∧
      (cpWrites k (used (.keyLoad h k rec) s) = false → ∃ t, exec (.keyLoad h k rec) s = .next (signed (.keyLoad h k rec) stAccepted [] s t) ∧
        t.sec.load = some ⟨h.seq, k, byteAt rec 0, key⟩ ∧ isRunning t 0x0803 0 = true)) ∧
    (∀ l ok, s.sec.load = some l → cpWrites l.slot s = true → exec (.keyLoadDone ok) s = .next s) ∧
    (∀ ok, flashNow s ≠ some 1 → exec (.counterCheckpointDone ok) s = .next s) ∧
    (∀ l, s.sec.load = some l → cpWrites l.slot s = false → l.slot < 15 → l.use < 8 → s.rd R.SEC_SLOT.GEN 0 l.slot < 4 →
      (s.rd R.SEC_SLOT.STATE 0 l.slot ≠ 3 → ∃ t, exec (.keyLoadDone true) s = .next t ∧ t.rd R.SEC_SLOT.STATE 0 l.slot = 1 ∧ t.rd R.SEC_SLOT.USE 0 l.slot = l.use ∧
        t.rd R.SEC_SLOT.GEN 0 l.slot = s.rd R.SEC_SLOT.GEN 0 l.slot + 1 ∧ slotKey t l.slot = l.key ∧ t.rd R.SEC_EVENT.KEY_EV = 1 ∧
        t.sec.load = none) ∧
      (∀ ok, ok = false ∨ s.rd R.SEC_SLOT.STATE 0 l.slot = 3 → ∃ t, exec (.keyLoadDone ok) s = .next t ∧ t.sec.load = none ∧
        t.sec.keys = s.sec.keys ∧ t.rd R.SEC_SLOT.STATE 0 l.slot = s.rd R.SEC_SLOT.STATE 0 l.slot ∧ t.rd R.SEC_EVENT.KEY_EV = 1 ∧
        (isRunning s 0x0803 0 = true → t.rd R.VG_ASYNC.RESULT = 2))) ∧
    (∀ k, cmdAuth (.keyRevoke h k) .adminOnly s = true → k < 15 →
      anyAdmin (used (.keyRevoke h k) s) ((List.range 15).filter (· ≠ k)) = true →
      (cpWrites k (used (.keyRevoke h k) s) = false → ∃ t, exec (.keyRevoke h k) s = .next (signed (.keyRevoke h k) stDone [] s t) ∧
        t.rd R.SEC_SLOT.STATE 0 k = 3 ∧ t.rd R.SEC_EVENT.KEY_EV = 1) ∧
      (cpWrites k (used (.keyRevoke h k) s) = true → ∃ t, exec (.keyRevoke h k) s = .next t ∧ k ∈ t.sec.revokes ∧
        bitAt t.host.heldMask 8 = true ∧ t.host.held.isSome = true ∧ t.rd R.SEC_SLOT.STATE 0 k = s.rd R.SEC_SLOT.STATE 0 k)) ∧
    (∀ k v, s.sec.cpRun = some [(k, v)] → flashNow s = some 1 → k < 16 → v < 2 ^ 32 →
      ∃ t, exec (.counterCheckpointDone true) s = .next t ∧ t.rd R.SEC_CP.CP 0 k = v ∧ t.rd R.SEC_CTR.C 0 k = s.rd R.SEC_CTR.C 0 k ∧
        t.sec.revokes = [] ∧ (∀ j ∈ s.sec.revokes, j < 15 → t.rd R.SEC_SLOT.STATE 0 j = 3))

/-- Firmware staging, commit and its end, firmware information, and random bytes. An authenticated FW_BEGIN of a length in
range with no commit under way declares it and empties the staging; FW_DATA at the end of the staged bytes appends; an
authenticated FW_COMMIT of a complete image with every bridge SEALED is ACCEPTED and runs. Its end, for a staged image
that verifies, puts it into the bank that does not run with STATE TRIAL; for one that does not, it records FW_ERR and
leaves both banks; a write that fails records 5 and leaves no new image. An authenticated FW_COMMIT with nothing
staged while the running bank is TRIAL confirms it (CONFIRMED, the other PREVIOUS) and is answered DONE. While another
flash operation goes first, an image that verifies waits. FW_INFO answers both banks and changes nothing. TRNG_READ of
1 to 64 bytes answers that many fresh random bytes while the generator is healthy. A failed health test, while the
system parts are up, leaves TRNG 2 and sets TRNG_FAIL_EV. -/
def Obligations.FirmwareAndRandom : Prop :=
  ∀ (h : Hdr) (s : State),
    (∀ n, cmdAuth (.fwBegin h n) .any s = true → 4096 ≤ n → n ≤ 4194304 → s.sec.commit = none →
      ∃ t, exec (.fwBegin h n) s = .next (signed (.fwBegin h n) stDone [] s t) ∧ t.sec.fwLen = some n ∧ t.sec.fwData = [] ∧
        t.bridges = s.bridges ∧ t.sec.keys = s.sec.keys) ∧
    (∀ n o d, cmdReady (.fwData h o d) s = true → s.sec.commit = none → s.sec.fwLen = some n → s.sec.fwData.length < n →
      o = s.sec.fwData.length → o + d.length ≤ n →
      exec (.fwData h o d) s = .next (answer (.fwData h o d) stDone [] { s with sec := { s.sec with fwData := s.sec.fwData ++ d } })) ∧
    (∀ n, cmdAuth (.fwCommit h) .any s = true → s.sec.commit = none → s.sec.fwLen = some n → n ≤ s.sec.fwData.length →
      allSealed s = true →
      ∃ t, exec (.fwCommit h) s = .next (signed (.fwCommit h) stAccepted [] s t) ∧ t.sec.commit = some h.seq ∧
        isRunning t 0x0808 0 = true ∧ t.sec.fwData = s.sec.fwData) ∧
    (cmdAuth (.fwCommit h) .any s = true → s.sec.commit = none → s.sec.fwLen = none → bankState s (bankRun s) = 2 →
      ∃ t, exec (.fwCommit h) s = .next (signed (.fwCommit h) stDone [] s t) ∧ bankState t (bankRun s) = 1 ∧
        bankState t (bankIdle s) = 3 ∧ t.sec.bankA = s.sec.bankA ∧ t.sec.bankB = s.sec.bankB) ∧
    (∀ q, s.sec.commit = some q →
      (fwError s s.sec.fwData = 0 → flashNow s ≠ some 4 → ∀ ok, exec (.fwCommitDone ok) s = .next s) ∧
      (fwError s s.sec.fwData = 0 → flashNow s = some 4 →
        ∃ t, exec (.fwCommitDone false) s = .next t ∧ t.sec.commit = none ∧ t.rd R.SEC_FW.FW_ERR = 5 ∧ t.sec.bankA = s.sec.bankA ∧
          t.sec.bankB = s.sec.bankB) ∧
      (fwError s s.sec.fwData ≠ 0 ∨ flashNow s = some 4 → ∃ t, exec (.fwCommitDone true) s = .next t ∧ t.sec.commit = none ∧
        (fwError s s.sec.fwData = 0 → bankState t (bankIdle s) = 2 ∧
          (if bankIdle s = 0 then t.sec.bankA else t.sec.bankB) = some s.sec.fwData ∧ t.sec.fwLen = none) ∧
        (fwError s s.sec.fwData ≠ 0 → t.rd R.SEC_FW.FW_ERR = fwError s s.sec.fwData ∧ t.sec.bankA = s.sec.bankA ∧
          t.sec.bankB = s.sec.bankB))) ∧
    (cmdReady (.fwInfo h) s = true → exec (.fwInfo h) s = .next (answer (.fwInfo h) stDone (bankInfo s 0 ++ bankInfo s 1) s)) ∧
    (∀ n, cmdReady (.trngRead h n) s = true → 0 < n → n ≤ 64 → s.rd R.SEC_STATUS.TRNG = 0 →
      exec (.trngRead h n) s = .next (answer (.trngRead h n) stDone
        ((List.range n).map (fun k => Config.trngByte (s.sec.trngN + k))) { s with sec := { s.sec with trngN := s.sec.trngN + n } })) ∧
    (systemUp s = true → ∃ t, exec .trngHealthFail s = .next t ∧ t.rd R.SEC_STATUS.TRNG = 2 ∧ t.rd R.SEC_EVENT.TRNG_FAIL_EV = 1 ∧
      OnlyRegs s t [A.SEC_STATUS, A.SEC_EVENT])

/-- Each reset source is recorded and acts at its level. For each event that asserts a source of the reset controller,
where the source is not one that is asserted already and stays so: the source stands in RS_CAUSE and among the
asserted ones, at its acting level and with its instant. Where nothing as deep is in force, a source of level 0, 1 or
2 leaves every bridge SEALED, START_DONE 0 and a start of that level owed (of the deeper level, where it meets a start
in progress); a source of level 4 leaves the interpreter not serving, with its queues empty. A debug request acts only
while DBG_LOCK is not blown, the loss of PLL A's lock only after the lock, and the interpreter's watchdog only 100 ms
after a packet began to wait with none completed; otherwise they change nothing. -/
def Obligations.ResetSourcesAct : Prop :=
  (∀ (s : State) (c : Instr) (n : Nat),
    ((c, n) ∈ [(.supplyBrownOut .vaux, 1), (.supplyBrownOut .core, 2), (.supplyBrownOut .dram, 3), (.supplyBrownOut .flash, 3),
        (.supplyBrownOut .vio, 4), (.rstNAssert, 5), (.lockstepMismatch, 7), (.watchdogExpiry .sill, 8),
        (.watchdogExpiry .core0, 9), (.watchdogExpiry .core1, 10),
        (.watchdogExpiry .grove, 12), (.watchdogExpiry .security, 13), (.uncorrectableError .optionImage, 14),
        (.uncorrectableError .safety, 15), (.uncorrectableError .keySlot, 16), (.uncorrectableError .signalBoard, 17),
        (.uncorrectableError .coreMemory, 18), (.uncorrectableError .imageRam, 19), (.uncorrectableError .retention, 20),
        (.uncorrectableError .safetyLog, 21), (.overTemperature, 22)] ∨
      (c = .watchdogExpiry .interpreter ∧ n = 11 ∧ waitingSince s ≠ none) ∨
      (c = .pllaLockLoss ∧ n = 6 ∧ s.flag R.CK_STATUS.PLLA_LOCK = true) ∨
      (c = .debugResetRequest ∧ n = 25 ∧ s.sec.dbgLock = false)) →
    (heldSource n && isAsserted s n) = false →
    ∃ t, exec c s = .next t ∧ bitAt (t.rd R.RS_CAUSE.CAUSE) n = true ∧ ⟨n, actLevel s n, t.now⟩ ∈ t.rst.asserted ∧
      (n ≠ 11 → t.now = s.now) ∧ (∀ w, n = 11 → waitingSince s = some w → t.now = max s.now (w + 100 * tMs)) ∧
      (actLevel s n ≤ 2 → inForce s (actLevel s n) = false →
        (∀ b, b < 4 → modeOf t b = 0) ∧ t.rd R.RS_STATUS.START_DONE = 0 ∧
        (s.rst.starting = none → t.rst.owed = some (actLevel s n)) ∧
        (∀ b, s.rst.starting.isSome = true → s.rst.owed = some b → t.rst.owed = some (min b (actLevel s n)))) ∧
      (actLevel s n = 4 → inForce s 4 = false →
        t.host.serving = false ∧ t.host.spi.rx = [] ∧ t.host.spi.rp = [] ∧ t.host.can.rx = [] ∧ t.host.can.rp = []) ∧
      (inForce s (actLevel s n) = true → t.host = s.host ∧ t.bridges = s.bridges ∧ t.rst.owed = s.rst.owed)) ∧
  (∀ s : State,
    (waitingSince s = none → exec (.watchdogExpiry .interpreter) s = .next s) ∧
    (s.flag R.CK_STATUS.PLLA_LOCK = false → exec .pllaLockLoss s = .next s) ∧
    (s.sec.dbgLock = true → exec .debugResetRequest s = .next s))

/-- Power-on, the release of a source, a bridge reset and an interpreter reset. POWER_ON leaves source 0 alone asserted, a
cold start owed, every bridge SEALED, the signal board and the host port as after reset, and the interpreter not
serving. While no part of Level 2 waits to join: RST_N's release, and the release of any other source 10 µs after its
assertion, take that source out of the asserted ones; where nothing is owed and no source of Level 0, 1, 2 or 4 is
left the interpreter serves, and no register changes. A bridge reset seals that bridge with no graph placed, sets the
counts of its encoders to 0, begins BR_MODE_MS again and leaves every other bridge's mode; an interpreter reset
empties both receive queues, both reply queues and the memory of repeats; both abandon a SHUTDOWN. Where none runs and
no GRAPH_START rewrites an option copy, an interpreter reset changes nothing else. -/
def Obligations.PowerOnAndPartialResets : Prop :=
  ∀ s : State,
    (∃ t, exec .powerOn s = .next t ∧ t.rst.asserted = [⟨0, 0, s.now⟩] ∧ t.rst.owed = some 0 ∧ (∀ b, b < 4 → modeOf t b = 0) ∧
      t.board = [] ∧ t.host = {} ∧ t.rst.hold = false ∧ bitAt (t.rd R.RS_CAUSE.CAUSE) 0 = true ∧ t.pending = s.pending) ∧
    (s.rst.joint = none → isAsserted s 5 = true →
      ∃ t, exec .rstNRelease s = .next t ∧ isAsserted t 5 = false ∧ t.rst.owed = s.rst.owed ∧
        (levelHeld t 4 = false → t.regs = s.regs) ∧
        (s.rst.owed = none → (∀ e ∈ t.rst.asserted, 2 < e.level ∧ e.level ≠ 4) → t.host.serving = true)) ∧
    (∀ n e, s.rst.joint = none → 6 ≤ n → n ≠ 24 → s.rst.asserted.find? (fun e => decide (e.source = n)) = some e →
      ∃ t, exec (.resetRelease n) s = .next t ∧ isAsserted t n = false ∧ t.now = max s.now (e.at_ + 4000) ∧
        (levelHeld t 4 = false → t.regs = s.regs) ∧
        (s.rst.owed = none → (∀ e ∈ t.rst.asserted, 2 < e.level ∧ e.level ≠ 4) → t.host.serving = true)) ∧
    (∀ b, b < 4 → swf regReset s.regs = true →
      ∃ t, exec (.bridgeReset b) s = .next t ∧ modeOf t b = 0 ∧ stepOf t b = 0 ∧ (modeOf s b ≠ 0 → (t.br b).placed = none) ∧
        (∀ c, c < 4 → c ≠ b → modeOf t c = modeOf s c) ∧ (∀ n ∈ legsOf s b, (t.leg n).duty = none) ∧
        (t.br b).modeAt = s.now ∧ (∀ e, e < 4 → encOwner s e = some b → (t.enc e).count = 0) ∧
        t.flag R.RS_STATUS.SHUTDOWN = false) ∧
    (∃ t, exec .interpreterReset s = .next t ∧ t.flag R.RS_STATUS.SHUTDOWN = false ∧ t.rst.rewrite = none ∧ t.rst.cmds = [] ∧
      t.host = { t.host with
        spi := { s.host.spi with rx := [], rp := [], last := none }, can := { s.host.can with rx := [], rp := [], last := none },
        seg := none, segSent := 0, heldMask := 0, held := none, heldDue := 0 } ∧
      (s.flag R.RS_STATUS.SHUTDOWN = false → s.rst.rewrite = none →
        t = { s with host := t.host, rst := { s.rst with cmds := [] }, cans := t.cans } ∧
        t.host.serving = s.host.serving ∧ t.host.running = s.host.running ∧ (∀ c j, j ≠ 64 → t.obj c j = s.obj c j)))

/-- RESET by level, its delayed act, SHUTDOWN and its end. A taken RESET of level 3, with nothing as deep in force, is
answered DONE and resets its bridge, which RS_CAUSE records under source 23; of level 2, with nothing as deep in
force, it is answered DONE with every bridge SEALED and a start of level 2 owed; of level 1 or 4 it is answered DONE
and waits with its reply. The oldest waiting one acts at its level, at once where its reply has been read out and 10
ms after it was queued otherwise. A taken SHUTDOWN with none running is ACCEPTED, runs, starts a host ramp on every
bridge at STEP 0 outside the ride-through, and seals the others. SHUTDOWN_FINISH with every bridge SEALED and no write
under way holds the device under source 24; before that it changes nothing. -/
def Obligations.ResetCommands : Prop :=
  (∀ (h : Hdr) (b : Nat) (s : State), cmdReady (.reset h 3 b) s = true → b < 4 → inForce s 3 = false →
    ∃ t, exec (.reset h 3 b) s = .next (answer (.reset h 3 b) stDone [] t) ∧ modeOf t b = 0 ∧ stepOf t b = 0 ∧
      (∀ c, c < 4 → c ≠ b → modeOf t c = modeOf s c) ∧ bitAt (t.rd R.RS_CAUSE.CAUSE) 23 = true) ∧
  (∀ (h : Hdr) (b : Nat) (s : State), cmdReady (.reset h 2 b) s = true → inForce s 2 = false →
    ∃ t, exec (.reset h 2 b) s = .next (answer (.reset h 2 b) stDone [] t) ∧ (∀ b, b < 4 → modeOf t b = 0) ∧ t.rst.owed = some 2 ∧
      bitAt (t.rd R.RS_CAUSE.CAUSE) 23 = true) ∧
  (∀ (h : Hdr) (l b : Nat) (s : State), cmdReady (.reset h l b) s = true → l = 1 ∨ l = 4 →
    exec (.reset h l b) s = .next (answer (.reset h l b) stDone [] { s with rst := { s.rst with
      cmds := s.rst.cmds ++ [⟨h.can, l, s.now, replyBytes h 0x0103 ⟨stDone, [], none, s⟩ false⟩] } })) ∧
  (∀ (c : ResetCmd) (rest : List ResetCmd) (s : State), s.rst.cmds = c :: rest → inForce s c.level = false →
    c.level = 1 ∨ c.level = 4 →
    ∃ t, exec .resetCommandAct s = .next t ∧ bitAt (t.rd R.RS_CAUSE.CAUSE) 23 = true ∧
      t.now = (if (s.transport c.can).rp.contains c.reply then max s.now (c.at_ + 10 * tMs) else s.now) ∧
      (c.level = 1 → (∀ b, b < 4 → modeOf t b = 0) ∧ t.host = {} ∧ t.rd R.ID_STATUS.OPT_FAILS = 0 ∧
        (s.rst.starting = none → t.rst.owed = some 1)) ∧
      (c.level = 4 → t.host.serving = false ∧ t.host.spi.rp = [] ∧ t.host.can.rp = [] ∧ t.host.held = none ∧
        t.bridges = s.bridges)) ∧
  (∀ (h : Hdr) (s : State), cmdReady (.shutdown h) s = true → s.flag R.RS_STATUS.SHUTDOWN = false →
    ∃ t, exec (.shutdown h) s = .next (answer (.shutdown h) stAccepted [] t) ∧ t.flag R.RS_STATUS.SHUTDOWN = true ∧
      isRunning t 0x0104 0 = true ∧
      (∀ b, b < 4 → modeOf s b ≠ 0 → modeOf s b ≠ 5 → stepOf s b = 0 → (s.br b).ramp = none → stepOf t b = 6 ∧ modeOf t b = modeOf s b) ∧
      (∀ b, b < 4 → modeOf s b = 5 ∨ stepOf s b ≠ 0 ∨ (s.br b).ramp.isSome = true → modeOf t b = 0)) ∧
  (∀ s : State,
    (s.flag R.RS_STATUS.SHUTDOWN = true → allSealed s = true → writing s = false → isAsserted s 24 = false →
      ∃ t, exec .shutdownFinish s = .next t ∧ t.rst.hold = true ∧ isAsserted t 24 = true ∧ bitAt (t.rd R.RS_CAUSE.CAUSE) 24 = true) ∧
    (s.flag R.RS_STATUS.SHUTDOWN = false ∨ allSealed s = false ∨ writing s = true → exec .shutdownFinish s = .next s))

/-- OPTION_WRITE and FUSE_PROGRAM and their ends. An authenticated OPTION_WRITE with none running, no GRAPH_START
rewriting a copy, and write endurance left is ACCEPTED: the target copy is invalid from then on, its wear counts one,
OPT_BUSY is set. Its end with a read-back that is valid puts the image of the running configuration into that copy and
the retained RAM and ends with RESULT 1; a failed one ends with RESULT 2 and sets OPT_WR_EV; both clear OPT_BUSY. An
authenticated FUSE_PROGRAM of a word that exists with every bridge SEALED is ACCEPTED and runs. Its successful end
blows every bit of the value, sets DBG_LOCK with its fuse, and no fuse is ever restored; a failed end blows a part of
them. -/
def Obligations.OptionsAndFuses : Prop :=
  ∀ (h : Hdr) (s : State),
    (cmdAuth (.optionWrite h) .any s = true → s.rst.optRun = none → rewriting s = false →
      copyWear s (targetCopy s) < 10000 →
      ∃ t img, exec (.optionWrite h) s = .next (signed (.optionWrite h) stAccepted [] s t) ∧
        t.rst.optRun = some (targetCopy s, img) ∧ t.optCopy (targetCopy s) = [] ∧
        t.optCopy (1 - targetCopy s) = s.optCopy (1 - targetCopy s) ∧ t.rd R.RS_OPT.OPT_BUSY = 1 ∧
        copyWear t (targetCopy s) = min (2 ^ R.RS_OPT_WEAR.WEAR1.width - 1) (copyWear s (targetCopy s) + 1) ∧ isRunning t 0x0105 0 = true) ∧
    (∀ k img, s.rst.optRun = some (k, img) → k < 2 →
      (copyValid img = true →
        ∃ t, exec (.optionWriteDone true) s = .next t ∧ t.optCopy k = img ∧ t.rst.retained = some img ∧ t.rst.optRun = none ∧
          t.rd R.RS_OPT.OPT_BUSY = 0 ∧ (isRunning s 0x0105 0 = true → t.rd R.VG_ASYNC.RESULT = 1)) ∧
      (∃ t, exec (.optionWriteDone false) s = .next t ∧ t.optCopy k = s.optCopy k ∧ t.rst.optRun = none ∧
        t.rd R.RS_OPT.OPT_BUSY = 0 ∧ t.rd R.RS_EVENT.OPT_WR_EV = 1 ∧ (isRunning s 0x0105 0 = true → t.rd R.VG_ASYNC.RESULT = 2))) ∧
    (∀ w v n, cmdAuth (.fuseProgram h w v) .adminOnly s = true → fuseBits w = some n → v < 2 ^ n → allSealed s = true →
      s.rst.fuseRun = none →
      ∃ t, exec (.fuseProgram h w v) s = .next (signed (.fuseProgram h w v) stAccepted [] s t) ∧ t.rst.fuseRun = some ⟨w, v⟩ ∧
        t.rst.fuses = s.rst.fuses ∧ isRunning t 0x0106 0 = true) ∧
    (∀ r, s.rst.fuseRun = some r →
      (∃ t, exec (.fuseProgramDone true) s = .next t ∧ t.rst.fuseRun = none ∧
        sget (fun _ => 0) t.rst.fuses r.word = (sget (fun _ => 0) s.rst.fuses r.word ||| r.value) ∧
        (∀ w, w ≠ r.word → sget (fun _ => 0) t.rst.fuses w = sget (fun _ => 0) s.rst.fuses w) ∧
        t.sec.dbgLock = (s.sec.dbgLock || (decide (r.word = 0x10) && bitAt r.value 0))) ∧
      (∃ t, exec (.fuseProgramDone false) s = .next t ∧ t.rst.fuseRun = none ∧
        (∀ w k, bitAt (sget (fun _ => 0) s.rst.fuses w) k = true → bitAt (sget (fun _ => 0) t.rst.fuses w) k = true) ∧
        (∀ w k, bitAt (sget (fun _ => 0) t.rst.fuses w) k = true → bitAt (sget (fun _ => 0) s.rst.fuses w) k = true ∨
          (w = r.word ∧ bitAt r.value k = true))))

/-- A start completes where its sources are released and its minimum set is there, and waits otherwise. With a start owed,
no source of Level 0 or 1 and none of that depth asserted, the minimum service set there and no reset during the
option load: COLD_START (after Level 0 or 1) and WARM_START (after Level 1 with retention, or Level 2) that run to
their end leave nothing owed, START_DONE 1, LAST_LEVEL and START_WARM as the start, the interpreter serving unless a
source of Level 4 holds it, and every bridge with the reason 16 in sealed defaults or minimum service and 0 otherwise.
A start of Level 0 or 1 that has come as far as the interpreter serving leaves the start owed and START_DONE as it
was, the interpreter serving unless a source of Level 4 holds it; the same command then completes it. A cold start
whose clock locks, outside the recovery loader, measures NCAL within 40 to 120 (a free value, log entry 93). With a
source of that depth asserted, or a part of the minimum set missing, nothing changes; a reset during the option load
is counted. -/
def Obligations.StartsComplete : Prop :=
  ∀ (env : StartEnv) (s : State) (l : Nat), s.rst.owed = some l → l ≤ 2 →
    (s.rst.asserted.any (fun e => decide (e.level ≤ max l 1)) = false → env.minSet = true → env.serves = false →
      (l ≠ 2 → (s.rst.starting = none ∧ env.loadCut = false) ∨ s.rst.starting.any (fun r => !r.warm) = true →
        ∃ t, exec (.coldStart env) s = .next t ∧ t.rst.owed = none ∧ t.rst.starting = none ∧ t.rd R.RS_STATUS.START_DONE = 1 ∧
          t.rd R.RS_STATUS.LAST_LEVEL = l ∧ t.rd R.ID_STATUS.START_WARM = 0 ∧ t.host.serving = !levelHeld t 4 ∧
          t.rd R.RS_START.START_MS = min env.startMs 65535 ∧
          (t.flag R.CK_STATUS.BYPASS = false → t.flag R.SEC_STATUS.RECOVERY = false → levelHeld s 2 = false →
            40 ≤ t.rd R.SH_TB.NCAL ∧ t.rd R.SH_TB.NCAL ≤ 120) ∧
          (∀ b, b < 4 → t.rd R.BR_REASON.SEAL_REASON b =
            if t.flag R.ID_STATUS.MIN_SERVICE ∨ t.rd R.ID_STATUS.OPT_SRC = 3 then 16 else 0)) ∧
      (l ≠ 0 → ¬ (l = 1 ∧ s.rst.retBad = true) →
        (s.rst.starting = none ∧ (env.loadCut = false ∨ l = 2)) ∨ s.rst.starting.any (fun r => r.warm) = true →
        ∃ t, exec (.warmStart env) s = .next t ∧ t.rst.owed = none ∧ t.rst.starting = none ∧ t.rd R.RS_STATUS.START_DONE = 1 ∧
          t.rd R.RS_STATUS.LAST_LEVEL = l ∧ t.rd R.ID_STATUS.START_WARM = 1 ∧ t.host.serving = !levelHeld t 4 ∧
          (∀ b, b < 4 → t.rd R.BR_REASON.SEAL_REASON b =
            if t.flag R.ID_STATUS.MIN_SERVICE ∨ t.rd R.ID_STATUS.OPT_SRC = 3 then 16 else 0))) ∧
    (s.rst.asserted.any (fun e => decide (e.level ≤ max l 1)) = false → env.minSet = true → env.serves = true →
      env.loadCut = false → s.rst.starting = none →
      (l ≠ 2 → ∃ t, exec (.coldStart env) s = .next t ∧ t.rst.owed = some l ∧
        (t.rst.starting = some ⟨false, s.now, env.convTrim⟩) ∧ t.host.serving = !levelHeld t 4 ∧
        t.rd R.RS_STATUS.START_DONE = s.rd R.RS_STATUS.START_DONE) ∧
      (l = 1 → s.rst.retBad = false → ∃ t, exec (.warmStart env) s = .next t ∧ t.rst.owed = some l ∧
        (t.rst.starting = some ⟨true, s.now, env.convTrim⟩) ∧ t.host.serving = !levelHeld t 4 ∧
        t.rd R.RS_STATUS.START_DONE = s.rd R.RS_STATUS.START_DONE)) ∧
    ((s.rst.asserted.any (fun e => decide (e.level ≤ max l 1)) = true ∨ env.minSet = false) →
      exec (.coldStart env) s = .next s ∧ exec (.warmStart env) s = .next s) ∧
    (l ≤ 1 → s.rst.asserted.any (fun e => decide (e.level ≤ max l 1)) = false → env.minSet = true → env.loadCut = true →
      s.rst.starting = none → s.rd R.ID_STATUS.OPT_FAILS < 3 →
      exec (.coldStart env) s = .next (s.wr R.ID_STATUS.OPT_FAILS 0 (s.rd R.ID_STATUS.OPT_FAILS + 1)))

/-- CANOPY_MAP, CANOPY_WHERE, CANOPY_HOLD, its expiry, and SASH_LOAD. While a graph is placed on the bridge, CANOPY_MAP
answers the engine of each record, 0xFF for one in its hinge, and CANOPY_WHERE the engine, target and phase of a
record; both change nothing, and are WRONG_MODE where no graph is placed. A hold of 1 to 30 s is answered DONE and
runs that long for the bridge; 0 s ends it; one for a bridge whose hold ended less than 10 s ago is BUSY, and so, as
the model chooses (log entry 128), is one while its own still runs. Its expiry ends it at its time. SASH_LOAD in
SERVICE with no graph placed writes no register and holds its reply back; the next master valley, within a period,
applies all that is pending, clears SPLIT and SPLIT_AGE, and sends the DONE. With a graph placed it is DEFERRED, in
another mode WRONG_MODE. -/
def Obligations.CanopyCommands : Prop :=
  (∀ (h : Hdr) (b : Nat) (p : Placed) (s : State), b < 4 → (s.br b).placed = some p → cmdReady (.canopyMap h b) s = true →
    exec (.canopyMap h b) s = .next (answer (.canopyMap h b) stDone ((List.range p.engines.length).map (fun i =>
      if 1 ≤ hingeCount p i then 0xFF else BitVec.ofNat 8 (p.engines.getD i 0))) s)) ∧
  (∀ (h : Hdr) (b i : Nat) (p : Placed) (s : State), b < 4 → (s.br b).placed = some p →
    cmdReady (.canopyWhere h b i) s = true → i < p.graph.blocks.length →
    exec (.canopyWhere h b i) s = .next (answer (.canopyWhere h b i) stDone
      (le 1 (p.engines.getD i 0) ++ le 1 (if 1 ≤ hingeCount p i then (hingeTo p i).getD 0xFF else 0xFF) ++
        le 1 (p.phases.getD i 0)) s)) ∧
  (∀ (h : Hdr) (b i : Nat) (s : State), b < 4 → (s.br b).placed = none →
    (cmdReady (.canopyMap h b) s = true → exec (.canopyMap h b) s =
      .next (answer (.canopyMap h b) stWrongMode [] (refusedBy (.canopyMap h b) stWrongMode s))) ∧
    (cmdReady (.canopyWhere h b i) s = true → exec (.canopyWhere h b i) s =
      .next (answer (.canopyWhere h b i) stWrongMode [] (refusedBy (.canopyWhere h b i) stWrongMode s)))) ∧
  (∀ (h : Hdr) (b sec : Nat) (s : State), b < 4 → sec ≤ 30 → cmdReady (.canopyHold h b sec) s = true →
    (0 < sec → heldBridge s b = false → (∀ e ∈ s.canopy.lastHold, e.1 = b → e.2 + 4000000000 ≤ s.now) →
      ∃ t, exec (.canopyHold h b sec) s = .next (answer (.canopyHold h b sec) stDone [] t) ∧ heldBridge t b = true ∧
        t.canopy.holdEnd = s.now + sec * 400000000 ∧ OnlyRegs { s with canopy := t.canopy } t [A.CN_STATUS]) ∧
    (0 < sec → heldBridge s b = true ∨ (∃ e ∈ s.canopy.lastHold, e.1 = b ∧ s.now < e.2 + 4000000000) →
      exec (.canopyHold h b sec) s = .next (answer (.canopyHold h b sec) stBusy [] (refusedBy (.canopyHold h b sec) stBusy s))) ∧
    (sec = 0 → ∃ t, exec (.canopyHold h b sec) s = .next (answer (.canopyHold h b sec) stDone [] t) ∧ heldBridge t b = false ∧
      OnlyRegs { s with canopy := t.canopy } t [A.CN_STATUS])) ∧
  (∀ (b : Nat) (s : State), heldBridge s b = true →
    ∃ t, exec .canopyHoldExpiry s = .next t ∧ t.now = max s.now s.canopy.holdEnd ∧ heldBridge t b = false ∧
      t.canopy.lastHold.head? = some (b, t.now) ∧ OnlyRegs { s with canopy := t.canopy, now := t.now } t [A.CN_STATUS]) ∧
  (∀ (h : Hdr) (b : Nat) (s : State), b < 4 → cmdReady (.sashLoad h b) s = true →
    (modeOf s b = 1 → (s.br b).placed = none →
      ∃ t, exec (.sashLoad h b) s = .next t ∧ t.regs = s.regs ∧ (t.br b).sashLoad = true ∧
        t.host.heldMask = 2 ^ (4 + b) ∧ t.host.held.isSome = true ∧ t.transport h.can = s.transport h.can ∧
        (cfgOk s b = true → masterPer s b ≠ 0 → nextValley (s.br b) ≤ s.now + presentPer s b →
          ∃ u, exec (.masterValley b) t = .next u ∧
            (u.transport h.can).rp = (s.transport h.can).rp ++ [replyBytes h 0x0202 ⟨stDone, [], none, s⟩ false] ∧
            u.host.held = none ∧ u.host.heldMask = 0 ∧ (u.br b).fbPer = false ∧ (u.br b).fbDuty = [] ∧
            (u.br b).sashLoad = false ∧ u.rd R.FB_STATUS.SPLIT b = 0 ∧ u.rd R.FB_STATUS.SPLIT_AGE b = 0)) ∧
    (modeOf s b ≠ 1 → exec (.sashLoad h b) s =
      .next (answer (.sashLoad h b) stWrongMode [] (refusedBy (.sashLoad h b) stWrongMode s))) ∧
    (modeOf s b = 1 → (s.br b).placed.isSome = true → exec (.sashLoad h b) s =
      .next (answer (.sashLoad h b) stDeferred [] (refusedBy (.sashLoad h b) stDeferred s))))

/-- LEDGER_READ, LEDGER_NF, LEDGER_NF_READ, LEDGER_SAVE and LEDGER_RESET. LEDGER_READ answers the 544 bytes of the entry
and LEDGER_NF_READ the 512 bytes of the table; both change nothing. An authenticated LEDGER_NF is ACCEPTED, replaces
the table and no other, and a checkpoint of cause 4 is written or waits; while one runs it is BUSY. LEDGER_SAVE is
ACCEPTED, with a checkpoint of cause 2, unless one runs or a checkpoint was written less than 60 s ago; then it is
BUSY. An authenticated LEDGER_RESET with no masked switch on a leg of a bridge outside SEALED and no checkpoint being
written is DONE: the masked entries are zero but for NF_SEL, the others keep theirs but for RATE, and a checkpoint of
cause 3 is written. -/
def Obligations.LedgerCommands : Prop :=
  (∀ (h : Hdr) (k : Nat) (s : State), cmdReady (.ledgerRead h k) s = true → k < 48 →
    exec (.ledgerRead h k) s = .next (answer (.ledgerRead h k) stDone (entryBytes (s.entry k)) s) ∧
      (entryBytes (s.entry k)).length = 544) ∧
  (∀ (h : Hdr) (n : Nat) (s : State), cmdReady (.ledgerNfRead h n) s = true → n < 4 →
    exec (.ledgerNfRead h n) s = .next (answer (.ledgerNfRead h n) stDone
      ((List.range 128).flatMap (fun k => le 4 (nfAt s n k))) s)) ∧
  (∀ (h : Hdr) (n : Nat) (ws : List Word) (s : State), cmdAuth (.ledgerNf h n ws) .any s = true → n < 4 →
    (isRunning s 0x0C02 0 = true →
      ∃ t, exec (.ledgerNf h n ws) s = .next (signed (.ledgerNf h n ws) stBusy [] s t) ∧ t.ledger = s.ledger) ∧
    (isRunning s 0x0C02 0 = false →
      ∃ t, exec (.ledgerNf h n ws) s = .next (signed (.ledgerNf h n ws) stAccepted [] s t) ∧ isRunning t 0x0C02 0 = true ∧
        (∀ k, k < 128 → nfAt t n k = (ws.getD k 0).toNat) ∧
        (∀ m k, m ≠ n → k < 128 → nfAt t m k = nfAt s m k) ∧
        (∀ k, (t.entry k).count = (s.entry k).count) ∧
        (s.ledger.run = none → ∃ c, t.ledger.run = some c ∧ c.cause = 4 ∧ c.nf = t.ledger.nf ∧ c.entries = t.ledger.entries) ∧
        (s.ledger.run ≠ none → t.ledger.run = s.ledger.run ∧ t.ledger.next = s.ledger.next ++ [4]))) ∧
  (∀ (h : Hdr) (s : State), cmdReady (.ledgerSave h) s = true →
    (isRunning s 0x0C04 0 = false → s.ledger.cpAt.any (fun t => decide (s.now < t + 24000000000)) = false →
      ∃ t, exec (.ledgerSave h) s = .next (answer (.ledgerSave h) stAccepted [] t) ∧ isRunning t 0x0C04 0 = true ∧
        (s.ledger.run = none → (∃ c, t.ledger.run = some c ∧ c.cause = 2 ∧ c.entries = t.ledger.entries) ∧
          t.rd R.CN_LEDGER.CP_BUSY = 1) ∧
        (s.ledger.run ≠ none → t.ledger.run = s.ledger.run ∧ t.ledger.next = s.ledger.next ++ [2])) ∧
    (isRunning s 0x0C04 0 = true ∨ s.ledger.cpAt.any (fun t => decide (s.now < t + 24000000000)) = true →
      exec (.ledgerSave h) s = .next (answer (.ledgerSave h) stBusy [] (refusedBy (.ledgerSave h) stBusy s)))) ∧
  (∀ (h : Hdr) (m : Nat) (s : State), cmdAuth (.ledgerReset h m) .any s = true → s.ledger.run = none →
    (∀ k b, k < 48 → bitAt m k = true → bridgeOfLeg s (k / 2) = some b → modeOf s b = 0) →
    ∃ t, exec (.ledgerReset h m) s = .next (signed (.ledgerReset h m) stDone [] s t) ∧
      (∀ k, k < 48 → bitAt m k = true → t.entry k = { nfSel := (s.entry k).nfSel }) ∧
      (∀ k, k < 48 → bitAt m k = false → { t.entry k with rate := (s.entry k).rate } = s.entry k) ∧
      (∃ c, t.ledger.run = some c ∧ c.cause = 3 ∧ c.entries = t.ledger.entries) ∧ t.rd R.CN_LEDGER.CP_BUSY = 1)

/-- A ledger pass makes DAMAGE and CYCLES follow COUNT, and a checkpoint copies RAM and stands once written. Once the
start has brought Canopy up: a pass leaves every entry with the DAMAGE of R179 and with CYCLES the saturated sum of
its counts, writes no register and no signal, and with no graph placed keeps COUNT, ENERGY, ONTIME and PEAK. With no
checkpoint being written, the periodic one starts 600 s after the last at the earliest with cause 0, a copy of the
entries and tables, a generation one above the newest valid one, and CP_BUSY; while one is being written nothing
happens. A write that waits for the flash does not end. At its end the copy becomes the newest of two with its GEN
shown, or CP_FAIL sets and the copies in flash stay; CP_BUSY falls where no other waits, and the next waiting one
starts where one does. -/
def Obligations.LedgerPassesAndCheckpoints : Prop :=
  (∀ s : State, systemUp s = true →
    ∃ t, exec .ledgerPass s = .next t ∧ t.regs = s.regs ∧ t.board = s.board ∧ t.now = s.now ∧
      (∀ k, (t.entry k).damage = damageOf t (t.entry k) ∧
        (t.entry k).cycles = min 0xFFFFFFFF (((List.range 128).map (t.entry k).countAt).foldl (· + ·) 0)) ∧
      ((∀ b, b < 4 → (s.br b).placed = none) → ∀ k, (t.entry k).count = (s.entry k).count ∧
        (t.entry k).energy = (s.entry k).energy ∧ (t.entry k).ontime = (s.entry k).ontime ∧ (t.entry k).peak = (s.entry k).peak) ∧
      ((∀ b, b < 4 → s.flag R.CN_STEER.STEER_EN b = false) → t.canopy = s.canopy)) ∧
  (∀ s : State,
    (systemUp s = true → s.ledger.run = none →
      ∃ t c, exec .ledgerCheckpoint s = .next t ∧ t.now = max s.now (s.ledger.cpFrom + 240000000000) ∧ t.ledger.run = some c ∧
        c.cause = 0 ∧ c.entries = t.ledger.entries ∧ c.nf = s.ledger.nf ∧
        (∀ d l, validCopies s = d :: l → c.gen = (d.gen + 1) % 2 ^ 32) ∧ t.rd R.CN_LEDGER.CP_BUSY = 1 ∧
        t.ledger.copies = s.ledger.copies) ∧
    (systemUp s = false ∨ s.ledger.run ≠ none → exec .ledgerCheckpoint s = .next s)) ∧
  (∀ (ok : Bool) (s : State), s.ledger.run = none ∨ flashNow s ≠ some 3 → exec (.ledgerCheckpointDone ok) s = .next s) ∧
  (∀ (c : Checkpoint) (s : State), s.ledger.run = some c → flashNow s = some 3 →
    (s.ledger.next = [] →
      (∃ t, exec (.ledgerCheckpointDone true) s = .next t ∧ t.ledger.copies = (c :: validCopies s).take 2 ∧
        t.rd R.CN_GEN.GEN = c.gen % 2 ^ R.CN_GEN.GEN.width ∧ t.ledger.run = none ∧ t.rd R.CN_LEDGER.CP_BUSY = 0 ∧
        t.ledger.cpAt = some s.now ∧ t.ledger.cpFrom = s.now) ∧
      (∃ t, exec (.ledgerCheckpointDone false) s = .next t ∧ t.ledger.copies = s.ledger.copies ∧ t.flag R.CN_EVENT.CP_FAIL = true ∧
        t.ledger.run = none ∧ t.rd R.CN_LEDGER.CP_BUSY = 0 ∧ t.ledger.cpAt = s.ledger.cpAt)) ∧
    (∀ ok n l, s.ledger.next = n :: l →
      ∃ t d, exec (.ledgerCheckpointDone ok) s = .next t ∧ t.ledger.run = some d ∧ d.cause = n ∧ t.ledger.next = l ∧
        t.ledger.copies = (if ok then (c :: validCopies s).take 2 else s.ledger.copies) ∧ t.rd R.CN_LEDGER.CP_BUSY = 1))

/-- The input point, the output point, an overrun, the ageing of a signal, and the cycle without a graph. With no graph
placed the beat events change nothing. An input point waits for its carrier edge. With every word sound, no step,
hinge or evacuation open, it falls IP ticks after the edge at the earliest and leaves the beat waiting for its output
point; in general it leaves the bridge so, or without its placement, or resets. An output point whose words are sound,
of a beat that wrote its duties, asks for no reaction, and is not past the latest strobe point where R162 lets it be
late, passes the duty of every leg of the bridge to its shadow and, with the period shadow and the end of the beat, to
the pending stage. A beat without its duties, or late, counts in OVERRUN and strobes nothing; a second in succession
seals the bridge with reason 15. An overrun falls at the latest strobe point, where R162 allows one. Ageing waits for
a period of the writer's rate after the last write or count, adds one to the AGE of the signal up to 15 and changes no
other word. The cycle without a graph writes each index count, and every 1 ms the twin words and shares, of an owner
without one. -/
def Obligations.BeatsRun : Prop :=
  (∀ (b : Nat) (m : BeatShown) (s : State), b < 4 →
    ((s.br b).placed = none → exec (.beatInputPoint b m) s = .next s ∧ exec (.beatOutputPoint b) s = .next s ∧
      exec (.beatOverrun b) s = .next s) ∧
    (∀ p, (s.br b).placed = some p → edgeBegun (s.br b) p.nextEdge = false → exec (.beatInputPoint b m) s = .next s) ∧
    (∀ p, (s.br b).placed = some p → edgeBegun (s.br b) p.nextEdge = true →
      ∃ t, exec (.beatInputPoint b m) s = .next t ∧ t.pending = s.pending ∧ max s.now (edgeTick s b p.nextEdge) ≤ t.now) ∧
    (∀ p, (s.br b).placed = some p → edgeBegun (s.br b) p.nextEdge = true → wordsSound s (List.range 4096) = true →
      stepOf s b = 0 → (s.br b).stepOver = false → (s.br b).failDue = none → p.hinge = none → p.evacs = [] →
      ∃ t q, exec (.beatInputPoint b m) s = .next t ∧ t.now = max s.now (inputPoint s b p.nextEdge) ∧
        (t.br b).placed = some q ∧ q.ranBeat = true ∧ q.late = false ∧ q.lastIp = some t.now ∧
        q.endEdge = p.nextEdge + q.graph.beatHalf ∧ modeOf t b = modeOf s b)) ∧
  (∀ (b : Nat) (p : Placed) (s : State), b < 4 → (s.br b).placed = some p →
    (p.ranBeat = false → exec (.beatOutputPoint b) s = .next s ∧ exec (.beatOverrun b) s = .next s) ∧
    (p.late = true ∨ mayOverrun s b p = false → exec (.beatOverrun b) s = .next s) ∧
    (p.ranBeat = true → wordsSound s (outputReads p.graph) = true →
      p.graph.writes.contains (0xF40 + b) = false ∨ (s.sig (0xF40 + b)).val % 16 = 0 →
      (p.late = false → p.noDuty = false → mayOverrun s b p = false ∨ s.now ≤ lastStrobe s b p →
        (modeOf s b = 4 → stepOf s b ≠ 5) →
        ∃ t, exec (.beatOutputPoint b) s = .next t ∧ modeOf t b = modeOf s b ∧
          (t.br b).strobePer = some (s.rd R.SH_CARRIER.PER (masterLeg s b), p.endEdge) ∧
          ∀ n ∈ legsOf s b, (t.leg n).shadow = (s.sig (0xF00 + n)).val ∧
            (t.leg n).pend = some ((s.sig (0xF00 + n)).val, p.endEdge)) ∧
      (p.late = true → ∃ t, exec (.beatOutputPoint b) s = .next t ∧ t.legs = s.legs ∧
        (t.br b).placed = some { p with ranBeat := false }) ∧
      (p.late = false → p.noDuty = true ∨ (mayOverrun s b p = true ∧ lastStrobe s b p < s.now) →
        (p.overrun = false →
          ∃ t, exec (.beatOutputPoint b) s = .next t ∧
            (t.br b).placed = some { p with ranBeat := false, overrun := true, late := true } ∧
            t.rd R.GR_EVENTS.OVERRUN b = min (2 ^ R.GR_EVENTS.OVERRUN.width - 1) (s.rd R.GR_EVENTS.OVERRUN b + 1) ∧
            t.legs = s.legs) ∧
        (p.overrun = true → modeOf s b ≠ 0 →
          ∃ t, exec (.beatOutputPoint b) s = .next t ∧ modeOf t b = 0 ∧ t.rd R.BR_REASON.SEAL_REASON b = 15))) ∧
    (p.ranBeat = true → p.late = false → mayOverrun s b p = true →
      (p.overrun = false →
        ∃ t, exec (.beatOverrun b) s = .next t ∧ (t.br b).placed = some { p with overrun := true, late := true } ∧
          t.now = max s.now (lastStrobe s b p) ∧
          t.rd R.GR_EVENTS.OVERRUN b = min (2 ^ R.GR_EVENTS.OVERRUN.width - 1) (s.rd R.GR_EVENTS.OVERRUN b + 1) ∧
          t.legs = s.legs ∧ t.board = s.board) ∧
      (p.overrun = true → modeOf s b ≠ 0 →
        ∃ t, exec (.beatOverrun b) s = .next t ∧ modeOf t b = 0 ∧ t.rd R.BR_REASON.SEAL_REASON b = 15))) ∧
  (∀ (i : Nat) (s : State), i < 4096 → isConst i = false → isReservedSig i = false →
    (writerPeriod s i = none → exec (.signalAgeing i) s = .next s) ∧
    (∀ w, writerPeriod s i = some w →
      ∃ t, exec (.signalAgeing i) s = .next t ∧ t = { s with board := t.board, aged := t.aged, now := t.now } ∧
        t.now = max s.now (s.agedAt i + w) ∧ t.agedAt i = t.now ∧ (t.sig i).age = min 15 ((s.sig i).age + 1) ∧
        (t.sig i).val = (s.sig i).val ∧ (t.sig i).seq = (s.sig i).seq ∧ ∀ j, j ≠ i → t.sigWord j = s.sigWord j)) ∧
  (∀ s : State,
    (∃ t, exec (.noGraphWriteCycle true) s = .next t ∧ t = { s with board := t.board, aged := t.aged } ∧
      (∀ p, p < 8 → (∀ c, pairOwner s p = some c → graphRuns s c = false) →
        (t.sig (0x110 + p)).val = twinWord s p ∧ (t.sig (0x110 + p)).age = 0) ∧
      (∀ n, n < 24 → (∀ c, bridgeOfLeg s n = some c → graphRuns s c = false) →
        (t.sig (0x0E0 + n)).val = shareSignal s n % 65536 ∧ (t.sig (0x0E0 + n)).age = 0)) ∧
    (∃ t, exec (.noGraphWriteCycle false) s = .next t ∧ t.now = s.now ∧ t.bridges = s.bridges ∧ t.legs = s.legs ∧
      t.host = s.host ∧ (∀ e c, e < 4 → c < 4 → encOwner s e = some c → graphRuns s c = false →
        (t.sig (0x062 + 4 * e)).val = (s.enc e).index % 65536 ∧ (t.sig (0x062 + 4 * e)).age = 0)))

/-- A rotation step, the end of a self-test, and an uncorrectable error in an engine. A rotation step without a fallow
engine changes nothing; with one that is not ready it waits. With a ready fallow engine F and a next engine E that is
IDLE they exchange roles: E is FALLOW_TEST and shown as FALLOW, F IDLE. Where E is ACTIVE, F becomes TARGET and a
hinge of every block of E to F begins; where a hinge of its bridge still runs, the step waits. A passed self-test
makes the engine FALLOW_READY, counts in BIST_RUNS and takes its time, and a step that waits is taken; a failed one
counts in BIST_FAIL and leaves it FAILED with the cause of its lowest bit, 1 logic or 2 memory. One that a warm start
began makes the engine IDLE and in service. An uncorrectable error counts in ECC_UNC, marks an ACTIVE engine for
evacuation with cause 3 beside any other one, and makes a TARGET engine FAILED with its hinge abandoned and every
block on its source; a word already found in the beat changes nothing. -/
def Obligations.EnginesRotateAndFail : Prop :=
  (∀ s : State,
    (s.flag R.CN_STATUS.NO_FALLOW = true ∨ controlUp s = false → exec .rotationStep s = .next s) ∧
    (s.flag R.CN_STATUS.NO_FALLOW = false → controlUp s = true → hasFallow s = true → fallowReady s = false →
      exec .rotationStep s = .next { s with canopy := { s.canopy with rotWait := true } })) ∧
  (∀ (e f : Nat) (s : State), controlUp s = true → s.rd R.CN_STATUS.FALLOW = f → f < 16 → fallowReady s = true →
    rotationEngine s f = some e →
    (s.rd R.EN_STATUS.STATE e = 0 →
      ∃ t, exec .rotationStep s = .next t ∧ t.rd R.EN_STATUS.STATE e = 2 ∧ t.rd R.EN_STATUS.STATE f = 0 ∧
        t.rd R.CN_STATUS.FALLOW = e ∧ t.bridges = s.bridges ∧ t.canopy.rotWait = false) ∧
    (∀ p, s.rd R.EN_STATUS.STATE e = 1 → (s.br (s.rd R.EN_STATUS.OWNER e)).placed = some p →
      (p.hinge.isSome = true →
        exec .rotationStep s = .next { s with canopy := { s.canopy with rotWait := true } }) ∧
      (p.hinge = none →
        ∃ t, exec .rotationStep s = .next t ∧ t.rd R.EN_STATUS.STATE f = 4 ∧ t.rd R.EN_STATUS.STATE e = 1 ∧
          t.rd R.EN_STATUS.OWNER f = s.rd R.EN_STATUS.OWNER e ∧
          (t.br (s.rd R.EN_STATUS.OWNER e)).placed = some { p with hinge := some ⟨e, some f,
            ((List.range p.engines.length).filter (fun i => p.engines.getD i 99 = e)).map (fun i => (i, e, f)), [], []⟩ }))) ∧
  (∀ (e : Nat) (s : State), e < 16 →
    ((s.eng e).testing = false → s.rd R.EN_STATUS.STATE e ≠ 2 ∨ claimed s e = true → ∀ r, exec (.bistDone e r) s = .next s) ∧
    ((s.eng e).testing = false → s.rd R.EN_STATUS.STATE e = 2 → claimed s e = false →
      (s.canopy.rotWait = false → ∃ t, exec (.bistDone e 0) s = .next t ∧ t.rd R.EN_STATUS.STATE e = 3 ∧ (t.eng e).passAt = s.now ∧
        t.rd R.EN_BIST.BIST_RUNS e = min (2 ^ R.EN_BIST.BIST_RUNS.width - 1) (s.rd R.EN_BIST.BIST_RUNS e + 1)) ∧
      (s.canopy.rotWait = true → s.rd R.CN_STATUS.FALLOW = e → s.flag R.CN_STATUS.NO_FALLOW = false →
        (∀ c p, c < 4 → (s.br c).placed = some p → p.hinge = none) →
        ∃ t, exec (.bistDone e 0) s = .next t ∧ t.canopy.rotWait = false) ∧
      (∀ r, 0 < r → r < 4 → ∃ t, exec (.bistDone e r) s = .next t ∧ t.rd R.EN_STATUS.STATE e = 5 ∧
        t.rd R.EN_STATUS.FAIL_CAUSE e = (if r = 2 then 2 else 1) ∧ (t.eng e).lastOk = false ∧
        t.rd R.EN_COUNT.BIST_FAIL e = min (2 ^ R.EN_COUNT.BIST_FAIL.width - 1) (s.rd R.EN_COUNT.BIST_FAIL e + 1))) ∧
    ((s.eng e).testing = true → s.flag R.CN_STATUS.NO_FALLOW = false →
      ∃ t, exec (.bistDone e 0) s = .next t ∧ t.rd R.EN_STATUS.STATE e = 0 ∧ t.rd R.EN_STATUS.FAIL_CAUSE e = 0 ∧
        bitAt (t.rd R.CN_STATUS.IN_SERVICE) e = true ∧ (t.eng e).passAt = s.now ∧ (t.eng e).testing = false)) ∧
  (∀ (e r : Nat) (st : Bool) (p : Placed) (s : State), e < 16 → (s.br (s.rd R.EN_STATUS.OWNER e)).placed = some p →
    (r ≠ 0xFFFF → (∃ v ∈ p.evacs, v.engine = e ∧ v.record = r ∧ v.state_ = st ∧ v.cause = 3) →
      exec (.engineUncorrectableError e ⟨r, st⟩) s = .next s) ∧
    (r = 0xFFFF ∨ (∀ v ∈ p.evacs, v.engine = e → v.record ≠ r) →
      (s.rd R.EN_STATUS.STATE e = 1 →
        ∃ t, exec (.engineUncorrectableError e ⟨r, st⟩) s = .next t ∧ t.rd R.EN_STATUS.STATE e = 1 ∧
          (t.br (s.rd R.EN_STATUS.OWNER e)).placed = some { p with evacs := p.evacs ++ [⟨e, r, st, false, 3, none⟩] } ∧
          t.rd R.EN_COUNT.ECC_UNC e = min (2 ^ R.EN_COUNT.ECC_UNC.width - 1) (s.rd R.EN_COUNT.ECC_UNC e + 1)) ∧
      (∀ g, s.rd R.EN_STATUS.STATE e = 4 → p.hinge = some g → g.tgt = some e →
        ∃ t q, exec (.engineUncorrectableError e ⟨r, st⟩) s = .next t ∧ t.rd R.EN_STATUS.STATE e = 5 ∧
          t.rd R.EN_STATUS.FAIL_CAUSE e = 3 ∧ (t.br (s.rd R.EN_STATUS.OWNER e)).placed = some q ∧
          (∀ i j k, i < p.engines.length → g.moves.find? (fun x => x.1 = i) = some (i, j, k) → q.engines.getD i 0 = j))))

/-- Delay-line measurements and their timeout, pass-through edges and the end of a conflict. While the PWM parts are up, a
measurement shows its taps in NCAL, counts in CAL_CNT, and leaves DL_FAIL 0 exactly where it lies from 40 to 120; a
timeout sets DL_FAIL with its event. A rise of DL_FAIL puts the edges still to come at whole ticks; neither writes
another register, and in a reset of those parts neither does anything. A pass-through edge sets its input and no
other; where no leg has both gates on, each leg whose pass-through commands are then both on has CONFLICT set, counted
when it begins, and each other leg in pass-through has it clear. A waiting command passes the larger dead time after
the conflict's end; with none waiting nothing changes. -/
def Obligations.TimebaseAndPassThrough : Prop :=
  (∀ (n : Nat) (s : State), controlUp s = false →
      exec (.delayLineMeasurement n) s = .next s ∧ exec .delayLineTimeout s = .next s) ∧
  (∀ s : State, controlUp s = true →
    (∀ n, n < 256 → ∃ t, exec (.delayLineMeasurement n) s = .next t ∧ t.rd R.SH_TB.NCAL = n ∧
      t.rd R.SH_TB.CAL_CNT = (s.rd R.SH_TB.CAL_CNT + 1) % 2 ^ R.SH_TB.CAL_CNT.width ∧
      (t.rd R.SH_TB.DL_FAIL = 0 ↔ 40 ≤ n ∧ n ≤ 120) ∧ OnlyRegs { s with legs := t.legs } t [A.SH_TB, A.SH_TB_EVENT] ∧
      (40 ≤ n → n ≤ 120 → t.legs = s.legs)) ∧
    (∃ t, exec .delayLineTimeout s = .next t ∧ t.rd R.SH_TB.DL_FAIL = 1 ∧ t.rd R.SH_TB.NCAL = s.rd R.SH_TB.NCAL ∧
      (s.rd R.SH_TB.DL_FAIL = 0 → t.rd R.SH_TB_EVENT.DL_FAIL_EV = 1 ∧
        ∀ k, k < 24 → t.leg k = if (s.leg k).perF = 0 then s.leg k else { s.leg k with coarse := true }) ∧
      OnlyRegs { s with legs := t.legs } t [A.SH_TB, A.SH_TB_EVENT])) ∧
  (∀ s : State,
    (∀ i v, i < 8 → ∃ t, exec (.passThroughEdge i v) s = .next t ∧ bitAt t.pth i = v ∧
      (∀ j, j ≠ i → bitAt t.pth j = bitAt s.pth j)) ∧
    (∀ i v, i < 8 → (∀ n, n < 24 → gatesOverlap s n = false) → ∃ t, exec (.passThroughEdge i v) s = .next t ∧
      (∀ n hi lo, n < 24 → ptCommands t n = some (hi, lo) →
        t.rd R.IL_STATUS.CONFLICT n = b2n (hi && lo) ∧
        t.rd R.IL_COUNT.CONFLICTS n = (if hi && lo && !s.flag R.IL_STATUS.CONFLICT n
          then min (2 ^ R.IL_COUNT.CONFLICTS.width - 1) (s.rd R.IL_COUNT.CONFLICTS n + 1) else s.rd R.IL_COUNT.CONFLICTS n)) ∧
      (∀ n, n < 24 → ptCommands t n = none → t.leg n = s.leg n ∧ t.rd R.IL_STATUS.CONFLICT n = s.rd R.IL_STATUS.CONFLICT n)) ∧
    (∀ n, ((s.leg n).wait = none → exec (.conflictResume n) s = .next s) ∧
      ∀ t0, (s.leg n).wait = some t0 → ∃ t, exec (.conflictResume n) s = .next t ∧ (t.leg n).wait = none ∧ t.regs = s.regs ∧
        t.now = max s.now (t0 + (max (s.rd R.SH_DEAD.DT_LH n) (s.rd R.SH_DEAD.DT_HL n) + 63) / 64)))

/-- An update point puts pending values in force and keeps on-time and carry within one period; a master valley moves the
periods and the fall-back path on. For a leg of a bridge whose next update point lies in a carrier period that has
begun: it comes at that point, and a row that names another one changes nothing; the strobed duty comes into force
where its beat has ended by then, and a duty in force is converted with the period of the point; a leg that emits no
pulses shows its on-time with CARRY 0; one that does shows a Tn not above one period, has its CARRY within one period
either way, and shows the on-time itself where no pulse was on, CARRY is 0 and no pulse is short. At a master valley,
one period after the last, the tag counts modulo 128, and the strobed period is applied where its beat has ended and
comes into force; on the fall-back path a complete set is applied, its period alone too, with no on-time above the
period, and SPLIT falls; an incomplete one raises SPLIT and its age and applies nothing; a waiting SASH_LOAD gives its
reply. -/
def Obligations.SashUpdatesPulses : Prop :=
  (∀ (b n : Nat) (s : State),
    (bridgeOfLeg s n = some b → nextPoint s b n = none → ∀ peak done, exec (.updatePoint n peak done) s = .next s) ∧
    (∀ i p peak done, bridgeOfLeg s n = some b → nextPoint s b n = some (i, p) → (peak ≠ decide (i % 2 = 1) ∨ done ≠ endsBeat s b n p) →
      exec (.updatePoint n peak done) s = .next s) ∧
    (∀ i p per, bridgeOfLeg s n = some b → nextPoint s b n = some (i, p) → periodAt (s.br b) p = per → 0 < per →
      per < 524288 → (s.leg n).pendT = none → (s.leg n).refresh = none →
      ∃ t, exec (.updatePoint n (decide (i % 2 = 1)) (endsBeat s b n p)) s = .next t ∧ t.now = max s.now (tickOf p) ∧ (t.leg n).upAt = some p ∧ (t.leg n).upN = i + 1 ∧
        t.bridges = s.bridges ∧ (∀ m, m ≠ n → t.leg m = s.leg m) ∧
        ((t.leg n).coarse = s.flag R.SH_TB.DL_FAIL) ∧ (s.flag R.SH_TB.DL_FAIL = false → (t.leg n).ncal = s.rd R.SH_TB.NCAL) ∧
        (∀ d e, (s.leg n).pend = some (d, e) →
          (64 * edgeTick s b e ≤ p → (t.leg n).duty = some d ∧ (t.leg n).pend = none) ∧
          (p < 64 * edgeTick s b e → (t.leg n).duty = (s.leg n).duty ∧ (t.leg n).pend = (s.leg n).pend)) ∧
        ((s.leg n).pend = none → (t.leg n).duty = (s.leg n).duty ∧ (t.leg n).pend = none) ∧
        (∀ d, (t.leg n).duty = some d → (t.leg n).ton = onTime d per) ∧
        ((t.leg n).duty = none → (t.leg n).ton = (s.leg n).ton) ∧
        (legRuns s n = false → t.rd R.SH_TON.TON n = (t.leg n).ton % 2 ^ R.SH_TON.TON.width ∧ carryOf t n = 0 ∧ (t.leg n).held = none) ∧
        (legRuns s n = true → ∃ x, (t.leg n).held = some x ∧ t.rd R.SH_TON.TON n = x % 2 ^ R.SH_TON.TON.width ∧
          x ≤ 64 * per ∧ -(64 * per : Int) ≤ carryOf t n ∧ carryOf t n ≤ (64 * per : Int) ∧
          ((s.leg n).held = none → (s.leg n).gates = {} → (s.leg n).edges = [] → carryOf s n = 0 → (t.leg n).ton ≤ 64 * per →
            (pulseStarts (sawtooth s b) (updBoth s b) (decide (i % 2 = 1)) (64 * per) none none (t.leg n).ton).all (fun q =>
              !shortPulse s n (64 * per) (t.leg n).ton q) = true →
            x = (t.leg n).ton ∧ carryOf t n = 0)))) ∧
  (∀ (b : Nat) (s : State), b < 4 → cfgOk s b = true → masterPer s b ≠ 0 →
      (fallbackRuns s b = false → (s.br b).sashLoad = false →
        ∃ t, exec (.masterValley b) s = .next t ∧ (t.br b).tag = ((s.br b).tag + 1) % 128 ∧ (t.br b).valN = (s.br b).valN + 1 ∧
          t.now = max s.now (nextValley (s.br b)) ∧ (t.br b).vals.head? = some (nextValley (s.br b), masterPer t b) ∧
          ((s.br b).strobePer = none → ∀ m ∈ legsOf s b, (t.leg m).perF = (s.leg m).per ∧ (t.leg m).per = (s.leg m).per) ∧
          (∀ p e, (s.br b).strobePer = some (p, e) →
            (e ≤ 2 * ((s.br b).valN + 1) → (t.br b).strobePer = none ∧
              ∀ m ∈ legsOf s b, (t.leg m).perF = p ∧ (t.leg m).per = p) ∧
            (2 * ((s.br b).valN + 1) < e → (t.br b).strobePer = some (p, e) ∧
              ∀ m ∈ legsOf s b, (t.leg m).perF = (s.leg m).per ∧ (t.leg m).per = (s.leg m).per))) ∧
      (fallbackRuns s b = true → (s.br b).sashLoad = false → (s.br b).fbPer = true →
        (∀ i ∈ (s.br b).fbDuty, s.rd R.FB_DUTY.TAG b i = s.rd R.FB_PER.TAG b) →
        ∃ t, exec (.masterValley b) s = .next t ∧ (t.br b).fbDuty = [] ∧ (t.br b).fbPer = false ∧
          ∀ m ∈ legsOf s b, (t.leg m).per = s.rd R.FB_PER.PER b ∧
            ∃ v, (t.leg m).pendT = some (v, 64 * nextValley (s.br b)) ∧ v ≤ 64 * s.rd R.FB_PER.PER b) ∧
      (fallbackRuns s b = true → (s.br b).sashLoad = false → (s.br b).fbDuty ≠ [] →
        ((∀ i ∈ (s.br b).fbDuty, s.rd R.FB_DUTY.TAG b i = s.rd R.FB_PER.TAG b) →
          ∃ t, exec (.masterValley b) s = .next t ∧ (t.br b).fbDuty = [] ∧ (t.br b).fbPer = false ∧ t.rd R.FB_STATUS.SPLIT b = 0 ∧
            t.rd R.FB_STATUS.SPLIT_AGE b = 0) ∧
        ((∃ i ∈ (s.br b).fbDuty, s.rd R.FB_DUTY.TAG b i ≠ s.rd R.FB_PER.TAG b) → s.rd R.FB_STATUS.SPLIT_AGE b < 3 →
          ∃ t, exec (.masterValley b) s = .next t ∧ (t.br b).fbDuty = (s.br b).fbDuty ∧ t.rd R.FB_STATUS.SPLIT b = 1 ∧
            t.rd R.FB_STATUS.SPLIT_AGE b = s.rd R.FB_STATUS.SPLIT_AGE b + 1 ∧
            ∀ m, (t.leg m).pendT = (s.leg m).pendT)) ∧
      (∀ r, fallbackRuns s b = true → (s.br b).sashLoad = true → s.host.heldMask = 2 ^ (4 + b) → s.host.held = some r →
        max s.now (nextValley (s.br b)) < s.host.heldDue →
        ∃ t, exec (.masterValley b) s = .next t ∧ (t.br b).sashLoad = false ∧ (t.br b).fbDuty = [] ∧ t.host.heldMask = 0 ∧
          t.host.held = none ∧ (t.transport r.can).rp = (s.transport r.can).rp ++ [r.reply] ∧ t.rd R.FB_STATUS.SPLIT b = 0))

/-- Cycle trips end a pulse, count in their window and latch the leg off, the window expires, and a bootstrap refresh is
inserted and checked. An enabled trip that asserts during a pulse of a leg that emits pulses ends that pulse and
counts in WIN_SUM and TRIP_TOTAL with its event; below TRIP_N nothing else follows, and at TRIP_N LATCH_OFF and
LATCH_EV set and the bridge seals with reason 14. One that stays asserted blocks, and counts, a later turn-on of the
same switch in the period. A source that is not enabled changes nothing. At a valley the oldest slot leaves the window
for TRIP_EXP, so that TRIP_EXP and WIN_SUM together keep their sum, and WIN_SUM stays the sum of the slots. Where both
gates of the leg overlap, the cross-check seals in the trip's place. A refresh that is due at the leg's last update
point counts in REFRESHES and puts a low-side pulse of MINP after DT_HL; at its end, without an undervoltage, nothing
seals; with one BOOT_EV sets and the bridge seals with reason 14. -/
def Obligations.TripsAndRefresh : Prop :=
  ∀ (n : Nat) (s : State), n < 24 →
    (∀ k, bridgeOfLeg s n = none ∨ ((k = 2 → windowDue s n = none) ∧ tripEnabled s n k = false) → exec (.cycleTrip n k) s = .next s) ∧
    (∀ k b, bridgeOfLeg s n = some b → (k = 2 → windowDue s n = none) → tripEnabled s n k = true → gatesOverlap s n = true →
      ∃ t, exec (.cycleTrip n k) s = .next t ∧ modeOf t b = 0 ∧ t.flag R.IL_STATUS.XCHK_TRIP n = true) ∧
    (∀ k b, bridgeOfLeg s n = some b → (k = 2 → windowDue s n = none) → gatesOverlap s n = false → legRuns s n = true → tripEnabled s n k = true →
      (gatesAt (s.leg n) s.now).hi = false → (gatesAt (s.leg n) s.now).lo = false → blockedTurnOn s b n k = none →
      exec (.cycleTrip n k) s = .next s) ∧
    (∀ k b e, bridgeOfLeg s n = some b → (k = 2 → windowDue s n = none) → gatesOverlap s n = false → legRuns s n = true → tripEnabled s n k = true →
      (gatesAt (s.leg n) s.now).hi = false → (gatesAt (s.leg n) s.now).lo = false → blockedTurnOn s b n k = some e →
      s.rd R.SH_STATUS.WIN_SUM n + 1 < s.rd R.SH_TRIP.TRIP_N n →
      ∃ t, exec (.cycleTrip n k) s = .next t ∧ t.now = max s.now (tickOf e.time) ∧ e ∉ (t.leg n).edges ∧
        t.rd R.SH_TRIPS.TRIP_TOTAL n = (s.rd R.SH_TRIPS.TRIP_TOTAL n + 1) % 2 ^ R.SH_TRIPS.TRIP_TOTAL.width ∧ t.bridges = s.bridges) ∧
    (∀ b t0, bridgeOfLeg s n = some b → windowDue s n = some t0 → ∃ t, exec (.cycleTrip n 2) s = .next t ∧ max s.now t0 ≤ t.now ∧
        t.rd R.IN_STATUS.WC_OUT (s.rd R.SH_TRIP.TRIP_AIN n) = 1) ∧
    (∀ k b, bridgeOfLeg s n = some b → (k = 2 → windowDue s n = none) → gatesOverlap s n = false → legRuns s n = true → tripEnabled s n k = true →
      ((gatesAt (s.leg n) s.now).hi = true ∨ (gatesAt (s.leg n) s.now).lo = true) →
      s.rd R.SH_STATUS.WIN_SUM n + 1 < 2 ^ R.SH_STATUS.WIN_SUM.width →
      ∃ t, exec (.cycleTrip n k) s = .next t ∧ t.rd R.SH_STATUS.WIN_SUM n = s.rd R.SH_STATUS.WIN_SUM n + 1 ∧ t.now = s.now ∧
        t.rd R.SH_TRIPS.TRIP_TOTAL n = (s.rd R.SH_TRIPS.TRIP_TOTAL n + 1) % 2 ^ R.SH_TRIPS.TRIP_TOTAL.width ∧
        t.flag R.SH_EVENT.TRIP_EV n = true ∧ ((t.leg n).slots.foldl (· + ·) 0 = (s.leg n).slots.foldl (· + ·) 0 + 1) ∧
        ((gatesAt (s.leg n) s.now).hi = true → (gatesAt (t.leg n) t.now).hi = false) ∧
        ((gatesAt (s.leg n) s.now).hi = false → (gatesAt (t.leg n) t.now).lo = false) ∧
        (s.rd R.SH_STATUS.WIN_SUM n + 1 < s.rd R.SH_TRIP.TRIP_N n → t.bridges = s.bridges ∧
          t.rd R.SH_STATUS.LATCH_OFF n = s.rd R.SH_STATUS.LATCH_OFF n) ∧
        (s.rd R.SH_TRIP.TRIP_N n ≤ s.rd R.SH_STATUS.WIN_SUM n + 1 → t.flag R.SH_STATUS.LATCH_OFF n = true ∧
          t.flag R.SH_EVENT.LATCH_EV n = true ∧
          (modeOf s b ≠ 0 → modeOf t b = 0 ∧ t.rd R.BR_REASON.SEAL_REASON b = 14))) ∧
    (∀ b, bridgeOfLeg s n = some b → s.rd R.SH_STATUS.WIN_SUM n = (s.leg n).slots.foldl (· + ·) 0 →
      ∃ t, exec (.tripWindowExpire n) s = .next t ∧ t.rd R.SH_STATUS.WIN_SUM n = (t.leg n).slots.foldl (· + ·) 0 ∧
        (t.rd R.SH_TRIPS.TRIP_EXP n + t.rd R.SH_STATUS.WIN_SUM n) % 2 ^ R.SH_TRIPS.TRIP_EXP.width =
          (s.rd R.SH_TRIPS.TRIP_EXP n + s.rd R.SH_STATUS.WIN_SUM n) % 2 ^ R.SH_TRIPS.TRIP_EXP.width ∧
        t.rd R.SH_TRIPS.TRIP_TOTAL n = s.rd R.SH_TRIPS.TRIP_TOTAL n ∧ t.bridges = s.bridges ∧
        (∀ i p, (legEdges s b n (2 * (s.leg n).winN)).find? (fun e => decide (e.1 % 2 = 0)) = some (i, p) →
          t.now = max s.now (tickOf p) ∧ (t.leg n).winN = i / 2 + 1)) ∧
    (∀ p, (s.leg n).refresh = none → (s.leg n).upAt = some p → refreshDue s n p = true →
      ∃ t, exec (.bootstrapRefresh n) s = .next t ∧ t.now = s.now ∧ t.bridges = s.bridges ∧
        t.rd R.SH_CNT2.REFRESHES n = min (2 ^ R.SH_CNT2.REFRESHES.width - 1) (s.rd R.SH_CNT2.REFRESHES n + 1) ∧
        (t.leg n).refresh = some (refreshEnd s n p) ∧ ⟨true, false, p⟩ ∈ (t.leg n).edges ∧
        ⟨false, true, p + s.rd R.SH_DEAD.DT_HL n⟩ ∈ (t.leg n).edges ∧
        ⟨false, false, p + s.rd R.SH_DEAD.DT_HL n + s.rd R.SH_PULSE.MINP n⟩ ∈ (t.leg n).edges) ∧
    ((s.leg n).refresh = none → (∀ p, (s.leg n).upAt = some p → refreshDue s n p = false) →
      exec (.bootstrapRefresh n) s = .next s) ∧
    (∀ p, (s.leg n).refresh = some p →
      ∃ t, exec (.bootstrapRefresh n) s = .next t ∧ t.now = max s.now (tickOf p) ∧ (t.leg n).refresh = none ∧
        (s.flag R.DRV_STATUS.UV_POS (2 * n) = false → t.bridges = s.bridges ∧ t.rd R.SH_STATUS.BOTH_OFF n = s.rd R.SH_STATUS.BOTH_OFF n) ∧
        (s.flag R.DRV_STATUS.UV_POS (2 * n) = true → t.flag R.SH_EVENT.BOOT_EV n = true ∧
          ∀ b, bridgeOfLeg s n = some b → modeOf s b ≠ 0 → modeOf t b = 0 ∧ t.rd R.BR_REASON.SEAL_REASON b = 14))

/-- A die that faults records its cause, turns its leg off and seals its bridge; warnings and supplies show without a
fault. A die in state OK that has a short circuit of a switch that is on, a gate that differs from its command outside
the exceptions of R230, a lost link, an over-temperature, or an undervoltage of an armed and conducting switch is in
FAULT with the cause of the table and FAULT_EV set, the switch (but for a lost link) and the other one of its leg are
off or turning off softly, and the bridge of its leg is SEALED with reason 14; a short circuit turns off softly. The
end of a soft turn-off leaves the gate off. A switch that is on shows the overcurrent warning, counted once per on-
interval; a command timeout turns the gate off; an undervoltage of an unarmed supply writes the supply bit and, at
VPOS, turns the gate off, and is no fault; its recovery clears the bit; one of an armed supply with the switch off
counts towards UV_T first, and a further one brings its fault. On an ABSENT die none of these does anything. -/
def Obligations.DieFaults : Prop :=
  ∀ (k : Nat) (s : State), k < 48 →
    (∀ c n, dieState s k = 1 →
      ((c = .shortCircuit k ∧ n = 1 ∧ s.flag R.DRV_STATUS.GATE k = true ∧ (s.die k).scSeen = false) ∨
        (c, n) ∈ [(.dieLinkLost k, 5), (.dieOverTemperature k, 6)] ∨
        (c = .stuckGate k ∧ n = 4 ∧ gateDiffers s k = true) ∨
        (c = .supplyUndervoltage k false ∧ n = 2 ∧ supplyArmed s k = true ∧ s.flag R.DRV_STATUS.GATE k = true) ∨
        (c = .supplyUndervoltage k true ∧ n = 3 ∧ supplyArmed s k = true ∧ s.flag R.DRV_STATUS.GATE k = true ∧
          s.rd R.DRV_SUP.VNEG_UV k ≠ 0)) →
      ∃ t, exec c s = .next t ∧ dieState t k = 2 ∧ t.rd R.DRV_STATUS.FAULT_CAUSE k = n ∧ t.flag R.DRV_EVENT.FAULT_EV k = true ∧
        (n = 1 → (t.die k).soft = true) ∧
        (n ≠ 5 → t.flag R.DRV_STATUS.GATE k = false ∨ (t.die k).soft = true) ∧
        (t.flag R.DRV_STATUS.GATE (4 * (k / 2) + 1 - k) = false ∨ (t.die (4 * (k / 2) + 1 - k)).soft = true) ∧
        (∀ b, bridgeOfLeg s (k / 2) = some b → modeOf t b = 0 ∧ (modeOf s b ≠ 0 → t.rd R.BR_REASON.SEAL_REASON b = 14)) ∧
        (bridgeOfLeg s (k / 2) = none → t.bridges = s.bridges)) ∧
    (gateDiffers s k = false → justFaulted s k = false → exec (.stuckGate k) s = .next s) ∧
    ((s.die k).soft = true → s.flag R.DRV_STATUS.GATE (4 * (k / 2) + 1 - k) = false → ∃ t, exec (.softTurnOffEnd k) s = .next t ∧ (t.die k).soft = false ∧ t.rd R.DRV_STATUS.GATE k = 0 ∧
      t.rd R.DRV_STATUS.OC_ACT k = 0 ∧ t.now = max s.now ((s.die k).softAt + s.rd R.DRV_SC.SOFT_T k * 40) ∧
      (t.die k).softEnd = some t.now ∧ t.bridges = s.bridges) ∧
    (diePresent s k = true →
      (s.flag R.DRV_STATUS.GATE k = true → s.flag R.DRV_STATUS.OC_ACT k = false →
        ∃ t, exec (.overcurrentWarning k) s = .next t ∧ t.rd R.DRV_STATUS.OC_ACT k = 1 ∧
        t.now = max s.now ((s.die k).onAt + s.rd R.DRV_SC.SC_BLANK k * 4 + s.rd R.DRV_OC.OC_FILT k * 4) ∧
        t.rd R.DRV_CNT.OC_CNT k = (if (s.die k).ocSeen then s.rd R.DRV_CNT.OC_CNT k
          else min (2 ^ R.DRV_CNT.OC_CNT.width - 1) (s.rd R.DRV_CNT.OC_CNT k + 1)) ∧ dieState t k = dieState s k ∧
        t.bridges = s.bridges) ∧
      (s.flag R.DRV_STATUS.GATE k = false ∨ s.flag R.DRV_STATUS.OC_ACT k = true → exec (.overcurrentWarning k) s = .next s) ∧
      (gatesOverlap s (k / 2) = false → ∃ t, exec (.dieCommandTimeout k) s = .next t ∧ (t.rd R.DRV_STATUS.GATE k = 0 ∨ (t.die k).soft = true) ∧
        (scAbove s k = false → (s.die k).soft = false → t.rd R.DRV_STATUS.GATE k = 0) ∧
        OnlyRegs { s with dies := t.dies } t [fldAddr R.DRV_STATUS.GATE k 0] ∧ dieState t k = dieState s k) ∧
      (∀ neg, (neg = true → s.rd R.DRV_SUP.VNEG_UV k ≠ 0) → justFaulted s k = false → gatesOverlap s (k / 2) = false →
        supplyArmed s k = false ∨ s.flag R.DRV_STATUS.GATE k = false →
        (supplyArmed s k = false ∨ uvSince s k neg = none → ∃ t, exec (.supplyUndervoltage k neg) s = .next t ∧
          t.rd (if neg then R.DRV_STATUS.UV_NEG else R.DRV_STATUS.UV_POS) k = 1 ∧
          OnlyRegs { s with dies := t.dies } t [fldAddr R.DRV_STATUS.GATE k 0] ∧ dieState t k = dieState s k ∧
          (neg = false → t.rd R.DRV_STATUS.GATE k = 0 ∨ (t.die k).soft = true) ∧
          uvSince t k neg = (if supplyArmed s k then some s.now else none)) ∧
        (∀ t0, supplyArmed s k = true → uvSince s k neg = some t0 → dieState s k = 1 →
          ∃ t, exec (.supplyUndervoltage k neg) s = .next t ∧ dieState t k = 2 ∧
            t.rd R.DRV_STATUS.FAULT_CAUSE k = (if neg then 3 else 2) ∧ t.now = max s.now (t0 + s.rd R.DRV_SUP.UV_T k * 400))) ∧
      (∀ neg, ∃ t, exec (.zoneSupplyRecovery k neg) s = .next t ∧ uvSince t k neg = none ∧
        t.rd (if neg then R.DRV_STATUS.UV_NEG else R.DRV_STATUS.UV_POS) k = 0 ∧
        OnlyRegs { s with dies := t.dies } t [fldAddr R.DRV_STATUS.GATE k 0] ∧ dieState t k = dieState s k)) ∧
    (dieState s k = 0 → ∀ c ∈ [.shortCircuit k, .dieLinkLost k, .dieOverTemperature k, .stuckGate k, .supplyUndervoltage k false,
      .supplyUndervoltage k true, .overcurrentWarning k, .dieCommandTimeout k, .zoneSupplyRecovery k false],
      exec c s = .next s)

/-- A status frame, an edge measurement and a zone temperature of a present die. A frame shows the gate as reported, with
OC_ACT cleared where the gate or the level is off, and the link stands; where both gates of a leg in a bridge have
been reported on for longer than 40 ns, XCHK_TRIP sets, counts, and the bridge seals with reason 14; with no overlap
and the Shutter state as the line, no bridge changes; a third successive difference stops the command frames to both
dies. A turn-on without a command that reaches the die makes no edge. Any other edge writes its word to the signal and
to LAST_ON or LAST_OFF, is counted in INVALID where its measurement is not valid, and shows the gate; a turn-on that
an undervoltage refuses counts in UV_HOLD alone. Where no graph runs on the bridge, a temperature in range clears
NTC_ERR and raises or clears OT_WARN by its threshold, and a broken input sets NTC_ERR alone; with a graph, its input
points do. -/
def Obligations.DieReports : Prop :=
  ∀ (k : Nat) (s : State), diePresent s k = true →
    (∀ f, ∃ t, exec (.dieStatusFrame k f) s = .next t ∧ (t.die k).linkLost = false ∧ (t.die k).scHigh = f.sc ∧
      ((s.die k).shtBad ≠ 2 → t.rd R.DRV_STATUS.GATE k = b2n f.gate) ∧
      (f.gate = false → t.rd R.DRV_STATUS.GATE k = 0) ∧ (f.gate = false ∨ f.oc = false → t.rd R.DRV_STATUS.OC_ACT k = 0) ∧
      (∀ b, bridgeOfLeg s (k / 2) = some b →
        (s.flag R.DRV_STATUS.GATE (2 * (k / 2)) = true → s.flag R.DRV_STATUS.GATE (2 * (k / 2) + 1) = true →
          (s.leg (k / 2)).xchk = false → max (s.die (2 * (k / 2))).onAt (s.die (2 * (k / 2) + 1)).onAt + 16 < s.now →
          t.flag R.IL_STATUS.XCHK_TRIP (k / 2) = true ∧ modeOf t b = 0 ∧ (modeOf s b ≠ 0 → t.rd R.BR_REASON.SEAL_REASON b = 14) ∧
          t.rd R.IL_COUNT.XCHK_CNT (k / 2) = min (2 ^ R.IL_COUNT.XCHK_CNT.width - 1) (s.rd R.IL_COUNT.XCHK_CNT (k / 2) + 1)) ∧
        (s.flag R.DRV_STATUS.GATE (2 * (k / 2)) = false ∨ s.flag R.DRV_STATUS.GATE (2 * (k / 2) + 1) = false →
          (f.shutter = (!(s.br b).open_) → t.bridges = s.bridges ∧ (t.die k).shtBad = 0) ∧
          (f.shutter = (s.br b).open_ → (s.die k).shtBad = 2 →
            (t.die (2 * (k / 2))).stopped = true ∧ (t.die (2 * (k / 2) + 1)).stopped = true)))) ∧
    (∀ e : EdgeMeas,
      (e.on = true → gateCommand s k = false → exec (.switchEdgeMeasurement k e) s = .next s) ∧
      (e.on = true → gateCommand s k = true → supplyLow s k = true →
        ∃ t, exec (.switchEdgeMeasurement k e) s = .next t ∧ t.board = s.board ∧ OnlyRegs s t [fldAddr R.DRV_CNT2.UV_HOLD k 0] ∧
          t.rd R.DRV_CNT2.UV_HOLD k = min (2 ^ R.DRV_CNT2.UV_HOLD.width - 1) (s.rd R.DRV_CNT2.UV_HOLD k + 1)) ∧
      (e.on = false ∨ (gateCommand s k = true ∧ supplyLow s k = false) →
        ∃ t, exec (.switchEdgeMeasurement k e) s = .next t ∧
          (t.sig (0x080 + k)).val = edgeWord e.on (edgeValid s k e) e.time ∧ (t.sig (0x080 + k)).age = 0 ∧
          t.rd (if e.on then R.DRV_EDGE.LAST_ON else R.DRV_EDGE.LAST_OFF) k = edgeWord e.on (edgeValid s k e) e.time ∧
          (e.on = true → t.rd R.DRV_STATUS.GATE k = 1) ∧
          (e.on = false → t.rd R.DRV_STATUS.GATE k = 0 ∨ (t.die k).soft = true) ∧
          t.rd R.DRV_CNT2.INVALID k = (if edgeValid s k e then s.rd R.DRV_CNT2.INVALID k
            else min (2 ^ R.DRV_CNT2.INVALID.width - 1) (s.rd R.DRV_CNT2.INVALID k + 1)) ∧
          (s.flag R.DRV_STATUS.GATE (2 * (k / 2)) = false ∨ s.flag R.DRV_STATUS.GATE (2 * (k / 2) + 1) = false →
            t.bridges = s.bridges))) ∧
    (∀ r,
      (∀ b, bridgeOfLeg s (k / 2) = some b → graphRuns s b = true →
        exec (.ntcWrite k r) s = .next (s.setDie k { s.die k with ntc := some r })) ∧
      ((∀ b, bridgeOfLeg s (k / 2) = some b → graphRuns s b = false) →
        (ntcTemp s k r = none → ∃ t, exec (.ntcWrite k r) s = .next t ∧ t.rd R.DRV_STATUS.NTC_ERR k = 1 ∧
          OnlyRegs { s with dies := t.dies } t [fldAddr R.DRV_STATUS.GATE k 0]) ∧
        (∀ x, ntcTemp s k r = some x → ∃ t, exec (.ntcWrite k r) s = .next t ∧ t.rd R.DRV_STATUS.NTC_ERR k = 0 ∧
          (t.rd R.DRV_STATUS.OT_WARN k = 1 ↔ (s.rd R.DRV_NTC.OT_TH k : Rat) < x) ∧ (t.sig (0x0B0 + k)).age = 0 ∧
          t.bridges = s.bridges)))

/-- A trigger starts a list, a result reaches its register, signal and comparison, and autozero delays a continuous
converter. A trigger of a live sequenced converter with a list comes at its tick and starts the list there; during a
running list it counts in OVERLAP and starts nothing; a continuous converter, or one to which no trigger comes,
ignores it. The result of a slot that codes an external input falls TCONV and 8 ticks after its instant at the
earliest, shows in LAST and RAW, writes the value calibrated with the pair in force at its instant, held to the Q15
range, to the signal, and moves the list on; where the higher-numbered converter of the pair has written the same
instant's code, its value stands. A check result within CHK_WIN of its partner's shows the difference in DIFF: above
CHK_TOL it counts a mismatch, otherwise the pair agrees. A converter that is not live gives nothing. While the
converters are up, autozero puts off a continuous converter by 20 ticks and shows nowhere else. -/
def Obligations.ConversionsRun : Prop :=
  ∀ (c : Nat) (s : State), c < 16 →
    (convLive s c = true → isContinuous s c = false → slotList s c ≠ [] →
      (triggerTick s c = none → exec (.converterTrigger c) s = .next s) ∧
      (∀ w, triggerTick s c = some w →
        (listRuns s c = false → exec (.converterTrigger c) s =
          .next ({ s with now := max s.now w }.setConv c { s.conv c with slot := some 0, trig := w, trigAt := some w })) ∧
        (listRuns s c = true → ∃ t, exec (.converterTrigger c) s = .next t ∧ t.now = max s.now w ∧
          (t.conv c).slot = (s.conv c).slot ∧ (t.conv c).trig = (s.conv c).trig ∧
          t.rd R.CV_CNT.OVERLAP c = min (2 ^ R.CV_CNT.OVERLAP.width - 1) (s.rd R.CV_CNT.OVERLAP c + 1) ∧
          OnlyRegs { s with now := t.now, convs := t.convs } t [fldAddr R.CV_CNT.OVERLAP c 0]))) ∧
    (isContinuous s c = true → exec (.converterTrigger c) s = .next s) ∧
    (∀ x, convLive s c = false → exec (.conversionResult c x) s = .next s) ∧
    (∀ raw lost k code, raw < 65536 → convLive s c = true → isContinuous s c = false → (s.conv c).slot = some k →
      (slotList s c)[k]? = some code →
      (code < 8 → ∃ t, exec (.conversionResult c ⟨raw, lost⟩) s = .next t ∧ t.rd R.CV_STATUS.LAST c = raw ∧
        (higherWrote s c code ((s.conv c).trig + 2 + k * tConv s c) = none →
          t.rd R.IN_STATUS.RAW (8 * (c / 2) + code) = raw ∧
          (t.sig (0x010 + (8 * (c / 2) + code))).val = ofSigned 16 (holdQ15 (calibrated
            (toSigned 20 (calPair s (8 * (c / 2) + code) ((s.conv c).trig + 2 + k * tConv s c)).1)
            (toSigned 32 (calPair s (8 * (c / 2) + code) ((s.conv c).trig + 2 + k * tConv s c)).2) (toSigned 16 raw)))) ∧
        (∀ w, higherWrote s c code ((s.conv c).trig + 2 + k * tConv s c) = some w →
          t.rd R.IN_STATUS.RAW (8 * (c / 2) + code) = s.rd R.IN_STATUS.RAW (8 * (c / 2) + code) ∧
          (t.sig (0x010 + (8 * (c / 2) + code))).val = (s.sig (0x010 + (8 * (c / 2) + code))).val % 65536 ∧
          (t.sig (0x010 + (8 * (c / 2) + code))).seq = ((s.sig (0x010 + (8 * (c / 2) + code))).seq + 1) % 256) ∧
        t.now = max s.now ((s.conv c).trig + 2 + k * tConv s c + tConv s c + 8) ∧
        (t.conv c).slot = (if k + 1 < (slotList s c).length then some (k + 1) else none)) ∧
      (∀ t0 r0, code = 0x20 → (s.conv (2 * (c / 2) + (1 - c % 2))).chk = some (t0, r0) → convLive s (2 * (c / 2) + (1 - c % 2)) = true →
        max ((s.conv c).trig + 2 + k * tConv s c) t0 - min ((s.conv c).trig + 2 + k * tConv s c) t0 ≤ s.rd R.TW_CFG.CHK_WIN (c / 2) →
        ∃ t a b, exec (.conversionResult c ⟨raw, lost⟩) s = .next t ∧
          (a, b) = (if c % 2 = 0 then (toSigned 16 raw, r0) else (r0, toSigned 16 raw)) ∧
          t.rd R.TW_STATUS.DIFF (c / 2) = ofSigned 16 (a - b) ∧
          (t.pair (c / 2)).agreed = decide ((a - b).natAbs ≤ s.rd R.TW_CFG.CHK_TOL (c / 2)) ∧
          t.rd R.TW_CNT.MISMATCH (c / 2) = (if s.rd R.TW_CFG.CHK_TOL (c / 2) < (a - b).natAbs
            then min (2 ^ R.TW_CNT.MISMATCH.width - 1) (s.rd R.TW_CNT.MISMATCH (c / 2) + 1) else s.rd R.TW_CNT.MISMATCH (c / 2)))) ∧
    (convLive s c = true → isContinuous s c = true → controlUp s = true →
      exec (.autozero c) s = .next (s.setConv c { s.conv c with trig := (s.conv c).trig + 20 })) ∧
    (isContinuous s c = false ∨ controlUp s = false → exec (.autozero c) s = .next s)

/-- CAL_ZERO and CAL_FULL, the end of an average, CAL_STORE and its end, CAL_DISCARD and CAL_READ. A taken CAL_ZERO or
CAL_FULL in range, with the owner of the input below mode 2, no average on it, no store, and a live sequenced
converter, is ACCEPTED: the average of 2^LOG2N results runs and CAL_BUSY is 1. Its end takes the run away with
CAL_BUSY 0 and the code of its check in CAL_ERR: a passed zero sets NEW_OFS and CAND_OFS, a failed average changes no
candidate. An authenticated CAL_STORE of inputs with candidates is ACCEPTED; its end, in the turn of its write, puts
each candidate in force for conversions sampled from then on and clears it, or leaves the calibration and shows 8.
CAL_DISCARD clears the candidates of its mask and no others. CAL_READ changes nothing. -/
def Obligations.CalibrationRuns : Prop :=
  ∀ (h : Hdr) (s : State),
    (∀ n l, n < 64 → 4 ≤ l → l ≤ 16 → ownerWorks s n = false → calRun s n = none → s.cal.store = none →
      (inputConvs s n).any (fun c => convLive s c && !isContinuous s c) = true →
      (cmdReady (.calZero h n l) s = true → ∃ t, exec (.calZero h n l) s = .next (answer (.calZero h n l) stAccepted [] t) ∧
        calRun t n = some { full := none, n := 2 ^ l, start := s.now } ∧ t.rd R.IN_STATUS.CAL_BUSY n = 1 ∧ isRunning t 0x0601 n = true) ∧
      (∀ q, 0 < q → q < 65536 → cmdReady (.calFull h n l q) s = true →
        ∃ t, exec (.calFull h n l q) s = .next (answer (.calFull h n l q) stAccepted [] t) ∧
          calRun t n = some { full := some (toSigned 16 q), n := 2 ^ l, start := s.now } ∧ t.rd R.IN_STATUS.CAL_BUSY n = 1 ∧
          isRunning t 0x0602 n = true)) ∧
    (∀ n r, n < 64 → calRun s n = some r →
      ∃ t, exec (.calAverageEnd n) s = .next t ∧ calRun t n = none ∧ t.rd R.IN_STATUS.CAL_BUSY n = 0 ∧
        t.rd R.IN_STATUS.CAL_ERR n = calCheck s n r ∧ t.rd R.IN_OFS.OFS n = s.rd R.IN_OFS.OFS n ∧
        t.rd R.IN_GAIN.GAIN n = s.rd R.IN_GAIN.GAIN n ∧
        (calCheck s n r = 0 → r.full = none → t.rd R.IN_NEW_OFS.OFS n = ofSigned 20 (m16 r) ∧ t.flag R.IN_STATUS.CAND_OFS n = true ∧
          t.flag R.IN_STATUS.CAND_GAIN n = false) ∧
        (calCheck s n r ≠ 0 → t.rd R.IN_NEW_OFS.OFS n = s.rd R.IN_NEW_OFS.OFS n ∧ hasCandidate t n = hasCandidate s n)) ∧
    (∀ m, cmdAuth (.calStore h m) .any s = true → (∀ n ∈ maskBits 64 m, hasCandidate s n = true ∧ ownerWorks s n = false) →
      s.cal.store = none → s.cal.runs = [] →
      ∃ t, exec (.calStore h m) s = .next (signed (.calStore h m) stAccepted [] s t) ∧ t.cal.store = some (maskBits 64 m) ∧
        isRunning t 0x0603 0 = true ∧ ∀ n, n < 64 → t.rd R.IN_OFS.OFS n = s.rd R.IN_OFS.OFS n) ∧
    (∀ ok, flashNow s ≠ some 2 → exec (.calStoreDone ok) s = .next s) ∧
    (∀ l, s.cal.store = some l → flashNow s = some 2 → (∀ n ∈ l, n < 64) →
      (∃ t, exec (.calStoreDone true) s = .next t ∧ t.cal.store = none ∧ t.cal.copies.length ≤ 2 ∧
        ∀ n ∈ l, hasCandidate t n = false ∧ calPair t n (s.now + 1) = (t.rd R.IN_OFS.OFS n, t.rd R.IN_GAIN.GAIN n) ∧ t.rd R.IN_STATUS.CAL_ERR n = 0 ∧
          t.rd R.IN_OFS.OFS n = (if s.flag R.IN_STATUS.CAND_OFS n then s.rd R.IN_NEW_OFS.OFS n else s.rd R.IN_OFS.OFS n) ∧
          t.rd R.IN_GAIN.GAIN n = (if s.flag R.IN_STATUS.CAND_GAIN n then s.rd R.IN_NEW_GAIN.GAIN n else s.rd R.IN_GAIN.GAIN n)) ∧
      (∃ t, exec (.calStoreDone false) s = .next t ∧ t.cal = { s.cal with store := none } ∧
        ∀ n ∈ l, t.rd R.IN_STATUS.CAL_ERR n = 8 ∧ t.rd R.IN_OFS.OFS n = s.rd R.IN_OFS.OFS n ∧
          t.rd R.IN_GAIN.GAIN n = s.rd R.IN_GAIN.GAIN n ∧ hasCandidate t n = hasCandidate s n)) ∧
    (∀ m, cmdReady (.calDiscard h m) s = true →
      ∃ t, exec (.calDiscard h m) s = .next (answer (.calDiscard h m) stDone [] t) ∧ ∀ n, n < 64 →
        hasCandidate t n = (if bitAt m n then false else hasCandidate s n) ∧ t.rd R.IN_OFS.OFS n = s.rd R.IN_OFS.OFS n ∧
        t.rd R.IN_GAIN.GAIN n = s.rd R.IN_GAIN.GAIN n) ∧
    (∀ n, cmdReady (.calRead h n) s = true → n < 64 → ∃ d, d.length = 20 ∧
      exec (.calRead h n) s = .next (answer (.calRead h n) stDone d s) ∧ (d.drop 4).take 4 = le 4 (s.rd R.IN_GAIN.GAIN n))

/-- CAP_ARM, CAP_DISARM, CAP_FORCE, CAP_LIST, CAP_READ and CAP_RELEASE. A taken CAP_ARM whose checks pass is DONE: every
unit of the group fills from an empty ring under its next record number, READY at once where PRE is 0; where one is
not IDLE it is BUSY and changes nothing but VG_ERR. A taken CAP_DISARM of a unit that may name its group leaves every
unit of it IDLE with no pane. CAP_FORCE of a READY unit alone that enables source 9 fires it; not READY it is BUSY and
counts as ignored; not enabled it is WRONG_MODE. CAP_LIST answers the held records. CAP_READ of a held record answers
its bytes and marks it as read; CAP_RELEASE takes it away; neither writes a register. -/
def Obligations.CaptureCommandsAct : Prop :=
  ∀ (h : Hdr) (u : Nat) (s : State), u < 8 →
    (cmdReady (.capArm h u) s = true → capArmUnit s u = true →
      ((capMembers s u).all (fun m => decide (capState s m = 0) && capCfgOk s m && capSourceOk s m) = true →
        panesNeeded s (capMembers s u) ≤ takeable s → islandsHeld s = false →
        ∃ t, exec (.capArm h u) s = .next (answer (.capArm h u) stDone [] t) ∧ t.capture.records = s.capture.records ∧
          ∀ m ∈ capMembers s u, capState t m = (if capPre s m = 0 then 2 else 1) ∧ (t.unit m).taken = 0 ∧ (t.unit m).ring = [] ∧
            t.rd R.CAP_REC.REC_NO m = (if (s.unit m).used then (s.rd R.CAP_REC.REC_NO m + 1) % 2 ^ R.CAP_REC.REC_NO.width else 0)) ∧
      (capState s u ≠ 0 → exec (.capArm h u) s = .next (answer (.capArm h u) stBusy [] (refusedBy (.capArm h u) stBusy s)))) ∧
    (cmdReady (.capDisarm h u) s = true → (s.flag R.CAP_CFG.GROUP u = true → s.rd R.CAP_GROUP.MASTER = u) →
      ∃ t, exec (.capDisarm h u) s = .next (answer (.capDisarm h u) stDone [] t) ∧
        ∀ m ∈ capMembers s u, capState t m = 0 ∧ (t.unit m).panes = [] ∧ (t.unit m).ring = []) ∧
    (cmdReady (.capForce h u) s = true → s.flag R.CAP_CFG.GROUP u = false →
      (bitAt (s.rd R.CAP_TRIG.SRC_EN u) 9 = true → capState s u = 2 → s.capture.due = [] → readyAt s u ≤ s.now →
        ∃ t, exec (.capForce h u) s = .next (answer (.capForce h u) stDone [] t) ∧ t.flag R.CAP_EVENT.FIRED_EV u = true ∧
          ∀ m, m < 8 → m ≠ u → t.unit m = s.unit m) ∧
      (bitAt (s.rd R.CAP_TRIG.SRC_EN u) 9 = true → capState s u = 1 →
        ∃ t, exec (.capForce h u) s = .next (answer (.capForce h u) stBusy [] (refusedBy (.capForce h u) stBusy t)) ∧ capState t u = 1 ∧
          t.rd R.CAP_CNT.IGNORED u = min (2 ^ R.CAP_CNT.IGNORED.width - 1) (s.rd R.CAP_CNT.IGNORED u + 1)) ∧
      (bitAt (s.rd R.CAP_TRIG.SRC_EN u) 9 = false →
        exec (.capForce h u) s = .next (answer (.capForce h u) stWrongMode [] (refusedBy (.capForce h u) stWrongMode s)))) ∧
    (cmdReady (.capList h) s = true → s.capture.records.length ≤ 64 → ∃ d, d.length = 1 + 12 * s.capture.records.length ∧
      exec (.capList h) s = .next (answer (.capList h) stDone d s)) ∧
    (∀ n r, findRec s u n = some r →
      (∀ o l, cmdReady (.capRead h u n o l) s = true → 0 < l → l ≤ 1024 → o + l ≤ r.bytes.length →
        ∃ t, exec (.capRead h u n o l) s = .next (answer (.capRead h u n o l) stDone (slice r.bytes o l) t) ∧ t.regs = s.regs ∧
          findRec t u n = some { r with reading := true }) ∧
      (cmdReady (.capRelease h u n) s = true →
        ∃ t, exec (.capRelease h u n) s = .next (answer (.capRelease h u n) stDone [] t) ∧ t.regs = s.regs ∧ findRec t u n = none ∧
          ∀ v m, (v ≠ u ∨ m ≠ n) → findRec t v m = findRec s v m)) ∧
    (∀ n o l, findRec s u n = none → cmdReady (.capRead h u n o l) s = true →
      exec (.capRead h u n o l) s = .next (answer (.capRead h u n o l) stBadParam [] (refusedBy (.capRead h u n o l) stBadParam s)))

/-- Rows, fires, the wait for panes, and the trigger pins. A row of a unit in MODE 1 that fills or is READY is taken at
the next multiple of DIV × 4,000 ticks, goes to its place in the ring with the values of its channels, and makes the
unit READY once PRE rows stand; a lost row counts in LOST and leaves the ring; a word of wrong parity is reset source
17. In MODE 0 of a bridge with no graph placed every DIV-th input point its bridge would have takes one. A unit that
is IDLE or waits for panes takes none, nor does one whose record is full. The fire time of an accepted trigger fires
its units. A unit that waits for panes fills again once enough are free, and waits on otherwise. A change of an input
pin shorter than FILT counts as lost; a longer one is the new level of that pin and of no other. The end of a pulse
returns its output alone. -/
def Obligations.CaptureEventsAct : Prop :=
  ∀ (u : Nat) (s : State), u < 8 →
    (capMode s u = 1 → capState s u = 1 ∨ capState s u = 2 → (s.unit u).full = false → ∀ lost,
      (wordsSound s (capChans s u) = false → ∃ t, exec (.captureRow u lost) s = .next t ∧ bitAt (t.rd R.RS_CAUSE.CAUSE) 17 = true) ∧
      (wordsSound s (capChans s u) = true → ∃ t, exec (.captureRow u lost) s = .next t ∧ t.now = max s.now (timebaseStrike s u) ∧
        (t.unit u).taken = (s.unit u).taken + 1 ∧
        capState t u = (if capState s u = 2 ∨ capPre s u ≤ (s.unit u).taken + 1 then 2 else 1) ∧
        (lost = false → ((t.unit u).ring.find? (fun e => decide (e.1 = (s.unit u).taken % capRows s u))).map (fun e => (e.2.n, e.2.bytes)) =
          some ((s.unit u).taken, chanRow s u (fun i => (s.sig i).val))) ∧
        (lost = true → (t.unit u).ring = (s.unit u).ring ∧
          t.rd R.CAP_CNT.LOST u = min (2 ^ R.CAP_CNT.LOST.width - 1) (s.rd R.CAP_CNT.LOST u + 1)))) ∧
    (capMode s u = 0 → capState s u = 1 ∨ capState s u = 2 → (s.unit u).full = false → (s.br (s.rd R.CAP_CFG.BR u)).placed = none →
      0 < presentPer s (s.rd R.CAP_CFG.BR u) → wordsSound s (capChans s u) = true →
      ∀ lost, ∃ t, exec (.captureRow u lost) s = .next t ∧ t.now = max s.now (peakStrike s u (s.rd R.CAP_CFG.BR u)) ∧
        (t.unit u).taken = (if capDiv s u ≤ (s.unit u).div + 1 then (s.unit u).taken + 1 else (s.unit u).taken) ∧
        (t.unit u).div = (if capDiv s u ≤ (s.unit u).div + 1 then 0 else (s.unit u).div + 1)) ∧
    (capState s u = 0 ∨ capState s u = 4 ∨ (s.unit u).full = true ∨ capMode s u = 2 → ∀ lost, exec (.captureRow u lost) s = .next s) ∧
    (∀ us on_ f, s.capture.due.find? (fun d => d.1.contains u) = some (us, on_, f) →
      ∃ t, exec (.captureFire u) s = .next t ∧ t.now = max s.now f.time ∧ t.flag R.CAP_EVENT.FIRED_EV u = true) ∧
    (s.capture.due.find? (fun d => d.1.contains u) = none → exec (.captureFire u) s = .next s) ∧
    (capState s u = 4 →
      (panesNeeded s (capMembers s u) ≤ takeable s →
        ∃ t, exec (.paneWaitRearm u) s = .next t ∧ t.now = s.now ∧
          ∀ m ∈ capMembers s u, capState t m = (if capPre s m = 0 then 2 else 1) ∧ (t.unit m).taken = 0) ∧
      (takeable s < panesNeeded s (capMembers s u) → exec (.paneWaitRearm u) s = .next s)) ∧
    (∀ p v k, p < 4 → s.flag R.CAP_PIN.DIR 0 p = false → bitAt s.capture.pins p = !v →
      (k < s.rd R.CAP_PIN.FILT 0 p → ∃ t, exec (.trigPinInput p v k) s = .next t ∧ t.capture = s.capture ∧
        t.rd R.CAP_PIN.LOST 0 p = min (2 ^ R.CAP_PIN.LOST.width - 1) (s.rd R.CAP_PIN.LOST 0 p + 1)) ∧
      (s.rd R.CAP_PIN.FILT 0 p ≤ k → ∃ t, exec (.trigPinInput p v k) s = .next t ∧ bitAt t.capture.pins p = v ∧
        (∀ q, q ≠ p → bitAt t.capture.pins q = bitAt s.capture.pins q) ∧
        (v ≠ s.flag R.CAP_PIN.POL 0 p → t = { s with capture := { s.capture with pins := t.capture.pins } }))) ∧
    (∀ p, (bitAt s.capture.pulsing p = false → exec (.trigOutputPulseEnd p) s = .next s) ∧
      (bitAt s.capture.pulsing p = true → ∃ t, exec (.trigOutputPulseEnd p) s = .next t ∧ bitAt t.capture.pulsing p = false ∧
        (∀ q, q ≠ p → bitAt t.capture.pulsing q = bitAt s.capture.pulsing q) ∧ t.regs = s.regs ∧ t.now = max s.now s.capture.pulseTill ∧
        t.capture = { s.capture with pulsing := t.capture.pulsing }))

/-- CFG_REQ, TX_REQ, the buffer window and its read lock. When the command is taken. CFG_REQ leaves a controller that is
not on the bus in CONFIG with no transmission pending, and lets one on the bus wait for the bus to idle in its state.
TX_REQ on an enabled TX object of a controller on the bus without MON sets TX_PEND with ATTEMPTS 0, and is BUSY while
TX_PEND is 1. A read of BUF_ID answers the identifier word of the object MO_SEL names and takes the lock of that
object where none is held. A read of BUF_DATA15 answers the last word, and with no frame held clears NEW and releases
the lock. A write of MO_SEL names the object and releases the lock. The timeout releases it 1 ms after it was taken,
counts, and leaves NEW. -/
def Obligations.CanRegisterCommands : Prop :=
  ∀ (h : Hdr) (c : Nat) (s : State), c < 4 →
    (cmdReady (.cfgReq h c) s = true →
      (canOnBus s c = false → ∃ t, exec (.cfgReq h c) s = .next (answer (.cfgReq h c) stDone [] t) ∧ canState t c = 0 ∧
        pendingObjs t c = []) ∧
      (canOnBus s c = true → ∃ t, exec (.cfgReq h c) s = .next (answer (.cfgReq h c) stDone [] t) ∧ canState t c = canState s c ∧
        t.can c = { s.can c with cfgWait := true } ∧ pendingObjs t c = pendingObjs s c)) ∧
    (∀ k, k < 64 → cmdReady (.txReq h c k) s = true → s.flag R.MO_CFG.EN c k = true → s.flag R.MO_CFG.DIR c k = true →
      s.flag R.CF_MODE.MON c = false → canOnBus s c = true →
      (s.flag R.MO_STAT.TX_PEND c k = false →
        ∃ t, exec (.txReq h c k) s = .next (answer (.txReq h c k) stDone [] t) ∧ t.flag R.MO_STAT.TX_PEND c k = true ∧
          t.rd R.MO_STAT.ATTEMPTS c k = 0 ∧ OnlyRegs { s with cans := t.cans } t [fldAddr R.MO_STAT.TX_REQ c k]) ∧
      (s.flag R.MO_STAT.TX_PEND c k = true → ∃ t, exec (.txReq h c k) s =
        .next (answer (.txReq h c k) stBusy [] (refusedBy (.txReq h c k) stBusy t)) ∧ t.cans = s.cans ∧
          t.rd R.MO_STAT.TX_PEND c k = s.rd R.MO_STAT.TX_PEND c k)) ∧
    (cmdReady (.bufIdRead h c) s = true →
      ∃ t, exec (.bufIdRead h c) s = .next (answer (.bufIdRead h c) stDone
          (le 4 ((s.obj c (s.rd R.MO_SEL.MO_SEL c)).buf.getD 0 0)) t) ∧
        ((s.can c).lock = none → (t.can c).lock = some (s.rd R.MO_SEL.MO_SEL c, s.now) ∧
          t.flag R.MO_STAT.LOCK c (s.rd R.MO_SEL.MO_SEL c) = true) ∧
        ((s.can c).lock ≠ none → t = s)) ∧
    (cmdReady (.bufData15Read h c) s = true → (∀ k, (s.obj c k).held = none) →
      ∃ t, exec (.bufData15Read h c) s = .next (answer (.bufData15Read h c) stDone
          (le 4 ((s.obj c (s.rd R.MO_SEL.MO_SEL c)).buf.getD 19 0)) t) ∧
        t.rd R.MO_STAT.NEW c (s.rd R.MO_SEL.MO_SEL c) = 0 ∧ (t.can c).lock = none) ∧
    (∀ k, k < 64 → cmdReady (.moSelWrite h c k) s = true →
      ∃ t, exec (.moSelWrite h c k) s = .next (answer (.moSelWrite h c k) stDone [] t) ∧ t.rd R.MO_SEL.MO_SEL c = k ∧
        (t.can c).lock = none) ∧
    ((s.can c).lock = none → exec (.lockTimeout c) s = .next s) ∧
    (∀ k t0, (s.can c).lock = some (k, t0) → (s.obj c k).held = none → k < 64 →
      ∃ t, exec (.lockTimeout c) s = .next t ∧ t.now = max s.now (t0 + 400000) ∧ (t.can c).lock = none ∧
        t.rd R.MO_STAT.LOCK c k = 0 ∧ t.rd R.MO_STAT.NEW c k = s.rd R.MO_STAT.NEW c k ∧ t.flag R.CF_EVENT.LOCKTO_EV c = true ∧
        t.rd R.CF_CNT2.LOCK_TO c = min (2 ^ R.CF_CNT2.LOCK_TO.width - 1) (s.rd R.CF_CNT2.LOCK_TO c + 1))

/-- CAN_BUS_ON, CAN_SLEEP, CAN_STATUS, CAN_MAP and the states they lead to. Outside the timing islands' reset a taken
CAN_BUS_ON with none running is ACCEPTED: from CONFIG the controller integrates, from SLEEP it does with a wake event,
from BUS_OFF it recovers; on the bus it is WRONG_MODE. The end of the integration puts it on the bus by its counters,
and ends the command where it is ERROR_ACTIVE; the end of the recovery does so with both counters 0. CAN_SLEEP on the
bus is ACCEPTED and waits for the bus to idle, where the controller sleeps with its counters kept; a waiting CFG_REQ
then enters CONFIG. A wake that matches integrates again. CAN_STATUS answers four registers and changes nothing.
CAN_MAP of an RX object within its ranges with no signal of another mapping, while no bridge runs, sets that object's
mapping alone; an entry of one byte clears it. -/
def Obligations.CanBusCommands : Prop :=
  ∀ (h : Hdr) (c : Nat) (s : State), c < 4 →
    (cmdReady (.canBusOn h c) s = true → isRunning s 0x0A01 c = false → islandsHeld s = false →
      (canState s c = 0 ∨ canState s c = 4 ∨ canState s c = 6 →
        ∃ t, exec (.canBusOn h c) s = .next (answer (.canBusOn h c) stAccepted [] t) ∧ isRunning t 0x0A01 c = true ∧
          canState t c = (if canState s c = 4 then 5 else 1) ∧ (canState s c = 6 → t.flag R.CF_EVENT.WAKE_EV c = true)) ∧
      (canOnBus s c = true → exec (.canBusOn h c) s =
        .next (answer (.canBusOn h c) stWrongMode [] (refusedBy (.canBusOn h c) stWrongMode s)))) ∧
    (cmdReady (.canSleep h c) s = true →
      (canOnBus s c = true → isRunning s 0x0A03 c = false →
        ∃ t, exec (.canSleep h c) s = .next (answer (.canSleep h c) stAccepted [] t) ∧ t.can c = { s.can c with sleepWait := true } ∧
          canState t c = canState s c ∧ isRunning t 0x0A03 c = true) ∧
      (canOnBus s c = false → exec (.canSleep h c) s =
        .next (answer (.canSleep h c) stWrongMode [] (refusedBy (.canSleep h c) stWrongMode s)))) ∧
    (cmdReady (.canStatus h c) s = true → exec (.canStatus h c) s = .next (answer (.canStatus h c) stDone
      ([A.CF_STATUS, A.CF_CNT, A.CF_CNT2, A.CF_EVENT].flatMap (fun a => le 4 (s.reg (a + 0x1000 * c)).toNat)) s)) ∧
    (∀ k (big : Bool) (ps : List (Byte × Byte)), cmdReady (.canMap h c (le 1 k ++ le 1 (b2n big) ++ ps.flatMap (fun p => [p.1, p.2]))) s = true →
      k < 64 → s.flag R.MO_CFG.DIR c k = false → 1 ≤ ps.length → ps.length ≤ 15 →
      (∀ p ∈ ps, p.1.toNat ≤ 62 ∧ p.2.toNat ≤ 63 ∧ mappedElsewhere s c k p.2.toNat = false) → (∀ b, b < 4 → modeOf s b = 0) →
      ∃ t, exec (.canMap h c (le 1 k ++ le 1 (b2n big) ++ ps.flatMap (fun p => [p.1, p.2]))) s =
          .next (answer (.canMap h c (le 1 k ++ le 1 (b2n big) ++ ps.flatMap (fun p => [p.1, p.2]))) stDone [] t) ∧
        t.obj c k = { s.obj c k with map := some (big, ps.map (fun p => (p.1.toNat, p.2.toNat))) } ∧ t.regs = s.regs ∧
        (∀ d j, (d ≠ c ∨ j ≠ k) → t.obj d j = s.obj d j)) ∧
    (∀ k, cmdReady (.canMap h c (le 1 k)) s = true → k < 64 → s.flag R.MO_CFG.DIR c k = false → (∀ b, b < 4 → modeOf s b = 0) →
      ∃ t, exec (.canMap h c (le 1 k)) s = .next (answer (.canMap h c (le 1 k)) stDone [] t) ∧
        t.obj c k = { s.obj c k with map := none } ∧ t.regs = s.regs) ∧
    (∀ w, canState s c = 6 → wakes s c w = true → ∃ t, exec (.canWake c w) s = .next t ∧ canState t c = 1 ∧
      t.flag R.CF_EVENT.WAKE_EV c = true) ∧
    (∀ w, canState s c ≠ 6 ∨ wakes s c w = false → exec (.canWake c w) s = .next s) ∧
    (canState s c = 1 → ∃ t, exec (.integrationDone c) s = .next t ∧ canState t c = busState s c ∧
      (t.rd R.CF_STATUS.TEC c = s.rd R.CF_STATUS.TEC c ∧ t.rd R.CF_STATUS.REC c = s.rd R.CF_STATUS.REC c) ∧
      (isRunning s 0x0A01 c = true → busState s c = 2 → t.rd R.VG_ASYNC.RESULT = 1) ∧
      (busState s c = 3 → isRunning t 0x0A01 c = isRunning s 0x0A01 c)) ∧
    (canState s c = 5 → ∃ t, exec (.busOffRecoveryDone c) s = .next t ∧ canState t c = 2 ∧ t.rd R.CF_STATUS.TEC c = 0 ∧
      t.rd R.CF_STATUS.REC c = 0 ∧ (isRunning s 0x0A01 c = true → t.rd R.VG_ASYNC.RESULT = 1)) ∧
    (canOnBus s c = true →
      ((s.can c).sleepWait = true → ∃ t, exec (.canSleepEnter c) s = .next t ∧
        canState t c = (if (s.can c).cfgWait then 0 else 6) ∧ pendingObjs t c = [] ∧ (t.can c).cfgWait = false ∧
        t.rd R.CF_STATUS.TEC c = s.rd R.CF_STATUS.TEC c ∧ t.rd R.CF_STATUS.REC c = s.rd R.CF_STATUS.REC c ∧
        (isRunning s 0x0A03 c = true → t.rd R.VG_ASYNC.RESULT = 1)) ∧
      ((s.can c).cfgWait = true → ∃ t, exec (.canConfigEnter c) s = .next t ∧ canState t c = 0 ∧ pendingObjs t c = [] ∧
        (t.can c).cfgWait = false))

/-- Frames received and transmitted, receive errors, and the reference message. A controller off the bus takes no frame.
On the bus a time slave takes a data frame with REF_ID; one that neither it nor the transport takes goes to the lowest
object that matches: unlocked, its buffer holds the identifier, control, timestamp and data with NEW set, and OVR
where NEW stood; locked, it is held where a slot is free. The offered transmission that is sent clears its TX_PEND and
lowers TEC by 1; a failed one with no retry limit raises TEC by 8 and stays pending, one past its limit is abandoned,
and above 255 the controller is BUS_OFF with nothing pending. A transport segment and the reference message are sent
likewise. Lost arbitration changes nothing. A receive error raises REC by 1, and by 8 for each further condition,
unless MON is 1, and the state follows the counters. A time master queues its message at the next multiple of REF_PER
ms, with the next sequence number. -/
def Obligations.CanTraffic : Prop :=
  ∀ (c : Nat) (s : State), c < 4 →
    (canOnBus s c = false → (∀ f, exec (.frameReceive c f) s = .next s) ∧ (∀ k o, exec (.frameTransmit c k o) s = .next s) ∧
      (∀ e, exec (.canReceiveError c e) s = .next s) ∧ exec (.referenceMessageDue c) s = .next s) ∧
    (canOnBus s c = true →
      (∀ f k, (isReference s c f = true → f.rtr = true) → (canOn s && decide (canSel s = c) && isCommandFrame s f) = false → f.rtr = false →
        (List.range 64).find? (objMatches s c f) = some k →
        (s.flag R.MO_STAT.LOCK c k = false → ∃ t, exec (.frameReceive c f) s = .next t ∧ t.flag R.MO_STAT.NEW c k = true ∧
          (t.obj c k).buf = rxWords s f ∧ (s.flag R.MO_STAT.NEW c k = true → t.flag R.MO_STAT.OVR c k = true) ∧
          (∀ j, j ≠ k → t.obj c j = s.obj c j)) ∧
        (s.flag R.MO_STAT.LOCK c k = true → (s.obj c k).held = none → holdsUsed s c < 4 →
          ∃ t, exec (.frameReceive c f) s = .next t ∧ (t.obj c k).held = some (rxWords s f) ∧ (t.obj c k).buf = (s.obj c k).buf ∧
            t.flag R.MO_STAT.HELD c k = true ∧ t.rd R.MO_STAT.NEW c k = s.rd R.MO_STAT.NEW c k)) ∧
      (∀ f, (isReference s c f = true → f.rtr = true) → (canOn s && decide (canSel s = c) && isCommandFrame s f) = false →
        f.rtr = true ∨ (List.range 64).find? (objMatches s c f) = none →
        ∃ t, exec (.frameReceive c f) s = .next t ∧ t.cans = s.cans ∧ t.board = s.board ∧
          (s.flag R.CF_MODE.MON c = false → s.rd R.CF_STATUS.REC c ≤ 127 →
            t.rd R.CF_STATUS.REC c = s.rd R.CF_STATUS.REC c - 1)) ∧
      (∀ f, isReference s c f = true → f.rtr = false →
        ∃ t, exec (.frameReceive c f) s = .next t ∧ (t.can c).refGot = some (byteAt f.data 0, tsNow s % 2 ^ 48)) ∧
      (∀ k, s.flag R.CF_MODE.MON c = false → offered s c = some k → k < 64 →
        exec (.frameTransmit c k .lost) s = .next s ∧
        (∃ t, exec (.frameTransmit c k .sent) s = .next t ∧ t.flag R.MO_STAT.TX_PEND c k = false ∧
          t.rd R.CF_STATUS.TEC c = s.rd R.CF_STATUS.TEC c - 1 ∧ (t.can c).sent = some (objFrame s c k)) ∧
        (∀ code pos, canState s c = 2 → s.flag R.CF_MODE.RTRY_INF c = true → s.rd R.CF_STATUS.TEC c + 8 ≤ 255 → code < 8 →
          ∃ t, exec (.frameTransmit c k (.error code pos)) s = .next t ∧ t.rd R.CF_STATUS.TEC c = s.rd R.CF_STATUS.TEC c + 8 ∧
            t.rd R.CF_STATUS.LAST_ERR c = code ∧ t.rd R.MO_STAT.TX_PEND c k = s.rd R.MO_STAT.TX_PEND c k ∧
            canState t c = busState t c) ∧
        (∀ code pos, pastArbitration (objFrame s c k) ≤ pos → s.flag R.CF_MODE.RTRY_INF c = false →
          s.rd R.CF_MODE.RTRY_LIM c ≤ (s.obj c k).fails →
          ∃ t, exec (.frameTransmit c k (.error code pos)) s = .next t ∧ t.flag R.MO_STAT.TX_PEND c k = false ∧
            t.flag R.MO_STAT.TX_ABT c k = true ∧ t.flag R.CF_EVENT.ABT_EV c = true) ∧
        (∀ code pos, code ≠ 3 → 255 < s.rd R.CF_STATUS.TEC c + 8 → (s.can c).cfgWait = false →
          ∃ t, exec (.frameTransmit c k (.error code pos)) s = .next t ∧ canState t c = 4 ∧ pendingObjs t c = [] ∧
            t.flag R.CF_EVENT.BUSOFF_EV c = true)) ∧
      (s.flag R.CF_MODE.MON c = false → offered s c = some 64 →
        ∃ t, exec (.frameTransmit c 64 .sent) s = .next t ∧ t.host.segSent = s.host.segSent + 1 ∧
          (t.can c).sent = replyFrame s c ∧ t.host.can.rp = s.host.can.rp) ∧
      (s.flag R.CF_MODE.MON c = false → offered s c = some 65 →
        ∃ t, exec (.frameTransmit c 65 .sent) s = .next t ∧ (t.can c).refPend = false ∧
          (t.can c).refSent = some (tsNow s % 2 ^ 48) ∧ (t.can c).sent = some (refFrame s c)) ∧
      (∀ e, ∃ t, exec (.canReceiveError c e) s = .next t ∧ t.rd R.CF_STATUS.LAST_ERR c = e.code % 2 ^ R.CF_STATUS.LAST_ERR.width ∧
        t.cans = s.cans ∧
        (s.flag R.CF_MODE.MON c = true → t.rd R.CF_STATUS.REC c = s.rd R.CF_STATUS.REC c ∧ canState t c = canState s c) ∧
        (s.flag R.CF_MODE.MON c = false → t.rd R.CF_STATUS.REC c = min 255 (s.rd R.CF_STATUS.REC c + 1 + 8 * e.eights) ∧
          canState t c = busState t c)) ∧
      (s.flag R.CF_MODE.TM_EN c = true → ∃ t, exec (.referenceMessageDue c) s = .next t ∧
        t.now = max s.now (refDue s c) ∧
        (t.can c).refSeq = ((s.can c).refSeq + 1) % 256 ∧ (t.can c).refPend = true ∧ (t.can c).refAt = some (refDue s c) ∧
        t.obj c 65 = {} ∧ (∀ j, j ≠ 65 → t.obj c j = s.obj c j) ∧ t.regs = s.regs))

/-- Samples, Sill ticks and test pulses are judged, and every bridge on which an STO or SCO acts is SEALED; the safety
information commands. After a sample, a Sill tick, the end of a running test pulse's blanking, or a read of the seal
switches, every bridge on which an STO or SCO acts is SEALED and the ACT fields show the bridges on which each
function acts. A sample leaves each channel at the level its filter gives. A tick counts in the Sill's time, and an
input whose channels have differed for longer than DISC_T has its discrepancy latched. A test pulse starts in its Sill
tick, counted as log entry 129 says, while none of its output runs, and blanks the channels that outputs in their
pulses supply; the end of the blanking, 100 µs after it, frees its channels and latches one that still read 1.
SAFETY_STATUS, SAFETY_CODE and SAFETY_LOG answer their registers or entry and change nothing. -/
def Obligations.SafetyInputsJudged : Prop :=
  ∀ (h : Hdr) (s : State),
    (∀ c, (∃ l, c = .safetyInputSample l) ∨ c = .discrepancyTick ∨
        (∃ o l, c = .testPulseBlankEnd o l ∧ (testOut s o).start.isSome = true) ∨ (∃ l p, c = .sealSwitchRead l p) →
      ∃ t, exec c s = .next t ∧ s.now ≤ t.now ∧ (∀ b, b < 4 → bitAt (stoMask t ||| scoMask t) b = true → modeOf t b = 0) ∧
        t.rd R.SF_STATUS.STO_ACT = stoMask t % 16 ∧ t.rd R.SF_STATUS.SS1_ACT = ss1Mask t % 16 ∧ t.rd R.SF_STATUS.SCO_ACT = scoMask t % 16) ∧
    (∀ l, ∃ t, exec (.safetyInputSample l) s = .next t ∧ ∀ i, i < 9 →
      sinA t i = (sampleChannel (sinFilt s i) (s.sin i).blankA (sinA s i) (bitAt l (2 * i)) (s.sin i).runA).1 ∧
      sinB t i = (sampleChannel (sinFilt s i) (s.sin i).blankB (sinB s i) (bitAt l (2 * i + 1)) (s.sin i).runB).1) ∧
    (∃ t, exec .discrepancyTick s = .next t ∧ t.sill.ticks = (s.sill.ticks + 1) % 2 ^ 32 ∧ ∀ i, i < 9 →
      (sinDisc s i = false → sinA s i ≠ sinB s i → (s.sin i).d = sinDiscT s i → sinDisc t i = true) ∧
      (sinDisc s i = false → sinA s i = sinB s i → sinDisc t i = false)) ∧
    (∀ o, o < 4 → pulseTick s o = true → (testOut s o).start = none →
      ∃ t, exec (.testPulse o) s = .next t ∧ t = { s with sill := t.sill } ∧ (testOut t o).start = some s.now ∧
        (∀ p, p ≠ o → testOut t p = testOut s p) ∧ ∀ i, i < 9 →
        (t.sin i).blankA = (sinTpEn s i && (testOut t (sinTpA s i)).start.isSome) ∧
        (t.sin i).blankB = (sinTpEn s i && (testOut t (sinTpB s i)).start.isSome)) ∧
    (∀ o, 3 < o ∨ pulseTick s o = false ∨ (testOut s o).start.isSome = true → exec (.testPulse o) s = .next s) ∧
    (∀ o l, (testOut s o).start = none → exec (.testPulseBlankEnd o l) s = .next s) ∧
    (∀ o l t0, (testOut s o).start = some t0 → ∃ t, exec (.testPulseBlankEnd o l) s = .next t ∧
      t.now = max s.now (t0 + (s.rd R.SF_TP.TP_W + 100) * 392) ∧ (testOut t o).start = none ∧ ∀ i, i < 9 →
      (t.sin i).blankA = ((s.sin i).blankA && !testsA s i o) ∧ (t.sin i).blankB = ((s.sin i).blankB && !testsB s i o) ∧
      ((s.sin i).blankA = true → testsA s i o = true → bitAt l (2 * i) = true → sinTp t i = true ∧ (t.sin i).tpA = true) ∧
      ((s.sin i).blankB = true → testsB s i o = true → bitAt l (2 * i + 1) = true → sinTp t i = true ∧ (t.sin i).tpB = true)) ∧
    (cmdReady (.safetyStatus h) s = true → exec (.safetyStatus h) s = .next (answer (.safetyStatus h) stDone
      (le 4 (s.reg A.SF_STATUS).toNat ++ le 4 (s.reg A.SF_INPUTS).toNat ++ le 4 (s.reg A.SF_FAULT).toNat ++
        le 4 (sfTest s)) s)) ∧
    (cmdReady (.safetyCode h) s = true → exec (.safetyCode h) s = .next (answer (.safetyCode h) stDone
      (le 4 (s.reg A.SF_CODE).toNat ++ le 4 (s.reg A.SF_EXP_CODE).toNat ++ le 2 (s.rd R.SF_INPUTS.SEAL) ++
        le 1 (s.rd R.SF_STATUS.CODE_OK)) s)) ∧
    (∀ n, cmdReady (.safetyLog h n) s = true →
      (∀ d, s.sill.log[n]? = some d → exec (.safetyLog h n) s = .next (answer (.safetyLog h n) stDone d s)) ∧
      (s.sill.log[n]? = none → exec (.safetyLog h n) s =
        .next (answer (.safetyLog h n) stBadParam [] (refusedBy (.safetyLog h n) stBadParam s))))

/-- Contactor readbacks, the contactor fault, the Shutter test interval, the SCO contactors, the oscillator and the seal
switches. An accepted readback is the level of that contactor and of no other, and no bridge stays in SERVICE or
TRACTION with its site bus closed. A contactor whose readback differs from its output for longer than KRB_T Sill ticks
latches its fault and seals every bridge that lists it; one that agrees changes nothing. After 168 h of operation
TEST_DUE stands; at 192 h a running bridge at STEP 0 with a graph begins the SS1 ramp, and one in another step seals.
KOFF_DLY after an SCO its contactors are off. While its check runs, an oscillator outside its band latches OSC_FAULT
and seals every bridge; inside it only the count of good checks grows. A stuck seal switch latches SEAL_FAULT and
seals every bridge; a pattern read four times is accepted. -/
def Obligations.SafetyMonitorsAct : Prop :=
  ∀ s : State,
    (∀ k v, k < 4 → ∃ t, exec (.contactorReadbackAccept k v) s = .next t ∧ bitAt t.sill.krb k = v ∧
      (∀ j, j ≠ k → bitAt t.sill.krb j = bitAt s.sill.krb j) ∧
      ∀ b, b < 4 → siteClosed t b = true → modeOf t b ≠ 1 ∧ modeOf t b ≠ 2) ∧
    (∀ k, k < 4 → (reads s k = konOut s k ∨ (konSeen s k).since = none → exec (.konFault k) s = .next s) ∧
      (∀ t0, reads s k ≠ konOut s k → (konSeen s k).since = some t0 → bitAt (s.rd R.SF_FAULT.KON_FAULT) k = false →
        ∃ t, exec (.konFault k) s = .next t ∧ t.now = max s.now (t0 + s.rd R.SF_KON.KRB_T * 392000 + 1) ∧ bitAt (t.rd R.SF_FAULT.KON_FAULT) k = true ∧ t.flag R.SF_EVENT.FAULT_EV = true ∧
          ∀ b, b < 4 → bitAt (siteKon s b ||| motorKon s b) k = true → modeOf t b = 0)) ∧
    (∀ b t0, b < 4 → (s.br b).opFrom = some t0 →
      (∃ t, exec (.testDue b) s = .next t ∧ bitAt (t.rd R.SF_STATUS.TEST_DUE) b = true ∧
        (bitAt (s.rd R.SF_STATUS.TEST_DUE) b = false → t.flag R.SF_EVENT.TEST_DUE_EV = true) ∧ t.bridges = s.bridges) ∧
      (2 ≤ modeOf s b → bitAt s.sill.overdue b = false → bitAt (s.rd R.SF_STATUS.SS1_ACT) b = false → (s.br b).ramp = none →
        bitAt (stoMask s ||| scoMask s) b = false →
        (stepOf s b = 0 → modeOf s b ≠ 5 → (s.br b).placed.isSome = true →
          ∃ t r, exec (.testOverdueSs1 b) s = .next t ∧ stepOf t b = 6 ∧ modeOf t b = modeOf s b ∧ (t.br b).ramp = some r ∧ r.kind = 2 ∧
            r.len = s.rd R.SF_SS1.SS1_T * tMs ∧ t.flag R.SF_EVENT.DEMAND_EV = true) ∧
        (stepOf s b ≠ 0 → ∃ t, exec (.testOverdueSs1 b) s = .next t ∧ modeOf t b = 0 ∧ t.flag R.SF_EVENT.DEMAND_EV = true))) ∧
    (∀ i br kon t0, i < 9 → (s.sin i).act = some (3, br, kon, t0) →
      ∃ t, exec (.scoContactorForce i) s = .next t ∧ t.now = max s.now (t0 + s.rd R.SF_KON.KOFF_DLY * 392000) ∧ t.regs = s.regs ∧
        ∀ k, bitAt kon k = true → konOut t k = false) ∧
    (systemUp s = true → ∀ p, (960000 ≤ p → p ≤ 1040000 → exec (.oscCheck p) s = .next { s with sill := { s.sill with oscOk := min 10 (s.sill.oscOk + 1) } }) ∧
      (p < 960000 ∨ 1040000 < p → s.flag R.SF_FAULT.OSC_FAULT = false →
        ∃ t, exec (.oscCheck p) s = .next t ∧ t.flag R.SF_FAULT.OSC_FAULT = true ∧ t.sill.oscOk = 0 ∧ ∀ b, b < 4 → modeOf t b = 0)) ∧
    (∀ l p,
      (p % 65536 &&& s.rd R.SF_SEAL.SEAL_MASK ≠ 0 → ∃ t, exec (.sealSwitchRead l p) s = .next t ∧ t.flag R.SF_FAULT.SEAL_FAULT = true ∧
        t.rd R.SF_STATUS.CODE_OK = 0 ∧ ∀ b, b < 4 → modeOf t b = 0) ∧
      (l % 65536 &&& s.rd R.SF_SEAL.SEAL_MASK = s.sill.pat → 3 ≤ s.sill.patN →
        ∃ t, exec (.sealSwitchRead l p) s = .next t ∧ t.rd R.SF_INPUTS.SEAL = (l % 65536 &&& s.rd R.SF_SEAL.SEAL_MASK)) ∧
      (l % 65536 &&& s.rd R.SF_SEAL.SEAL_MASK ≠ s.sill.pat →
        ∃ t, exec (.sealSwitchRead l p) s = .next t ∧ t.rd R.SF_INPUTS.SEAL = s.rd R.SF_INPUTS.SEAL ∧ t.sill.patN = 1))

/-- TLM_CFG, TLM_START, TLM_STOP and a sample. A taken TLM_CFG within its ranges configures a stream that does not run,
and is BUSY while it does. TLM_START of configured streams, with the CAN transport on where one uses it and the load
within its limit, is DONE: each named stream runs, one that did not from this timestamp, and the others stay as they
are. TLM_STOP leaves each named stream stopped and the others as they are. The sample of a running stream whose sample
comes first by its ms and number falls on its instant at the earliest and counts; where its words are sound its packet
joins the reply queue if fewer than four entries wait, and counts in SKIP otherwise. A word of wrong parity acts as
the signal board's uncorrectable error. A stream that does not run, or another that comes first, gives nothing. -/
def Obligations.TelemetryStreams : Prop :=
  ∀ (h : Hdr) (s : State),
    (∀ k cfg, cmdReady (.tlmCfg h k cfg) s = true → k < 8 → streamOk cfg = true →
      ((stream s k).on_ = false → ∃ t, exec (.tlmCfg h k cfg) s = .next (answer (.tlmCfg h k cfg) stDone [] t) ∧
        stream t k = { set := true, can := decide (byteAt cfg 0 = 1), period := leAt cfg 2 2, sigs := streamSigs cfg } ∧
        (∀ j, j ≠ k → stream t j = stream s j) ∧ OnlyRegs { s with bg := t.bg } t [A.TLM_STATUS] ∧
        bitAt (t.rd R.TLM_STATUS.CONFIGURED) k = true) ∧
      ((stream s k).on_ = true → exec (.tlmCfg h k cfg) s =
        .next (answer (.tlmCfg h k cfg) stBusy [] (refusedBy (.tlmCfg h k cfg) stBusy s)))) ∧
    (∀ m, cmdReady (.tlmStart h m) s = true → (∀ k ∈ maskBits 8 m, (stream s k).set = true ∧ ((stream s k).can = true → canOn s = true)) →
      streamLoad s ((List.range 8).filter (fun k => (maskBits 8 m).contains k || (stream s k).on_)) ≤ 2000 →
      ∃ t, exec (.tlmStart h m) s = .next (answer (.tlmStart h m) stDone [] t) ∧ ∀ k, k < 8 →
        stream t k = (if bitAt m k && !(stream s k).on_ then { stream s k with on_ := true, start := tsNow s, next := 0 } else stream s k)) ∧
    (∀ m, cmdReady (.tlmStop h m) s = true →
      ∃ t, exec (.tlmStop h m) s = .next (answer (.tlmStop h m) stDone [] t) ∧ ∀ k, k < 8 →
        stream t k = (if bitAt m k then { stream s k with on_ := false } else stream s k)) ∧
    (∀ k, k < 8 →
      ((stream s k).on_ = false ∨ sampleFirst s k = false → exec (.tlmSample k) s = .next s) ∧
      ((stream s k).on_ = true → sampleFirst s k = true →
        ∃ t, exec (.tlmSample k) s = .next t ∧
          t.now = max s.now (tickOfTs s ((stream s k).start + ((stream s k).next + 1) * (stream s k).period * tMs)) ∧
          stream t k = { stream s k with next := (stream s k).next + 1 }) ∧
        ((stream s k).on_ = true → sampleFirst s k = true → wordsSound s (stream s k).sigs = false → ∃ t u, exec (.tlmSample k) s = .next t ∧ stream u k = { stream s k with next := (stream s k).next + 1 } ∧
          u.regs = s.regs ∧ u.bridges = s.bridges ∧ exec (.uncorrectableError .signalBoard) u = .next t) ∧
        ((stream s k).on_ = true → sampleFirst s k = true → wordsSound s (stream s k).sigs = true → ∃ t, exec (.tlmSample k) s = .next t ∧
          ((s.transport (stream s k).can).rp.length < 4 → (t.transport (stream s k).can).rp = (s.transport (stream s k).can).rp ++
            [samplePacket k (stream s k).next (stream s k).sigs { s with now := t.now }] ∧ t.rd R.TLM_SKIP.SKIP = s.rd R.TLM_SKIP.SKIP) ∧
          (4 ≤ (s.transport (stream s k).can).rp.length → t.host = s.host ∧
            t.rd R.TLM_SKIP.SKIP = min (2 ^ R.TLM_SKIP.SKIP.width - 1) (s.rd R.TLM_SKIP.SKIP + 1))))

/-- What scrubs and patrols find, and the event log. Once the start has brought the activity up: a clean finding changes
nothing. A corrected DRAM error counts for its bank, which is quarantined at 64; an uncorrectable word of a pane in
use counts and of a free pane does not; a bad word of the safety log, of a critical memory or of the signal board acts
as its uncorrectable error. A change that no check bits show is held in its image or copy and shows in no register. An
ended pass counts. An uncorrectable word of a migration pane restarts every hinge that uses one of its engines. While
the flash is free an erase of the oldest sector of a ring, where it holds no record still held (of the event log as
log entry 130 chooses), adds one to its wear and to no other's. The next structure of the patrol clears or sets its
FAIL bit and the last of a pass ends it; an unsound slot reads not OK; one being written is skipped. While a flash
operation runs or waits an erase, a patrol and a flush do nothing. LOG_READ answers the 32 bytes of an entry held and
is BAD_PARAM for another. A flush, at 64 entries or after 10 s, moves the buffer to flash behind what it holds; an
entry that finds the ring full drops the oldest 128; a flush that did not end leaves both. -/
def Obligations.BackgroundFinds : Prop :=
  (∀ s : State, systemUp s = true →
    exec (.dramPatrolScrub .clean) s = .next s ∧ exec (.sramScrub .clean) s = .next s ∧
    (∀ k, k < 8 → ∃ t, exec (.dramPatrolScrub (.corrected k)) s = .next t ∧ t.bridges = s.bridges ∧ t.now = s.now ∧
      t.rd R.CN_DRAM.COR_ERR k = min (2 ^ R.CN_DRAM.COR_ERR.width - 1) (s.rd R.CN_DRAM.COR_ERR k + 1) ∧
      t.flag R.CN_DRAM.QUAR k = (s.flag R.CN_DRAM.QUAR k || decide (63 ≤ s.rd R.CN_DRAM.COR_ERR k))) ∧
    (∀ a, 2 ≤ a / 0x10000 % 256 →
      ((usedPanes s).contains (a / 0x10000) = false → exec (.dramPatrolScrub (.uncorrectable a)) s = .next s) ∧
      ((usedPanes s).contains (a / 0x10000) = true → ∃ t, exec (.dramPatrolScrub (.uncorrectable a)) s = .next t ∧ t.flag R.BG_EVENT.DRAM_UNC_EV = true ∧
        t.rd R.BG_ECC.DRAM_UNC = min (2 ^ R.BG_ECC.DRAM_UNC.width - 1) (s.rd R.BG_ECC.DRAM_UNC + 1))) ∧
    (∀ a, a / 0x10000 % 256 = 0 → exec (.dramPatrolScrub (.uncorrectable a)) s = exec (.uncorrectableError .safetyLog) s) ∧
    (∀ a, a / 0x10000 % 256 = 1 → ∃ t, exec (.dramPatrolScrub (.uncorrectable a)) s = .next t ∧ t.now = s.now ∧ ∀ b, b < 4 → modeOf t b = modeOf s b ∧
      ∀ p h, (s.br b).placed = some p → p.hinge = some h → h.retry = [] → ∃ p' h', (t.br b).placed = some p' ∧ p'.hinge = some h' ∧
        ∀ i, (i, 1) ∈ h.done → p.engines.getD i 99 % 8 = a / 0x10000 / 256 → ∀ d ∈ h'.done, d.1 ≠ i) ∧
    (∀ n, ∃ t, exec (.dramPatrolScrub (.passDone n)) s = .next t ∧ OnlyRegs s t [A.BG_DRAM] ∧ t.rd R.BG_DRAM.PASS_S = min n 120 ∧
      t.rd R.BG_DRAM.PASSES = (s.rd R.BG_DRAM.PASSES + 1) % 2 ^ R.BG_DRAM.PASSES.width) ∧
    (∃ t, exec (.sramScrub .corrected) s = .next t ∧ t.rd R.BG_ECC.SRAM_COR =
      min (2 ^ R.BG_ECC.SRAM_COR.width - 1) (s.rd R.BG_ECC.SRAM_COR + 1)) ∧
    (∀ n, n < 16 → ∃ t, exec (.sramScrub (.engine n)) s = .next t ∧ t.rd R.EN_COUNT.ECC_COR n =
      min (2 ^ R.EN_COUNT.ECC_COR.width - 1) (s.rd R.EN_COUNT.ECC_COR n + 1)) ∧
    (∀ x, exec (.sramScrub (.uncorrectable x)) s = exec (.uncorrectableError x) s) ∧
    (∀ b r, b < 4 → (s.br b).ram = some r → ∃ t, exec (.sramScrub (.imageDiffers b)) s = .next t ∧ t.regs = s.regs ∧
      (t.br b).ram = some { r with differs := true } ∧ ∀ j, j ≠ b → t.br j = s.br j) ∧
    (∀ b p e i, b < 4 → (s.br b).placed = some p → (∃ a ∈ asgHeld p, a.rcd = i ∧ a.eng = e) →
      ∃ t q, exec (.sramScrub (.copyDiffers e i)) s = .next t ∧ t.regs = s.regs ∧ (t.br b).placed = some q ∧ (i, e) ∈ q.differs)) ∧
  (∀ s : State, exec .parityPatrol s = (if s.board.all (fun e => parityOk e.2) ∨ controlUp s = false then .next s
    else exec (.uncorrectableError .signalBoard) s)) ∧
  (∀ (a n : Nat) (s : State),
    (flashFree s = false ∨ systemUp s = false ∨ flushDue s = true ∨ mayErase s a = false ∨ oldestSector s a ≠ n →
      exec (.eraseAhead a n) s = .next s) ∧
    (n < areaSectors a → flashFree s = true → systemUp s = true → flushDue s = false → mayErase s a = true → oldestSector s a = n →
      ∃ t, exec (.eraseAhead a n) s = .next t ∧ sget (fun _ => 0) t.bg.wear (1024 * a + n) = sget (fun _ => 0) s.bg.wear (1024 * a + n) + 1 ∧
        (∀ j, j ≠ 1024 * a + n → sget (fun _ => 0) t.bg.wear j = sget (fun _ => 0) s.bg.wear j) ∧
        (ring t a).used = (ring s a).used - 4096 ∧ (90000 ≤ areaWear s a → t = { s with bg := t.bg, log := t.log }))) ∧
  (∀ (k : Nat) (ok : Bool) (s : State),
    (k ≠ s.bg.patrolNext ∨ systemUp s = false ∨ (beingWritten s k = false ∧ flashFree s = false) → exec (.flashPatrol k ok) s = .next s) ∧
    (k < 8 → k = s.bg.patrolNext → systemUp s = true → beingWritten s k = true →
      ∃ t, exec (.flashPatrol k ok) s = .next t ∧ t.bg.patrolNext = (k + 1) % 8 ∧ t.rd R.BG_FLASH.FAIL = s.rd R.BG_FLASH.FAIL) ∧
    (k < 8 → k = s.bg.patrolNext → systemUp s = true → beingWritten s k = false → flashFree s = true → flushDue s = false →
      ∃ t, exec (.flashPatrol k ok) s = .next t ∧ bitAt (t.rd R.BG_FLASH.FAIL) k = !ok ∧ t.bg.patrolNext = (k + 1) % 8 ∧
        (∀ j, j < 8 → j ≠ k → bitAt (t.rd R.BG_FLASH.FAIL) j = bitAt (s.rd R.BG_FLASH.FAIL) j) ∧
        t.rd R.BG_FLASH.PATROL_BUSY = b2n (decide (k < 7)) ∧ (ok = false → t.flag R.BG_EVENT.PATROL_EV = true) ∧
        (ok = false → k = 2 → t.rd R.GR_STORE.SLOT0_OK = 0) ∧ (ok = false → k = 3 → t.rd R.GR_STORE.SLOT1_OK = 0))) ∧
  (∀ (h : Hdr) (n : Nat) (s : State), cmdReady (.logRead h n) s = true →
    (∀ e, (logHeld s).find? (fun e => decide (e.seq = n)) = some e →
      exec (.logRead h n) s = .next (answer (.logRead h n) stDone (logBytes e) s)) ∧
    ((logHeld s).find? (fun e => decide (e.seq = n)) = none → exec (.logRead h n) s =
      .next (answer (.logRead h n) stBadParam [] (refusedBy (.logRead h n) stBadParam s)))) ∧
  (∀ s : State,
    exec (.eventLogFlush false) s = .next s ∧
    (flashFree s = false ∨ systemUp s = false → exec (.eventLogFlush true) s = .next s) ∧
    (flashFree s = true → systemUp s = true → 32 * s.log.buf.length + 64 ≤ ringRoom s 2 →
      ∃ t, exec (.eventLogFlush true) s = .next t ∧ t = { s with log := t.log, bg := t.bg, now := t.now } ∧ t.log.buf = [] ∧
        t.log.flash = s.log.flash ++ s.log.buf ∧
        t.now = (if 64 ≤ s.log.buf.length then s.now else max s.now (s.log.flushAt + 4000000000))) ∧
    (∀ e, flashFree s = true → systemUp s = true → s.log.buf = [e] → ringRoom s 2 < 96 → 4096 ≤ (ring s 2).used → areaWear s 2 < 89999 →
      ∃ t, exec (.eventLogFlush true) s = .next t ∧ t.log.buf = [] ∧ t.log.flash = s.log.flash.drop 128 ++ [e]))
end

