-- ==== Sys2Proof/Laws/Sparse.lean ====
section
/-! SUPPORT. The sparse maps of Machine/Ops.lean: what a read gives after a write, and that a write keeps the canonical
form. -/

namespace Sys2Proof.Machine

open Sys2Proof

variable {α : Type}

@[simp] theorem sget_nil (d : Nat → α) (k : Nat) : sget d [] k = d k := rfl

theorem sget_of_forall_ne (d : Nat → α) (m : List (Nat × α)) (k : Nat) (h : ∀ e ∈ m, e.1 ≠ k) : sget d m k = d k := by
  induction m with
  | nil => rfl
  | cons e t ih =>
    obtain ⟨j, v⟩ := e
    have hj : j ≠ k := h (j, v) (by simp)
    simp only [sget, if_neg (Ne.symm hj)]
    exact ih (fun e he => h e (by simp [he]))

theorem sget_serase_same (d : Nat → α) (m : List (Nat × α)) (k : Nat) : sget d (serase m k) k = d k :=
  sget_of_forall_ne d _ k (fun e he => by simp [serase] at he; exact he.2)

theorem sget_serase_ne (d : Nat → α) (m : List (Nat × α)) {j k : Nat} (h : j ≠ k) :
    sget d (serase m k) j = sget d m j := by
  induction m with
  | nil => rfl
  | cons e t ih =>
    obtain ⟨i, v⟩ := e
    by_cases hi : i = k
    · subst hi
      simpa [serase, sget, h] using ih
    · by_cases hj : j = i
      · subst hj; simp [serase, sget, hi]
      · simpa [serase, sget, hi, hj] using ih

theorem sget_sins_same (d : Nat → α) (m : List (Nat × α)) (k : Nat) (v : α) (h : ∀ e ∈ m, e.1 ≠ k) :
    sget d (sins k v m) k = v := by
  induction m with
  | nil => simp [sins, sget]
  | cons e t ih =>
    obtain ⟨j, u⟩ := e
    have hj : k ≠ j := Ne.symm (h (j, u) (by simp))
    by_cases hk : k < j
    · simp [sins, hk, sget]
    · simp only [sins, hk, if_false, sget, if_neg hj]
      exact ih (fun e he => h e (by simp [he]))

theorem sget_sins_ne (d : Nat → α) (m : List (Nat × α)) {j k : Nat} (v : α) (h : j ≠ k) :
    sget d (sins k v m) j = sget d m j := by
  induction m with
  | nil => simp [sins, sget, h]
  | cons e t ih =>
    obtain ⟨i, u⟩ := e
    by_cases hk : k < i
    · simp [sins, hk, sget, h]
    · simp only [sins, hk, if_false, sget, ih]

theorem serase_ne (m : List (Nat × α)) (k : Nat) : ∀ e ∈ serase m k, e.1 ≠ k := fun e he => by
  simp [serase] at he; exact he.2

variable [DecidableEq α]

/-- A read of the key just written. -/
@[simp] theorem sget_sput_same (d : Nat → α) (m : List (Nat × α)) (k : Nat) (v : α) : sget d (sput d m k v) k = v := by
  unfold sput
  split
  · next h => rw [sget_serase_same, h]
  · exact sget_sins_same d _ k v (serase_ne m k)

/-- A read of any other key. -/
theorem sget_sput_ne (d : Nat → α) (m : List (Nat × α)) {j k : Nat} (v : α) (h : j ≠ k) :
    sget d (sput d m k v) j = sget d m j := by
  unfold sput
  split
  · exact sget_serase_ne d m h
  · rw [sget_sins_ne d _ v h, sget_serase_ne d m h]

/-- A read of any key. -/
theorem sget_sput (d : Nat → α) (m : List (Nat × α)) (j k : Nat) (v : α) :
    sget d (sput d m k v) j = if j = k then v else sget d m j := by
  split
  · next h => rw [h, sget_sput_same]
  · next h => exact sget_sput_ne d m v h

/-! ### The canonical form -/

theorem swfFrom_mono (d : Nat → α) {lo l : Nat} (m : List (Nat × α)) (hl : lo ≤ l) (h : swfFrom d (some l) m = true) :
    swfFrom d (some lo) m = true := by
  cases m with
  | nil => rfl
  | cons e t =>
    obtain ⟨j, v⟩ := e
    simp only [swfFrom, Bool.and_eq_true, decide_eq_true_eq] at h ⊢
    exact ⟨⟨by omega, h.1.2⟩, h.2⟩

theorem swfFrom_none (d : Nat → α) {l : Nat} (m : List (Nat × α)) (h : swfFrom d (some l) m = true) :
    swfFrom d none m = true := by
  cases m with
  | nil => rfl
  | cons e t =>
    obtain ⟨j, v⟩ := e
    simp only [swfFrom, Bool.and_eq_true, decide_eq_true_eq] at h ⊢
    exact ⟨⟨trivial, h.1.2⟩, h.2⟩

theorem swfFrom_serase (d : Nat → α) (m : List (Nat × α)) (k : Nat) :
    ∀ lo, swfFrom d lo m = true → swfFrom d lo (serase m k) = true := by
  induction m with
  | nil => intro lo h; exact h
  | cons e t ih =>
    obtain ⟨j, v⟩ := e
    intro lo h
    simp only [swfFrom, Bool.and_eq_true, decide_eq_true_eq] at h
    by_cases hj : j = k
    · have ht := ih (some j) h.2
      have : serase ((j, v) :: t) k = serase t k := by simp [serase, hj]
      rw [this]
      cases lo with
      | none => exact swfFrom_none d _ ht
      | some l => exact swfFrom_mono d _ (by have := h.1.1; simp at this; omega) ht
    · have : serase ((j, v) :: t) k = (j, v) :: serase t k := by simp [serase, hj]
      rw [this]
      simp only [swfFrom, Bool.and_eq_true, decide_eq_true_eq]
      exact ⟨h.1, ih (some j) h.2⟩

theorem swfFrom_sins (d : Nat → α) (m : List (Nat × α)) (k : Nat) (v : α) (hv : v ≠ d k) (hk : ∀ e ∈ m, e.1 ≠ k) :
    ∀ lo, (∀ l, lo = some l → l < k) → swfFrom d lo m = true → swfFrom d lo (sins k v m) = true := by
  induction m with
  | nil =>
    intro lo hlo _
    cases lo with
    | none => simp [sins, swfFrom, hv]
    | some l => simp [sins, swfFrom, hv, hlo l rfl]
  | cons e t ih =>
    obtain ⟨j, u⟩ := e
    intro lo hlo h
    simp only [swfFrom, Bool.and_eq_true, decide_eq_true_eq] at h
    by_cases hlt : k < j
    · have : sins k v ((j, u) :: t) = (k, v) :: (j, u) :: t := by simp [sins, hlt]
      rw [this]
      simp only [swfFrom, Bool.and_eq_true, decide_eq_true_eq]
      refine ⟨⟨?_, hv⟩, ⟨hlt, h.1.2⟩, h.2⟩
      cases lo with
      | none => rfl
      | some l => simpa using hlo l rfl
    · have hne : j ≠ k := hk (j, u) (by simp)
      have : sins k v ((j, u) :: t) = (j, u) :: sins k v t := by simp [sins, hlt]
      rw [this]
      simp only [swfFrom, Bool.and_eq_true, decide_eq_true_eq]
      refine ⟨h.1, ih (fun e he => hk e (by simp [he])) (some j) (fun l hl => ?_) h.2⟩
      cases hl
      omega

/-- A write keeps the canonical form of a sparse map. -/
theorem swf_sput (d : Nat → α) (m : List (Nat × α)) (k : Nat) (v : α) (h : swf d m = true) :
    swf d (sput d m k v) = true := by
  unfold sput swf at *
  split
  · exact swfFrom_serase d m k none h
  · next hv =>
    exact swfFrom_sins d _ k v hv (serase_ne m k) none (fun l hl => by cases hl) (swfFrom_serase d m k none h)

end Sys2Proof.Machine
end

