-- ==== Sys2Proof/Laws/State.lean ====
section
/-! SUPPORT. One lemma for each field of State under each update, and the accessors over a state written out. -/

namespace Sys2Proof.Machine

open Sys2Proof
section
variable (s : State) (a : Nat) (w : Word)
@[simp] theorem State.setReg_pending : (s.setReg a w).pending = s.pending := (rfl)
@[simp] theorem State.setReg_now : (s.setReg a w).now = s.now := (rfl)
@[simp] theorem State.setReg_board : (s.setReg a w).board = s.board := (rfl)
@[simp] theorem State.setReg_aged : (s.setReg a w).aged = s.aged := (rfl)
@[simp] theorem State.setReg_host : (s.setReg a w).host = s.host := (rfl)
@[simp] theorem State.setReg_sec : (s.setReg a w).sec = s.sec := (rfl)
@[simp] theorem State.setReg_graphs : (s.setReg a w).graphs = s.graphs := (rfl)
@[simp] theorem State.setReg_bridges : (s.setReg a w).bridges = s.bridges := (rfl)
@[simp] theorem State.setReg_legs : (s.setReg a w).legs = s.legs := (rfl)
@[simp] theorem State.setReg_dies : (s.setReg a w).dies = s.dies := (rfl)
@[simp] theorem State.setReg_convs : (s.setReg a w).convs = s.convs := (rfl)
@[simp] theorem State.setReg_pairs : (s.setReg a w).pairs = s.pairs := (rfl)
@[simp] theorem State.setReg_cal : (s.setReg a w).cal = s.cal := (rfl)
@[simp] theorem State.setReg_encs : (s.setReg a w).encs = s.encs := (rfl)
@[simp] theorem State.setReg_pulses : (s.setReg a w).pulses = s.pulses := (rfl)
@[simp] theorem State.setReg_pth : (s.setReg a w).pth = s.pth := (rfl)
@[simp] theorem State.setReg_canopy : (s.setReg a w).canopy = s.canopy := (rfl)
@[simp] theorem State.setReg_ledger : (s.setReg a w).ledger = s.ledger := (rfl)
@[simp] theorem State.setReg_capture : (s.setReg a w).capture = s.capture := (rfl)
@[simp] theorem State.setReg_log : (s.setReg a w).log = s.log := (rfl)
@[simp] theorem State.setReg_clk : (s.setReg a w).clk = s.clk := (rfl)
@[simp] theorem State.setReg_bg : (s.setReg a w).bg = s.bg := (rfl)
@[simp] theorem State.setReg_rst : (s.setReg a w).rst = s.rst := (rfl)
@[simp] theorem State.setReg_sill : (s.setReg a w).sill = s.sill := (rfl)
@[simp] theorem State.setReg_cans : (s.setReg a w).cans = s.cans := (rfl)
@[simp] theorem State.setReg_latched : (s.setReg a w).latched = s.latched := (rfl)
@[simp] theorem State.setReg_freeCtr : (s.setReg a w).freeCtr = s.freeCtr := (rfl)
end

section
variable (s : State) (f : Fld) (i v : Nat)
@[simp] theorem State.wr_pending : (s.wr f i v).pending = s.pending := (rfl)
@[simp] theorem State.wr_now : (s.wr f i v).now = s.now := (rfl)
@[simp] theorem State.wr_board : (s.wr f i v).board = s.board := (rfl)
@[simp] theorem State.wr_aged : (s.wr f i v).aged = s.aged := (rfl)
@[simp] theorem State.wr_host : (s.wr f i v).host = s.host := (rfl)
@[simp] theorem State.wr_sec : (s.wr f i v).sec = s.sec := (rfl)
@[simp] theorem State.wr_graphs : (s.wr f i v).graphs = s.graphs := (rfl)
@[simp] theorem State.wr_bridges : (s.wr f i v).bridges = s.bridges := (rfl)
@[simp] theorem State.wr_legs : (s.wr f i v).legs = s.legs := (rfl)
@[simp] theorem State.wr_dies : (s.wr f i v).dies = s.dies := (rfl)
@[simp] theorem State.wr_convs : (s.wr f i v).convs = s.convs := (rfl)
@[simp] theorem State.wr_pairs : (s.wr f i v).pairs = s.pairs := (rfl)
@[simp] theorem State.wr_cal : (s.wr f i v).cal = s.cal := (rfl)
@[simp] theorem State.wr_encs : (s.wr f i v).encs = s.encs := (rfl)
@[simp] theorem State.wr_pulses : (s.wr f i v).pulses = s.pulses := (rfl)
@[simp] theorem State.wr_pth : (s.wr f i v).pth = s.pth := (rfl)
@[simp] theorem State.wr_canopy : (s.wr f i v).canopy = s.canopy := (rfl)
@[simp] theorem State.wr_ledger : (s.wr f i v).ledger = s.ledger := (rfl)
@[simp] theorem State.wr_capture : (s.wr f i v).capture = s.capture := (rfl)
@[simp] theorem State.wr_log : (s.wr f i v).log = s.log := (rfl)
@[simp] theorem State.wr_clk : (s.wr f i v).clk = s.clk := (rfl)
@[simp] theorem State.wr_bg : (s.wr f i v).bg = s.bg := (rfl)
@[simp] theorem State.wr_rst : (s.wr f i v).rst = s.rst := (rfl)
@[simp] theorem State.wr_sill : (s.wr f i v).sill = s.sill := (rfl)
@[simp] theorem State.wr_cans : (s.wr f i v).cans = s.cans := (rfl)
@[simp] theorem State.wr_latched : (s.wr f i v).latched = s.latched := (rfl)
@[simp] theorem State.wr_freeCtr : (s.wr f i v).freeCtr = s.freeCtr := (rfl)
end

section
variable (s : State) (f : Fld) (i j v : Nat)
@[simp] theorem State.wr2_pending : (s.wr2 f i j v).pending = s.pending := (rfl)
@[simp] theorem State.wr2_now : (s.wr2 f i j v).now = s.now := (rfl)
@[simp] theorem State.wr2_board : (s.wr2 f i j v).board = s.board := (rfl)
@[simp] theorem State.wr2_aged : (s.wr2 f i j v).aged = s.aged := (rfl)
@[simp] theorem State.wr2_host : (s.wr2 f i j v).host = s.host := (rfl)
@[simp] theorem State.wr2_sec : (s.wr2 f i j v).sec = s.sec := (rfl)
@[simp] theorem State.wr2_graphs : (s.wr2 f i j v).graphs = s.graphs := (rfl)
@[simp] theorem State.wr2_bridges : (s.wr2 f i j v).bridges = s.bridges := (rfl)
@[simp] theorem State.wr2_legs : (s.wr2 f i j v).legs = s.legs := (rfl)
@[simp] theorem State.wr2_dies : (s.wr2 f i j v).dies = s.dies := (rfl)
@[simp] theorem State.wr2_convs : (s.wr2 f i j v).convs = s.convs := (rfl)
@[simp] theorem State.wr2_pairs : (s.wr2 f i j v).pairs = s.pairs := (rfl)
@[simp] theorem State.wr2_cal : (s.wr2 f i j v).cal = s.cal := (rfl)
@[simp] theorem State.wr2_encs : (s.wr2 f i j v).encs = s.encs := (rfl)
@[simp] theorem State.wr2_pulses : (s.wr2 f i j v).pulses = s.pulses := (rfl)
@[simp] theorem State.wr2_pth : (s.wr2 f i j v).pth = s.pth := (rfl)
@[simp] theorem State.wr2_canopy : (s.wr2 f i j v).canopy = s.canopy := (rfl)
@[simp] theorem State.wr2_ledger : (s.wr2 f i j v).ledger = s.ledger := (rfl)
@[simp] theorem State.wr2_capture : (s.wr2 f i j v).capture = s.capture := (rfl)
@[simp] theorem State.wr2_log : (s.wr2 f i j v).log = s.log := (rfl)
@[simp] theorem State.wr2_clk : (s.wr2 f i j v).clk = s.clk := (rfl)
@[simp] theorem State.wr2_bg : (s.wr2 f i j v).bg = s.bg := (rfl)
@[simp] theorem State.wr2_rst : (s.wr2 f i j v).rst = s.rst := (rfl)
@[simp] theorem State.wr2_sill : (s.wr2 f i j v).sill = s.sill := (rfl)
@[simp] theorem State.wr2_cans : (s.wr2 f i j v).cans = s.cans := (rfl)
@[simp] theorem State.wr2_latched : (s.wr2 f i j v).latched = s.latched := (rfl)
@[simp] theorem State.wr2_freeCtr : (s.wr2 f i j v).freeCtr = s.freeCtr := (rfl)
end

section
variable (s : State) (b : Nat) (v : Bridge)
@[simp] theorem State.setBr_pending : (s.setBr b v).pending = s.pending := (rfl)
@[simp] theorem State.setBr_now : (s.setBr b v).now = s.now := (rfl)
@[simp] theorem State.setBr_regs : (s.setBr b v).regs = s.regs := (rfl)
@[simp] theorem State.setBr_board : (s.setBr b v).board = s.board := (rfl)
@[simp] theorem State.setBr_aged : (s.setBr b v).aged = s.aged := (rfl)
@[simp] theorem State.setBr_host : (s.setBr b v).host = s.host := (rfl)
@[simp] theorem State.setBr_sec : (s.setBr b v).sec = s.sec := (rfl)
@[simp] theorem State.setBr_graphs : (s.setBr b v).graphs = s.graphs := (rfl)
@[simp] theorem State.setBr_legs : (s.setBr b v).legs = s.legs := (rfl)
@[simp] theorem State.setBr_dies : (s.setBr b v).dies = s.dies := (rfl)
@[simp] theorem State.setBr_convs : (s.setBr b v).convs = s.convs := (rfl)
@[simp] theorem State.setBr_pairs : (s.setBr b v).pairs = s.pairs := (rfl)
@[simp] theorem State.setBr_cal : (s.setBr b v).cal = s.cal := (rfl)
@[simp] theorem State.setBr_encs : (s.setBr b v).encs = s.encs := (rfl)
@[simp] theorem State.setBr_pulses : (s.setBr b v).pulses = s.pulses := (rfl)
@[simp] theorem State.setBr_pth : (s.setBr b v).pth = s.pth := (rfl)
@[simp] theorem State.setBr_canopy : (s.setBr b v).canopy = s.canopy := (rfl)
@[simp] theorem State.setBr_ledger : (s.setBr b v).ledger = s.ledger := (rfl)
@[simp] theorem State.setBr_capture : (s.setBr b v).capture = s.capture := (rfl)
@[simp] theorem State.setBr_log : (s.setBr b v).log = s.log := (rfl)
@[simp] theorem State.setBr_clk : (s.setBr b v).clk = s.clk := (rfl)
@[simp] theorem State.setBr_bg : (s.setBr b v).bg = s.bg := (rfl)
@[simp] theorem State.setBr_rst : (s.setBr b v).rst = s.rst := (rfl)
@[simp] theorem State.setBr_sill : (s.setBr b v).sill = s.sill := (rfl)
@[simp] theorem State.setBr_cans : (s.setBr b v).cans = s.cans := (rfl)
@[simp] theorem State.setBr_latched : (s.setBr b v).latched = s.latched := (rfl)
@[simp] theorem State.setBr_freeCtr : (s.setBr b v).freeCtr = s.freeCtr := (rfl)
end

section
variable (s : State) (n : Nat) (v : Leg)
@[simp] theorem State.setLeg_pending : (s.setLeg n v).pending = s.pending := (rfl)
@[simp] theorem State.setLeg_now : (s.setLeg n v).now = s.now := (rfl)
@[simp] theorem State.setLeg_regs : (s.setLeg n v).regs = s.regs := (rfl)
@[simp] theorem State.setLeg_board : (s.setLeg n v).board = s.board := (rfl)
@[simp] theorem State.setLeg_aged : (s.setLeg n v).aged = s.aged := (rfl)
@[simp] theorem State.setLeg_host : (s.setLeg n v).host = s.host := (rfl)
@[simp] theorem State.setLeg_sec : (s.setLeg n v).sec = s.sec := (rfl)
@[simp] theorem State.setLeg_graphs : (s.setLeg n v).graphs = s.graphs := (rfl)
@[simp] theorem State.setLeg_bridges : (s.setLeg n v).bridges = s.bridges := (rfl)
@[simp] theorem State.setLeg_dies : (s.setLeg n v).dies = s.dies := (rfl)
@[simp] theorem State.setLeg_convs : (s.setLeg n v).convs = s.convs := (rfl)
@[simp] theorem State.setLeg_pairs : (s.setLeg n v).pairs = s.pairs := (rfl)
@[simp] theorem State.setLeg_cal : (s.setLeg n v).cal = s.cal := (rfl)
@[simp] theorem State.setLeg_encs : (s.setLeg n v).encs = s.encs := (rfl)
@[simp] theorem State.setLeg_pulses : (s.setLeg n v).pulses = s.pulses := (rfl)
@[simp] theorem State.setLeg_pth : (s.setLeg n v).pth = s.pth := (rfl)
@[simp] theorem State.setLeg_canopy : (s.setLeg n v).canopy = s.canopy := (rfl)
@[simp] theorem State.setLeg_ledger : (s.setLeg n v).ledger = s.ledger := (rfl)
@[simp] theorem State.setLeg_capture : (s.setLeg n v).capture = s.capture := (rfl)
@[simp] theorem State.setLeg_log : (s.setLeg n v).log = s.log := (rfl)
@[simp] theorem State.setLeg_clk : (s.setLeg n v).clk = s.clk := (rfl)
@[simp] theorem State.setLeg_bg : (s.setLeg n v).bg = s.bg := (rfl)
@[simp] theorem State.setLeg_rst : (s.setLeg n v).rst = s.rst := (rfl)
@[simp] theorem State.setLeg_sill : (s.setLeg n v).sill = s.sill := (rfl)
@[simp] theorem State.setLeg_cans : (s.setLeg n v).cans = s.cans := (rfl)
@[simp] theorem State.setLeg_latched : (s.setLeg n v).latched = s.latched := (rfl)
@[simp] theorem State.setLeg_freeCtr : (s.setLeg n v).freeCtr = s.freeCtr := (rfl)
end

section
variable (s : State) (n : Nat) (v : Die)
@[simp] theorem State.setDie_pending : (s.setDie n v).pending = s.pending := (rfl)
@[simp] theorem State.setDie_now : (s.setDie n v).now = s.now := (rfl)
@[simp] theorem State.setDie_regs : (s.setDie n v).regs = s.regs := (rfl)
@[simp] theorem State.setDie_board : (s.setDie n v).board = s.board := (rfl)
@[simp] theorem State.setDie_aged : (s.setDie n v).aged = s.aged := (rfl)
@[simp] theorem State.setDie_host : (s.setDie n v).host = s.host := (rfl)
@[simp] theorem State.setDie_sec : (s.setDie n v).sec = s.sec := (rfl)
@[simp] theorem State.setDie_graphs : (s.setDie n v).graphs = s.graphs := (rfl)
@[simp] theorem State.setDie_bridges : (s.setDie n v).bridges = s.bridges := (rfl)
@[simp] theorem State.setDie_legs : (s.setDie n v).legs = s.legs := (rfl)
@[simp] theorem State.setDie_convs : (s.setDie n v).convs = s.convs := (rfl)
@[simp] theorem State.setDie_pairs : (s.setDie n v).pairs = s.pairs := (rfl)
@[simp] theorem State.setDie_cal : (s.setDie n v).cal = s.cal := (rfl)
@[simp] theorem State.setDie_encs : (s.setDie n v).encs = s.encs := (rfl)
@[simp] theorem State.setDie_pulses : (s.setDie n v).pulses = s.pulses := (rfl)
@[simp] theorem State.setDie_pth : (s.setDie n v).pth = s.pth := (rfl)
@[simp] theorem State.setDie_canopy : (s.setDie n v).canopy = s.canopy := (rfl)
@[simp] theorem State.setDie_ledger : (s.setDie n v).ledger = s.ledger := (rfl)
@[simp] theorem State.setDie_capture : (s.setDie n v).capture = s.capture := (rfl)
@[simp] theorem State.setDie_log : (s.setDie n v).log = s.log := (rfl)
@[simp] theorem State.setDie_clk : (s.setDie n v).clk = s.clk := (rfl)
@[simp] theorem State.setDie_bg : (s.setDie n v).bg = s.bg := (rfl)
@[simp] theorem State.setDie_rst : (s.setDie n v).rst = s.rst := (rfl)
@[simp] theorem State.setDie_sill : (s.setDie n v).sill = s.sill := (rfl)
@[simp] theorem State.setDie_cans : (s.setDie n v).cans = s.cans := (rfl)
@[simp] theorem State.setDie_latched : (s.setDie n v).latched = s.latched := (rfl)
@[simp] theorem State.setDie_freeCtr : (s.setDie n v).freeCtr = s.freeCtr := (rfl)
end

section
variable (s : State) (n : Nat) (v : Conv)
@[simp] theorem State.setConv_pending : (s.setConv n v).pending = s.pending := (rfl)
@[simp] theorem State.setConv_now : (s.setConv n v).now = s.now := (rfl)
@[simp] theorem State.setConv_regs : (s.setConv n v).regs = s.regs := (rfl)
@[simp] theorem State.setConv_board : (s.setConv n v).board = s.board := (rfl)
@[simp] theorem State.setConv_aged : (s.setConv n v).aged = s.aged := (rfl)
@[simp] theorem State.setConv_host : (s.setConv n v).host = s.host := (rfl)
@[simp] theorem State.setConv_sec : (s.setConv n v).sec = s.sec := (rfl)
@[simp] theorem State.setConv_graphs : (s.setConv n v).graphs = s.graphs := (rfl)
@[simp] theorem State.setConv_bridges : (s.setConv n v).bridges = s.bridges := (rfl)
@[simp] theorem State.setConv_legs : (s.setConv n v).legs = s.legs := (rfl)
@[simp] theorem State.setConv_dies : (s.setConv n v).dies = s.dies := (rfl)
@[simp] theorem State.setConv_pairs : (s.setConv n v).pairs = s.pairs := (rfl)
@[simp] theorem State.setConv_cal : (s.setConv n v).cal = s.cal := (rfl)
@[simp] theorem State.setConv_encs : (s.setConv n v).encs = s.encs := (rfl)
@[simp] theorem State.setConv_pulses : (s.setConv n v).pulses = s.pulses := (rfl)
@[simp] theorem State.setConv_pth : (s.setConv n v).pth = s.pth := (rfl)
@[simp] theorem State.setConv_canopy : (s.setConv n v).canopy = s.canopy := (rfl)
@[simp] theorem State.setConv_ledger : (s.setConv n v).ledger = s.ledger := (rfl)
@[simp] theorem State.setConv_capture : (s.setConv n v).capture = s.capture := (rfl)
@[simp] theorem State.setConv_log : (s.setConv n v).log = s.log := (rfl)
@[simp] theorem State.setConv_clk : (s.setConv n v).clk = s.clk := (rfl)
@[simp] theorem State.setConv_bg : (s.setConv n v).bg = s.bg := (rfl)
@[simp] theorem State.setConv_rst : (s.setConv n v).rst = s.rst := (rfl)
@[simp] theorem State.setConv_sill : (s.setConv n v).sill = s.sill := (rfl)
@[simp] theorem State.setConv_cans : (s.setConv n v).cans = s.cans := (rfl)
@[simp] theorem State.setConv_latched : (s.setConv n v).latched = s.latched := (rfl)
@[simp] theorem State.setConv_freeCtr : (s.setConv n v).freeCtr = s.freeCtr := (rfl)
end

section
variable (s : State) (n : Nat) (v : Pair)
@[simp] theorem State.setPair_pending : (s.setPair n v).pending = s.pending := (rfl)
@[simp] theorem State.setPair_now : (s.setPair n v).now = s.now := (rfl)
@[simp] theorem State.setPair_regs : (s.setPair n v).regs = s.regs := (rfl)
@[simp] theorem State.setPair_board : (s.setPair n v).board = s.board := (rfl)
@[simp] theorem State.setPair_aged : (s.setPair n v).aged = s.aged := (rfl)
@[simp] theorem State.setPair_host : (s.setPair n v).host = s.host := (rfl)
@[simp] theorem State.setPair_sec : (s.setPair n v).sec = s.sec := (rfl)
@[simp] theorem State.setPair_graphs : (s.setPair n v).graphs = s.graphs := (rfl)
@[simp] theorem State.setPair_bridges : (s.setPair n v).bridges = s.bridges := (rfl)
@[simp] theorem State.setPair_legs : (s.setPair n v).legs = s.legs := (rfl)
@[simp] theorem State.setPair_dies : (s.setPair n v).dies = s.dies := (rfl)
@[simp] theorem State.setPair_convs : (s.setPair n v).convs = s.convs := (rfl)
@[simp] theorem State.setPair_cal : (s.setPair n v).cal = s.cal := (rfl)
@[simp] theorem State.setPair_encs : (s.setPair n v).encs = s.encs := (rfl)
@[simp] theorem State.setPair_pulses : (s.setPair n v).pulses = s.pulses := (rfl)
@[simp] theorem State.setPair_pth : (s.setPair n v).pth = s.pth := (rfl)
@[simp] theorem State.setPair_canopy : (s.setPair n v).canopy = s.canopy := (rfl)
@[simp] theorem State.setPair_ledger : (s.setPair n v).ledger = s.ledger := (rfl)
@[simp] theorem State.setPair_capture : (s.setPair n v).capture = s.capture := (rfl)
@[simp] theorem State.setPair_log : (s.setPair n v).log = s.log := (rfl)
@[simp] theorem State.setPair_clk : (s.setPair n v).clk = s.clk := (rfl)
@[simp] theorem State.setPair_bg : (s.setPair n v).bg = s.bg := (rfl)
@[simp] theorem State.setPair_rst : (s.setPair n v).rst = s.rst := (rfl)
@[simp] theorem State.setPair_sill : (s.setPair n v).sill = s.sill := (rfl)
@[simp] theorem State.setPair_cans : (s.setPair n v).cans = s.cans := (rfl)
@[simp] theorem State.setPair_latched : (s.setPair n v).latched = s.latched := (rfl)
@[simp] theorem State.setPair_freeCtr : (s.setPair n v).freeCtr = s.freeCtr := (rfl)
end

section
variable (s : State) (n : Nat) (v : Enc)
@[simp] theorem State.setEnc_pending : (s.setEnc n v).pending = s.pending := (rfl)
@[simp] theorem State.setEnc_now : (s.setEnc n v).now = s.now := (rfl)
@[simp] theorem State.setEnc_regs : (s.setEnc n v).regs = s.regs := (rfl)
@[simp] theorem State.setEnc_board : (s.setEnc n v).board = s.board := (rfl)
@[simp] theorem State.setEnc_aged : (s.setEnc n v).aged = s.aged := (rfl)
@[simp] theorem State.setEnc_host : (s.setEnc n v).host = s.host := (rfl)
@[simp] theorem State.setEnc_sec : (s.setEnc n v).sec = s.sec := (rfl)
@[simp] theorem State.setEnc_graphs : (s.setEnc n v).graphs = s.graphs := (rfl)
@[simp] theorem State.setEnc_bridges : (s.setEnc n v).bridges = s.bridges := (rfl)
@[simp] theorem State.setEnc_legs : (s.setEnc n v).legs = s.legs := (rfl)
@[simp] theorem State.setEnc_dies : (s.setEnc n v).dies = s.dies := (rfl)
@[simp] theorem State.setEnc_convs : (s.setEnc n v).convs = s.convs := (rfl)
@[simp] theorem State.setEnc_pairs : (s.setEnc n v).pairs = s.pairs := (rfl)
@[simp] theorem State.setEnc_cal : (s.setEnc n v).cal = s.cal := (rfl)
@[simp] theorem State.setEnc_pulses : (s.setEnc n v).pulses = s.pulses := (rfl)
@[simp] theorem State.setEnc_pth : (s.setEnc n v).pth = s.pth := (rfl)
@[simp] theorem State.setEnc_canopy : (s.setEnc n v).canopy = s.canopy := (rfl)
@[simp] theorem State.setEnc_ledger : (s.setEnc n v).ledger = s.ledger := (rfl)
@[simp] theorem State.setEnc_capture : (s.setEnc n v).capture = s.capture := (rfl)
@[simp] theorem State.setEnc_log : (s.setEnc n v).log = s.log := (rfl)
@[simp] theorem State.setEnc_clk : (s.setEnc n v).clk = s.clk := (rfl)
@[simp] theorem State.setEnc_bg : (s.setEnc n v).bg = s.bg := (rfl)
@[simp] theorem State.setEnc_rst : (s.setEnc n v).rst = s.rst := (rfl)
@[simp] theorem State.setEnc_sill : (s.setEnc n v).sill = s.sill := (rfl)
@[simp] theorem State.setEnc_cans : (s.setEnc n v).cans = s.cans := (rfl)
@[simp] theorem State.setEnc_latched : (s.setEnc n v).latched = s.latched := (rfl)
@[simp] theorem State.setEnc_freeCtr : (s.setEnc n v).freeCtr = s.freeCtr := (rfl)
end

section
variable (s : State) (n : Nat) (v : Pulse)
@[simp] theorem State.setPul_pending : (s.setPul n v).pending = s.pending := (rfl)
@[simp] theorem State.setPul_now : (s.setPul n v).now = s.now := (rfl)
@[simp] theorem State.setPul_regs : (s.setPul n v).regs = s.regs := (rfl)
@[simp] theorem State.setPul_board : (s.setPul n v).board = s.board := (rfl)
@[simp] theorem State.setPul_aged : (s.setPul n v).aged = s.aged := (rfl)
@[simp] theorem State.setPul_host : (s.setPul n v).host = s.host := (rfl)
@[simp] theorem State.setPul_sec : (s.setPul n v).sec = s.sec := (rfl)
@[simp] theorem State.setPul_graphs : (s.setPul n v).graphs = s.graphs := (rfl)
@[simp] theorem State.setPul_bridges : (s.setPul n v).bridges = s.bridges := (rfl)
@[simp] theorem State.setPul_legs : (s.setPul n v).legs = s.legs := (rfl)
@[simp] theorem State.setPul_dies : (s.setPul n v).dies = s.dies := (rfl)
@[simp] theorem State.setPul_convs : (s.setPul n v).convs = s.convs := (rfl)
@[simp] theorem State.setPul_pairs : (s.setPul n v).pairs = s.pairs := (rfl)
@[simp] theorem State.setPul_cal : (s.setPul n v).cal = s.cal := (rfl)
@[simp] theorem State.setPul_encs : (s.setPul n v).encs = s.encs := (rfl)
@[simp] theorem State.setPul_pth : (s.setPul n v).pth = s.pth := (rfl)
@[simp] theorem State.setPul_canopy : (s.setPul n v).canopy = s.canopy := (rfl)
@[simp] theorem State.setPul_ledger : (s.setPul n v).ledger = s.ledger := (rfl)
@[simp] theorem State.setPul_capture : (s.setPul n v).capture = s.capture := (rfl)
@[simp] theorem State.setPul_log : (s.setPul n v).log = s.log := (rfl)
@[simp] theorem State.setPul_clk : (s.setPul n v).clk = s.clk := (rfl)
@[simp] theorem State.setPul_bg : (s.setPul n v).bg = s.bg := (rfl)
@[simp] theorem State.setPul_rst : (s.setPul n v).rst = s.rst := (rfl)
@[simp] theorem State.setPul_sill : (s.setPul n v).sill = s.sill := (rfl)
@[simp] theorem State.setPul_cans : (s.setPul n v).cans = s.cans := (rfl)
@[simp] theorem State.setPul_latched : (s.setPul n v).latched = s.latched := (rfl)
@[simp] theorem State.setPul_freeCtr : (s.setPul n v).freeCtr = s.freeCtr := (rfl)
end

section
variable (s : State) (n : Nat) (v : Eng)
@[simp] theorem State.setEng_pending : (s.setEng n v).pending = s.pending := (rfl)
@[simp] theorem State.setEng_now : (s.setEng n v).now = s.now := (rfl)
@[simp] theorem State.setEng_regs : (s.setEng n v).regs = s.regs := (rfl)
@[simp] theorem State.setEng_board : (s.setEng n v).board = s.board := (rfl)
@[simp] theorem State.setEng_aged : (s.setEng n v).aged = s.aged := (rfl)
@[simp] theorem State.setEng_host : (s.setEng n v).host = s.host := (rfl)
@[simp] theorem State.setEng_sec : (s.setEng n v).sec = s.sec := (rfl)
@[simp] theorem State.setEng_graphs : (s.setEng n v).graphs = s.graphs := (rfl)
@[simp] theorem State.setEng_bridges : (s.setEng n v).bridges = s.bridges := (rfl)
@[simp] theorem State.setEng_legs : (s.setEng n v).legs = s.legs := (rfl)
@[simp] theorem State.setEng_dies : (s.setEng n v).dies = s.dies := (rfl)
@[simp] theorem State.setEng_convs : (s.setEng n v).convs = s.convs := (rfl)
@[simp] theorem State.setEng_pairs : (s.setEng n v).pairs = s.pairs := (rfl)
@[simp] theorem State.setEng_cal : (s.setEng n v).cal = s.cal := (rfl)
@[simp] theorem State.setEng_encs : (s.setEng n v).encs = s.encs := (rfl)
@[simp] theorem State.setEng_pulses : (s.setEng n v).pulses = s.pulses := (rfl)
@[simp] theorem State.setEng_pth : (s.setEng n v).pth = s.pth := (rfl)
@[simp] theorem State.setEng_ledger : (s.setEng n v).ledger = s.ledger := (rfl)
@[simp] theorem State.setEng_capture : (s.setEng n v).capture = s.capture := (rfl)
@[simp] theorem State.setEng_log : (s.setEng n v).log = s.log := (rfl)
@[simp] theorem State.setEng_clk : (s.setEng n v).clk = s.clk := (rfl)
@[simp] theorem State.setEng_bg : (s.setEng n v).bg = s.bg := (rfl)
@[simp] theorem State.setEng_rst : (s.setEng n v).rst = s.rst := (rfl)
@[simp] theorem State.setEng_sill : (s.setEng n v).sill = s.sill := (rfl)
@[simp] theorem State.setEng_cans : (s.setEng n v).cans = s.cans := (rfl)
@[simp] theorem State.setEng_latched : (s.setEng n v).latched = s.latched := (rfl)
@[simp] theorem State.setEng_freeCtr : (s.setEng n v).freeCtr = s.freeCtr := (rfl)
end

section
variable (s : State) (n : Nat) (v : Entry)
@[simp] theorem State.setEntry_pending : (s.setEntry n v).pending = s.pending := (rfl)
@[simp] theorem State.setEntry_now : (s.setEntry n v).now = s.now := (rfl)
@[simp] theorem State.setEntry_regs : (s.setEntry n v).regs = s.regs := (rfl)
@[simp] theorem State.setEntry_board : (s.setEntry n v).board = s.board := (rfl)
@[simp] theorem State.setEntry_aged : (s.setEntry n v).aged = s.aged := (rfl)
@[simp] theorem State.setEntry_host : (s.setEntry n v).host = s.host := (rfl)
@[simp] theorem State.setEntry_sec : (s.setEntry n v).sec = s.sec := (rfl)
@[simp] theorem State.setEntry_graphs : (s.setEntry n v).graphs = s.graphs := (rfl)
@[simp] theorem State.setEntry_bridges : (s.setEntry n v).bridges = s.bridges := (rfl)
@[simp] theorem State.setEntry_legs : (s.setEntry n v).legs = s.legs := (rfl)
@[simp] theorem State.setEntry_dies : (s.setEntry n v).dies = s.dies := (rfl)
@[simp] theorem State.setEntry_convs : (s.setEntry n v).convs = s.convs := (rfl)
@[simp] theorem State.setEntry_pairs : (s.setEntry n v).pairs = s.pairs := (rfl)
@[simp] theorem State.setEntry_cal : (s.setEntry n v).cal = s.cal := (rfl)
@[simp] theorem State.setEntry_encs : (s.setEntry n v).encs = s.encs := (rfl)
@[simp] theorem State.setEntry_pulses : (s.setEntry n v).pulses = s.pulses := (rfl)
@[simp] theorem State.setEntry_pth : (s.setEntry n v).pth = s.pth := (rfl)
@[simp] theorem State.setEntry_canopy : (s.setEntry n v).canopy = s.canopy := (rfl)
@[simp] theorem State.setEntry_capture : (s.setEntry n v).capture = s.capture := (rfl)
@[simp] theorem State.setEntry_log : (s.setEntry n v).log = s.log := (rfl)
@[simp] theorem State.setEntry_clk : (s.setEntry n v).clk = s.clk := (rfl)
@[simp] theorem State.setEntry_bg : (s.setEntry n v).bg = s.bg := (rfl)
@[simp] theorem State.setEntry_rst : (s.setEntry n v).rst = s.rst := (rfl)
@[simp] theorem State.setEntry_sill : (s.setEntry n v).sill = s.sill := (rfl)
@[simp] theorem State.setEntry_cans : (s.setEntry n v).cans = s.cans := (rfl)
@[simp] theorem State.setEntry_latched : (s.setEntry n v).latched = s.latched := (rfl)
@[simp] theorem State.setEntry_freeCtr : (s.setEntry n v).freeCtr = s.freeCtr := (rfl)
end

section
variable (s : State) (n : Nat) (v : Unit_)
@[simp] theorem State.setUnit_pending : (s.setUnit n v).pending = s.pending := (rfl)
@[simp] theorem State.setUnit_now : (s.setUnit n v).now = s.now := (rfl)
@[simp] theorem State.setUnit_regs : (s.setUnit n v).regs = s.regs := (rfl)
@[simp] theorem State.setUnit_board : (s.setUnit n v).board = s.board := (rfl)
@[simp] theorem State.setUnit_aged : (s.setUnit n v).aged = s.aged := (rfl)
@[simp] theorem State.setUnit_host : (s.setUnit n v).host = s.host := (rfl)
@[simp] theorem State.setUnit_sec : (s.setUnit n v).sec = s.sec := (rfl)
@[simp] theorem State.setUnit_graphs : (s.setUnit n v).graphs = s.graphs := (rfl)
@[simp] theorem State.setUnit_bridges : (s.setUnit n v).bridges = s.bridges := (rfl)
@[simp] theorem State.setUnit_legs : (s.setUnit n v).legs = s.legs := (rfl)
@[simp] theorem State.setUnit_dies : (s.setUnit n v).dies = s.dies := (rfl)
@[simp] theorem State.setUnit_convs : (s.setUnit n v).convs = s.convs := (rfl)
@[simp] theorem State.setUnit_pairs : (s.setUnit n v).pairs = s.pairs := (rfl)
@[simp] theorem State.setUnit_cal : (s.setUnit n v).cal = s.cal := (rfl)
@[simp] theorem State.setUnit_encs : (s.setUnit n v).encs = s.encs := (rfl)
@[simp] theorem State.setUnit_pulses : (s.setUnit n v).pulses = s.pulses := (rfl)
@[simp] theorem State.setUnit_pth : (s.setUnit n v).pth = s.pth := (rfl)
@[simp] theorem State.setUnit_canopy : (s.setUnit n v).canopy = s.canopy := (rfl)
@[simp] theorem State.setUnit_ledger : (s.setUnit n v).ledger = s.ledger := (rfl)
@[simp] theorem State.setUnit_log : (s.setUnit n v).log = s.log := (rfl)
@[simp] theorem State.setUnit_clk : (s.setUnit n v).clk = s.clk := (rfl)
@[simp] theorem State.setUnit_bg : (s.setUnit n v).bg = s.bg := (rfl)
@[simp] theorem State.setUnit_rst : (s.setUnit n v).rst = s.rst := (rfl)
@[simp] theorem State.setUnit_sill : (s.setUnit n v).sill = s.sill := (rfl)
@[simp] theorem State.setUnit_cans : (s.setUnit n v).cans = s.cans := (rfl)
@[simp] theorem State.setUnit_latched : (s.setUnit n v).latched = s.latched := (rfl)
@[simp] theorem State.setUnit_freeCtr : (s.setUnit n v).freeCtr = s.freeCtr := (rfl)
end

section
variable (s : State) (n : Nat) (v : SafeIn)
@[simp] theorem State.setSin_pending : (s.setSin n v).pending = s.pending := (rfl)
@[simp] theorem State.setSin_now : (s.setSin n v).now = s.now := (rfl)
@[simp] theorem State.setSin_regs : (s.setSin n v).regs = s.regs := (rfl)
@[simp] theorem State.setSin_board : (s.setSin n v).board = s.board := (rfl)
@[simp] theorem State.setSin_aged : (s.setSin n v).aged = s.aged := (rfl)
@[simp] theorem State.setSin_host : (s.setSin n v).host = s.host := (rfl)
@[simp] theorem State.setSin_sec : (s.setSin n v).sec = s.sec := (rfl)
@[simp] theorem State.setSin_graphs : (s.setSin n v).graphs = s.graphs := (rfl)
@[simp] theorem State.setSin_bridges : (s.setSin n v).bridges = s.bridges := (rfl)
@[simp] theorem State.setSin_legs : (s.setSin n v).legs = s.legs := (rfl)
@[simp] theorem State.setSin_dies : (s.setSin n v).dies = s.dies := (rfl)
@[simp] theorem State.setSin_convs : (s.setSin n v).convs = s.convs := (rfl)
@[simp] theorem State.setSin_pairs : (s.setSin n v).pairs = s.pairs := (rfl)
@[simp] theorem State.setSin_cal : (s.setSin n v).cal = s.cal := (rfl)
@[simp] theorem State.setSin_encs : (s.setSin n v).encs = s.encs := (rfl)
@[simp] theorem State.setSin_pulses : (s.setSin n v).pulses = s.pulses := (rfl)
@[simp] theorem State.setSin_pth : (s.setSin n v).pth = s.pth := (rfl)
@[simp] theorem State.setSin_canopy : (s.setSin n v).canopy = s.canopy := (rfl)
@[simp] theorem State.setSin_ledger : (s.setSin n v).ledger = s.ledger := (rfl)
@[simp] theorem State.setSin_capture : (s.setSin n v).capture = s.capture := (rfl)
@[simp] theorem State.setSin_log : (s.setSin n v).log = s.log := (rfl)
@[simp] theorem State.setSin_clk : (s.setSin n v).clk = s.clk := (rfl)
@[simp] theorem State.setSin_bg : (s.setSin n v).bg = s.bg := (rfl)
@[simp] theorem State.setSin_rst : (s.setSin n v).rst = s.rst := (rfl)
@[simp] theorem State.setSin_cans : (s.setSin n v).cans = s.cans := (rfl)
@[simp] theorem State.setSin_latched : (s.setSin n v).latched = s.latched := (rfl)
@[simp] theorem State.setSin_freeCtr : (s.setSin n v).freeCtr = s.freeCtr := (rfl)
end

section
variable (s : State) (n : Nat) (v : CanCtl)
@[simp] theorem State.setCan_pending : (s.setCan n v).pending = s.pending := (rfl)
@[simp] theorem State.setCan_now : (s.setCan n v).now = s.now := (rfl)
@[simp] theorem State.setCan_regs : (s.setCan n v).regs = s.regs := (rfl)
@[simp] theorem State.setCan_board : (s.setCan n v).board = s.board := (rfl)
@[simp] theorem State.setCan_aged : (s.setCan n v).aged = s.aged := (rfl)
@[simp] theorem State.setCan_host : (s.setCan n v).host = s.host := (rfl)
@[simp] theorem State.setCan_sec : (s.setCan n v).sec = s.sec := (rfl)
@[simp] theorem State.setCan_graphs : (s.setCan n v).graphs = s.graphs := (rfl)
@[simp] theorem State.setCan_bridges : (s.setCan n v).bridges = s.bridges := (rfl)
@[simp] theorem State.setCan_legs : (s.setCan n v).legs = s.legs := (rfl)
@[simp] theorem State.setCan_dies : (s.setCan n v).dies = s.dies := (rfl)
@[simp] theorem State.setCan_convs : (s.setCan n v).convs = s.convs := (rfl)
@[simp] theorem State.setCan_pairs : (s.setCan n v).pairs = s.pairs := (rfl)
@[simp] theorem State.setCan_cal : (s.setCan n v).cal = s.cal := (rfl)
@[simp] theorem State.setCan_encs : (s.setCan n v).encs = s.encs := (rfl)
@[simp] theorem State.setCan_pulses : (s.setCan n v).pulses = s.pulses := (rfl)
@[simp] theorem State.setCan_pth : (s.setCan n v).pth = s.pth := (rfl)
@[simp] theorem State.setCan_canopy : (s.setCan n v).canopy = s.canopy := (rfl)
@[simp] theorem State.setCan_ledger : (s.setCan n v).ledger = s.ledger := (rfl)
@[simp] theorem State.setCan_capture : (s.setCan n v).capture = s.capture := (rfl)
@[simp] theorem State.setCan_log : (s.setCan n v).log = s.log := (rfl)
@[simp] theorem State.setCan_clk : (s.setCan n v).clk = s.clk := (rfl)
@[simp] theorem State.setCan_bg : (s.setCan n v).bg = s.bg := (rfl)
@[simp] theorem State.setCan_rst : (s.setCan n v).rst = s.rst := (rfl)
@[simp] theorem State.setCan_sill : (s.setCan n v).sill = s.sill := (rfl)
@[simp] theorem State.setCan_latched : (s.setCan n v).latched = s.latched := (rfl)
@[simp] theorem State.setCan_freeCtr : (s.setCan n v).freeCtr = s.freeCtr := (rfl)
end

section
variable (s : State) (c k : Nat) (v : CanObj)
@[simp] theorem State.setObj_pending : (s.setObj c k v).pending = s.pending := (rfl)
@[simp] theorem State.setObj_now : (s.setObj c k v).now = s.now := (rfl)
@[simp] theorem State.setObj_regs : (s.setObj c k v).regs = s.regs := (rfl)
@[simp] theorem State.setObj_board : (s.setObj c k v).board = s.board := (rfl)
@[simp] theorem State.setObj_aged : (s.setObj c k v).aged = s.aged := (rfl)
@[simp] theorem State.setObj_host : (s.setObj c k v).host = s.host := (rfl)
@[simp] theorem State.setObj_sec : (s.setObj c k v).sec = s.sec := (rfl)
@[simp] theorem State.setObj_graphs : (s.setObj c k v).graphs = s.graphs := (rfl)
@[simp] theorem State.setObj_bridges : (s.setObj c k v).bridges = s.bridges := (rfl)
@[simp] theorem State.setObj_legs : (s.setObj c k v).legs = s.legs := (rfl)
@[simp] theorem State.setObj_dies : (s.setObj c k v).dies = s.dies := (rfl)
@[simp] theorem State.setObj_convs : (s.setObj c k v).convs = s.convs := (rfl)
@[simp] theorem State.setObj_pairs : (s.setObj c k v).pairs = s.pairs := (rfl)
@[simp] theorem State.setObj_cal : (s.setObj c k v).cal = s.cal := (rfl)
@[simp] theorem State.setObj_encs : (s.setObj c k v).encs = s.encs := (rfl)
@[simp] theorem State.setObj_pulses : (s.setObj c k v).pulses = s.pulses := (rfl)
@[simp] theorem State.setObj_pth : (s.setObj c k v).pth = s.pth := (rfl)
@[simp] theorem State.setObj_canopy : (s.setObj c k v).canopy = s.canopy := (rfl)
@[simp] theorem State.setObj_ledger : (s.setObj c k v).ledger = s.ledger := (rfl)
@[simp] theorem State.setObj_capture : (s.setObj c k v).capture = s.capture := (rfl)
@[simp] theorem State.setObj_log : (s.setObj c k v).log = s.log := (rfl)
@[simp] theorem State.setObj_clk : (s.setObj c k v).clk = s.clk := (rfl)
@[simp] theorem State.setObj_bg : (s.setObj c k v).bg = s.bg := (rfl)
@[simp] theorem State.setObj_rst : (s.setObj c k v).rst = s.rst := (rfl)
@[simp] theorem State.setObj_sill : (s.setObj c k v).sill = s.sill := (rfl)
@[simp] theorem State.setObj_latched : (s.setObj c k v).latched = s.latched := (rfl)
@[simp] theorem State.setObj_freeCtr : (s.setObj c k v).freeCtr = s.freeCtr := (rfl)
end

section
variable (s : State) (b : Bool) (v : Transport)
@[simp] theorem State.setTransport_pending : (s.setTransport b v).pending = s.pending := (rfl)
@[simp] theorem State.setTransport_now : (s.setTransport b v).now = s.now := (rfl)
@[simp] theorem State.setTransport_regs : (s.setTransport b v).regs = s.regs := (rfl)
@[simp] theorem State.setTransport_board : (s.setTransport b v).board = s.board := (rfl)
@[simp] theorem State.setTransport_aged : (s.setTransport b v).aged = s.aged := (rfl)
@[simp] theorem State.setTransport_sec : (s.setTransport b v).sec = s.sec := (rfl)
@[simp] theorem State.setTransport_graphs : (s.setTransport b v).graphs = s.graphs := (rfl)
@[simp] theorem State.setTransport_bridges : (s.setTransport b v).bridges = s.bridges := (rfl)
@[simp] theorem State.setTransport_legs : (s.setTransport b v).legs = s.legs := (rfl)
@[simp] theorem State.setTransport_dies : (s.setTransport b v).dies = s.dies := (rfl)
@[simp] theorem State.setTransport_convs : (s.setTransport b v).convs = s.convs := (rfl)
@[simp] theorem State.setTransport_pairs : (s.setTransport b v).pairs = s.pairs := (rfl)
@[simp] theorem State.setTransport_cal : (s.setTransport b v).cal = s.cal := (rfl)
@[simp] theorem State.setTransport_encs : (s.setTransport b v).encs = s.encs := (rfl)
@[simp] theorem State.setTransport_pulses : (s.setTransport b v).pulses = s.pulses := (rfl)
@[simp] theorem State.setTransport_pth : (s.setTransport b v).pth = s.pth := (rfl)
@[simp] theorem State.setTransport_canopy : (s.setTransport b v).canopy = s.canopy := (rfl)
@[simp] theorem State.setTransport_ledger : (s.setTransport b v).ledger = s.ledger := (rfl)
@[simp] theorem State.setTransport_capture : (s.setTransport b v).capture = s.capture := (rfl)
@[simp] theorem State.setTransport_log : (s.setTransport b v).log = s.log := (rfl)
@[simp] theorem State.setTransport_clk : (s.setTransport b v).clk = s.clk := (rfl)
@[simp] theorem State.setTransport_bg : (s.setTransport b v).bg = s.bg := (rfl)
@[simp] theorem State.setTransport_rst : (s.setTransport b v).rst = s.rst := (rfl)
@[simp] theorem State.setTransport_sill : (s.setTransport b v).sill = s.sill := (rfl)
@[simp] theorem State.setTransport_cans : (s.setTransport b v).cans = s.cans := (rfl)
@[simp] theorem State.setTransport_latched : (s.setTransport b v).latched = s.latched := (rfl)
@[simp] theorem State.setTransport_freeCtr : (s.setTransport b v).freeCtr = s.freeCtr := (rfl)
end

/-! An accessor depends on its own field alone. -/

theorem State.reg_congr {s t : State} (h : t.regs = s.regs) (a : Nat) : t.reg a = s.reg a := by unfold State.reg; rw [h]
theorem State.br_congr {s t : State} (h : t.bridges = s.bridges) (b : Nat) : t.br b = s.br b := by unfold State.br; rw [h]
theorem State.leg_congr {s t : State} (h : t.legs = s.legs) (n : Nat) : t.leg n = s.leg n := by unfold State.leg; rw [h]
theorem State.die_congr {s t : State} (h : t.dies = s.dies) (n : Nat) : t.die n = s.die n := by unfold State.die; rw [h]
theorem State.conv_congr {s t : State} (h : t.convs = s.convs) (n : Nat) : t.conv n = s.conv n := by unfold State.conv; rw [h]
theorem State.pair_congr {s t : State} (h : t.pairs = s.pairs) (n : Nat) : t.pair n = s.pair n := by unfold State.pair; rw [h]
theorem State.enc_congr {s t : State} (h : t.encs = s.encs) (n : Nat) : t.enc n = s.enc n := by unfold State.enc; rw [h]
theorem State.pul_congr {s t : State} (h : t.pulses = s.pulses) (n : Nat) : t.pul n = s.pul n := by unfold State.pul; rw [h]
theorem State.can_congr {s t : State} (h : t.cans = s.cans) (n : Nat) : t.can n = s.can n := by unfold State.can; rw [h]
theorem State.eng_congr {s t : State} (h : t.canopy.engines = s.canopy.engines) (n : Nat) : t.eng n = s.eng n := by unfold State.eng; rw [h]
theorem State.entry_congr {s t : State} (h : t.ledger.entries = s.ledger.entries) (n : Nat) : t.entry n = s.entry n := by unfold State.entry; rw [h]
theorem State.unit_congr {s t : State} (h : t.capture.units = s.capture.units) (n : Nat) : t.unit n = s.unit n := by unfold State.unit; rw [h]
theorem State.sin_congr {s t : State} (h : t.sill.ins = s.sill.ins) (n : Nat) : t.sin n = s.sin n := by unfold State.sin; rw [h]

/-! An accessor of another field reads through an update. -/

section
variable (s : State) (a : Nat) (w : Word)
@[simp] theorem State.br_setReg (x : Nat) : (s.setReg a w).br x = s.br x := (rfl)
@[simp] theorem State.leg_setReg (x : Nat) : (s.setReg a w).leg x = s.leg x := (rfl)
@[simp] theorem State.die_setReg (x : Nat) : (s.setReg a w).die x = s.die x := (rfl)
@[simp] theorem State.conv_setReg (x : Nat) : (s.setReg a w).conv x = s.conv x := (rfl)
@[simp] theorem State.pair_setReg (x : Nat) : (s.setReg a w).pair x = s.pair x := (rfl)
@[simp] theorem State.enc_setReg (x : Nat) : (s.setReg a w).enc x = s.enc x := (rfl)
@[simp] theorem State.pul_setReg (x : Nat) : (s.setReg a w).pul x = s.pul x := (rfl)
@[simp] theorem State.eng_setReg (x : Nat) : (s.setReg a w).eng x = s.eng x := (rfl)
@[simp] theorem State.entry_setReg (x : Nat) : (s.setReg a w).entry x = s.entry x := (rfl)
@[simp] theorem State.unit_setReg (x : Nat) : (s.setReg a w).unit x = s.unit x := (rfl)
@[simp] theorem State.sin_setReg (x : Nat) : (s.setReg a w).sin x = s.sin x := (rfl)
@[simp] theorem State.can_setReg (x : Nat) : (s.setReg a w).can x = s.can x := (rfl)
@[simp] theorem State.transport_setReg (q : Bool) : (s.setReg a w).transport q = s.transport q := (rfl)
end

section
variable (s : State) (f : Fld) (i v : Nat)
@[simp] theorem State.br_wr (x : Nat) : (s.wr f i v).br x = s.br x := (rfl)
@[simp] theorem State.leg_wr (x : Nat) : (s.wr f i v).leg x = s.leg x := (rfl)
@[simp] theorem State.die_wr (x : Nat) : (s.wr f i v).die x = s.die x := (rfl)
@[simp] theorem State.conv_wr (x : Nat) : (s.wr f i v).conv x = s.conv x := (rfl)
@[simp] theorem State.pair_wr (x : Nat) : (s.wr f i v).pair x = s.pair x := (rfl)
@[simp] theorem State.enc_wr (x : Nat) : (s.wr f i v).enc x = s.enc x := (rfl)
@[simp] theorem State.pul_wr (x : Nat) : (s.wr f i v).pul x = s.pul x := (rfl)
@[simp] theorem State.eng_wr (x : Nat) : (s.wr f i v).eng x = s.eng x := (rfl)
@[simp] theorem State.entry_wr (x : Nat) : (s.wr f i v).entry x = s.entry x := (rfl)
@[simp] theorem State.unit_wr (x : Nat) : (s.wr f i v).unit x = s.unit x := (rfl)
@[simp] theorem State.sin_wr (x : Nat) : (s.wr f i v).sin x = s.sin x := (rfl)
@[simp] theorem State.can_wr (x : Nat) : (s.wr f i v).can x = s.can x := (rfl)
@[simp] theorem State.transport_wr (q : Bool) : (s.wr f i v).transport q = s.transport q := (rfl)
end

section
variable (s : State) (f : Fld) (i j v : Nat)
@[simp] theorem State.br_wr2 (x : Nat) : (s.wr2 f i j v).br x = s.br x := (rfl)
@[simp] theorem State.leg_wr2 (x : Nat) : (s.wr2 f i j v).leg x = s.leg x := (rfl)
@[simp] theorem State.die_wr2 (x : Nat) : (s.wr2 f i j v).die x = s.die x := (rfl)
@[simp] theorem State.conv_wr2 (x : Nat) : (s.wr2 f i j v).conv x = s.conv x := (rfl)
@[simp] theorem State.pair_wr2 (x : Nat) : (s.wr2 f i j v).pair x = s.pair x := (rfl)
@[simp] theorem State.enc_wr2 (x : Nat) : (s.wr2 f i j v).enc x = s.enc x := (rfl)
@[simp] theorem State.pul_wr2 (x : Nat) : (s.wr2 f i j v).pul x = s.pul x := (rfl)
@[simp] theorem State.eng_wr2 (x : Nat) : (s.wr2 f i j v).eng x = s.eng x := (rfl)
@[simp] theorem State.entry_wr2 (x : Nat) : (s.wr2 f i j v).entry x = s.entry x := (rfl)
@[simp] theorem State.unit_wr2 (x : Nat) : (s.wr2 f i j v).unit x = s.unit x := (rfl)
@[simp] theorem State.sin_wr2 (x : Nat) : (s.wr2 f i j v).sin x = s.sin x := (rfl)
@[simp] theorem State.can_wr2 (x : Nat) : (s.wr2 f i j v).can x = s.can x := (rfl)
@[simp] theorem State.transport_wr2 (q : Bool) : (s.wr2 f i j v).transport q = s.transport q := (rfl)
end

section
variable (s : State) (b : Nat) (v : Bridge)
@[simp] theorem State.reg_setBr (x : Nat) : (s.setBr b v).reg x = s.reg x := (rfl)
@[simp] theorem State.rd_setBr (g : Fld) (x y : Nat) : (s.setBr b v).rd g x y = s.rd g x y := (rfl)
@[simp] theorem State.flag_setBr (g : Fld) (x y : Nat) : (s.setBr b v).flag g x y = s.flag g x y := (rfl)
@[simp] theorem State.leg_setBr (x : Nat) : (s.setBr b v).leg x = s.leg x := (rfl)
@[simp] theorem State.die_setBr (x : Nat) : (s.setBr b v).die x = s.die x := (rfl)
@[simp] theorem State.conv_setBr (x : Nat) : (s.setBr b v).conv x = s.conv x := (rfl)
@[simp] theorem State.pair_setBr (x : Nat) : (s.setBr b v).pair x = s.pair x := (rfl)
@[simp] theorem State.enc_setBr (x : Nat) : (s.setBr b v).enc x = s.enc x := (rfl)
@[simp] theorem State.pul_setBr (x : Nat) : (s.setBr b v).pul x = s.pul x := (rfl)
@[simp] theorem State.eng_setBr (x : Nat) : (s.setBr b v).eng x = s.eng x := (rfl)
@[simp] theorem State.entry_setBr (x : Nat) : (s.setBr b v).entry x = s.entry x := (rfl)
@[simp] theorem State.unit_setBr (x : Nat) : (s.setBr b v).unit x = s.unit x := (rfl)
@[simp] theorem State.sin_setBr (x : Nat) : (s.setBr b v).sin x = s.sin x := (rfl)
@[simp] theorem State.can_setBr (x : Nat) : (s.setBr b v).can x = s.can x := (rfl)
@[simp] theorem State.transport_setBr (q : Bool) : (s.setBr b v).transport q = s.transport q := (rfl)
end

section
variable (s : State) (n : Nat) (v : Leg)
@[simp] theorem State.reg_setLeg (x : Nat) : (s.setLeg n v).reg x = s.reg x := (rfl)
@[simp] theorem State.rd_setLeg (g : Fld) (x y : Nat) : (s.setLeg n v).rd g x y = s.rd g x y := (rfl)
@[simp] theorem State.flag_setLeg (g : Fld) (x y : Nat) : (s.setLeg n v).flag g x y = s.flag g x y := (rfl)
@[simp] theorem State.br_setLeg (x : Nat) : (s.setLeg n v).br x = s.br x := (rfl)
@[simp] theorem State.die_setLeg (x : Nat) : (s.setLeg n v).die x = s.die x := (rfl)
@[simp] theorem State.conv_setLeg (x : Nat) : (s.setLeg n v).conv x = s.conv x := (rfl)
@[simp] theorem State.pair_setLeg (x : Nat) : (s.setLeg n v).pair x = s.pair x := (rfl)
@[simp] theorem State.enc_setLeg (x : Nat) : (s.setLeg n v).enc x = s.enc x := (rfl)
@[simp] theorem State.pul_setLeg (x : Nat) : (s.setLeg n v).pul x = s.pul x := (rfl)
@[simp] theorem State.eng_setLeg (x : Nat) : (s.setLeg n v).eng x = s.eng x := (rfl)
@[simp] theorem State.entry_setLeg (x : Nat) : (s.setLeg n v).entry x = s.entry x := (rfl)
@[simp] theorem State.unit_setLeg (x : Nat) : (s.setLeg n v).unit x = s.unit x := (rfl)
@[simp] theorem State.sin_setLeg (x : Nat) : (s.setLeg n v).sin x = s.sin x := (rfl)
@[simp] theorem State.can_setLeg (x : Nat) : (s.setLeg n v).can x = s.can x := (rfl)
@[simp] theorem State.transport_setLeg (q : Bool) : (s.setLeg n v).transport q = s.transport q := (rfl)
end

section
variable (s : State) (n : Nat) (v : Die)
@[simp] theorem State.reg_setDie (x : Nat) : (s.setDie n v).reg x = s.reg x := (rfl)
@[simp] theorem State.rd_setDie (g : Fld) (x y : Nat) : (s.setDie n v).rd g x y = s.rd g x y := (rfl)
@[simp] theorem State.flag_setDie (g : Fld) (x y : Nat) : (s.setDie n v).flag g x y = s.flag g x y := (rfl)
@[simp] theorem State.br_setDie (x : Nat) : (s.setDie n v).br x = s.br x := (rfl)
@[simp] theorem State.leg_setDie (x : Nat) : (s.setDie n v).leg x = s.leg x := (rfl)
@[simp] theorem State.conv_setDie (x : Nat) : (s.setDie n v).conv x = s.conv x := (rfl)
@[simp] theorem State.pair_setDie (x : Nat) : (s.setDie n v).pair x = s.pair x := (rfl)
@[simp] theorem State.enc_setDie (x : Nat) : (s.setDie n v).enc x = s.enc x := (rfl)
@[simp] theorem State.pul_setDie (x : Nat) : (s.setDie n v).pul x = s.pul x := (rfl)
@[simp] theorem State.eng_setDie (x : Nat) : (s.setDie n v).eng x = s.eng x := (rfl)
@[simp] theorem State.entry_setDie (x : Nat) : (s.setDie n v).entry x = s.entry x := (rfl)
@[simp] theorem State.unit_setDie (x : Nat) : (s.setDie n v).unit x = s.unit x := (rfl)
@[simp] theorem State.sin_setDie (x : Nat) : (s.setDie n v).sin x = s.sin x := (rfl)
@[simp] theorem State.can_setDie (x : Nat) : (s.setDie n v).can x = s.can x := (rfl)
@[simp] theorem State.transport_setDie (q : Bool) : (s.setDie n v).transport q = s.transport q := (rfl)
end

section
variable (s : State) (n : Nat) (v : Conv)
@[simp] theorem State.reg_setConv (x : Nat) : (s.setConv n v).reg x = s.reg x := (rfl)
@[simp] theorem State.rd_setConv (g : Fld) (x y : Nat) : (s.setConv n v).rd g x y = s.rd g x y := (rfl)
@[simp] theorem State.flag_setConv (g : Fld) (x y : Nat) : (s.setConv n v).flag g x y = s.flag g x y := (rfl)
@[simp] theorem State.br_setConv (x : Nat) : (s.setConv n v).br x = s.br x := (rfl)
@[simp] theorem State.leg_setConv (x : Nat) : (s.setConv n v).leg x = s.leg x := (rfl)
@[simp] theorem State.die_setConv (x : Nat) : (s.setConv n v).die x = s.die x := (rfl)
@[simp] theorem State.pair_setConv (x : Nat) : (s.setConv n v).pair x = s.pair x := (rfl)
@[simp] theorem State.enc_setConv (x : Nat) : (s.setConv n v).enc x = s.enc x := (rfl)
@[simp] theorem State.pul_setConv (x : Nat) : (s.setConv n v).pul x = s.pul x := (rfl)
@[simp] theorem State.eng_setConv (x : Nat) : (s.setConv n v).eng x = s.eng x := (rfl)
@[simp] theorem State.entry_setConv (x : Nat) : (s.setConv n v).entry x = s.entry x := (rfl)
@[simp] theorem State.unit_setConv (x : Nat) : (s.setConv n v).unit x = s.unit x := (rfl)
@[simp] theorem State.sin_setConv (x : Nat) : (s.setConv n v).sin x = s.sin x := (rfl)
@[simp] theorem State.can_setConv (x : Nat) : (s.setConv n v).can x = s.can x := (rfl)
@[simp] theorem State.transport_setConv (q : Bool) : (s.setConv n v).transport q = s.transport q := (rfl)
end

section
variable (s : State) (n : Nat) (v : Pair)
@[simp] theorem State.reg_setPair (x : Nat) : (s.setPair n v).reg x = s.reg x := (rfl)
@[simp] theorem State.rd_setPair (g : Fld) (x y : Nat) : (s.setPair n v).rd g x y = s.rd g x y := (rfl)
@[simp] theorem State.flag_setPair (g : Fld) (x y : Nat) : (s.setPair n v).flag g x y = s.flag g x y := (rfl)
@[simp] theorem State.br_setPair (x : Nat) : (s.setPair n v).br x = s.br x := (rfl)
@[simp] theorem State.leg_setPair (x : Nat) : (s.setPair n v).leg x = s.leg x := (rfl)
@[simp] theorem State.die_setPair (x : Nat) : (s.setPair n v).die x = s.die x := (rfl)
@[simp] theorem State.conv_setPair (x : Nat) : (s.setPair n v).conv x = s.conv x := (rfl)
@[simp] theorem State.enc_setPair (x : Nat) : (s.setPair n v).enc x = s.enc x := (rfl)
@[simp] theorem State.pul_setPair (x : Nat) : (s.setPair n v).pul x = s.pul x := (rfl)
@[simp] theorem State.eng_setPair (x : Nat) : (s.setPair n v).eng x = s.eng x := (rfl)
@[simp] theorem State.entry_setPair (x : Nat) : (s.setPair n v).entry x = s.entry x := (rfl)
@[simp] theorem State.unit_setPair (x : Nat) : (s.setPair n v).unit x = s.unit x := (rfl)
@[simp] theorem State.sin_setPair (x : Nat) : (s.setPair n v).sin x = s.sin x := (rfl)
@[simp] theorem State.can_setPair (x : Nat) : (s.setPair n v).can x = s.can x := (rfl)
@[simp] theorem State.transport_setPair (q : Bool) : (s.setPair n v).transport q = s.transport q := (rfl)
end

section
variable (s : State) (n : Nat) (v : Enc)
@[simp] theorem State.reg_setEnc (x : Nat) : (s.setEnc n v).reg x = s.reg x := (rfl)
@[simp] theorem State.rd_setEnc (g : Fld) (x y : Nat) : (s.setEnc n v).rd g x y = s.rd g x y := (rfl)
@[simp] theorem State.flag_setEnc (g : Fld) (x y : Nat) : (s.setEnc n v).flag g x y = s.flag g x y := (rfl)
@[simp] theorem State.br_setEnc (x : Nat) : (s.setEnc n v).br x = s.br x := (rfl)
@[simp] theorem State.leg_setEnc (x : Nat) : (s.setEnc n v).leg x = s.leg x := (rfl)
@[simp] theorem State.die_setEnc (x : Nat) : (s.setEnc n v).die x = s.die x := (rfl)
@[simp] theorem State.conv_setEnc (x : Nat) : (s.setEnc n v).conv x = s.conv x := (rfl)
@[simp] theorem State.pair_setEnc (x : Nat) : (s.setEnc n v).pair x = s.pair x := (rfl)
@[simp] theorem State.pul_setEnc (x : Nat) : (s.setEnc n v).pul x = s.pul x := (rfl)
@[simp] theorem State.eng_setEnc (x : Nat) : (s.setEnc n v).eng x = s.eng x := (rfl)
@[simp] theorem State.entry_setEnc (x : Nat) : (s.setEnc n v).entry x = s.entry x := (rfl)
@[simp] theorem State.unit_setEnc (x : Nat) : (s.setEnc n v).unit x = s.unit x := (rfl)
@[simp] theorem State.sin_setEnc (x : Nat) : (s.setEnc n v).sin x = s.sin x := (rfl)
@[simp] theorem State.can_setEnc (x : Nat) : (s.setEnc n v).can x = s.can x := (rfl)
@[simp] theorem State.transport_setEnc (q : Bool) : (s.setEnc n v).transport q = s.transport q := (rfl)
end

section
variable (s : State) (n : Nat) (v : Pulse)
@[simp] theorem State.reg_setPul (x : Nat) : (s.setPul n v).reg x = s.reg x := (rfl)
@[simp] theorem State.rd_setPul (g : Fld) (x y : Nat) : (s.setPul n v).rd g x y = s.rd g x y := (rfl)
@[simp] theorem State.flag_setPul (g : Fld) (x y : Nat) : (s.setPul n v).flag g x y = s.flag g x y := (rfl)
@[simp] theorem State.br_setPul (x : Nat) : (s.setPul n v).br x = s.br x := (rfl)
@[simp] theorem State.leg_setPul (x : Nat) : (s.setPul n v).leg x = s.leg x := (rfl)
@[simp] theorem State.die_setPul (x : Nat) : (s.setPul n v).die x = s.die x := (rfl)
@[simp] theorem State.conv_setPul (x : Nat) : (s.setPul n v).conv x = s.conv x := (rfl)
@[simp] theorem State.pair_setPul (x : Nat) : (s.setPul n v).pair x = s.pair x := (rfl)
@[simp] theorem State.enc_setPul (x : Nat) : (s.setPul n v).enc x = s.enc x := (rfl)
@[simp] theorem State.eng_setPul (x : Nat) : (s.setPul n v).eng x = s.eng x := (rfl)
@[simp] theorem State.entry_setPul (x : Nat) : (s.setPul n v).entry x = s.entry x := (rfl)
@[simp] theorem State.unit_setPul (x : Nat) : (s.setPul n v).unit x = s.unit x := (rfl)
@[simp] theorem State.sin_setPul (x : Nat) : (s.setPul n v).sin x = s.sin x := (rfl)
@[simp] theorem State.can_setPul (x : Nat) : (s.setPul n v).can x = s.can x := (rfl)
@[simp] theorem State.transport_setPul (q : Bool) : (s.setPul n v).transport q = s.transport q := (rfl)
end

section
variable (s : State) (n : Nat) (v : Eng)
@[simp] theorem State.reg_setEng (x : Nat) : (s.setEng n v).reg x = s.reg x := (rfl)
@[simp] theorem State.rd_setEng (g : Fld) (x y : Nat) : (s.setEng n v).rd g x y = s.rd g x y := (rfl)
@[simp] theorem State.flag_setEng (g : Fld) (x y : Nat) : (s.setEng n v).flag g x y = s.flag g x y := (rfl)
@[simp] theorem State.br_setEng (x : Nat) : (s.setEng n v).br x = s.br x := (rfl)
@[simp] theorem State.leg_setEng (x : Nat) : (s.setEng n v).leg x = s.leg x := (rfl)
@[simp] theorem State.die_setEng (x : Nat) : (s.setEng n v).die x = s.die x := (rfl)
@[simp] theorem State.conv_setEng (x : Nat) : (s.setEng n v).conv x = s.conv x := (rfl)
@[simp] theorem State.pair_setEng (x : Nat) : (s.setEng n v).pair x = s.pair x := (rfl)
@[simp] theorem State.enc_setEng (x : Nat) : (s.setEng n v).enc x = s.enc x := (rfl)
@[simp] theorem State.pul_setEng (x : Nat) : (s.setEng n v).pul x = s.pul x := (rfl)
@[simp] theorem State.entry_setEng (x : Nat) : (s.setEng n v).entry x = s.entry x := (rfl)
@[simp] theorem State.unit_setEng (x : Nat) : (s.setEng n v).unit x = s.unit x := (rfl)
@[simp] theorem State.sin_setEng (x : Nat) : (s.setEng n v).sin x = s.sin x := (rfl)
@[simp] theorem State.can_setEng (x : Nat) : (s.setEng n v).can x = s.can x := (rfl)
@[simp] theorem State.transport_setEng (q : Bool) : (s.setEng n v).transport q = s.transport q := (rfl)
end

section
variable (s : State) (n : Nat) (v : Entry)
@[simp] theorem State.reg_setEntry (x : Nat) : (s.setEntry n v).reg x = s.reg x := (rfl)
@[simp] theorem State.rd_setEntry (g : Fld) (x y : Nat) : (s.setEntry n v).rd g x y = s.rd g x y := (rfl)
@[simp] theorem State.flag_setEntry (g : Fld) (x y : Nat) : (s.setEntry n v).flag g x y = s.flag g x y := (rfl)
@[simp] theorem State.br_setEntry (x : Nat) : (s.setEntry n v).br x = s.br x := (rfl)
@[simp] theorem State.leg_setEntry (x : Nat) : (s.setEntry n v).leg x = s.leg x := (rfl)
@[simp] theorem State.die_setEntry (x : Nat) : (s.setEntry n v).die x = s.die x := (rfl)
@[simp] theorem State.conv_setEntry (x : Nat) : (s.setEntry n v).conv x = s.conv x := (rfl)
@[simp] theorem State.pair_setEntry (x : Nat) : (s.setEntry n v).pair x = s.pair x := (rfl)
@[simp] theorem State.enc_setEntry (x : Nat) : (s.setEntry n v).enc x = s.enc x := (rfl)
@[simp] theorem State.pul_setEntry (x : Nat) : (s.setEntry n v).pul x = s.pul x := (rfl)
@[simp] theorem State.eng_setEntry (x : Nat) : (s.setEntry n v).eng x = s.eng x := (rfl)
@[simp] theorem State.unit_setEntry (x : Nat) : (s.setEntry n v).unit x = s.unit x := (rfl)
@[simp] theorem State.sin_setEntry (x : Nat) : (s.setEntry n v).sin x = s.sin x := (rfl)
@[simp] theorem State.can_setEntry (x : Nat) : (s.setEntry n v).can x = s.can x := (rfl)
@[simp] theorem State.transport_setEntry (q : Bool) : (s.setEntry n v).transport q = s.transport q := (rfl)
end

section
variable (s : State) (n : Nat) (v : Unit_)
@[simp] theorem State.reg_setUnit (x : Nat) : (s.setUnit n v).reg x = s.reg x := (rfl)
@[simp] theorem State.rd_setUnit (g : Fld) (x y : Nat) : (s.setUnit n v).rd g x y = s.rd g x y := (rfl)
@[simp] theorem State.flag_setUnit (g : Fld) (x y : Nat) : (s.setUnit n v).flag g x y = s.flag g x y := (rfl)
@[simp] theorem State.br_setUnit (x : Nat) : (s.setUnit n v).br x = s.br x := (rfl)
@[simp] theorem State.leg_setUnit (x : Nat) : (s.setUnit n v).leg x = s.leg x := (rfl)
@[simp] theorem State.die_setUnit (x : Nat) : (s.setUnit n v).die x = s.die x := (rfl)
@[simp] theorem State.conv_setUnit (x : Nat) : (s.setUnit n v).conv x = s.conv x := (rfl)
@[simp] theorem State.pair_setUnit (x : Nat) : (s.setUnit n v).pair x = s.pair x := (rfl)
@[simp] theorem State.enc_setUnit (x : Nat) : (s.setUnit n v).enc x = s.enc x := (rfl)
@[simp] theorem State.pul_setUnit (x : Nat) : (s.setUnit n v).pul x = s.pul x := (rfl)
@[simp] theorem State.eng_setUnit (x : Nat) : (s.setUnit n v).eng x = s.eng x := (rfl)
@[simp] theorem State.entry_setUnit (x : Nat) : (s.setUnit n v).entry x = s.entry x := (rfl)
@[simp] theorem State.sin_setUnit (x : Nat) : (s.setUnit n v).sin x = s.sin x := (rfl)
@[simp] theorem State.can_setUnit (x : Nat) : (s.setUnit n v).can x = s.can x := (rfl)
@[simp] theorem State.transport_setUnit (q : Bool) : (s.setUnit n v).transport q = s.transport q := (rfl)
end

section
variable (s : State) (n : Nat) (v : SafeIn)
@[simp] theorem State.reg_setSin (x : Nat) : (s.setSin n v).reg x = s.reg x := (rfl)
@[simp] theorem State.rd_setSin (g : Fld) (x y : Nat) : (s.setSin n v).rd g x y = s.rd g x y := (rfl)
@[simp] theorem State.flag_setSin (g : Fld) (x y : Nat) : (s.setSin n v).flag g x y = s.flag g x y := (rfl)
@[simp] theorem State.br_setSin (x : Nat) : (s.setSin n v).br x = s.br x := (rfl)
@[simp] theorem State.leg_setSin (x : Nat) : (s.setSin n v).leg x = s.leg x := (rfl)
@[simp] theorem State.die_setSin (x : Nat) : (s.setSin n v).die x = s.die x := (rfl)
@[simp] theorem State.conv_setSin (x : Nat) : (s.setSin n v).conv x = s.conv x := (rfl)
@[simp] theorem State.pair_setSin (x : Nat) : (s.setSin n v).pair x = s.pair x := (rfl)
@[simp] theorem State.enc_setSin (x : Nat) : (s.setSin n v).enc x = s.enc x := (rfl)
@[simp] theorem State.pul_setSin (x : Nat) : (s.setSin n v).pul x = s.pul x := (rfl)
@[simp] theorem State.eng_setSin (x : Nat) : (s.setSin n v).eng x = s.eng x := (rfl)
@[simp] theorem State.entry_setSin (x : Nat) : (s.setSin n v).entry x = s.entry x := (rfl)
@[simp] theorem State.unit_setSin (x : Nat) : (s.setSin n v).unit x = s.unit x := (rfl)
@[simp] theorem State.can_setSin (x : Nat) : (s.setSin n v).can x = s.can x := (rfl)
@[simp] theorem State.transport_setSin (q : Bool) : (s.setSin n v).transport q = s.transport q := (rfl)
end

section
variable (s : State) (n : Nat) (v : CanCtl)
@[simp] theorem State.reg_setCan (x : Nat) : (s.setCan n v).reg x = s.reg x := (rfl)
@[simp] theorem State.rd_setCan (g : Fld) (x y : Nat) : (s.setCan n v).rd g x y = s.rd g x y := (rfl)
@[simp] theorem State.flag_setCan (g : Fld) (x y : Nat) : (s.setCan n v).flag g x y = s.flag g x y := (rfl)
@[simp] theorem State.br_setCan (x : Nat) : (s.setCan n v).br x = s.br x := (rfl)
@[simp] theorem State.leg_setCan (x : Nat) : (s.setCan n v).leg x = s.leg x := (rfl)
@[simp] theorem State.die_setCan (x : Nat) : (s.setCan n v).die x = s.die x := (rfl)
@[simp] theorem State.conv_setCan (x : Nat) : (s.setCan n v).conv x = s.conv x := (rfl)
@[simp] theorem State.pair_setCan (x : Nat) : (s.setCan n v).pair x = s.pair x := (rfl)
@[simp] theorem State.enc_setCan (x : Nat) : (s.setCan n v).enc x = s.enc x := (rfl)
@[simp] theorem State.pul_setCan (x : Nat) : (s.setCan n v).pul x = s.pul x := (rfl)
@[simp] theorem State.eng_setCan (x : Nat) : (s.setCan n v).eng x = s.eng x := (rfl)
@[simp] theorem State.entry_setCan (x : Nat) : (s.setCan n v).entry x = s.entry x := (rfl)
@[simp] theorem State.unit_setCan (x : Nat) : (s.setCan n v).unit x = s.unit x := (rfl)
@[simp] theorem State.sin_setCan (x : Nat) : (s.setCan n v).sin x = s.sin x := (rfl)
@[simp] theorem State.transport_setCan (q : Bool) : (s.setCan n v).transport q = s.transport q := (rfl)
end

section
variable (s : State) (c k : Nat) (v : CanObj)
@[simp] theorem State.reg_setObj (x : Nat) : (s.setObj c k v).reg x = s.reg x := (rfl)
@[simp] theorem State.rd_setObj (g : Fld) (x y : Nat) : (s.setObj c k v).rd g x y = s.rd g x y := (rfl)
@[simp] theorem State.flag_setObj (g : Fld) (x y : Nat) : (s.setObj c k v).flag g x y = s.flag g x y := (rfl)
@[simp] theorem State.br_setObj (x : Nat) : (s.setObj c k v).br x = s.br x := (rfl)
@[simp] theorem State.leg_setObj (x : Nat) : (s.setObj c k v).leg x = s.leg x := (rfl)
@[simp] theorem State.die_setObj (x : Nat) : (s.setObj c k v).die x = s.die x := (rfl)
@[simp] theorem State.conv_setObj (x : Nat) : (s.setObj c k v).conv x = s.conv x := (rfl)
@[simp] theorem State.pair_setObj (x : Nat) : (s.setObj c k v).pair x = s.pair x := (rfl)
@[simp] theorem State.enc_setObj (x : Nat) : (s.setObj c k v).enc x = s.enc x := (rfl)
@[simp] theorem State.pul_setObj (x : Nat) : (s.setObj c k v).pul x = s.pul x := (rfl)
@[simp] theorem State.eng_setObj (x : Nat) : (s.setObj c k v).eng x = s.eng x := (rfl)
@[simp] theorem State.entry_setObj (x : Nat) : (s.setObj c k v).entry x = s.entry x := (rfl)
@[simp] theorem State.unit_setObj (x : Nat) : (s.setObj c k v).unit x = s.unit x := (rfl)
@[simp] theorem State.sin_setObj (x : Nat) : (s.setObj c k v).sin x = s.sin x := (rfl)
@[simp] theorem State.transport_setObj (q : Bool) : (s.setObj c k v).transport q = s.transport q := (rfl)
end

section
variable (s : State) (b : Bool) (v : Transport)
@[simp] theorem State.reg_setTransport (x : Nat) : (s.setTransport b v).reg x = s.reg x := (rfl)
@[simp] theorem State.rd_setTransport (g : Fld) (x y : Nat) : (s.setTransport b v).rd g x y = s.rd g x y := (rfl)
@[simp] theorem State.flag_setTransport (g : Fld) (x y : Nat) : (s.setTransport b v).flag g x y = s.flag g x y := (rfl)
@[simp] theorem State.br_setTransport (x : Nat) : (s.setTransport b v).br x = s.br x := (rfl)
@[simp] theorem State.leg_setTransport (x : Nat) : (s.setTransport b v).leg x = s.leg x := (rfl)
@[simp] theorem State.die_setTransport (x : Nat) : (s.setTransport b v).die x = s.die x := (rfl)
@[simp] theorem State.conv_setTransport (x : Nat) : (s.setTransport b v).conv x = s.conv x := (rfl)
@[simp] theorem State.pair_setTransport (x : Nat) : (s.setTransport b v).pair x = s.pair x := (rfl)
@[simp] theorem State.enc_setTransport (x : Nat) : (s.setTransport b v).enc x = s.enc x := (rfl)
@[simp] theorem State.pul_setTransport (x : Nat) : (s.setTransport b v).pul x = s.pul x := (rfl)
@[simp] theorem State.eng_setTransport (x : Nat) : (s.setTransport b v).eng x = s.eng x := (rfl)
@[simp] theorem State.entry_setTransport (x : Nat) : (s.setTransport b v).entry x = s.entry x := (rfl)
@[simp] theorem State.unit_setTransport (x : Nat) : (s.setTransport b v).unit x = s.unit x := (rfl)
@[simp] theorem State.sin_setTransport (x : Nat) : (s.setTransport b v).sin x = s.sin x := (rfl)
@[simp] theorem State.can_setTransport (x : Nat) : (s.setTransport b v).can x = s.can x := (rfl)
end

/-! An instance reads back what was put there, and no other instance changes. -/

@[simp] theorem State.reg_setReg_same (s : State) (a : Nat) (w : Word) : (s.setReg a w).reg a = w := by
  simp [State.reg, State.setReg]
theorem State.reg_setReg_ne (s : State) {x : Nat} (a : Nat) (w : Word) (h : x ≠ a) : (s.setReg a w).reg x = s.reg x := by
  simp [State.reg, State.setReg, sget_sput_ne _ _ _ h]
@[simp] theorem State.br_setBr_same (s : State) (a : Nat) (w : Bridge) : (s.setBr a w).br a = w := by
  simp [State.br, State.setBr]
theorem State.br_setBr_ne (s : State) {x : Nat} (a : Nat) (w : Bridge) (h : x ≠ a) : (s.setBr a w).br x = s.br x := by
  simp [State.br, State.setBr, sget_sput_ne _ _ _ h]
@[simp] theorem State.leg_setLeg_same (s : State) (a : Nat) (w : Leg) : (s.setLeg a w).leg a = w := by
  simp [State.leg, State.setLeg]
theorem State.leg_setLeg_ne (s : State) {x : Nat} (a : Nat) (w : Leg) (h : x ≠ a) : (s.setLeg a w).leg x = s.leg x := by
  simp [State.leg, State.setLeg, sget_sput_ne _ _ _ h]
@[simp] theorem State.die_setDie_same (s : State) (a : Nat) (w : Die) : (s.setDie a w).die a = w := by
  simp [State.die, State.setDie]
theorem State.die_setDie_ne (s : State) {x : Nat} (a : Nat) (w : Die) (h : x ≠ a) : (s.setDie a w).die x = s.die x := by
  simp [State.die, State.setDie, sget_sput_ne _ _ _ h]
@[simp] theorem State.conv_setConv_same (s : State) (a : Nat) (w : Conv) : (s.setConv a w).conv a = w := by
  simp [State.conv, State.setConv]
theorem State.conv_setConv_ne (s : State) {x : Nat} (a : Nat) (w : Conv) (h : x ≠ a) : (s.setConv a w).conv x = s.conv x := by
  simp [State.conv, State.setConv, sget_sput_ne _ _ _ h]
@[simp] theorem State.pair_setPair_same (s : State) (a : Nat) (w : Pair) : (s.setPair a w).pair a = w := by
  simp [State.pair, State.setPair]
theorem State.pair_setPair_ne (s : State) {x : Nat} (a : Nat) (w : Pair) (h : x ≠ a) : (s.setPair a w).pair x = s.pair x := by
  simp [State.pair, State.setPair, sget_sput_ne _ _ _ h]
@[simp] theorem State.enc_setEnc_same (s : State) (a : Nat) (w : Enc) : (s.setEnc a w).enc a = w := by
  simp [State.enc, State.setEnc]
theorem State.enc_setEnc_ne (s : State) {x : Nat} (a : Nat) (w : Enc) (h : x ≠ a) : (s.setEnc a w).enc x = s.enc x := by
  simp [State.enc, State.setEnc, sget_sput_ne _ _ _ h]
@[simp] theorem State.pul_setPul_same (s : State) (a : Nat) (w : Pulse) : (s.setPul a w).pul a = w := by
  simp [State.pul, State.setPul]
theorem State.pul_setPul_ne (s : State) {x : Nat} (a : Nat) (w : Pulse) (h : x ≠ a) : (s.setPul a w).pul x = s.pul x := by
  simp [State.pul, State.setPul, sget_sput_ne _ _ _ h]
@[simp] theorem State.eng_setEng_same (s : State) (a : Nat) (w : Eng) : (s.setEng a w).eng a = w := by
  simp [State.eng, State.setEng]
theorem State.eng_setEng_ne (s : State) {x : Nat} (a : Nat) (w : Eng) (h : x ≠ a) : (s.setEng a w).eng x = s.eng x := by
  simp [State.eng, State.setEng, sget_sput_ne _ _ _ h]
@[simp] theorem State.entry_setEntry_same (s : State) (a : Nat) (w : Entry) : (s.setEntry a w).entry a = w := by
  simp [State.entry, State.setEntry]
theorem State.entry_setEntry_ne (s : State) {x : Nat} (a : Nat) (w : Entry) (h : x ≠ a) : (s.setEntry a w).entry x = s.entry x := by
  simp [State.entry, State.setEntry, sget_sput_ne _ _ _ h]
@[simp] theorem State.unit_setUnit_same (s : State) (a : Nat) (w : Unit_) : (s.setUnit a w).unit a = w := by
  simp [State.unit, State.setUnit]
theorem State.unit_setUnit_ne (s : State) {x : Nat} (a : Nat) (w : Unit_) (h : x ≠ a) : (s.setUnit a w).unit x = s.unit x := by
  simp [State.unit, State.setUnit, sget_sput_ne _ _ _ h]
@[simp] theorem State.sin_setSin_same (s : State) (a : Nat) (w : SafeIn) : (s.setSin a w).sin a = w := by
  simp [State.sin, State.setSin]
theorem State.sin_setSin_ne (s : State) {x : Nat} (a : Nat) (w : SafeIn) (h : x ≠ a) : (s.setSin a w).sin x = s.sin x := by
  simp [State.sin, State.setSin, sget_sput_ne _ _ _ h]
@[simp] theorem State.can_setCan_same (s : State) (a : Nat) (w : CanCtl) : (s.setCan a w).can a = w := by
  simp [State.can, State.setCan]
theorem State.can_setCan_ne (s : State) {x : Nat} (a : Nat) (w : CanCtl) (h : x ≠ a) : (s.setCan a w).can x = s.can x := by
  simp [State.can, State.setCan, sget_sput_ne _ _ _ h]

@[simp] theorem State.transport_setTransport_same (s : State) (c : Bool) (t : Transport) :
    (s.setTransport c t).transport c = t := by cases c <;> rfl

@[simp] theorem State.transport_setTransport_not (s : State) (c : Bool) (t : Transport) :
    (s.setTransport c t).transport (!c) = s.transport (!c) := by cases c <;> rfl

/-! An accessor over a state written out whose own field is that of a state `X`. -/

section
variable (X : State) (f0 : List Instr) (f1 : Nat) (f2 : List (Nat × Word)) (f3 : List (Nat × Word)) (f4 : List (Nat × Nat)) (f5 : HostPort) (f6 : Sec) (f7 : GraphStore) (f8 : List (Nat × Bridge)) (f9 : List (Nat × Leg)) (f10 : List (Nat × Die)) (f11 : List (Nat × Conv)) (f12 : List (Nat × Pair)) (f13 : Cal) (f14 : List (Nat × Enc)) (f15 : List (Nat × Pulse)) (f16 : Nat) (f17 : Canopy) (f18 : Ledger) (f19 : Capture) (f20 : EvLog) (f21 : Clk) (f22 : Background) (f23 : ResetCtl) (f24 : Sill) (f25 : List (Nat × CanCtl)) (f26 : List (Nat × Word)) (f27 : Nat)
@[simp] theorem State.reg_mk (x : Nat) : (State.mk f0 f1 X.regs f3 f4 f5 f6 f7 f8 f9 f10 f11 f12 f13 f14 f15 f16 f17 f18 f19 f20 f21 f22 f23 f24 f25 f26 f27).reg x = X.reg x := (rfl)
@[simp] theorem State.rd_mk (g : Fld) (x y : Nat) : (State.mk f0 f1 X.regs f3 f4 f5 f6 f7 f8 f9 f10 f11 f12 f13 f14 f15 f16 f17 f18 f19 f20 f21 f22 f23 f24 f25 f26 f27).rd g x y = X.rd g x y := (rfl)
@[simp] theorem State.flag_mk (g : Fld) (x y : Nat) : (State.mk f0 f1 X.regs f3 f4 f5 f6 f7 f8 f9 f10 f11 f12 f13 f14 f15 f16 f17 f18 f19 f20 f21 f22 f23 f24 f25 f26 f27).flag g x y = X.flag g x y := (rfl)
@[simp] theorem State.br_mk (x : Nat) : (State.mk f0 f1 f2 f3 f4 f5 f6 f7 X.bridges f9 f10 f11 f12 f13 f14 f15 f16 f17 f18 f19 f20 f21 f22 f23 f24 f25 f26 f27).br x = X.br x := (rfl)
@[simp] theorem State.leg_mk (x : Nat) : (State.mk f0 f1 f2 f3 f4 f5 f6 f7 f8 X.legs f10 f11 f12 f13 f14 f15 f16 f17 f18 f19 f20 f21 f22 f23 f24 f25 f26 f27).leg x = X.leg x := (rfl)
@[simp] theorem State.die_mk (x : Nat) : (State.mk f0 f1 f2 f3 f4 f5 f6 f7 f8 f9 X.dies f11 f12 f13 f14 f15 f16 f17 f18 f19 f20 f21 f22 f23 f24 f25 f26 f27).die x = X.die x := (rfl)
@[simp] theorem State.conv_mk (x : Nat) : (State.mk f0 f1 f2 f3 f4 f5 f6 f7 f8 f9 f10 X.convs f12 f13 f14 f15 f16 f17 f18 f19 f20 f21 f22 f23 f24 f25 f26 f27).conv x = X.conv x := (rfl)
@[simp] theorem State.pair_mk (x : Nat) : (State.mk f0 f1 f2 f3 f4 f5 f6 f7 f8 f9 f10 f11 X.pairs f13 f14 f15 f16 f17 f18 f19 f20 f21 f22 f23 f24 f25 f26 f27).pair x = X.pair x := (rfl)
@[simp] theorem State.enc_mk (x : Nat) : (State.mk f0 f1 f2 f3 f4 f5 f6 f7 f8 f9 f10 f11 f12 f13 X.encs f15 f16 f17 f18 f19 f20 f21 f22 f23 f24 f25 f26 f27).enc x = X.enc x := (rfl)
@[simp] theorem State.pul_mk (x : Nat) : (State.mk f0 f1 f2 f3 f4 f5 f6 f7 f8 f9 f10 f11 f12 f13 f14 X.pulses f16 f17 f18 f19 f20 f21 f22 f23 f24 f25 f26 f27).pul x = X.pul x := (rfl)
@[simp] theorem State.eng_mk (x : Nat) : (State.mk f0 f1 f2 f3 f4 f5 f6 f7 f8 f9 f10 f11 f12 f13 f14 f15 f16 X.canopy f18 f19 f20 f21 f22 f23 f24 f25 f26 f27).eng x = X.eng x := (rfl)
@[simp] theorem State.entry_mk (x : Nat) : (State.mk f0 f1 f2 f3 f4 f5 f6 f7 f8 f9 f10 f11 f12 f13 f14 f15 f16 f17 X.ledger f19 f20 f21 f22 f23 f24 f25 f26 f27).entry x = X.entry x := (rfl)
@[simp] theorem State.unit_mk (x : Nat) : (State.mk f0 f1 f2 f3 f4 f5 f6 f7 f8 f9 f10 f11 f12 f13 f14 f15 f16 f17 f18 X.capture f20 f21 f22 f23 f24 f25 f26 f27).unit x = X.unit x := (rfl)
@[simp] theorem State.sin_mk (x : Nat) : (State.mk f0 f1 f2 f3 f4 f5 f6 f7 f8 f9 f10 f11 f12 f13 f14 f15 f16 f17 f18 f19 f20 f21 f22 f23 X.sill f25 f26 f27).sin x = X.sin x := (rfl)
@[simp] theorem State.can_mk (x : Nat) : (State.mk f0 f1 f2 f3 f4 f5 f6 f7 f8 f9 f10 f11 f12 f13 f14 f15 f16 f17 f18 f19 f20 f21 f22 f23 f24 X.cans f26 f27).can x = X.can x := (rfl)
@[simp] theorem State.transport_mk (q : Bool) : (State.mk f0 f1 f2 f3 f4 X.host f6 f7 f8 f9 f10 f11 f12 f13 f14 f15 f16 f17 f18 f19 f20 f21 f22 f23 f24 f25 f26 f27).transport q = X.transport q := (rfl)
end

/-- What every pass of a loop keeps, the loop keeps. -/
theorem State.each_keep {α β : Type} (p : State → β) (f : State → α → State) (h : ∀ s x, p (f s x) = p s) (l : List α)
    (s : State) : p (s.each l f) = p s := by
  induction l generalizing s with
  | nil => rfl
  | cons x t ih => exact (ih (f s x)).trans (h s x)

/-! An accessor of a choice. -/

section
variable (c : Prop) [Decidable c] (s t : State)
@[simp] theorem State.pending_ite : (if c then s else t).pending = if c then s.pending else t.pending := apply_ite State.pending c s t
@[simp] theorem State.now_ite : (if c then s else t).now = if c then s.now else t.now := apply_ite State.now c s t
@[simp] theorem State.regs_ite : (if c then s else t).regs = if c then s.regs else t.regs := apply_ite State.regs c s t
@[simp] theorem State.board_ite : (if c then s else t).board = if c then s.board else t.board := apply_ite State.board c s t
@[simp] theorem State.aged_ite : (if c then s else t).aged = if c then s.aged else t.aged := apply_ite State.aged c s t
@[simp] theorem State.host_ite : (if c then s else t).host = if c then s.host else t.host := apply_ite State.host c s t
@[simp] theorem State.sec_ite : (if c then s else t).sec = if c then s.sec else t.sec := apply_ite State.sec c s t
@[simp] theorem State.graphs_ite : (if c then s else t).graphs = if c then s.graphs else t.graphs := apply_ite State.graphs c s t
@[simp] theorem State.bridges_ite : (if c then s else t).bridges = if c then s.bridges else t.bridges := apply_ite State.bridges c s t
@[simp] theorem State.legs_ite : (if c then s else t).legs = if c then s.legs else t.legs := apply_ite State.legs c s t
@[simp] theorem State.dies_ite : (if c then s else t).dies = if c then s.dies else t.dies := apply_ite State.dies c s t
@[simp] theorem State.convs_ite : (if c then s else t).convs = if c then s.convs else t.convs := apply_ite State.convs c s t
@[simp] theorem State.pairs_ite : (if c then s else t).pairs = if c then s.pairs else t.pairs := apply_ite State.pairs c s t
@[simp] theorem State.cal_ite : (if c then s else t).cal = if c then s.cal else t.cal := apply_ite State.cal c s t
@[simp] theorem State.encs_ite : (if c then s else t).encs = if c then s.encs else t.encs := apply_ite State.encs c s t
@[simp] theorem State.pulses_ite : (if c then s else t).pulses = if c then s.pulses else t.pulses := apply_ite State.pulses c s t
@[simp] theorem State.pth_ite : (if c then s else t).pth = if c then s.pth else t.pth := apply_ite State.pth c s t
@[simp] theorem State.canopy_ite : (if c then s else t).canopy = if c then s.canopy else t.canopy := apply_ite State.canopy c s t
@[simp] theorem State.ledger_ite : (if c then s else t).ledger = if c then s.ledger else t.ledger := apply_ite State.ledger c s t
@[simp] theorem State.capture_ite : (if c then s else t).capture = if c then s.capture else t.capture := apply_ite State.capture c s t
@[simp] theorem State.log_ite : (if c then s else t).log = if c then s.log else t.log := apply_ite State.log c s t
@[simp] theorem State.clk_ite : (if c then s else t).clk = if c then s.clk else t.clk := apply_ite State.clk c s t
@[simp] theorem State.bg_ite : (if c then s else t).bg = if c then s.bg else t.bg := apply_ite State.bg c s t
@[simp] theorem State.rst_ite : (if c then s else t).rst = if c then s.rst else t.rst := apply_ite State.rst c s t
@[simp] theorem State.sill_ite : (if c then s else t).sill = if c then s.sill else t.sill := apply_ite State.sill c s t
@[simp] theorem State.cans_ite : (if c then s else t).cans = if c then s.cans else t.cans := apply_ite State.cans c s t
@[simp] theorem State.latched_ite : (if c then s else t).latched = if c then s.latched else t.latched := apply_ite State.latched c s t
@[simp] theorem State.freeCtr_ite : (if c then s else t).freeCtr = if c then s.freeCtr else t.freeCtr := apply_ite State.freeCtr c s t
@[simp] theorem State.reg_ite (x : Nat) : (if c then s else t).reg x = if c then s.reg x else t.reg x :=
  apply_ite (fun u => State.reg u x) c s t
@[simp] theorem State.rd_ite (g : Fld) (x y : Nat) : (if c then s else t).rd g x y = if c then s.rd g x y else t.rd g x y :=
  apply_ite (fun u => State.rd u g x y) c s t
@[simp] theorem State.flag_ite (g : Fld) (x y : Nat) : (if c then s else t).flag g x y = if c then s.flag g x y else t.flag g x y :=
  apply_ite (fun u => State.flag u g x y) c s t
@[simp] theorem State.br_ite (x : Nat) : (if c then s else t).br x = if c then s.br x else t.br x :=
  apply_ite (fun u => State.br u x) c s t
@[simp] theorem State.leg_ite (x : Nat) : (if c then s else t).leg x = if c then s.leg x else t.leg x :=
  apply_ite (fun u => State.leg u x) c s t
@[simp] theorem State.die_ite (x : Nat) : (if c then s else t).die x = if c then s.die x else t.die x :=
  apply_ite (fun u => State.die u x) c s t
@[simp] theorem State.conv_ite (x : Nat) : (if c then s else t).conv x = if c then s.conv x else t.conv x :=
  apply_ite (fun u => State.conv u x) c s t
@[simp] theorem State.pair_ite (x : Nat) : (if c then s else t).pair x = if c then s.pair x else t.pair x :=
  apply_ite (fun u => State.pair u x) c s t
@[simp] theorem State.enc_ite (x : Nat) : (if c then s else t).enc x = if c then s.enc x else t.enc x :=
  apply_ite (fun u => State.enc u x) c s t
@[simp] theorem State.pul_ite (x : Nat) : (if c then s else t).pul x = if c then s.pul x else t.pul x :=
  apply_ite (fun u => State.pul u x) c s t
@[simp] theorem State.eng_ite (x : Nat) : (if c then s else t).eng x = if c then s.eng x else t.eng x :=
  apply_ite (fun u => State.eng u x) c s t
@[simp] theorem State.entry_ite (x : Nat) : (if c then s else t).entry x = if c then s.entry x else t.entry x :=
  apply_ite (fun u => State.entry u x) c s t
@[simp] theorem State.unit_ite (x : Nat) : (if c then s else t).unit x = if c then s.unit x else t.unit x :=
  apply_ite (fun u => State.unit u x) c s t
@[simp] theorem State.sin_ite (x : Nat) : (if c then s else t).sin x = if c then s.sin x else t.sin x :=
  apply_ite (fun u => State.sin u x) c s t
@[simp] theorem State.can_ite (x : Nat) : (if c then s else t).can x = if c then s.can x else t.can x :=
  apply_ite (fun u => State.can u x) c s t
@[simp] theorem State.transport_ite (q : Bool) : (if c then s else t).transport q = if c then s.transport q else t.transport q :=
  apply_ite (fun u => State.transport u q) c s t
end

section
variable {α : Type} (f : State → α → State) (l : List α) (s : State)
@[simp] theorem State.each_pending (h : ∀ s x, (f s x).pending = s.pending) : (s.each l f).pending = s.pending :=
  State.each_keep (fun t => t.pending) f h l s
@[simp] theorem State.each_now (h : ∀ s x, (f s x).now = s.now) : (s.each l f).now = s.now :=
  State.each_keep (fun t => t.now) f h l s
@[simp] theorem State.each_regs (h : ∀ s x, (f s x).regs = s.regs) : (s.each l f).regs = s.regs :=
  State.each_keep (fun t => t.regs) f h l s
@[simp] theorem State.each_board (h : ∀ s x, (f s x).board = s.board) : (s.each l f).board = s.board :=
  State.each_keep (fun t => t.board) f h l s
@[simp] theorem State.each_aged (h : ∀ s x, (f s x).aged = s.aged) : (s.each l f).aged = s.aged :=
  State.each_keep (fun t => t.aged) f h l s
@[simp] theorem State.each_host (h : ∀ s x, (f s x).host = s.host) : (s.each l f).host = s.host :=
  State.each_keep (fun t => t.host) f h l s
@[simp] theorem State.each_sec (h : ∀ s x, (f s x).sec = s.sec) : (s.each l f).sec = s.sec :=
  State.each_keep (fun t => t.sec) f h l s
@[simp] theorem State.each_graphs (h : ∀ s x, (f s x).graphs = s.graphs) : (s.each l f).graphs = s.graphs :=
  State.each_keep (fun t => t.graphs) f h l s
@[simp] theorem State.each_bridges (h : ∀ s x, (f s x).bridges = s.bridges) : (s.each l f).bridges = s.bridges :=
  State.each_keep (fun t => t.bridges) f h l s
@[simp] theorem State.each_legs (h : ∀ s x, (f s x).legs = s.legs) : (s.each l f).legs = s.legs :=
  State.each_keep (fun t => t.legs) f h l s
@[simp] theorem State.each_dies (h : ∀ s x, (f s x).dies = s.dies) : (s.each l f).dies = s.dies :=
  State.each_keep (fun t => t.dies) f h l s
@[simp] theorem State.each_convs (h : ∀ s x, (f s x).convs = s.convs) : (s.each l f).convs = s.convs :=
  State.each_keep (fun t => t.convs) f h l s
@[simp] theorem State.each_pairs (h : ∀ s x, (f s x).pairs = s.pairs) : (s.each l f).pairs = s.pairs :=
  State.each_keep (fun t => t.pairs) f h l s
@[simp] theorem State.each_cal (h : ∀ s x, (f s x).cal = s.cal) : (s.each l f).cal = s.cal :=
  State.each_keep (fun t => t.cal) f h l s
@[simp] theorem State.each_encs (h : ∀ s x, (f s x).encs = s.encs) : (s.each l f).encs = s.encs :=
  State.each_keep (fun t => t.encs) f h l s
@[simp] theorem State.each_pulses (h : ∀ s x, (f s x).pulses = s.pulses) : (s.each l f).pulses = s.pulses :=
  State.each_keep (fun t => t.pulses) f h l s
@[simp] theorem State.each_pth (h : ∀ s x, (f s x).pth = s.pth) : (s.each l f).pth = s.pth :=
  State.each_keep (fun t => t.pth) f h l s
@[simp] theorem State.each_canopy (h : ∀ s x, (f s x).canopy = s.canopy) : (s.each l f).canopy = s.canopy :=
  State.each_keep (fun t => t.canopy) f h l s
@[simp] theorem State.each_ledger (h : ∀ s x, (f s x).ledger = s.ledger) : (s.each l f).ledger = s.ledger :=
  State.each_keep (fun t => t.ledger) f h l s
@[simp] theorem State.each_capture (h : ∀ s x, (f s x).capture = s.capture) : (s.each l f).capture = s.capture :=
  State.each_keep (fun t => t.capture) f h l s
@[simp] theorem State.each_log (h : ∀ s x, (f s x).log = s.log) : (s.each l f).log = s.log :=
  State.each_keep (fun t => t.log) f h l s
@[simp] theorem State.each_clk (h : ∀ s x, (f s x).clk = s.clk) : (s.each l f).clk = s.clk :=
  State.each_keep (fun t => t.clk) f h l s
@[simp] theorem State.each_bg (h : ∀ s x, (f s x).bg = s.bg) : (s.each l f).bg = s.bg :=
  State.each_keep (fun t => t.bg) f h l s
@[simp] theorem State.each_rst (h : ∀ s x, (f s x).rst = s.rst) : (s.each l f).rst = s.rst :=
  State.each_keep (fun t => t.rst) f h l s
@[simp] theorem State.each_sill (h : ∀ s x, (f s x).sill = s.sill) : (s.each l f).sill = s.sill :=
  State.each_keep (fun t => t.sill) f h l s
@[simp] theorem State.each_cans (h : ∀ s x, (f s x).cans = s.cans) : (s.each l f).cans = s.cans :=
  State.each_keep (fun t => t.cans) f h l s
@[simp] theorem State.each_latched (h : ∀ s x, (f s x).latched = s.latched) : (s.each l f).latched = s.latched :=
  State.each_keep (fun t => t.latched) f h l s
@[simp] theorem State.each_freeCtr (h : ∀ s x, (f s x).freeCtr = s.freeCtr) : (s.each l f).freeCtr = s.freeCtr :=
  State.each_keep (fun t => t.freeCtr) f h l s
end

/-- A relation that every pass of a loop keeps. -/
theorem State.each_ind {α : Type} (P : State → Prop) (f : State → α → State) (h : ∀ s x, P s → P (f s x)) (l : List α)
    (s : State) (hs : P s) : P (s.each l f) := by
  induction l generalizing s with
  | nil => exact hs
  | cons x t ih => exact ih (f s x) (h s x hs)

end Sys2Proof.Machine
end

