-- ==== Sys2Proof/Laws/Regs.lean ====
section
/-! SUPPORT. Bit fields of a word, and the fields of registers: what a read gives after a write, of the same field, of
another field of the same register and of another register. -/

namespace Sys2Proof.Machine

open Sys2Proof

/-! ### Bit fields of a number -/

theorem bitsOf_lt (n lo w : Nat) : bitsOf n lo w < 2 ^ w := Nat.mod_lt _ (Nat.two_pow_pos w)

theorem testBit_bitsOf (n lo w k : Nat) : (bitsOf n lo w).testBit k = (decide (k < w) && n.testBit (lo + k)) := by
  simp [bitsOf, Nat.testBit_mod_two_pow, Nat.testBit_shiftRight]

/-- A number is its part above a field, the field, and its part below it. -/
theorem bitsOf_split (n lo w : Nat) :
    n = n / 2 ^ (lo + w) * 2 ^ (lo + w) + bitsOf n lo w * 2 ^ lo + n % 2 ^ lo := by
  have h1 : n = n / 2 ^ lo * 2 ^ lo + n % 2 ^ lo := (Nat.div_add_mod' n (2 ^ lo)).symm
  have h2 : n / 2 ^ lo = n / 2 ^ lo / 2 ^ w * 2 ^ w + n / 2 ^ lo % 2 ^ w := (Nat.div_add_mod' _ _).symm
  have h3 : n / 2 ^ lo / 2 ^ w = n / 2 ^ (lo + w) := by rw [Nat.div_div_eq_div_mul, Nat.pow_add]
  have h4 : bitsOf n lo w = n / 2 ^ lo % 2 ^ w := by simp [bitsOf, Nat.shiftRight_eq_div_pow]
  rw [h4, ← h3, Nat.pow_add]
  generalize n / 2 ^ lo % 2 ^ w = b at *
  generalize n / 2 ^ lo / 2 ^ w = a at *
  generalize n % 2 ^ lo = c at *
  rw [h1, h2, Nat.add_mul, Nat.mul_assoc, Nat.mul_comm (2 ^ w) (2 ^ lo)]

theorem setBits_eq (n lo w v : Nat) :
    setBits n lo w v = n / 2 ^ (lo + w) * 2 ^ (lo + w) + v % 2 ^ w * 2 ^ lo + n % 2 ^ lo := by
  have h := bitsOf_split n lo w
  unfold setBits
  generalize bitsOf n lo w = b at *
  omega

/-- A bit of a number with a field replaced. -/
theorem testBit_setBits (n lo w v k : Nat) :
    (setBits n lo w v).testBit k = if lo ≤ k ∧ k < lo + w then v.testBit (k - lo) else n.testBit k := by
  rw [setBits_eq]
  have hc : n % 2 ^ lo < 2 ^ lo := Nat.mod_lt _ (Nat.two_pow_pos lo)
  have hv : v % 2 ^ w < 2 ^ w := Nat.mod_lt _ (Nat.two_pow_pos w)
  have e : n / 2 ^ (lo + w) * 2 ^ (lo + w) + v % 2 ^ w * 2 ^ lo + n % 2 ^ lo
      = 2 ^ lo * (2 ^ w * (n / 2 ^ (lo + w)) + v % 2 ^ w) + n % 2 ^ lo := by
    rw [Nat.pow_add, Nat.mul_add, Nat.mul_comm (v % 2 ^ w), ← Nat.mul_assoc (2 ^ lo), Nat.mul_comm (n / _)]
  rw [e, Nat.testBit_two_pow_mul_add _ hc, Nat.testBit_two_pow_mul_add _ hv]
  by_cases h1 : k < lo
  · have : ¬ (lo ≤ k ∧ k < lo + w) := by omega
    simp [h1, this, Nat.testBit_mod_two_pow]
  · by_cases h2 : k < lo + w
    · have h3 : k - lo < w := by omega
      simp [h1, h2, h3, Nat.testBit_mod_two_pow]
    · have h3 : ¬ (k - lo < w) := by omega
      have h4 : k - lo - w + (lo + w) = k := by omega
      have : ¬ (lo ≤ k ∧ k < lo + w) := by omega
      simp only [h1, if_false, h3, this, Nat.testBit_div_two_pow]
      rw [h4]

theorem setBits_lt (n lo w v : Nat) (hn : n < 2 ^ 32) (h : lo + w ≤ 32) : setBits n lo w v < 2 ^ 32 := by
  apply Nat.lt_pow_two_of_testBit
  intro i hi
  rw [testBit_setBits]
  have : ¬ (lo ≤ i ∧ i < lo + w) := by omega
  simp [this, Nat.testBit_lt_two_pow (Nat.lt_of_lt_of_le hn (Nat.pow_le_pow_right (by decide) hi))]

/-! ### Fields of a word -/

/-- A field of a word reads back what was put into it. -/
theorem fldOf_fldSet_same (f : Fld) (w : Word) (v : Nat) (h : f.lo + f.width ≤ 32) :
    fldOf f (fldSet f w v) = v % 2 ^ f.width := by
  unfold fldOf fldSet
  have hl := setBits_lt w.toNat f.lo f.width v w.isLt h
  rw [BitVec.toNat_ofNat, Nat.mod_eq_of_lt hl]
  apply Nat.eq_of_testBit_eq
  intro k
  rw [testBit_bitsOf, testBit_setBits, Nat.testBit_mod_two_pow]
  by_cases hk : k < f.width <;> simp [hk]

/-- A field of a word is not touched by a write of a field beside it. -/
theorem fldOf_fldSet_ne (f g : Fld) (w : Word) (v : Nat) (h : g.lo + g.width ≤ 32)
    (hd : f.lo + f.width ≤ g.lo ∨ g.lo + g.width ≤ f.lo) : fldOf f (fldSet g w v) = fldOf f w := by
  unfold fldOf fldSet
  have hl := setBits_lt w.toNat g.lo g.width v w.isLt h
  rw [BitVec.toNat_ofNat, Nat.mod_eq_of_lt hl]
  apply Nat.eq_of_testBit_eq
  intro k
  rw [testBit_bitsOf, testBit_setBits, testBit_bitsOf]
  by_cases hk : k < f.width
  · have : ¬ (g.lo ≤ f.lo + k ∧ f.lo + k < g.lo + g.width) := by omega
    simp [hk, this]
  · simp [hk]

/-! ### Fields of registers -/

/-! The derived updates in terms of `wr`. Use these in place of unfolding: they keep the kernel from comparing whole
states. -/

theorem State.flag_eq (s : State) (f : Fld) (i j : Nat) : s.flag f i j = (s.rd f i j != 0) := (rfl)
theorem State.raise_eq (s : State) (f : Fld) (i : Nat) : s.raise f i = s.wr f i 1 := (rfl)
theorem State.clear_eq (s : State) (f : Fld) (i : Nat) : s.clear f i = s.wr f i 0 := (rfl)
theorem State.countUp_eq (s : State) (f : Fld) (i n : Nat) :
    s.countUp f i n = s.wr f i (min (2 ^ f.width - 1) (s.rd f i + n)) := (rfl)
theorem State.countUp2_eq (s : State) (f : Fld) (i j n : Nat) :
    s.countUp2 f i j n = s.wr2 f i j (min (2 ^ f.width - 1) (s.rd f i j + n)) := (rfl)
theorem State.raiseBit_eq (s : State) (f : Fld) (k i : Nat) : s.raiseBit f k i = s.wr f i (s.rd f i ||| 2 ^ k) := (rfl)
theorem State.clearBit_eq (s : State) (f : Fld) (k i : Nat) :
    s.clearBit f k i = s.wr f i (if bitAt (s.rd f i) k then s.rd f i - 2 ^ k else s.rd f i) := (rfl)

theorem State.rd_eq (s : State) (f : Fld) (i j : Nat) : s.rd f i j = fldOf f (s.reg (fldAddr f i j)) := (rfl)

/-- A field holds no more than its width. -/
theorem State.rd_lt (s : State) (f : Fld) (i j : Nat) : s.rd f i j < 2 ^ f.width := bitsOf_lt _ _ _

/-- A field reads back what was written to it. -/
theorem State.rd_wr_same (s : State) (f : Fld) (i v : Nat) (h : f.lo + f.width ≤ 32) :
    (s.wr f i v).rd f i 0 = v % 2 ^ f.width := by
  simp only [State.rd_eq, State.wr, State.reg_setReg_same, fldOf_fldSet_same f _ v h]

theorem State.rd_wr2_same (s : State) (f : Fld) (i j v : Nat) (h : f.lo + f.width ≤ 32) :
    (s.wr2 f i j v).rd f i j = v % 2 ^ f.width := by
  simp only [State.rd_eq, State.wr2, State.reg_setReg_same, fldOf_fldSet_same f _ v h]

/-- A field of another register is not touched. -/
theorem State.rd_wr_addr (s : State) (f g : Fld) (i j k v : Nat) (h : fldAddr f i j ≠ fldAddr g k 0) :
    (s.wr g k v).rd f i j = s.rd f i j := by
  simp only [State.rd_eq, State.wr, State.reg_setReg_ne s _ _ h]

theorem State.rd_wr2_addr (s : State) (f g : Fld) (i j k l v : Nat) (h : fldAddr f i j ≠ fldAddr g k l) :
    (s.wr2 g k l v).rd f i j = s.rd f i j := by
  simp only [State.rd_eq, State.wr2, State.reg_setReg_ne s _ _ h]

/-- A field beside the one written, of the same register or of any other, is not touched. -/
theorem State.rd_wr_bits (s : State) (f g : Fld) (i j k v : Nat) (hg : g.lo + g.width ≤ 32)
    (hd : f.lo + f.width ≤ g.lo ∨ g.lo + g.width ≤ f.lo) : (s.wr g k v).rd f i j = s.rd f i j := by
  by_cases h : fldAddr f i j = fldAddr g k 0
  · simp only [State.rd_eq, State.wr, h, State.reg_setReg_same, fldOf_fldSet_ne f g _ v hg hd]
  · exact State.rd_wr_addr s f g i j k v h

theorem State.rd_wr2_bits (s : State) (f g : Fld) (i j k l v : Nat) (hg : g.lo + g.width ≤ 32)
    (hd : f.lo + f.width ≤ g.lo ∨ g.lo + g.width ≤ f.lo) : (s.wr2 g k l v).rd f i j = s.rd f i j := by
  by_cases h : fldAddr f i j = fldAddr g k l
  · simp only [State.rd_eq, State.wr2, h, State.reg_setReg_same, fldOf_fldSet_ne f g _ v hg hd]
  · exact State.rd_wr2_addr s f g i j k l v h

/-- A register other than the one a field write touches. -/
theorem State.reg_wr_ne (s : State) (g : Fld) (k v a : Nat) (h : a ≠ fldAddr g k 0) : (s.wr g k v).reg a = s.reg a := by
  simp only [State.wr, State.reg_setReg_ne s _ _ h]

theorem State.reg_wr2_ne (s : State) (g : Fld) (k l v a : Nat) (h : a ≠ fldAddr g k l) :
    (s.wr2 g k l v).reg a = s.reg a := by
  simp only [State.wr2, State.reg_setReg_ne s _ _ h]

/-! ### The register map keeps its canonical form -/

theorem State.regs_wf_setReg (s : State) (a : Nat) (w : Word) (h : swf regReset s.regs = true) :
    swf regReset (s.setReg a w).regs = true := swf_sput _ _ _ _ h

theorem State.regs_wf_wr (s : State) (f : Fld) (i v : Nat) (h : swf regReset s.regs = true) :
    swf regReset (s.wr f i v).regs = true := swf_sput _ _ _ _ h

end Sys2Proof.Machine
end

