-- ==== Sys2Proof/Laws/Clocks.lean ====
section
/-! SUPPORT. What the shared operations of the clock block change. -/

namespace Sys2Proof.Machine

open Sys2Proof

section
variable (s : State)

@[simp] theorem markNotAligned_regs : (markNotAligned s).regs = (s.wr R.TS_STATUS.NOT_ALIGNED 0 1).regs := by
  simp [markNotAligned, State.raise_eq]
@[simp] theorem markNotAligned_clk : (markNotAligned s).clk = s.clk := by simp [markNotAligned, State.raise_eq]
@[simp] theorem markNotAligned_now : (markNotAligned s).now = s.now := by simp [markNotAligned, State.raise_eq]
@[simp] theorem markNotAligned_board : (markNotAligned s).board = s.board := by
  simp [markNotAligned, State.raise_eq]
@[simp] theorem markNotAligned_rd (f : Fld) (i j : Nat) :
    (markNotAligned s).rd f i j = (s.wr R.TS_STATUS.NOT_ALIGNED 0 1).rd f i j := by
  simp only [State.rd_eq, State.reg_congr (markNotAligned_regs s)]

variable (o : OutSym)

/-- Sending a symbol touches the clock block and, where it is discarded, DROPPED. -/
theorem sendSymbol_idle (h : s.clk.training = none) : ∃ c, sendSymbol o s = { s with clk := c } ∧
    c.seqNo = s.clk.seqNo ∧ c.timeOut = s.clk.timeOut ∧ c.training = none ∧ c.tsOff = s.clk.tsOff := by
  simp only [sendSymbol, trains, h, Option.isSome_none, Bool.false_eq_true, if_false, showOut]
  exact ⟨_, rfl, rfl, rfl, rfl, rfl⟩

variable (e left : Int)

/-- A measurement makes its error the error to slew, and touches the registers of the timestamp and ALIGN_EV alone. -/
@[simp] theorem measure_clk : (measure e left s).clk = { s.clk with err := left } := by
  simp [measure, showErr, State.raise_eq, State.clear_eq]
@[simp] theorem measure_now : (measure e left s).now = s.now := by
  simp [measure, showErr, State.raise_eq, State.clear_eq]
theorem measure_rd (f : Fld) (i j : Nat) (h : ∀ g, g = R.TS_ERR.ERR ∨ g = R.TS_STATUS.COAST ∨
    g = R.TS_STATUS.NOT_ALIGNED ∨ g = R.DL_EVENT.ALIGN_EV → fldAddr f i j ≠ fldAddr g 0 0) :
    (measure e left s).rd f i j = s.rd f i j := by
  simp only [forall_eq_or_imp, forall_eq] at h
  simp (disch := simp [h]) [measure, showErr, State.rd_wr_addr, State.raise_eq, State.clear_eq]

end

/-- A two's complement code fits its width. -/
theorem ofSigned_lt (w : Nat) (z : Int) : ofSigned w z < 2 ^ w := by
  have h : (0 : Int) < ((2 ^ w : Nat) : Int) := by exact_mod_cast Nat.two_pow_pos w
  have h1 := Int.emod_nonneg z (by omega : ((2 ^ w : Nat) : Int) ≠ 0)
  have h2 := Int.emod_lt_of_pos z h
  unfold ofSigned
  omega

end Sys2Proof.Machine
end

