-- ==== Sys2Proof/Laws/Host.lean ====
section
/-! SUPPORT. The host port: what accepting a command does to the state around the command's own effect, and what the
authentication step changes. -/

namespace Sys2Proof.Machine

open Sys2Proof

/-! ### Replies -/

section
variable (can : Bool) (cmd reply : List Byte) (s : State)

@[simp] theorem queueReply_regs : (queueReply can reply s).regs = s.regs := (rfl)
@[simp] theorem sendReply_pending : (sendReply can cmd reply s).pending = s.pending := (rfl)
@[simp] theorem sendReply_now : (sendReply can cmd reply s).now = s.now := (rfl)
@[simp] theorem sendReply_regs : (sendReply can cmd reply s).regs = s.regs := (rfl)
@[simp] theorem sendReply_aged : (sendReply can cmd reply s).aged = s.aged := (rfl)
@[simp] theorem sendReply_board : (sendReply can cmd reply s).board = s.board := (rfl)
@[simp] theorem sendReply_sec : (sendReply can cmd reply s).sec = s.sec := (rfl)
@[simp] theorem sendReply_graphs : (sendReply can cmd reply s).graphs = s.graphs := (rfl)
@[simp] theorem sendReply_bridges : (sendReply can cmd reply s).bridges = s.bridges := (rfl)
@[simp] theorem sendReply_legs : (sendReply can cmd reply s).legs = s.legs := (rfl)
@[simp] theorem sendReply_dies : (sendReply can cmd reply s).dies = s.dies := (rfl)
@[simp] theorem sendReply_convs : (sendReply can cmd reply s).convs = s.convs := (rfl)
@[simp] theorem sendReply_pairs : (sendReply can cmd reply s).pairs = s.pairs := (rfl)
@[simp] theorem sendReply_cal : (sendReply can cmd reply s).cal = s.cal := (rfl)
@[simp] theorem sendReply_encs : (sendReply can cmd reply s).encs = s.encs := (rfl)
@[simp] theorem sendReply_pulses : (sendReply can cmd reply s).pulses = s.pulses := (rfl)
@[simp] theorem sendReply_pth : (sendReply can cmd reply s).pth = s.pth := (rfl)
@[simp] theorem sendReply_canopy : (sendReply can cmd reply s).canopy = s.canopy := (rfl)
@[simp] theorem sendReply_ledger : (sendReply can cmd reply s).ledger = s.ledger := (rfl)
@[simp] theorem sendReply_capture : (sendReply can cmd reply s).capture = s.capture := (rfl)
@[simp] theorem sendReply_log : (sendReply can cmd reply s).log = s.log := (rfl)
@[simp] theorem sendReply_clk : (sendReply can cmd reply s).clk = s.clk := (rfl)
@[simp] theorem sendReply_bg : (sendReply can cmd reply s).bg = s.bg := (rfl)
@[simp] theorem sendReply_rst : (sendReply can cmd reply s).rst = s.rst := (rfl)
@[simp] theorem sendReply_sill : (sendReply can cmd reply s).sill = s.sill := (rfl)
@[simp] theorem sendReply_cans : (sendReply can cmd reply s).cans = s.cans := (rfl)
@[simp] theorem sendReply_latched : (sendReply can cmd reply s).latched = s.latched := (rfl)
@[simp] theorem sendReply_freeCtr : (sendReply can cmd reply s).freeCtr = s.freeCtr := (rfl)
@[simp] theorem sendReply_reg (a : Nat) : (sendReply can cmd reply s).reg a = s.reg a := (rfl)
@[simp] theorem sendReply_rd (f : Fld) (i j : Nat) : (sendReply can cmd reply s).rd f i j = s.rd f i j := (rfl)
@[simp] theorem sendReply_running : (sendReply can cmd reply s).host.running = s.host.running := by cases can <;> simp [sendReply, queueReply, State.setTransport]
@[simp] theorem sendReply_serving : (sendReply can cmd reply s).host.serving = s.host.serving := by cases can <;> simp [sendReply, queueReply, State.setTransport]

/-- The reply stands at the end of the queue. -/
theorem sendReply_rp : ((sendReply can cmd reply s).transport can).rp = (s.transport can).rp ++ [reply] := by
  simp [sendReply, queueReply]

end

/-- Where no reply is held back, none expires. -/
theorem expireHeld_zero (s : State) (h : s.host.heldMask = 0) : expireHeld s = s := by
  unfold expireHeld
  split
  · simp [h]
  · rfl

theorem takes_serving (s : State) (can : Bool) (h : takes s can = true) : s.host.serving = true := by
  simp only [takes, Bool.and_eq_true] at h
  exact h.1.1

theorem takes_held (s : State) (can : Bool) (h : takes s can = true) : s.host.heldMask = 0 := by
  simp only [takes, Bool.and_eq_true, decide_eq_true_eq] at h
  exact h.1.2

/-- A ready command is taken, is no repeat, and passes the admission checks. -/
theorem ready_parts (s : State) (h : Hdr) (op : Nat) (ps : List Byte) (hr : ready s h op ps = true) :
    takes s h.can = true ∧ repeatsLast h op ps s = false ∧ admission op ps.length s = stDone := by
  simp only [ready, Bool.and_eq_true, Bool.not_eq_true', decide_eq_true_eq] at hr
  exact ⟨hr.1.1, hr.1.2, hr.2⟩

/-- What accepting a command comes to where it is taken, passes the admission checks, and is not refused: its effect and
its reply. -/
theorem acceptCmd_ok (h : Hdr) (op : Nat) (params : List Byte) (body : State → Res) (s : State)
    (hr : ready s h op params = true) (st : Nat) (data : List Byte) (key : Option (List Byte)) (u : State)
    (hb : body s = ⟨st, data, key, u⟩) (hst : st = stDone ∨ st = stAccepted) (hh : u.host.heldMask = 0)
    (hs : u.host.serving = true) :
    acceptCmd h op params body s = sendReply h.can (packetBytes (commandPacket h op params))
      (replyBytes h op ⟨st, data, key, u⟩ false) u := by
  obtain ⟨h1, h2, h3⟩ := ready_parts s h op params hr
  simp only [acceptCmd, expireHeld_zero s (takes_held s _ h1), h1, h2, Bool.true_eq_false, if_false, h3, if_true, hb,
    giveReply, recordRefusal, if_pos hst, hh, hs, Bool.false_eq_true]

theorem ready_held (s : State) (h : Hdr) (op : Nat) (ps : List Byte) (hr : ready s h op ps = true) : s.host.heldMask = 0 :=
  takes_held s _ (ready_parts s h op ps hr).1

theorem ready_serving (s : State) (h : Hdr) (op : Nat) (ps : List Byte) (hr : ready s h op ps = true) :
    s.host.serving = true :=
  takes_serving s _ (ready_parts s h op ps hr).1

/-! ### The authentication step

It touches the security registers and the checkpoint that a counter starts, and counts a failure; nothing else. -/

/-- A flash operation asked for changes which operation runs and which is suspended. -/
theorem flashBegin_eq (k : Nat) (s : State) : ∃ a b, flashBegin k s = { s with bg := { s.bg with flashRun := a, flashSusp := b } } := by
  unfold flashBegin
  split
  · exact ⟨_, _, rfl⟩
  · split <;> exact ⟨_, _, rfl⟩

theorem startCheckpoint_cases (l : List Nat) (s : State) : startCheckpoint l s = s ∨
    ∃ v a b, startCheckpoint l s = { s with sec := v, bg := { s.bg with flashRun := a, flashSusp := b } } := by
  unfold startCheckpoint
  split
  · exact .inl rfl
  · obtain ⟨a, b, e⟩ := flashBegin_eq 1 s
    exact .inr ⟨_, a, b, by simp only [e]; rfl⟩

theorem exhaustSlot_cases (k : Nat) (s : State) :
    exhaustSlot k s = s ∨ exhaustSlot k s = (s.wr2 R.SEC_SLOT.STATE 0 k 2).raise R.SEC_EVENT.EXHAUST_EV := by
  unfold exhaustSlot
  by_cases hc : hasCounter s k = true ∧ s.rd R.SEC_SLOT.STATE 0 k = 1 ∧ epochLimit s ≤ s.rd R.SEC_CTR.C 0 k
  · exact .inr (if_pos hc)
  · exact .inl (if_neg hc)

/-- The state after a passed authentication step: the state it came from with other security registers, and another
checkpoint under way that takes the flash or waits for it. -/
theorem authConsume_done (h : Hdr) (s : State) : ∃ r v x y, authConsume h stDone s =
      { s with regs := r, sec := v, bg := { s.bg with flashRun := x, flashSusp := y } } ∧
    (∀ a, a < 0x900008 → sget regReset r a = s.reg a) := by
  unfold authConsume
  cases ha : h.auth with
  | none => exact ⟨s.regs, s.sec, s.bg.flashRun, s.bg.flashSusp, rfl, fun a _ => rfl⟩
  | some x =>
    simp only [if_true, afterCounter]
    obtain ⟨r1, e1⟩ : ∃ r, s.wr2 R.SEC_CTR.C 0 x.slot x.counter = { s with regs := r } := ⟨_, rfl⟩
    have h1 : ∀ a, a < 0x900008 → sget regReset r1 a = s.reg a := fun a ha => by
      have h := State.reg_wr2_ne s R.SEC_CTR.C 0 x.slot x.counter a (by simp [fldAddr, R.SEC_CTR.C]; omega)
      rw [e1] at h; exact h
    rw [e1]
    have hbase : ∃ r v, exhaustSlot x.slot { s with regs := r1 } = { s with regs := r, sec := v } ∧
        (∀ a, a < 0x900008 → sget regReset r a = s.reg a) := by
      rcases exhaustSlot_cases x.slot { s with regs := r1 } with e | e
      · exact ⟨r1, s.sec, e, h1⟩
      · obtain ⟨r2, e2⟩ : ∃ r, State.wr2 { s with regs := r1 } R.SEC_SLOT.STATE 0 x.slot 2 = { s with regs := r } := ⟨_, rfl⟩
        have h2 : ∀ a, a < 0x900008 → sget regReset r2 a = sget regReset r1 a := fun a ha => by
          have h := State.reg_wr2_ne { s with regs := r1 } R.SEC_SLOT.STATE 0 x.slot 2 a
            (by simp [fldAddr, R.SEC_SLOT.STATE]; omega)
          rw [e2] at h; exact h
        obtain ⟨r3, e3⟩ : ∃ r, State.wr { s with regs := r2 } R.SEC_EVENT.EXHAUST_EV 0 1 = { s with regs := r } := ⟨_, rfl⟩
        have h3 : ∀ a, a < 0x900008 → sget regReset r3 a = sget regReset r2 a := fun a ha => by
          have h := State.reg_wr_ne { s with regs := r2 } R.SEC_EVENT.EXHAUST_EV 0 1 a
            (by simp [fldAddr, R.SEC_EVENT.EXHAUST_EV]; omega)
          rw [e3] at h; exact h
        rw [State.raise_eq, e2, e3] at e
        exact ⟨r3, s.sec, e, fun a ha => ((h3 a ha).trans (h2 a ha)).trans (h1 a ha)⟩
    obtain ⟨r, v, e, hr⟩ := hbase
    rw [e]
    rcases startCheckpoint_cases (checkpointDue { s with regs := r, sec := v }) { s with regs := r, sec := v } with e2 | ⟨w, x, y, e2⟩
    · exact ⟨r, v, s.bg.flashRun, s.bg.flashSusp, e2, hr⟩
    · exact ⟨r, w, x, y, e2, hr⟩

section
variable (c : Instr) (s : State)
@[simp] theorem used_pending : (used c s).pending = s.pending := by
  obtain ⟨r, v, x, y, e, -⟩ := authConsume_done (hdrOf c) s; simp only [used, e]
@[simp] theorem used_now : (used c s).now = s.now := by
  obtain ⟨r, v, x, y, e, -⟩ := authConsume_done (hdrOf c) s; simp only [used, e]
@[simp] theorem used_board : (used c s).board = s.board := by
  obtain ⟨r, v, x, y, e, -⟩ := authConsume_done (hdrOf c) s; simp only [used, e]
@[simp] theorem used_host : (used c s).host = s.host := by
  obtain ⟨r, v, x, y, e, -⟩ := authConsume_done (hdrOf c) s; simp only [used, e]
@[simp] theorem used_graphs : (used c s).graphs = s.graphs := by
  obtain ⟨r, v, x, y, e, -⟩ := authConsume_done (hdrOf c) s; simp only [used, e]
@[simp] theorem used_bridges : (used c s).bridges = s.bridges := by
  obtain ⟨r, v, x, y, e, -⟩ := authConsume_done (hdrOf c) s; simp only [used, e]
@[simp] theorem used_legs : (used c s).legs = s.legs := by
  obtain ⟨r, v, x, y, e, -⟩ := authConsume_done (hdrOf c) s; simp only [used, e]
@[simp] theorem used_dies : (used c s).dies = s.dies := by
  obtain ⟨r, v, x, y, e, -⟩ := authConsume_done (hdrOf c) s; simp only [used, e]
@[simp] theorem used_convs : (used c s).convs = s.convs := by
  obtain ⟨r, v, x, y, e, -⟩ := authConsume_done (hdrOf c) s; simp only [used, e]
@[simp] theorem used_pairs : (used c s).pairs = s.pairs := by
  obtain ⟨r, v, x, y, e, -⟩ := authConsume_done (hdrOf c) s; simp only [used, e]
@[simp] theorem used_cal : (used c s).cal = s.cal := by
  obtain ⟨r, v, x, y, e, -⟩ := authConsume_done (hdrOf c) s; simp only [used, e]
@[simp] theorem used_encs : (used c s).encs = s.encs := by
  obtain ⟨r, v, x, y, e, -⟩ := authConsume_done (hdrOf c) s; simp only [used, e]
@[simp] theorem used_pulses : (used c s).pulses = s.pulses := by
  obtain ⟨r, v, x, y, e, -⟩ := authConsume_done (hdrOf c) s; simp only [used, e]
@[simp] theorem used_pth : (used c s).pth = s.pth := by
  obtain ⟨r, v, x, y, e, -⟩ := authConsume_done (hdrOf c) s; simp only [used, e]
@[simp] theorem used_canopy : (used c s).canopy = s.canopy := by
  obtain ⟨r, v, x, y, e, -⟩ := authConsume_done (hdrOf c) s; simp only [used, e]
@[simp] theorem used_ledger : (used c s).ledger = s.ledger := by
  obtain ⟨r, v, x, y, e, -⟩ := authConsume_done (hdrOf c) s; simp only [used, e]
@[simp] theorem used_capture : (used c s).capture = s.capture := by
  obtain ⟨r, v, x, y, e, -⟩ := authConsume_done (hdrOf c) s; simp only [used, e]
@[simp] theorem used_log : (used c s).log = s.log := by
  obtain ⟨r, v, x, y, e, -⟩ := authConsume_done (hdrOf c) s; simp only [used, e]
@[simp] theorem used_clk : (used c s).clk = s.clk := by
  obtain ⟨r, v, x, y, e, -⟩ := authConsume_done (hdrOf c) s; simp only [used, e]
@[simp] theorem used_streams : (used c s).bg.streams = s.bg.streams := by
  obtain ⟨r, v, x, y, e, -⟩ := authConsume_done (hdrOf c) s; simp only [used, e]
@[simp] theorem used_aged : (used c s).aged = s.aged := by
  obtain ⟨r, v, x, y, e, -⟩ := authConsume_done (hdrOf c) s; simp only [used, e]
@[simp] theorem used_rst : (used c s).rst = s.rst := by
  obtain ⟨r, v, x, y, e, -⟩ := authConsume_done (hdrOf c) s; simp only [used, e]
@[simp] theorem used_sill : (used c s).sill = s.sill := by
  obtain ⟨r, v, x, y, e, -⟩ := authConsume_done (hdrOf c) s; simp only [used, e]
@[simp] theorem used_cans : (used c s).cans = s.cans := by
  obtain ⟨r, v, x, y, e, -⟩ := authConsume_done (hdrOf c) s; simp only [used, e]
@[simp] theorem used_latched : (used c s).latched = s.latched := by
  obtain ⟨r, v, x, y, e, -⟩ := authConsume_done (hdrOf c) s; simp only [used, e]
@[simp] theorem used_freeCtr : (used c s).freeCtr = s.freeCtr := by
  obtain ⟨r, v, x, y, e, -⟩ := authConsume_done (hdrOf c) s; simp only [used, e]
theorem used_reg (a : Nat) (h : a < 0x900008) : (used c s).reg a = s.reg a := by
  obtain ⟨r, v, x, y, e, hr⟩ := authConsume_done (hdrOf c) s
  simp only [used, e]
  exact hr a h
theorem used_rd (f : Fld) (i j : Nat) (h : fldAddr f i j < 0x900008) : (used c s).rd f i j = s.rd f i j := by
  simp only [State.rd_eq, used_reg c s _ h]
end

/-! ### A command answered -/

/-- A taken command whose body ends without a key: its effect and an unsigned reply. -/
theorem acceptCmd_answer (c : Instr) (h : Hdr) (op : Nat) (ps : List Byte) (body : State → Res) (s : State)
    (hc : hostRow c = some (h, op, ps)) (hr : cmdReady c s = true) (st : Nat) (data : List Byte) (u : State)
    (hb : body s = ⟨st, data, none, u⟩) (hst : st = stDone ∨ st = stAccepted) (hh : u.host.heldMask = s.host.heldMask)
    (hs : u.host.serving = s.host.serving) :
    acceptCmd h op ps body s = answer c st data u := by
  simp only [cmdReady, hc] at hr
  rw [acceptCmd_ok h op ps body s hr st data none u hb hst (hh.trans (ready_held _ _ _ _ hr))
    (hs.trans (ready_serving _ _ _ _ hr))]
  simp only [answer, hc]

/-- A taken command whose authentication step passes: the rest of its checks on the state with the counter consumed, and a
reply signed with the key of the slot. -/
theorem acceptCmd_signed (c : Instr) (h : Hdr) (op : Nat) (ps : List Byte) (rule : AuthRule) (body : State → Res)
    (k : State → Res) (s : State) (hc : hostRow c = some (h, op, ps)) (hr : cmdAuth c rule s = true)
    (hw : body s = withAuth h op ps rule s k) (st : Nat) (data : List Byte) (key : Option (List Byte)) (u : State)
    (hb : k (used c s) = ⟨st, data, key, u⟩) (hst : st = stDone ∨ st = stAccepted)
    (hh : u.host.heldMask = s.host.heldMask) (hs : u.host.serving = s.host.serving) :
    acceptCmd h op ps body s = signed c st data s u := by
  simp only [cmdAuth, hc, cmdReady, Bool.and_eq_true, decide_eq_true_eq] at hr
  have hk : k (authConsume h stDone s) = ⟨st, data, key, u⟩ := by
    simpa only [used, hdrOf, hc] using hb
  rw [acceptCmd_ok h op ps body s hr.1 st data (some (authKey h s)) u
    (by simp only [hw, withAuth, hr.2, if_true, hk]) hst (hh.trans (ready_held _ _ _ _ hr.1))
    (hs.trans (ready_serving _ _ _ _ hr.1))]
  simp only [signed, hc]

/-- A refused command: VG_ERR and its reply. -/
theorem acceptCmd_refused (c : Instr) (h : Hdr) (op : Nat) (ps : List Byte) (body : State → Res) (s : State)
    (hc : hostRow c = some (h, op, ps)) (hr : cmdReady c s = true) (st : Nat) (u : State)
    (hb : body s = ⟨st, [], none, u⟩) (hh : u.host.heldMask = s.host.heldMask)
    (hs : u.host.serving = s.host.serving) :
    acceptCmd h op ps body s = answer c st [] (refusedBy c st u) := by
  simp only [cmdReady, hc] at hr
  have h0 := ready_held _ _ _ _ hr
  have h1 := ready_serving _ _ _ _ hr
  obtain ⟨p1, p2, p3⟩ := ready_parts s h op ps hr
  have hm : (recordRefusal h op st u).host.heldMask = 0 := by
    unfold recordRefusal
    split <;> simp [recordError, hh, h0]
  have hv : (recordRefusal h op st u).host.serving = true := by
    unfold recordRefusal
    split <;> simp [recordError, hs, h1]
  simp only [acceptCmd, expireHeld_zero s (takes_held s _ p1), p1, p2, Bool.true_eq_false, Bool.false_eq_true, if_false, p3,
    if_true, hb, giveReply, hm, hv, answer, hc, refusedBy]
  rfl

/-- The part of the state a reply leaves alone. -/
theorem answer_eq (c : Instr) (h : Hdr) (op : Nat) (ps : List Byte) (hc : hostRow c = some (h, op, ps)) (st : Nat)
    (data : List Byte) (t : State) : answer c st data t = sendReply h.can (packetBytes (commandPacket h op ps))
      (replyBytes h op ⟨st, data, none, t⟩ false) t := by simp only [answer, hc]

end Sys2Proof.Machine
end

