-- ==== Sys2Proof/Laws/Window.lean ====
section
/-! SUPPORT. The register window: a WRITE_WIN and a READ_WIN of one register, and what differs from the state before. -/

namespace Sys2Proof.Machine

open Sys2Proof

/-! ### States that differ in registers alone -/

theorem OnlyRegs.refl (s : State) (l : List Nat) : OnlyRegs s s l := ⟨rfl, fun _ _ => rfl⟩

theorem OnlyRegs.setReg (s : State) (a : Nat) (w : Word) : OnlyRegs s (s.setReg a w) [a] :=
  ⟨rfl, fun b hb => State.reg_setReg_ne s _ _ (by simpa using hb)⟩

theorem OnlyRegs.trans {s t u : State} {l m : List Nat} (h1 : OnlyRegs s t l) (h2 : OnlyRegs t u m) :
    OnlyRegs s u (l ++ m) := by
  refine ⟨?_, fun a ha => ?_⟩
  · have e1 := h1.1
    have e2 := h2.1
    rw [e1] at e2
    exact e2
  · simp only [List.mem_append, not_or] at ha
    exact (h2.2 a ha.2).trans (h1.2 a ha.1)

theorem OnlyRegs.mono {s t : State} {l m : List Nat} (h : OnlyRegs s t l) (hm : ∀ a, a ∈ l → a ∈ m) : OnlyRegs s t m :=
  ⟨h.1, fun a ha => h.2 a (fun hl => ha (hm a hl))⟩

theorem OnlyRegs.wr (s : State) (f : Fld) (i v : Nat) : OnlyRegs s (s.wr f i v) [fldAddr f i 0] := OnlyRegs.setReg _ _ _

theorem OnlyRegs.wr2 (s : State) (f : Fld) (i j v : Nat) : OnlyRegs s (s.wr2 f i j v) [fldAddr f i j] := OnlyRegs.setReg _ _ _

theorem OnlyRegs.raise (s : State) (f : Fld) (i : Nat) : OnlyRegs s (s.raise f i) [fldAddr f i 0] := by
  rw [State.raise_eq]; exact OnlyRegs.wr _ _ _ _

theorem OnlyRegs.clear (s : State) (f : Fld) (i : Nat) : OnlyRegs s (s.clear f i) [fldAddr f i 0] := by
  rw [State.clear_eq]; exact OnlyRegs.wr _ _ _ _

theorem OnlyRegs.host {s t : State} {l : List Nat} (h : OnlyRegs s t l) : t.host = s.host := by rw [h.1]
theorem OnlyRegs.board {s t : State} {l : List Nat} (h : OnlyRegs s t l) : t.board = s.board := by rw [h.1]
theorem OnlyRegs.bridges {s t : State} {l : List Nat} (h : OnlyRegs s t l) : t.bridges = s.bridges := by rw [h.1]

/-! ### One register -/

theorem winAddrs_one (a : Nat) : winAddrs a 1 = [a] := by simp [winAddrs]

theorem winFault_one (a : Nat) (h : winAddrOk a = true) : winFault a 1 = none := by simp [winFault, winAddrs_one, h]

theorem winShape_one (a : Nat) (h : winAddrOk a = true) : winShapeOk a 1 = true := by
  simp only [winAddrOk, Bool.and_eq_true, decide_eq_true_eq] at h
  simp [winShapeOk]; omega

/-- An admitted WRITE_WIN of one register: the value stored, and what follows from it. -/
theorem writeWin_one (c : Instr) (h : Hdr) (a : Nat) (w : Word) (s : State)
    (hc : hostRow c = some (h, 0x0402, writeParams a [w])) (hr : cmdReady c s = true) (ha : winAddrOk a = true)
    (ho : writeOpen a w s = true)
    (hh : (actWord s a w (storeWord a w s)).host.heldMask = s.host.heldMask)
    (hs : (actWord s a w (storeWord a w s)).host.serving = s.host.serving) :
    writeWin h a [w] s = answer c stDone [] (actWord s a w (storeWord a w s)) := by
  simp only [writeOpen, Bool.and_eq_true, Bool.not_eq_true', decide_eq_true_eq] at ho
  refine acceptCmd_answer c h 0x0402 _ _ s hc hr stDone [] _ ?_ (.inl rfl) hh hs
  have h1 := winShape_one a ha
  have h2 := winFault_one a ha
  simp only [writeWinBody, List.length_singleton, h1, Bool.true_eq_false, if_false, h2, winAddrs_one, List.any_cons,
    List.any_nil, Bool.or_false, ho.1, Bool.false_eq_true, writeChecked, List.zip_cons_cons, List.zip_nil_left,
    List.foldl_cons, List.foldl_nil, firstRefused, ho.2, if_true, done, doneWith, writeAll]

/-! ### What a write stores -/

/-- The fields of a register lie in its word and do not overlap. -/
def apart : List FieldDef → Bool
  | [] => true
  | f :: t => decide (f.lo + f.width ≤ 32) && t.all (fun g => decide (f.lo + f.width ≤ g.lo ∨ g.lo + g.width ≤ f.lo)) && apart t

set_option maxRecDepth 4000 in
theorem regTable_apart : regTable.all (fun r => apart r.fields) = true := by decide +kernel

theorem regFind_mem (a : Nat) (l : List RegDef) (r : RegDef) (i j : Nat) (h : regFind a l = some (r, i, j)) : r ∈ l := by
  induction l with
  | nil => simp [regFind] at h
  | cons x t ih =>
    rw [regFind] at h
    by_cases h1 : x.base ≤ a
    · rw [if_pos h1] at h
      dsimp only at h
      generalize (if x.count ≤ 1 then 0 else (a - x.base) / x.stride) = i' at h
      generalize (if x.count2 ≤ 1 then 0 else (a - x.base - i' * x.stride) / x.stride2) = j' at h
      by_cases h2 : i' < x.count ∧ j' < x.count2 ∧ a - x.base - i' * x.stride = j' * x.stride2
      · rw [if_pos h2] at h
        simp only [Option.some.injEq, Prod.mk.injEq] at h
        exact h.1 ▸ List.mem_cons_self
      · rw [if_neg h2] at h
        exact List.mem_cons_of_mem _ (ih h)
    · rw [if_neg h1] at h
      exact List.mem_cons_of_mem _ (ih h)

/-- What a write does to one field. -/
def stepMerge (new w : Word) (f : FieldDef) : Word :=
    match f.acc with
    | .RW | .WA => BitVec.ofNat 32 (setBits w.toNat f.lo f.width (bitsOf new.toNat f.lo f.width))
    | .W1C => BitVec.ofNat 32 (setBits w.toNat f.lo f.width
        (bitsOf (w &&& ~~~new).toNat f.lo f.width))
    | _ => w

theorem stepMerge_out (new w : Word) (f : FieldDef) (k : Nat) (hk : ¬ (f.lo ≤ k ∧ k < f.lo + f.width)) (h32 : k < 32) :
    (stepMerge new w f).toNat.testBit k = w.toNat.testBit k := by
  unfold stepMerge
  split <;> first
    | rfl
    | (rw [BitVec.toNat_ofNat, Nat.testBit_mod_two_pow, testBit_setBits, if_neg hk]; simp [h32])

theorem bitsOf_congr (n m lo w : Nat) (h : ∀ k, lo ≤ k → k < lo + w → n.testBit k = m.testBit k) : bitsOf n lo w = bitsOf m lo w := by
  apply Nat.eq_of_testBit_eq
  intro k
  rw [testBit_bitsOf, testBit_bitsOf]
  by_cases hk : k < w
  · rw [h _ (by omega) (by omega)]
  · simp [hk]

theorem bitsOf_idem (n lo w m : Nat) (h : ∀ k, k < w → m.testBit (lo + k) = (bitsOf n lo w).testBit k) : bitsOf m lo w = bitsOf n lo w := by
  apply Nat.eq_of_testBit_eq
  intro k
  rw [testBit_bitsOf]
  by_cases hk : k < w
  · simp [hk, h]
  · simp [hk, testBit_bitsOf]

theorem stepMerge_in (new w : Word) (f : FieldDef) (h : f.lo + f.width ≤ 32) :
    bitsOf (stepMerge new w f).toNat f.lo f.width = (match f.acc with
            | .RW | .WA => bitsOf new.toNat f.lo f.width
            | .W1C => bitsOf (w &&& ~~~new).toNat f.lo f.width
            | _ => bitsOf w.toNat f.lo f.width) := by
  unfold stepMerge
  have key : ∀ v, v < 2 ^ f.width → bitsOf (BitVec.ofNat 32 (setBits w.toNat f.lo f.width v)).toNat f.lo f.width = v := by
    intro v hv
    apply Nat.eq_of_testBit_eq
    intro k
    rw [testBit_bitsOf, BitVec.toNat_ofNat, Nat.testBit_mod_two_pow, testBit_setBits]
    by_cases hk : k < f.width
    · have : f.lo + k < 32 := by omega
      simp [hk, this]
    · simp only [hk, decide_false, Bool.false_and]
      exact (Nat.testBit_lt_two_pow (Nat.lt_of_lt_of_le hv (Nat.pow_le_pow_right (by decide) (by omega)))).symm
  cases f.acc <;> simp only <;> first | rfl | exact key _ (bitsOf_lt _ _ _)

theorem foldMerge_out (new : Word) (l : List FieldDef) (w : Word) (k : Nat) (h32 : k < 32)
    (hk : ∀ f ∈ l, ¬ (f.lo ≤ k ∧ k < f.lo + f.width)) : (l.foldl (stepMerge new) w).toNat.testBit k = w.toNat.testBit k := by
  induction l generalizing w with
  | nil => rfl
  | cons f t ih =>
    simp only [List.foldl_cons]
    rw [ih _ (fun g hg => hk g (List.mem_cons_of_mem _ hg)), stepMerge_out new w f k (hk f List.mem_cons_self) h32]

theorem foldMerge_in (new : Word) (l : List FieldDef) (w : Word) (ha : apart l = true) (f : FieldDef) (hf : f ∈ l) :
    bitsOf (l.foldl (stepMerge new) w).toNat f.lo f.width = (match f.acc with
            | .RW | .WA => bitsOf new.toNat f.lo f.width
            | .W1C => bitsOf (w &&& ~~~new).toNat f.lo f.width
            | _ => bitsOf w.toNat f.lo f.width) := by
  induction l generalizing w with
  | nil => simp at hf
  | cons g t ih =>
    simp only [apart, Bool.and_eq_true, decide_eq_true_eq, List.all_eq_true] at ha
    simp only [List.foldl_cons]
    rcases List.mem_cons.1 hf with rfl | hf
    · rw [bitsOf_congr _ (stepMerge new w f).toNat _ _ (fun k h1 h2 => foldMerge_out new t _ k (by omega) (fun g hg => by
        have := ha.1.2 g hg; omega)), stepMerge_in new w f ha.1.1]
    · rw [ih _ ha.2 hf]
      have hd := ha.1.2 f hf
      have hw : ∀ k, f.lo ≤ k → k < f.lo + f.width → (stepMerge new w g).toNat.testBit k = w.toNat.testBit k := by
        intro k h1 h2
        by_cases h32 : k < 32
        · exact stepMerge_out new w g k (by omega) h32
        · rw [Nat.testBit_lt_two_pow (Nat.lt_of_lt_of_le (stepMerge new w g).isLt (Nat.pow_le_pow_right (by decide) (by omega))),
            Nat.testBit_lt_two_pow (Nat.lt_of_lt_of_le w.isLt (Nat.pow_le_pow_right (by decide) (by omega)))]
      cases f.acc <;> simp only <;> first
        | rfl
        | exact bitsOf_congr _ _ _ _ hw
        | (refine bitsOf_congr _ _ _ _ (fun k h1 h2 => ?_)
           simp only [BitVec.toNat_and, Nat.testBit_and, hw k h1 h2])

theorem mergeWord_eq (r : RegDef) (old new : Word) : mergeWord r old new = r.fields.foldl (stepMerge new) old := rfl

theorem actWord_plain (a : Nat) (w : Word) (s0 s : State) (h : plainWrite a = true) : actWord s0 a w s = s := by
  unfold plainWrite at h
  unfold actWord
  cases h1 : winSignal a with
  | some n => simp [h1] at h
  | none =>
    cases h2 : regAt a with
    | none => rfl
    | some x =>
      obtain ⟨r, i, j⟩ := x
      simp only [h1, h2, Bool.and_eq_true, Bool.not_eq_true', decide_eq_false_iff_not, List.mem_cons, List.not_mem_nil,
        or_false, not_or] at h
      simp [actLink, actPower, actBridge, h.1, h.2]

theorem storeWord_plain (a : Nat) (w : Word) (s : State) (h : plainWrite a = true) (r : RegDef) (i j : Nat)
    (hx : regAt a = some (r, i, j)) : storeWord a w s = s.setReg a (mergeWord r (s.reg a) w) := by
  unfold plainWrite at h
  unfold storeWord
  cases h1 : winSignal a with
  | some n => simp [h1] at h
  | none =>
      simp only [h1, hx, Bool.and_eq_true, Bool.not_eq_true', decide_eq_false_iff_not, List.mem_cons, List.not_mem_nil,
        or_false, not_or] at h
      simp [hx, h.1]

/-! ### The rows that name a register -/

/-- The register at an address, its place, and what its checks ask before its state: all by evaluation. -/
def regRowOk (a : Nat) (base i j : Nat) (wa plain : Bool) : Bool :=
  decide ((regAt a).map (fun x => (x.1.base, x.2)) = some (base, i, j)) && decide (winSignal a = none) && !inSafety a && winAddrOk a &&
  decide (holdsWa a = wa) && decide (plainWrite a = plain)

/-- The same as facts. -/
structure RegRow (a base i j : Nat) (wa plain : Bool) (r : RegDef) : Prop where
  reg : regAt a = some (r, i, j)
  base : r.base = base
  sig : winSignal a = none
  safe : inSafety a = false
  addr : winAddrOk a = true
  wa : holdsWa a = wa
  plain : plainWrite a = plain

theorem RegRow.of {a base i j : Nat} {wa plain : Bool} (h : regRowOk a base i j wa plain = true) : ∃ r, RegRow a base i j wa plain r := by
  simp only [regRowOk, Bool.and_eq_true, decide_eq_true_eq, Bool.not_eq_true'] at h
  obtain ⟨⟨⟨⟨⟨h1, h2⟩, h3⟩, h4⟩, h5⟩, h6⟩ := h
  cases hx : regAt a with
  | none => simp [hx] at h1
  | some x =>
    obtain ⟨r, i', j'⟩ := x
    simp only [hx, Option.map_some, Option.some.injEq, Prod.mk.injEq] at h1
    exact ⟨r, ⟨by rw [hx, ← h1.2.1, ← h1.2.2], h1.1, h2, h3, h4, h5, h6⟩⟩

/-! ### Reads without effect -/

theorem readReg_plain (a : Nat) (s : State) (h : plainRead a = true) : readReg a s = (viewReg s a, s) := by
  unfold plainRead at h
  unfold readReg
  cases h1 : winSignal a with
  | some n => rfl
  | none =>
    cases h2 : regAt a with
    | none => rfl
    | some x =>
      obtain ⟨r, i, j⟩ := x
      simp only [h1, h2, Bool.and_eq_true, Bool.not_eq_true', decide_eq_false_iff_not, not_or] at h
      simp [h.1.2, readEffect, clearRc, h.1.1.1, h.1.1.2, h.2]

theorem readRegs_plain (l : List Nat) (s : State) (h : ∀ a ∈ l, plainRead a = true) :
    readRegs l s = (l.flatMap (fun a => le 4 (viewReg s a).toNat), s) := by
  induction l with
  | nil => rfl
  | cons a t ih =>
    simp only [List.mem_cons, forall_eq_or_imp] at h
    simp [readRegs, readReg_plain a s h.1, ih h.2]

end Sys2Proof.Machine
end

