-- ==== Sys2Proof/Tests/Slice0.lean ====
section
/-! SUPPORT. Tests: the smoke test of the well-formedness checks, one state and operands for the hypotheses of each
clause of each statement, and small tests of one step with results that the spec's tables and worked examples give. -/

set_option Elab.async false

namespace Sys2Proof.Tests

open Sys2Proof Sys2Proof.Machine

/-! ### Small states -/

/-- Fields set one after another. -/
def put (l : List (Fld × Nat × Nat)) (s : State) : State := l.foldl (fun t e => t.wr e.1 e.2.1 e.2.2) s

/-- The interpreter serves and the start is done. -/
def up (s : State) : State :=
  { s.raise R.RS_STATUS.START_DONE with host := { s.host with serving := true }, rst := { s.rst with owed := none } }

/-- Served, all else as at reset. -/
def S0 : State := up State.reset

/-- A header without authentication, by SPI and by CAN. -/
def H : Hdr := ⟨false, 255, none⟩
def HC : Hdr := ⟨true, 0, none⟩

/-- The CAN transport on, on controller 0 that is on its bus. -/
def onCan (s : State) : State := put [(R.VG_CAN_CFG.CAN_EN, 0, 1), (R.VG_CAN_CFG.CAN_SEL, 0, 0), (R.CF_STATUS.STATE, 0, 2),
  (R.VG_CAN_CMD_ID.ID, 0, 5), (R.VG_CAN_CFG.IDE, 0, 0), (R.ID_STATUS.MIN_SERVICE, 0, 0), (R.ID_STATUS.OPT_SRC, 0, 1)] s

/-- A bridge in a mode at a step. -/
def inMode (b m st : Nat) (s : State) : State := put [(R.BR_STATUS.MODE, b, m), (R.BR_STATUS.STEP, b, st)] s

/-- Slot 1 is an ADMIN slot, ACTIVE. -/
def keyed (s : State) : State := (s.wr2 R.SEC_SLOT.STATE 0 1 1).wr2 R.SEC_SLOT.USE 0 1 2

/-- The header that authenticates a command by slot 1 with the greatest counter step. -/
def signer (op : Nat) (ps : List Byte) (s : State) : Hdr :=
  ⟨false, 0, some ⟨1, 256, (Config.cmac (slotKey s 1)
    (tagMessage 0 (commandPacket ⟨false, 0, some ⟨1, 256, []⟩⟩ op ps))).take 8⟩⟩

/-- The command of a `signer` header passes the authentication step where slot 1 permits it. -/
theorem cmdAuth_signer (c : Instr) (rule : AuthRule) (s : State) (op : Nat) (ps : List Byte)
    (hrow : hostRow c = some (signer op ps s, op, ps)) (hr : ready s (signer op ps s) op ps = true)
    (hu : slotUsable s rule 1 = true) (hc : s.rd R.SEC_CTR.C 0 1 = 0) : cmdAuth c rule s = true := by
  simp only [cmdAuth, cmdReady, hrow]
  simp [authStatus, signer, hu, hc, tagMessage, packetHead, packetLength, authHead, commandPacket, b2n, stDone]
  simpa [signer, tagMessage, packetHead, packetLength, authHead, commandPacket, b2n] using hr

/-! ### The hypotheses of the statements can be met: one conjunction a statement, one part a clause -/

/-- A crossing that nothing lists is whole at every instant. -/
theorem unlisted_whole (s : State) (id : Nat) (h : sget (fun _ => ({} : Crossing)) s.clk.xings id = {}) :
    crossingBad id (crossing s id) s = (crossing s id).bad := by
  simp [crossing, h, settle, crossingBad, creditLate]

theorem met_StepRunsFrontCommand : (S0.pending = [] ∧ S0.host.heldMask = 0) ∧
    ∀ u : State, u = { S0 with now := S0.now + 1 } → ∀ id, crossingBad id (crossing u id) u = (crossing u id).bad :=
  ⟨⟨rfl, rfl⟩, fun u h id => unlisted_whole u id (by subst h; rfl)⟩

theorem met_ResetLeavesTheBlock :
    systemUp State.reset = false ∧ controlUp State.reset = false ∧ State.reset.host.serving = false := ⟨rfl, rfl, rfl⟩

theorem met_EveryStepKeepsTheBlock :
    swf regReset State.reset.regs = true ∧ swf regReset (put [(R.BR_CFG.KIND, 3, 1)] S0).regs = true := by decide +kernel

/-- Signal 5 holds a word of odd parity. -/
def oddWord : State := { S0 with board := [(5, 1)] }

theorem met_SignalWindow :
    wordsSound S0 ((List.range 256).map (fun k => 0 + k)) = true ∧ wordsSound oddWord ((List.range 1).map (fun k => 5 + k)) = false ∧
    cmdReady (.readWin H (0x200000 + 4 * 5) 1) oddWord = true ∧
    cmdReady (.readWin H (0x200000 + 4 * 4095) 1) S0 = true ∧ cmdReady (.readWin HC 0x200000 256) (onCan S0) = true ∧
    cmdReady (.writeWin H (0x200000 + 4 * 0x140) [7]) S0 = true ∧ cmdReady (.writeWin H (0x200000 + 4 * 0x1BF) [0xFFFFFFFF]) S0 = true ∧
    cmdReady (.writeWin H (0x200000 + 4 * 0x13F) [7, 8]) S0 = true ∧ cmdReady (.writeWin H (0x200000 + 4 * 0x1BF) [7, 8]) S0 = true := by
  decide +kernel

theorem met_GuardedRegisterWrites :
    (cmdReady (.writeWin H A.BR_CFG [0]) S0 = true ∧ A.BR_CFG < 2 ^ 24 ∧ winFault A.BR_CFG 1 = none ∧
      (winAddrs A.BR_CFG 1).any holdsWa = true) ∧
    (∃ r, regAt (A.BR_BAND + 0x400 * 3) = some (r, 3, 0) ∧ cmdReady (.writeWin H (A.BR_BAND + 0x400 * 3) [0]) S0 = true ∧
      fieldsOk r 0 = false ∧ fieldsOk r (regReset (A.BR_BAND + 0x400 * 3)) = true ∧ modeOf S0 3 = 0 ∧ modeOf (inMode 3 1 0 S0) 3 ≠ 0 ∧
      cmdReady (.writeWin H (A.BR_BAND + 0x400 * 3) [regReset (A.BR_BAND + 0x400 * 3)]) (inMode 3 1 0 S0) = true) ∧
    (∃ r, regAt A.BR_TIMES = some (r, 0, 0) ∧ cmdReady (.writeWin H A.BR_TIMES [0]) S0 = true ∧
      fieldsOk r 0 = false ∧ fieldsOk r (regReset A.BR_TIMES) = true) :=
  ⟨by decide +kernel, ⟨_, rfl, by decide +kernel⟩, ⟨_, rfl, by decide +kernel⟩⟩



/-- Crossing 27 without a credit, one on its way back; crossing 16 with a count broken at tick 0. -/
def starved (s : State) : State := setCrossing 27 { avail := 0, flight := 7, sync := 1 } s
def brokenAt : State := setCrossing 16 { avail := 0, flight := 7, sync := 0, broken := some 0 } { S0 with now := 40 }

theorem met_TransomCrossings :
    ((crossing S0 27).avail + (crossing S0 27).flight + (crossing S0 27).sync = 8 ∧ creditLate 27 (crossing S0 27) S0 = false ∧
      (crossing S0 27).waits = 0 ∧ 0 < usable 27 (crossing S0 27) S0.now) ∧
    ((crossing (starved S0) 27).avail + (crossing (starved S0) 27).flight + (crossing (starved S0) 27).sync = 8 ∧
      creditLate 27 (crossing (starved S0) 27) (starved S0) = false ∧ (crossing (starved S0) 27).waits = 0 ∧
      usable 27 (crossing (starved S0) 27) (starved S0).now = 0 ∧ 0 < (crossing (starved S0) 27).flight ∧
      0 < (crossing (starved S0) 27).sync ∧ (crossing (starved S0) 27).avail = 0 ∧
      (crossing (starved S0) 27).flight + (crossing (starved S0) 27).sync = 8 ∧
      (starved S0).now + sendCycle 27 * 3 ≤ (crossing (starved S0) 27).drainAt + 3 * sendCycle 27) ∧
    ((crossing brokenAt 16).avail = 0 ∧ (crossing brokenAt 16).waits = 0 ∧ (crossing brokenAt 16).bad = false ∧
      (crossing brokenAt 16).flight + (crossing brokenAt 16).sync ≠ 8 ∧
      (crossing brokenAt 16).broken.any (fun t => decide (t / sendCycle 16 < brokenAt.now / sendCycle 16)) = true) ∧
    (creditLate 27 (crossing (starved { S0 with now := 40 }) 27) (starved { S0 with now := 40 }) = true ∧
      (crossing (starved { S0 with now := 40 }) 27).bad = false) ∧
    ((starved { S0 with now := 39 }).pending = [] ∧ (starved { S0 with now := 39 }).host.heldMask = 0) := by decide +kernel

theorem met_TransomCrossings_idle (k : Nat) (h : k ≠ 27) :
    crossingBad k (crossing (starved { S0 with now := 40 }) k) (starved { S0 with now := 40 }) = (crossing (starved { S0 with now := 40 }) k).bad :=
  unlisted_whole _ k (Eq.trans (sget_sput_ne (fun _ => ({} : Crossing)) [] { avail := 0, flight := 7, sync := 1 } h) rfl)

/-- A module of the chain that is not the head, its link on and PLL B locked and ungated. -/
def chained : State :=
  { put [(R.CK_STATUS.PLLB_LOCK, 0, 1), (R.CK_STATUS.PLLB_GATED, 0, 0), (R.DL_STATUS.POS_OK, 0, 1)] S0 with
    clk := { dl := fldSet R.DL_CFG.DL_EN 0 1 } }

/-- The same without the lock. -/
def unlocked : State := put [(R.CK_STATUS.PLLB_LOCK, 0, 0), (R.CK_STATUS.PLLB_GATED, 0, 1)] chained

/-- The head with its link on. -/
def headOn : State :=
  { S0 with clk := { dl := fldSet R.DL_CFG.HEAD (fldSet R.DL_CFG.DL_EN 0 1) 1, ck := fldSet R.CK_CFG.REF_FB (fldSet R.CK_CFG.PPS_EN 0 1) 1 } }

/-- A training of the output hop runs. -/
def training (g : Training) : State := { chained with clk := { chained.clk with training := some g } }

theorem met_ClockReferencesLost :
    ((headOn.raise R.CK_STATUS.REF_ACT).rd R.CK_STATUS.REF_ACT = 1 ∧ fldOf R.CK_CFG.REF_FB headOn.clk.ck ≠ 0) ∧
    (isHead headOn = true ∧ (put [(R.CK_STATUS.PLLB_LOCK, 0, 0)] headOn).flag R.CK_STATUS.PLLB_LOCK = false ∧
      isHead (put [(R.CK_STATUS.PLLB_LOCK, 0, 0)] headOn) = true) ∧
    (isHead (training {}) = false ∧ (training {}).clk.training = some {} ∧ (training {}).flag R.CK_STATUS.PLLB_LOCK = true) ∧
    (isHead chained = false ∧ chained.flag R.CK_STATUS.PLLB_LOCK = true ∧ chained.clk.training = none ∧
      chained.flag R.DL_STATUS.REF_LOST = false) ∧
    (isHead unlocked = false ∧ unlocked.flag R.CK_STATUS.PLLB_LOCK = false ∧ unlocked.flag R.DL_STATUS.REF_LOST = false ∧
      linkOn unlocked = true ∧ unlocked.clk.retrain = false ∧
      ({ unlocked with clk := { unlocked.clk with retrain := true } } : State).clk.retrain = true) ∧
    ({ unlocked with clk := { unlocked.clk with backAt := some 7 } } : State).clk.backAt = some 7 ∧ unlocked.clk.backAt = none ∧
    (linkOn chained = true ∧ pllbUp chained = true) := by decide +kernel

/-- A SYNC of SEQ 255 was received at the present offset of the timestamp. -/
def synced (due : Bool) (err : Int) : State :=
  { chained with clk := { chained.clk with sync := some ⟨255, 12, 3, 0⟩, loadDue := due, err := err } }

/-- A module that coasts at a rate. -/
def coasting : State := put [(R.TS_STATUS.COAST, 0, 1), (R.TS_HOLD.HOLD_PPB, 0, 0xFFFFCF90)] chained

theorem met_TimestampFollows :
    (linkOn chained = true ∧ takesTime chained = true ∧ repeats chained = false ∧
      (put [(R.DL_STATUS.OUT_STATE, 0, 2)] chained).clk.training = none ∧ repeats (put [(R.DL_STATUS.OUT_STATE, 0, 2)] chained) = true ∧
      takesTime (put [(R.DL_STATUS.OUT_STATE, 0, 2)] chained) = true ∧ (put [(R.DL_STATUS.OUT_STATE, 0, 2)] chained).clk.out = []) ∧
    (takesTime (synced false 0) = true ∧ linkOn (synced false 0) = true ∧ (synced false 0).clk.loadDue = false ∧
      (0 : Nat) = (synced false 0).rd R.TS_STATUS.EPOCH ∧ (synced false 0).clk.sync = some ⟨255, 12, 3, 0⟩) ∧
    ((synced false 1).flag R.TS_STATUS.COAST = false ∧ 0 < (synced false 1).clk.err ∧ (synced false (-1)).clk.err < 0 ∧
      (synced false (-1)).flag R.TS_STATUS.COAST = false) ∧
    (coasting.flag R.TS_STATUS.COAST = true ∧ holdPpb coasting ≠ 0) ∧
    (notAligned (chained.clear R.TS_STATUS.NOT_ALIGNED) = false ∧ pllbUp (chained.clear R.TS_STATUS.NOT_ALIGNED) = true ∧
      (chained.clear R.TS_STATUS.NOT_ALIGNED).flag R.TS_STATUS.COAST = false) ∧
    (isHead headOn = true ∧ fldOf R.CK_CFG.PPS_EN headOn.clk.ck ≠ 0) ∧
    (linkOn (synced true 0) = true ∧ takesTime (synced true 0) = true ∧
      (synced true 0).clk.sync = some ⟨255, 12, 3, 0⟩ ∧ pllbUp (synced true 0) = true ∧ (0 : Int) = (synced true 0).clk.tsOff ∧
      (synced true 0).clk.loadDue = true) ∧
    (255 ≠ (synced false 0).rd R.TS_STATUS.EPOCH ∧ pllbUp (synced false 0) = true) := by decide +kernel

theorem met_DellanSymbolsAndTraining :
    (isHead headOn = true ∧ linkOn headOn = true ∧ headOn.clk.training = none ∧ chained.clk.out = []) ∧
    (linkOn chained = true ∧ outside chained = false ∧ repeats chained = false ∧
      repeats (put [(R.DL_STATUS.OUT_STATE, 0, 2)] chained) = true ∧ (put [(R.DL_STATUS.OUT_STATE, 0, 2)] chained).clk.training = none) ∧
    (((⟨2, 0, 48, 1, 0, 0⟩ : OutSym).kind = 1 ∨ (⟨2, 0, 48, 1, 0, 0⟩ : OutSym).kind = 2) ∧ 2 < (⟨3, 0, 80, 1, 0, 0⟩ : OutSym).kind) ∧
    (isHead chained = false ∧ (14 : Nat) < 15 ∧ (15 : Nat) = 15 ∧ chained.flag R.DL_STATUS.CHAIN_ERR = false ∧
      (chained.raise R.DL_STATUS.CHAIN_ERR).flag R.DL_STATUS.CHAIN_ERR = true ∧ linkOn (chained.raise R.DL_STATUS.CHAIN_ERR) = true) ∧
    ((training { n := 1, next := 241 }).clk.training = some { n := 1, next := 241 } ∧ linkOn (training { n := 1, next := 241 }) = true) ∧
    ((training { gap := true }).clk.training = some { gap := true } ∧ linkOn (training { gap := true }) = true) ∧
    (chained.rd R.DL_STATUS.OUT_STATE = 0 ∧ chained.clk.retrain = false ∧
      linkOn { chained with clk := { chained.clk with retrain := true } } = true) := by decide +kernel

/-- Both transports with packets waiting and replies queued. -/
def busy (rx : List RxPkt) (rp : List (List Byte)) : State :=
  { S0 with host := { S0.host with spi := { rx := rx, rp := rp }, can := { rx := rx, rp := rp } } }

theorem met_SpiTransactions :
    expireHeld S0 = S0 ∧ S0.host.serving = true ∧ (busy [⟨0, []⟩] []).host.spi.rx.length < 2 ∧ 2 ≤ (busy [⟨0, []⟩, ⟨1, []⟩] []).host.spi.rx.length ∧
    (busy [] [[1, 2], [3]]).host.spi.rp = [1, 2] :: [[3]] ∧ (busy [] []).host.spi.rp = [] ∧
    (0x03 : Byte) ∉ [(0x02 : Byte), 0x32, 0x0B, 0x6B, 0x05] := by decide +kernel

/-- A CAN FD frame with CMD_ID and its data. -/
def seg (d : List Byte) (fd : Bool) : CanFrame := ⟨false, false, fd, true, false, 5, 15, d⟩

/-- The port with segment 0 of a packet of 66 bytes taken, and the segment that ends it. -/
def assembling : State :=
  let s := onCan S0
  { s with host := { s.host with seg := some ⟨0xA5 :: 66 :: 0 :: List.replicate 60 0, 1, 5⟩ } }
def lastSeg : CanFrame := seg (1 :: List.replicate 11 0) true

theorem met_CanTransportSegments :
    (canOn (onCan S0) = true ∧ canOnBus (onCan S0) (canSel (onCan S0)) = true ∧ isCommandFrame (onCan S0) (seg [] true) = true ∧
      (seg [] true).fdf = true ∧ (seg [] true).rtr = false ∧ isReference (onCan S0) (canSel (onCan S0)) (seg [] true) = false ∧
      (onCan S0).host.seg = none) ∧
    (isCommandFrame (onCan S0) (seg (0 :: 0xA5 :: 64 :: 0 :: List.replicate 60 0) true) = true ∧
      63 < leAt ((seg (0 :: 0xA5 :: 64 :: 0 :: List.replicate 60 0) true).data.drop 1) 1 2 ∧
      (seg (0 :: 0xA5 :: 64 :: 0 :: List.replicate 60 0) true).data.length = 64) ∧
    (3 ≤ leAt ((seg [0, 0xA5, 3, 0] true).data.drop 1) 1 2 ∧
      leAt ((seg [0, 0xA5, 3, 0] true).data.drop 1) 1 2 ≤ (seg [0, 0xA5, 3, 0] true).data.length - 1 ∧
      (onCan S0).host.can.rx.length < 2) ∧
    (canOn assembling = true ∧ canOnBus assembling (canSel assembling) = true ∧ isCommandFrame assembling lastSeg = true ∧
      isReference assembling (canSel assembling) lastSeg = false ∧ assembling.now ≤ 5 + assembling.rd R.VG_CAN_CFG.SEG_TO * 400000 ∧
      byteAt lastSeg.data 0 = 1 ∧ 3 ≤ leAt (0xA5 :: 66 :: 0 :: List.replicate 60 0 ++ lastSeg.data.drop 1) 1 2 ∧
      leAt (0xA5 :: 66 :: 0 :: List.replicate 60 0 ++ lastSeg.data.drop 1) 1 2 ≤
        (0xA5 :: 66 :: 0 :: List.replicate 60 0 ++ lastSeg.data.drop 1).length ∧
      byteAt (seg [2] true).data 0 ≠ 1 ∧ byteAt (seg [2] true).data 0 ≠ 0) ∧
    (isCommandFrame (onCan S0) (seg [] false) = true ∧ isReference (onCan S0) (canSel (onCan S0)) (seg [] false) = false) ∧
    ((onCan (busy [] [[1]])).host.can.rp = [[1]] ∧ canOn (onCan (busy [] [[1]])) = true ∧
      canOnBus (onCan (busy [] [[1]])) (canSel (onCan (busy [] [[1]]))) = true ∧ expireHeld (onCan (busy [] [[1]])) = onCan (busy [] [[1]]) ∧
      (onCan (busy [] [[1]])).flag R.CF_MODE.MON (canSel (onCan (busy [] [[1]]))) = false) := by decide +kernel

/-- Packets that wait at the SPI port alone. -/
def waits (rx : List RxPkt) : State := { S0 with host := { S0.host with spi := { rx := rx } } }

theorem met_PacketTake :
    hostRow (.ping H) = some (H, 0x0101, []) ∧ (Instr.ping H).wf = true ∧
    takes (waits [⟨0, packetBytes (commandPacket H 0x0101 [])⟩]) false = true ∧
    ((waits [⟨0, packetBytes (commandPacket H 0x0101 [])⟩]).transport (!H.can)).rx = [] ∧
    isRepeat none ⟨0, packetBytes (commandPacket H 0x0101 [])⟩ = false := by decide +kernel

theorem met_PacketBytesRoundTrip :
    packetLength ⟨255, 0xFFFF, 1, List.replicate 1030 0, some ⟨255, 0xFFFFFFFF, List.replicate 8 1⟩⟩ ≤ 1280 ∧
    (1 : Nat) = b2n true := by decide +kernel

theorem met_PacketsTakenInOrder :
    candidate false (onCan (busy [⟨0, []⟩] [])) = some ⟨0, []⟩ ∧ candidate true (onCan (busy [⟨0, []⟩] [])) = some ⟨0, []⟩ ∧
    frameOk [] = false ∧ frameOk (packetBytes ⟨0, 0x0100, 0, [], none⟩) = true ∧ crcOk (packetBytes ⟨0, 0x0100, 0, [], none⟩) = true ∧
    parsePacket (packetBytes ⟨0, 0x0100, 0, [], none⟩) = ⟨0, 0x0100, 0, [], none⟩ ∧
    (bodyOf ⟨false, 0, none⟩ 0x0100 []).isNone = true ∧
    (({ S0 with host := { S0.host with spi := { last := some ⟨[7], [], 0⟩ } } } : State).transport false).last = some ⟨[7], [], 0⟩ ∧
    (({ S0 with host := { S0.host with heldMask := 1, held := some ⟨false, 0x0202, [], [1], [2], 0⟩ } } : State).host.held =
      some ⟨false, 0x0202, [], [1], [2], 0⟩ ∧ S0.host.heldDue ≤ S0.now ∧
      ({ S0 with host := { S0.host with heldMask := 1 } } : State).host.heldMask ≠ 0) := by decide +kernel

theorem met_IdentityAndStatusAnswered :
    cmdReady (.ping H) S0 = true ∧ cmdReady (.getStatus HC) { onCan S0 with regs := ((onCan S0).clear R.RS_STATUS.START_DONE).regs } = true := by
  decide +kernel

theorem met_ReadWindowReads :
    (cmdReady (.readWin H A.ID_PART 3) S0 = true ∧ winShapeOk A.ID_PART 3 = true ∧ winFault A.ID_PART 3 = none ∧
      (winAddrs A.ID_PART 3).all plainRead = true ∧ wordsSound S0 ((winAddrs A.ID_PART 3).filterMap winSignal) = true) ∧
    (cmdReady (.readWin H 0xFFFFFC 1) S0 = true ∧ winShapeOk 0xFFFFFC 1 = true ∧ winFault 0xFFFFFC 1 = some 0xFFFFFC) ∧
    (∃ r, regAt A.SH_TRIPS = some (r, 0, 0) ∧ pairLow r.base = false ∧ pairHigh r.base = false ∧ r.base ≠ A.XG_STALL ∧
      r.base ≠ A.BUF_ID ∧ r.base ≠ A.BUF_DATA ∧ winFault A.SH_TRIPS 1 = none ∧ winSignal A.SH_TRIPS = none ∧
      cmdReady (.readWin H A.SH_TRIPS 1) S0 = true) ∧
    (∃ r, regAt 0x100028 = some (r, 0, 0) ∧ r.fields.any (fun f => f.acc == .RC) = true ∧ pairLow r.base = false ∧ pairHigh r.base = false ∧
      winFault 0x100028 1 = none ∧ winSignal 0x100028 = none ∧ cmdReady (.readWin H 0x100028 1) S0 = true) :=
  ⟨by decide +kernel, by decide +kernel, ⟨_, rfl, by decide +kernel⟩, ⟨_, rfl, by decide +kernel⟩⟩

theorem met_WriteWindowWrites :
    (∃ r, regAt 0x100010 = some (r, 0, 0) ∧ cmdReady (.writeWin H 0x100010 [regReset 0x100010]) S0 = true ∧
      winShapeOk 0x100010 1 = true ∧ winAddrOk 0x100010 = true ∧ plainWrite 0x100010 = true ∧
      writeOpen 0x100010 (regReset 0x100010) S0 = true) ∧
    (winFault A.BR_BAND 1 = none ∧ (winAddrs A.BR_BAND 1).any holdsWa = false ∧
      firstRefused S0 (((winAddrs A.BR_BAND 1).zip [(0 : Word)]).foldl (fun t e => storeWord e.1 e.2 t) S0)
        ((winAddrs A.BR_BAND 1).zip [0]) = some (A.BR_BAND, stBadParam) ∧ cmdReady (.writeWin H A.BR_BAND [0]) S0 = true) ∧
    (winFault A.BR_CFG 1 = none ∧ (winAddrs A.BR_CFG 1).any holdsWa = true ∧ H.auth = none) ∧
    (winFault 0xFFFFFC 1 = some 0xFFFFFC ∧ cmdReady (.writeWin H 0xFFFFFC [0]) S0 = true) :=
  ⟨⟨_, rfl, by decide +kernel⟩, by decide +kernel, by decide +kernel, by decide +kernel⟩

/-- The signed header of a one-word write. -/
def wh (a : Nat) (ws : List Word) (s : State) : Hdr := signer 0x0402 (writeParams a ws) s

theorem met_BridgeRegisterCommands :
    (cmdAuth (.bridgeConfigWrite (wh (A.BR_CFG + 0x400 * 3 + 4 * 2) [0] (keyed S0)) 3 2 0) .any (keyed S0) = true ∧
      modeOf (keyed S0) 3 = 0 ∧ (regAt (A.BR_CFG + 0x400 * 3 + 4 * 2)).all (fun e => fieldsOk e.1 0) = true) ∧
    cmdReady (.faultClr H 3) S0 = true ∧ wordsSound S0 (causeReads S0 3) = true ∧ cmdReady (.resyncWrite H 0 true) S0 = true ∧
    (cmdReady (.encoderConfigWrite H 3 (regReset A.TR_ENC_CFG)) S0 = true ∧
      writeOpen (A.TR_ENC_CFG + 0x400 * 3) (regReset A.TR_ENC_CFG) S0 = true) :=
  ⟨⟨cmdAuth_signer _ _ _ _ _ rfl (by decide +kernel) (by decide +kernel) (by decide +kernel), by decide +kernel, by decide +kernel⟩,
    by decide +kernel⟩

theorem met_SashRegisterCommands :
    (cmdReady (.perWrite H 23 0x2710) S0 = true ∧ writeOpen (A.SH_CARRIER + 0x100 * 23) 0x2710 S0 = true) ∧
    (cmdReady (.fallbackWrite H 3 0 [0x2710]) S0 = true ∧ writeOpen (A.FB_PER + 0x400 * 3) 0x2710 S0 = true) ∧
    (cmdReady (.fallbackWrite H 3 12 [64000]) (S0.wr R.FB_PER.PER 3 1000) = true ∧
      writeOpen (A.FB_DUTY + 0x400 * 3 + 4 * 11) 64000 (S0.wr R.FB_PER.PER 3 1000) = true) ∧
    (cmdReady (.latchClr H 23) S0 = true ∧ cmdReady (.xchkTripClear H 0) S0 = true ∧ legFree S0 23 = true ∧ legFree S0 0 = true) := by
  decide +kernel

/-- The die of switch 47 in FAULT since tick 0 with a cause, at tick 9. -/
def faulty (cause : Nat) (x : Die) : State :=
  { put [(R.DRV_STATUS.STATE, 47, 2), (R.DRV_STATUS.FAULT_CAUSE, 47, cause)] (S0.setDie 47 x) with now := 9 }

theorem met_DriverRegisterCommands :
    (cmdReady (.louvreWrite H 47 0) S0 = true ∧ writeOpen (A.DRV_LOUVRE + 0x40 * 47) 0 S0 = true) ∧
    (cmdReady (.drvClr H 47) S0 = true ∧ legFree S0 23 = true ∧ dieState S0 47 ≠ 2) ∧
    (cmdReady (.writeWin H (A.DRV_SUP + 0x40 * 47) [0]) S0 = true ∧ writeOpen (A.DRV_SUP + 0x40 * 47) (regReset A.DRV_SUP) S0 = true) ∧
    (dieState (faulty 5 {}) 47 = 2 ∧ ((faulty 5 {}).die 47).faultAt ≠ (faulty 5 {}).now ∧ ((faulty 5 {}).die 47).again = none ∧
      (causeGone 47 (faulty 5 {})).1 = true ∧ cmdReady (.drvClr H 47) (faulty 5 {}) = true ∧ legFree (faulty 5 {}) (47 / 2) = true) ∧
    ((causeGone 47 (faulty 5 { linkLost := true })).1 = false ∧ ((faulty 5 { faultAt := 9 }).die 47).faultAt = (faulty 5 { faultAt := 9 }).now) ∧
    (cmdReady (.twClr H 7) S0 = true ∧ (S0.pair 7).agreed = false ∧ ((S0.setPair 7 { agreed := true }).pair 7).agreed = true ∧
      pairOwner (S0.setPair 7 { agreed := true }) 7 = none) ∧
    (cmdAuth (.steerWrite (wh (A.CN_STEER + 0x20 * 3) [0x1666299a, 0x140a4189] (keyed S0)) 3 0x1666299a 0x140a4189) .any (keyed S0) = true ∧
      firstRefused (used (.steerWrite (wh (A.CN_STEER + 0x20 * 3) [0x1666299a, 0x140a4189] (keyed S0)) 3 0x1666299a 0x140a4189) (keyed S0))
        (storeWord (A.CN_STEER2 + 0x20 * 3) 0x140a4189 (storeWord (A.CN_STEER + 0x20 * 3) 0x1666299a
          (used (.steerWrite (wh (A.CN_STEER + 0x20 * 3) [0x1666299a, 0x140a4189] (keyed S0)) 3 0x1666299a 0x140a4189) (keyed S0))))
        [(A.CN_STEER + 0x20 * 3, 0x1666299a), (A.CN_STEER2 + 0x20 * 3, 0x140a4189)] = none) :=
  ⟨by decide +kernel, by decide +kernel, by decide +kernel, by decide +kernel, by decide +kernel, by decide +kernel,
    cmdAuth_signer _ _ _ _ _ rfl (by decide +kernel) (by decide +kernel) (by decide +kernel), by decide +kernel⟩

theorem met_OtherRegisterCommands :
    (cmdReady (.hostSignalWrite H 0x1BF [1]) S0 = true ∧ cmdReady (.hostSignalWrite H 0x140 [1, 2]) S0 = true) ∧
    (cmdAuth (.safetyConfigWrite (wh 0x800040 [0] (keyed S0)) 0x800040 [0]) .any (keyed S0) = true ∧ inSafety 0x800040 = true ∧
      holdsWa 0x800040 = true ∧ winAddrOk 0x800040 = true ∧
      checkWord (used (.safetyConfigWrite (wh 0x800040 [0] (keyed S0)) 0x800040 [0]) (keyed S0))
        (storeWord 0x800040 0 (used (.safetyConfigWrite (wh 0x800040 [0] (keyed S0)) 0x800040 [0]) (keyed S0))) 0x800040 0 = stDone) ∧
    (cmdAuth (.vangatCanConfigWrite (wh (A.VG_CAN_CFG + 4 * 2) [1] (keyed S0)) 2 1) .any (keyed S0) = true ∧
      checkWord (used (.vangatCanConfigWrite (wh (A.VG_CAN_CFG + 4 * 2) [1] (keyed S0)) 2 1) (keyed S0))
        (storeWord (A.VG_CAN_CFG + 4 * 2) 1 (used (.vangatCanConfigWrite (wh (A.VG_CAN_CFG + 4 * 2) [1] (keyed S0)) 2 1) (keyed S0)))
        (A.VG_CAN_CFG + 4 * 2) 1 = stDone) ∧
    (cmdReady (.captureConfigWrite H 7 24 [0]) S0 = true ∧ plainWrite (A.CAP_CFG + 0x100 * 7 + 24) = true ∧
      writeOpen (A.CAP_CFG + 0x100 * 7 + 24) 0 S0 = true) ∧
    (cmdReady (.retrain H) chained = true ∧ linkOn chained = true ∧ chained.clk.training = none) :=
  ⟨by decide +kernel,
    ⟨cmdAuth_signer _ _ _ _ _ rfl (by decide +kernel) (by decide +kernel) (by decide +kernel), by decide +kernel⟩,
    ⟨cmdAuth_signer _ _ _ _ _ rfl (by decide +kernel) (by decide +kernel) (by decide +kernel), by decide +kernel⟩,
    by decide +kernel, by decide +kernel⟩

theorem met_SealTakesEffect : modeOf S0 3 = 0 ∧ modeOf (inMode 3 5 0 S0) 3 ≠ 0 := by decide +kernel

/-- Bridge 0 in half-bridge form on legs 0 and 1, its configuration valid, in a mode at a step. -/
def formed (m st : Nat) : State :=
  put [(R.BR_CFG.KIND, 0, 1), (R.BR_CFG.NPHASE, 0, 1), (R.BR_CFG.NLEG_M1, 0, 0), (R.BR_STATUS.CFG_OK, 0, 1),
    (R.ID_STATUS.OPT_SRC, 0, 1), (R.ID_STATUS.MIN_SERVICE, 0, 0)] (inMode 0 m st S0)

theorem met_SetModeSeals :
    (cmdReady (.setMode H 3 0 0) (inMode 3 5 0 S0) = true ∧ modeOf (inMode 3 5 0 S0) 3 ≠ 0 ∧ ((inMode 3 5 0 S0).br 3).ramp = none) ∧
    (cmdReady (.setMode H 0 0 1) (inMode 0 2 0 S0) = true ∧ modeOf (inMode 0 2 0 S0) 0 ≠ 0 ∧ modeOf (inMode 0 2 0 S0) 0 ≠ 5 ∧
      ((inMode 0 2 0 S0).br 0).ramp = none ∧ stepOf (inMode 0 2 0 S0) 0 = 0) ∧
    (modeOf S0 0 = 0 ∧ cmdReady (.setMode H 0 0 0) S0 = true ∧ cmdReady (.getMode H 0) S0 = true) ∧
    (cmdReady (.setMode H 0 0 0) (formed 2 0) = true ∧ cmdReady (.setMode H 0 1 0) (formed 2 0) = true ∧ cfgOk (formed 2 0) 0 = true ∧
      (formed 2 0).rd R.ID_STATUS.OPT_SRC ≠ 3 ∧ (formed 2 0).flag R.ID_STATUS.MIN_SERVICE = false ∧ modeOf (formed 2 0) 0 ≠ 1 ∧
      modeOf (formed 2 0) 0 ≠ 0) ∧
    ((formed 2 0).now < ((formed 2 0).setBr 0 { refuseTill := 1 } |>.br 0).refuseTill ∧ ((formed 2 0).br 0).refuseTill ≤ (formed 2 0).now ∧
      (((formed 2 6).setBr 0 { ramp := some ⟨1, some 0, 400, 6, false⟩ }).br 0).ramp = some ⟨1, some 0, 400, 6, false⟩ ∧
      modeOf (formed 2 6) 0 ≠ 0) := by decide +kernel

/-- Bridge 3 owns encoder 2 and pulse input 3. -/
def owner (x : Enc) (y : Pulse) : State :=
  put [(R.TR_ENC_CFG.ENC_EN, 3, 1), (R.TR_ENC_CFG.ENC_SEL, 3, 2), (R.TR_ENC_CFG.FILT, 3, 4), (R.TR_PULSE_CFG.PULSE_EN, 3, 1),
    (R.TR_PULSE_CFG.PULSE_SEL, 3, 3), (R.TR_PULSE_CFG.FILT, 3, 4)] ((S0.setEnc 2 x).setPul 3 y)

theorem met_TractionEdgesCounted :
    (encOwner (owner {} {}) 2 = some 3 ∧ pulseOwner (owner {} {}) 3 = some 3 ∧ 0 % 8 = ((owner {} {}).enc 2).lvl) ∧
    (1 % 8 ≠ ((owner {} {}).enc 2).lvl ∧ 3 < (owner {} {}).rd R.TR_ENC_CFG.FILT 3 ∧ (owner {} {}).rd R.TR_ENC_CFG.FILT 3 ≤ 4 ∧
      bitAt (1 % 8 ^^^ ((owner {} {}).enc 2).lvl) 0 ≠ bitAt (1 % 8 ^^^ ((owner {} {}).enc 2).lvl) 1 ∧
      bitAt (1 % 8 ^^^ ((owner {} {}).enc 2).lvl) 2 = false ∧ bitAt (3 % 8 ^^^ ((owner {} {}).enc 2).lvl) 0 = true ∧
      bitAt (3 % 8 ^^^ ((owner {} {}).enc 2).lvl) 1 = true ∧ bitAt (3 % 8 ^^^ ((owner {} {}).enc 2).lvl) 2 = false) ∧
    (encTogether 0 true ((owner {} {}).enc 2) = none ∧
      encTogether 7 false ((owner { last := some (1, 7), prev := some (true, 1) } {}).enc 2) = some 1 ∧
      4 % 8 ^^^ ((owner {} {}).enc 2).lvl = 4 ∧ bitAt 4 2 = true ∧ (owner {} {}).rd R.TR_ENC_OFS.Z_MODE 3 = 0 ∧
      (put [(R.TR_ENC_OFS.Z_MODE, 3, 1)] (owner {} {})).rd R.TR_ENC_OFS.Z_MODE 3 ≠ 0 ∧ ((owner {} {}).enc 2).ref = false) ∧
    (((owner {} {}).pul 3).lvl ≠ true ∧ 3 < (owner {} {}).rd R.TR_PULSE_CFG.FILT 3) ∧
    (((owner {} ⟨false, some 5, some 5, none⟩).pul 3).rise = some 5 ∧ ((owner {} ⟨false, some 5, some 5, none⟩).pul 3).fall = some 5 ∧
      pulseOwner (owner {} ⟨false, some 5, some 5, none⟩) 3 = some 3 ∧ ((owner {} { lvl := true }).pul 3).lvl = true) := by
  decide +kernel

/-! ### Small graphs and images, laid out by R65 to R67 -/

/-- A section of bridge 0, KIND 1 with one phase of one leg, the beat every half period. -/
def section_ (sigs : List (Nat × Nat)) (recs : List Byte) (n : Nat) : List Byte :=
  le 1 0 ++ le 1 1 ++ le 1 1 ++ le 1 1 ++ le 2 n ++ le 2 sigs.length ++ le 1 2 ++ le 1 0 ++ le 2 0 ++
  le 4 20000 ++ le 4 20000 ++ le 4 400000 ++ le 4 100000 ++ le 4 50000 ++ le 4 800000 ++
  le 4 64 ++ le 4 (64 + 8 * sigs.length) ++ le 4 (64 + 8 * sigs.length + recs.length) ++ le 4 0 ++
  le 4 (64 + 8 * sigs.length + recs.length) ++ le 4 0 ++ le 4 0 ++
  sigs.flatMap (fun e => le 2 e.1 ++ le 1 e.2 ++ le 1 0 ++ le 2 0 ++ le 2 0) ++ recs

/-- A record of rate 0, class 1, no parameters and no state. -/
def rec_ (op : Nat) (ins outs : List Nat) : List Byte :=
  le 1 op ++ le 1 1 ++ le 1 0 ++ le 1 0 ++ le 1 1 ++ le 1 0 ++ le 1 ins.length ++ le 1 outs.length ++ le 2 0 ++ le 2 0 ++ le 4 0 ++
  (ins ++ outs).flatMap (le 2) ++ List.replicate (2 * ((ins.length + outs.length) % 2)) 0

/-- A graph of one CLARKE that writes the duty of leg 0. -/
def clarke : List Byte := section_ [(0xF00, 0)] (rec_ 1 [0, 0, 0] [0xF00, 0, 0]) 1

/-- An image of that graph, signed under slot 1. -/
def image : List Byte :=
  let head := le 4 0x49474C5A ++ le 2 1 ++ le 1 1 ++ le 1 0 ++ le 4 236 ++ le 2 0 ++ le 2 0 ++ le 4 7 ++ le 4 0 ++ le 1 1 ++ le 1 0 ++ le 2 0
  let body := head ++ le 4 (crc32c head) ++ le 4 0x40 ++ le 4 clarke.length ++ List.replicate 24 0 ++ clarke
  body ++ le 4 (crc32c body) ++ le 4 0 ++ List.replicate 64 1

/-- Bridge 0 as `formed`, its leg at a carrier period of 20,000 ticks, slot 1 a graph key, slot 2 an ADMIN key. -/
def staged (img : List Byte) (st : Nat) : State :=
  let s := put [(R.GR_STAGE.STATE, 0, st)] ((formed 0 0).setLeg 0 { per := 20000 })
  let s := ((s.wr2 R.SEC_SLOT.STATE 0 1 1).wr2 R.SEC_SLOT.USE 0 1 4)
  { s with graphs := { declared := 236, staged := img } }

/-- Where the hardware's signature function accepts the image, every other check passes. -/
theorem met_image (h : Config.ecdsaOk (slotKey (staged image 2) 1) (Config.sha256 (image.take (image.length - 64)))
    (image.drop (image.length - 64)) = true) :
    imageErr (staged image 2) image = none ∧ selErr (staged image 2) (sections image) false = none := by
  refine ⟨?_, by decide +kernel⟩
  have hs : byteAt image 0x18 = 1 := by decide +kernel
  have hl : leAt image 8 4 = image.length := by decide +kernel
  unfold imageErr
  simp only [hs, hl, h]
  rw [if_neg (by decide +kernel), if_neg (by decide +kernel), if_neg (by decide +kernel), if_neg (by decide +kernel),
    if_neg (by decide +kernel), if_neg (by decide), if_neg (by rw [show leAt image 0x0C 2 = 0 by decide +kernel]; exact Nat.not_lt_zero _),
    if_neg (by decide +kernel)]

theorem met_GraphStaging :
    (cmdReady (.graphBegin H 216) S0 = true ∧ cmdReady (.graphBegin H 524288) S0 = true ∧ stageState S0 ≠ 5) ∧
    (cmdReady (.graphData H 235 [7]) (staged (List.replicate 235 0) 1) = true ∧ stageState (staged (List.replicate 235 0) 1) = 1 ∧
      235 = (staged (List.replicate 235 0) 1).graphs.staged.length ∧ 235 + [(7 : Byte)].length ≤ (staged (List.replicate 235 0) 1).graphs.declared ∧
      236 < 2 ^ R.GR_FILL.FILL.width ∧ 234 ≠ (staged (List.replicate 235 0) 1).graphs.staged.length) := by decide +kernel

/-- The staged image with slot 1 an ADMIN key, which its check 5 refuses. -/
def stagedKeyed (st : Nat) : State := keyed (staged image st)

theorem met_GraphChecksAndLoads :
    (stageReady (staged image 2) = true ∧ stageReady (staged image 4) = true ∧ cmdReady (.graphCheck H) (staged image 2) = true) ∧
    (imageErr (staged [] 2) [] = some ⟨1, stBadParam, 0, none, 0xFFF⟩ ∧ stageReady (staged [] 2) = true) ∧
    (cmdAuth (.graphLoad (signer 0x0304 (le 1 1 ++ le 1 0) (stagedKeyed 3)) 1 0) .any (stagedKeyed 3) = true ∧
      stageReady (stagedKeyed 3) = true ∧ modeOf (stagedKeyed 3) 0 = 0 ∧ (∀ b, b < 4 → modeOf (stagedKeyed 3) b = 0) ∧
      imageErr (used (.graphLoad (signer 0x0304 (le 1 1 ++ le 1 0) (stagedKeyed 3)) 1 0) (stagedKeyed 3)) image =
        some ⟨5, stAuthFail, 0, none, 0xFFF⟩) :=
  ⟨by decide +kernel, by decide +kernel, cmdAuth_signer _ _ _ _ _ rfl (by decide +kernel) (by decide +kernel) (by decide +kernel),
    by decide +kernel⟩

/-- A graph stands in image RAM of bridge 0. -/
def loaded (r : RamGraph) (s : State) : State := put [(R.BR_STATUS.IMAGE_OK, 0, 1)] (s.setBr 0 { ram := some r })

/-- The graph with its digest, and with one that differs. -/
def ramGood : RamGraph := { bytes := clarke, gdig := graphDigest clarke, sdig := structDigest clarke }
def ramBad : RamGraph := { ramGood with differs := true }

theorem met_GraphStoreAndUnload :
    (cmdAuth (.graphStore (signer 0x0305 (le 1 1) (stagedKeyed 3)) 1) .any (stagedKeyed 3) = true ∧ stageReady (stagedKeyed 3) = true) ∧
    (({ S0 with graphs := { storing := some (1, 7) } } : State).graphs.storing = some (1, 7) ∧
      flashNow { S0 with graphs := { storing := some (1, 7) } } = some 5 ∧ flashNow S0 ≠ some 5) ∧
    (cmdAuth (.graphStart (signer 0x0306 (le 1 2) (keyed S0)) 2) .any (keyed S0) = true ∧ (keyed S0).rd R.ID_STATUS.OPT_SRC ≠ 3 ∧
      (keyed S0).rst.optRun = none) ∧
    (cmdReady (.graphUnload H 3) S0 = true ∧ modeOf S0 3 = 0) ∧
    (cmdReady (.graphInfo H 0) (loaded ramGood S0) = true ∧ imageOk (loaded ramGood S0) 0 = true ∧ (S0.br 3).ram = none) :=
  ⟨⟨cmdAuth_signer _ _ _ _ _ rfl (by decide +kernel) (by decide +kernel) (by decide +kernel), by decide +kernel⟩, by decide +kernel,
    ⟨cmdAuth_signer _ _ _ _ _ rfl (by decide +kernel) (by decide +kernel) (by decide +kernel), by decide +kernel⟩,
    by decide +kernel, by decide +kernel⟩

/-- The graph of `clarke` placed on engine 1. -/
def onEngine : Placed :=
  { graph := parseGraph clarke, engines := [1], phases := [0], states := [[]], lastRun := [none] }

/-- Bridge 0 with that graph, in a mode at a step. -/
def stepping (m st : Nat) (x : Bridge) : State := (formed m st).setBr 0 { x with placed := some onEngine }

theorem met_StepsFollowTheTable :
    (stepEnds (formed 3 3) 0 = false ∧ [(2, 1), (3, 2), (3, 1), (4, 1)].all (fun e => stepEnds (formed e.1 e.2) 0) = true ∧
      ((formed 2 1).br 0).placed = none) ∧
    (stepEnds ((formed 3 3).setBr 0 { inBand := true }) 0 = true ∧ modeOf ((formed 3 3).setBr 0 { inBand := true }) 0 = 3) ∧
    (stepEnds { (formed 3 4).setBr 0 { inBand := true, holdAt := some 0 } with now := 80000000 } 0 = true ∧
      stepEnds ((formed 4 5).setBr 0 { syncOk := true }) 0 = true) ∧
    (modeOf (formed 3 2) 0 = 3 ∧ stepOf (formed 3 2) 0 = 2 ∧ modeOf (stepping 3 2 {}) 0 = 3 ∧ stepOf (stepping 3 2 {}) 0 = 2 ∧
      ((stepping 3 2 {}).br 0).placed.isSome = true ∧ stepEnds (stepping 3 2 {}) 0 = true) ∧
    (modeOf ((formed 3 4).setBr 0 { inBand := true, holdAt := some 0 }) 0 = 3 ∧
      (((formed 3 4).setBr 0 { inBand := true, holdAt := some 0 }).br 0).holdAt = some 0 ∧
      stepOf (stepping 3 4 { inBand := true, holdAt := some 0 }) 0 = 4 ∧
      ((stepping 3 4 { inBand := true, holdAt := some 0 }).br 0).placed.isSome = true) ∧
    (((stepping 2 1 { stepOver := true }).br 0).stepOver = true ∧
      isRunning { formed 2 1 with host := { (formed 2 1).host with running := [⟨0x0201, 7, 0⟩] } } 0x0201 0 = true) := by decide +kernel

/-- A bridge whose site contactor 0 does not close. -/
def stuckKon (m st : Nat) : State := put [(R.BR_KON.SITE_KON, 0, 1)] (formed m st)

/-- Bridge 0 in SYNC, its motor contactor closed though it should be open, long after KON_WAIT. -/
def joined : State :=
  { put [(R.BR_KON.MOTOR_KON, 0, 1), (R.BR_KON.MOTOR_POL, 0, 1)] (formed 4 5) with now := 10000000000 }

theorem met_StepTimeoutsSeal :
    (modeOf (stuckKon 4 1) 0 ≠ 0 ∧ stepOf (stuckKon 4 1) 0 = 1 ∧ ((stuckKon 4 1).br 0).placed = none ∧ konAgrees (stuckKon 4 1) 0 = false ∧
      konAgrees (formed 2 1) 0 = true ∧ stepOf (stepping 4 1 {}) 0 = 1 ∧ ((stepping 4 1 {}).br 0).placed.isSome = true) ∧
    (motorIsolated joined 0 = false ∧ stepOf joined 0 = 5 ∧ modeOf joined 0 = 4 ∧ konWaitEnd joined 0 ≤ joined.now) ∧
    (modeOf ((formed 3 3).setBr 0 { rampAt := some 0 }) 0 = 3 ∧ stepOf ((formed 3 3).setBr 0 { rampAt := some 0 }) 0 = 3 ∧
      (((formed 3 3).setBr 0 { rampAt := some 0 }).br 0).rampAt = some 0 ∧ (((formed 3 3).setBr 0 { rampAt := some 0 }).br 0).inBand = false ∧
      (((formed 3 3).setBr 0 { rampAt := some 0 }).br 0).placed = none ∧ stepOf (stepping 3 4 { rampAt := some 0 }) 0 = 4 ∧
      ((stepping 3 4 { rampAt := some 0 }).br 0).rampAt = some 0) ∧
    (modeOf (formed 4 5) 0 = 4 ∧ stepOf (formed 4 5) 0 = 5 ∧ ((formed 4 5).br 0).syncOk = false ∧ ((formed 4 5).br 0).placed = none ∧
      modeOf (stepping 4 5 {}) 0 = 4 ∧ stepOf (stepping 4 5 {}) 0 = 5 ∧ ((stepping 4 5 {}).br 0).placed.isSome = true) ∧
    (((stepping 4 5 { failDue := some 10 }).br 0).failDue = some 10 ∧ ((stepping 4 5 { failDue := some 10 }).br 0).stepOver = false ∧
      stepEnds (stepping 4 5 { failDue := some 10 }) 0 = false ∧ modeOf (stepping 4 5 { failDue := some 10 }) 0 ≠ 0) ∧
    (modeOf ((formed 2 6).setBr 0 { ramp := some ⟨2, some 0, 400, 3, false⟩ }) 0 ≠ 0 ∧
      (((formed 2 6).setBr 0 { ramp := some ⟨2, some 0, 400, 3, false⟩ }).br 0).ramp = some ⟨2, some 0, 400, 3, false⟩) ∧
    (((formed 2 6).setBr 0 { sillDue := some 7 }).br 0).sillDue = some 7 := by decide +kernel

/-- Bridge 0 runs it, in a mode at STEP 0. -/
def runs (p : Placed) (m : Nat) : State :=
  put [(R.BR_STATUS.IMAGE_OK, 0, 1)] ((formed m 0).setBr 0 { ram := some ramGood, placed := some p, open_ := true })

/-- The same with engine 1 ACTIVE for it and copies that differ. -/
def copied (l : List (Nat × Nat)) : State :=
  put [(R.EN_STATUS.STATE, 1, 1), (R.EN_STATUS.OWNER, 1, 0)] (runs { onEngine with differs := l } 2)

theorem met_GraphSwapAndVerify :
    (((runs { onEngine with swap := some (parseGraph clarke) } 2).br 0).placed = some { onEngine with swap := some (parseGraph clarke) }) ∧
    (cmdReady (.graphVerify H 0) (loaded ramGood S0) = true ∧ imageOk (loaded ramGood S0) 0 = true ∧ ((loaded ramGood S0).br 0).placed = none ∧
      (S0.br 3).ram = none) ∧
    ramDiffers ramGood = false ∧ ramDiffers ramBad = true ∧
    (((loaded ramBad S0).br 0).ram = some ramBad ∧ imageOk (loaded ramBad S0) 0 = true) ∧
    (cmdReady (.graphVerify H 0) (copied [(0, 1)]) = true ∧ imageOk (copied [(0, 1)]) 0 = true ∧ ((copied [(0, 1)]).br 0).ram = some ramGood ∧
      badEngines onEngine ramGood = [] ∧ badEngines { onEngine with differs := [(0, 1)] } ramGood = [1] ∧
      (copied [(0, 1)]).rd R.EN_STATUS.STATE 1 = 1 ∧ (copied [(0, 1)]).rd R.EN_STATUS.OWNER 1 = 0) :=
  ⟨rfl, ⟨by decide +kernel, by decide +kernel, by decide +kernel, by decide +kernel⟩, by simp [ramDiffers, ramGood],
    by simp [ramDiffers, ramBad], ⟨rfl, by decide +kernel⟩,
    ⟨by decide +kernel, by decide +kernel, rfl, by decide +kernel, by decide +kernel, by decide +kernel, by decide +kernel⟩⟩

/-- A graph of a FRESH_SUP and a FALLBACK that meets the conditions of R139 on its shape. -/
def tractionSec : List Byte :=
  section_ [] (rec_ 0x25 [0x130, 0, 1] [0, 0xF40] ++ rec_ 0x24 [0, 0] [0xF40]) 2

/-- Bridge 0 SEALED and ready for a mode: its graph loaded, its dies READY, the safety code confirmed. -/
def poised (sec : List Byte) : State :=
  keyed (put [(R.SF_STATUS.CODE_OK, 0, 1), (R.DRV_STATUS.STATE, 0, 1), (R.DRV_STATUS.STATE, 1, 1), (R.CN_STATUS.NO_FALLOW, 0, 0)]
    (loaded ⟨sec, [], [], false⟩ (formed 0 0)))

/-- The header of a SET_MODE of bridge 0 in style 0. -/
def mh (m : Nat) (s : State) : Hdr := signer 0x0201 (le 1 0 ++ le 1 m ++ le 1 0) s

theorem met_SetModeEnters :
    (cfgOk (poised []) 0 = true ∧ (poised []).rd R.ID_STATUS.OPT_SRC ≠ 3 ∧ (poised []).flag R.ID_STATUS.MIN_SERVICE = false ∧
      modeOf (poised []) 0 = 0 ∧ isRunning (poised []) 0x0104 0 = false ∧ stepOf (poised []) 0 = 0 ∧
      ((poised []).br 0).refuseTill ≤ (poised []).now ∧
      cmdReady (.setMode H 0 1 0) (poised []) = true ∧ 1 ≤ kindOf (poised []) 0 ∧ kindOf (poised []) 0 ≤ 3 ∧
      entryOk (poised []) 0 1 = true ∧ entryOk ((poised []).clear R.SF_STATUS.CODE_OK) 0 1 = false) ∧
    (cmdAuth (.setMode (mh 2 (poised tractionSec)) 0 2 0) .any (poised tractionSec) = true ∧
      kindPermits (kindOf (poised tractionSec) 0) 2 = true ∧
      entryOk (used (.setMode (mh 2 (poised tractionSec)) 0 2 0) (poised tractionSec)) 0 2 = true ∧
      shutterTest (used (.setMode (mh 2 (poised tractionSec)) 0 2 0) (poised tractionSec)) 0 = true ∧
      (checkEleven (shutterPasses 0 (used (.setMode (mh 2 (poised tractionSec)) 0 2 0) (poised tractionSec))) 0 2).isOk = true) :=
  ⟨by decide +kernel, cmdAuth_signer _ _ _ _ _ rfl (by decide +kernel) (by decide +kernel) (by decide +kernel), by decide +kernel⟩

/-- A raw public key record for slot 0. -/
def keyRecord : List Byte := le 1 4 ++ le 1 0 ++ List.replicate 64 3

/-- The header of a KEY_LOAD of that record. -/
def kh : Hdr := signer 0x0803 (le 1 14 ++ keyRecord) (keyed S0)

/-- Slot 14 is a CMD slot, ACTIVE. -/
def withCmd (s : State) : State := (s.wr2 R.SEC_SLOT.STATE 0 14 1).wr2 R.SEC_SLOT.USE 0 14 1

/-- The header of a COUNTER_RESYNC of slot 14. -/
def rh : Hdr := signer 0x0802 (le 1 14 ++ le 4 255) (withCmd (keyed S0))

/-- A calibration record is being written; a checkpoint of slot 14, for which a revocation waits. -/
def resyncing (s : State) : State := { s with cal := { store := some [] } }
def checkpointing (s : State) : State := { s with sec := { s.sec with cpRun := some [(14, 9)], revokes := [14] } }

/-- Where the hardware's curve test accepts the record's key, KEY_LOAD meets every hypothesis. -/
theorem met_KeysAndCounters (hk : Config.onCurve (keyRecord.drop 2) = true) :
    (cmdReady (.getCounter H 15) S0 = true ∧ cmdReady (.keyInfo H 0) S0 = true) ∧
    (cmdAuth (.counterResync rh 14 255) (.resync 14) (withCmd (keyed S0)) = true ∧
      (withCmd (keyed S0)).rd R.SEC_SLOT.STATE 0 14 = 1 ∧ hasCounter (withCmd (keyed S0)) 14 = true ∧
      (used (.counterResync rh 14 255) (withCmd (keyed S0))).rd R.SEC_CTR.C 0 14 < 255 ∧ 255 < epochLimit (withCmd (keyed S0)) ∧
      (used (.counterResync rh 14 255) (withCmd (keyed S0))).rd R.SEC_SLOT.STATE 0 14 = 1 ∧
      (used (.counterResync rh 14 255) (withCmd (keyed S0))).sec.cpRun = none ∧ (withCmd (keyed S0)).sec.resync = none ∧
      flashNow (withCmd (keyed S0)) = none ∧ flashNow (resyncing (withCmd (keyed S0))) = some 2 ∧
      cmdReady (.counterResync rh 14 255) (resyncing (withCmd (keyed S0))) = true) ∧
    (cmdAuth (.keyLoad kh 14 keyRecord) .adminOnly (keyed S0) = true ∧ keyRecordOk 14 keyRecord = true ∧
      recordKey (authKey kh (keyed S0)) keyRecord = some (keyRecord.drop 2) ∧
      (used (.keyLoad kh 14 keyRecord) (keyed S0)).rd R.SEC_SLOT.STATE 0 14 ≠ 3 ∧ (keyed S0).rd R.SEC_SLOT.GEN 0 14 < 4 ∧
      (keyed S0).sec.load = none ∧ cpWrites 14 (used (.keyLoad kh 14 keyRecord) (keyed S0)) = false ∧
      cpWrites 14 (used (.keyLoad kh 14 keyRecord) (checkpointing (keyed S0))) = true) ∧
    (S0.rd R.SEC_SLOT.GEN 0 14 < 4 ∧ S0.rd R.SEC_SLOT.STATE 0 14 ≠ 3 ∧ (S0.wr2 R.SEC_SLOT.STATE 0 14 3).rd R.SEC_SLOT.STATE 0 14 = 3 ∧ ({ S0 with sec := { load := some ⟨9, 14, 4, [1]⟩ } } : State).sec.load = some ⟨9, 14, 4, [1]⟩ ∧
      cpWrites 14 { S0 with sec := { load := some ⟨9, 14, 4, [1]⟩ } } = false ∧
      cpWrites 14 { S0 with sec := { load := some ⟨9, 14, 4, [1]⟩, cpRun := some [(14, 0)] } } = true ∧ flashNow S0 ≠ some 1) ∧
    (cmdAuth (.keyRevoke (signer 0x0804 (le 1 14) (keyed S0)) 14) .adminOnly (keyed S0) = true ∧
      anyAdmin (used (.keyRevoke (signer 0x0804 (le 1 14) (keyed S0)) 14) (keyed S0)) ((List.range 15).filter (· ≠ 14)) = true ∧
      cpWrites 14 (used (.keyRevoke (signer 0x0804 (le 1 14) (keyed S0)) 14) (keyed S0)) = false ∧
      cpWrites 14 (used (.keyRevoke (signer 0x0804 (le 1 14) (keyed S0)) 14) (checkpointing (keyed S0))) = true) ∧
    (14 ∈ (checkpointing S0).sec.revokes ∧ flashNow (checkpointing S0) = some 1 ∧ (checkpointing S0).sec.cpRun = some [(14, 9)]) ∧
    (({ S0 with sec := { cpRun := some [(15, 0xFFFFFFFF)] } } : State).sec.cpRun = some [(15, 0xFFFFFFFF)] ∧
      flashNow { S0 with sec := { cpRun := some [(15, 0xFFFFFFFF)] } } = some 1) :=
  ⟨by decide +kernel,
    ⟨cmdAuth_signer _ _ _ _ _ rfl (by decide +kernel) (by decide +kernel) (by decide +kernel), by decide +kernel⟩,
    ⟨cmdAuth_signer _ _ _ _ _ rfl (by decide +kernel) (by decide +kernel) (by decide +kernel), by decide +kernel,
      by rw [recordKey, if_pos (by decide), if_pos hk], by decide +kernel⟩,
    by decide +kernel,
    ⟨cmdAuth_signer _ _ _ _ _ rfl (by decide +kernel) (by decide +kernel) (by decide +kernel), by decide +kernel⟩, by decide +kernel⟩

/-- A firmware image is being staged. -/
def fwStaged (len : Nat) (d : List Byte) : State := let s := keyed S0; { s with sec := { s.sec with fwLen := some len, fwData := d } }

/-- A firmware image of the least length, unsigned. -/
def firmware : List Byte := le 4 0x57464C5A ++ le 2 1 ++ le 1 0 ++ le 1 0 ++ le 4 4096 ++ List.replicate 4084 0

/-- Bank A runs on trial. -/
def trialRuns : State := (keyed S0).wr R.SEC_FW.STATE_A 0 2

/-- Its FW_COMMIT runs, and its write is the flash operation that runs. -/
def committing : State := let s := fwStaged 4096 firmware; { s with sec := { s.sec with commit := some 9 } }

/-- Where the hardware's signature function accepts it, the image verifies. -/
theorem met_firmware (h : Config.ecdsaOk (Config.factoryKey 121) (Config.sha256 (firmware.take (firmware.length - 64)))
    (firmware.drop (firmware.length - 64)) = true) : fwError committing committing.sec.fwData = 0 := by
  have hd : committing.sec.fwData = firmware := rfl
  have hb : byteAt firmware 6 = 0 := by decide +kernel
  unfold fwError
  simp only [hd, hb, h]
  rw [if_neg (by decide +kernel), if_neg (by decide +kernel), if_neg (by decide +kernel), if_neg (by decide)]

theorem met_FirmwareAndRandom :
    (cmdAuth (.fwBegin (signer 0x0806 (le 4 4194304) (keyed S0)) 4194304) .any (keyed S0) = true ∧ (keyed S0).sec.commit = none) ∧
    (cmdReady (.fwData H 1 [5, 6]) (fwStaged 3 [4]) = true ∧ (fwStaged 3 [4]).sec.commit = none ∧ (fwStaged 3 [4]).sec.fwLen = some 3 ∧
      (fwStaged 3 [4]).sec.fwData.length < 3 ∧ 1 = (fwStaged 3 [4]).sec.fwData.length) ∧
    (cmdAuth (.fwCommit (signer 0x0808 [] (fwStaged 1 [4]))) .any (fwStaged 1 [4]) = true ∧
      1 ≤ (fwStaged 1 [4]).sec.fwData.length ∧ allSealed (fwStaged 1 [4]) = true ∧ (fwStaged 1 [4]).sec.commit = none) ∧
    (cmdAuth (.fwCommit (signer 0x0808 [] trialRuns)) .any trialRuns = true ∧ trialRuns.sec.commit = none ∧ trialRuns.sec.fwLen = none ∧
      bankState trialRuns (bankRun trialRuns) = 2) ∧
    (fwError (fwStaged 1 [4]) [4] ≠ 0 ∧ cmdReady (.fwInfo H) S0 = true ∧ flashNow committing = some 4 ∧
      flashNow { committing with sec := { committing.sec with cpRun := some [] } } ≠ some 4) ∧
    (cmdReady (.trngRead H 64) S0 = true ∧ cmdReady (.trngRead H 1) S0 = true ∧
      (S0.clear R.SEC_STATUS.TRNG).rd R.SEC_STATUS.TRNG = 0 ∧ systemUp S0 = true) :=
  ⟨⟨cmdAuth_signer _ _ _ _ _ rfl (by decide +kernel) (by decide +kernel) (by decide +kernel), rfl⟩, by decide +kernel,
    ⟨cmdAuth_signer _ _ _ _ _ rfl (by decide +kernel) (by decide +kernel) (by decide +kernel), by decide +kernel⟩,
    ⟨cmdAuth_signer _ _ _ _ _ rfl (by decide +kernel) (by decide +kernel) (by decide +kernel), by decide +kernel⟩,
    by decide +kernel, by decide +kernel⟩

/-- The block started, with some sources asserted. -/
def ran (l : List Asserted) : State := { S0 with rst := { owed := none, asserted := l } }

/-- A start of level `l` is owed, and one in progress. -/
def owing (l : Nat) (r : Option StartRun) : State := { S0 with rst := { owed := some l, starting := r } }

theorem met_ResetSourcesAct :
    ((owing 1 (some ⟨false, 0, true⟩)).rst.owed = some 1 ∧ inForce (owing 1 (some ⟨false, 0, true⟩)) (actLevel (owing 1 (some ⟨false, 0, true⟩)) 1) = false) ∧
    (waitingSince (waits [⟨5, []⟩]) = some 5 ∧ waitingSince S0 = none ∧ S0.flag R.CK_STATUS.PLLA_LOCK = false ∧
      ({ S0 with sec := { S0.sec with dbgLock := true } } : State).sec.dbgLock = true) ∧
    ((heldSource 1 && isAsserted (ran []) 1) = false ∧ inForce (ran []) (actLevel (ran []) 1) = false ∧ actLevel (ran []) 1 = 0) ∧
    (actLevel (ran []) 12 = 2 ∧ inForce (ran []) 2 = false ∧ actLevel (ran []) 11 = 4 ∧ inForce (ran []) 4 = false) ∧
    ((ran []).sec.dbgLock = false ∧ ((ran []).raise R.CK_STATUS.PLLA_LOCK).flag R.CK_STATUS.PLLA_LOCK = true ∧
      inForce State.reset (actLevel State.reset 7) = true) := by decide +kernel

theorem met_PowerOnAndPartialResets :
    (State.reset.rst.joint = none ∧ isAsserted (ran [⟨5, 1, 0⟩]) 5 = true ∧ (ran [⟨5, 1, 0⟩]).rst.owed = none) ∧
    ((ran [⟨25, 1, 3⟩]).rst.asserted.find? (fun e => decide (e.source = 25)) = some ⟨25, 1, 3⟩ ∧
      (ran [⟨6, 1, 3⟩]).rst.asserted.find? (fun e => decide (e.source = 6)) = some ⟨6, 1, 3⟩) ∧
    (swf regReset (inMode 3 4 0 S0).regs = true ∧ modeOf (inMode 3 4 0 S0) 3 ≠ 0 ∧ encOwner (owner {} {}) 2 = some 3) ∧
    (S0.flag R.RS_STATUS.SHUTDOWN = false ∧ S0.rst.rewrite = none) := by decide +kernel

/-- A RESET of level `l` waits for its reply to be read out. -/
def resetWaits (l : Nat) : State := let s := ran []; { s with rst := { s.rst with cmds := [⟨false, l, 0, [1]⟩] } }

theorem met_ResetCommands :
    (cmdReady (.reset H 3 3) S0 = true ∧ inForce S0 3 = false ∧ cmdReady (.reset H 2 0) (ran []) = true ∧ inForce (ran []) 2 = false ∧
      cmdReady (.reset H 1 0) S0 = true ∧ cmdReady (.reset H 4 0) S0 = true) ∧
    (((resetWaits 1).transport false).rp.contains [1] = false ∧ inForce (resetWaits 1) 1 = false ∧ inForce (resetWaits 4) 4 = false ∧
      ((resetWaits 4).transport false).rp.contains [1] = false) ∧
    (cmdReady (.shutdown H) (inMode 0 2 0 S0) = true ∧ (inMode 0 2 0 S0).flag R.RS_STATUS.SHUTDOWN = false ∧
      modeOf (inMode 0 2 0 S0) 0 ≠ 5 ∧ stepOf (inMode 0 2 0 S0) 0 = 0 ∧ ((inMode 0 2 0 S0).br 0).ramp = none) ∧
    (S0.flag R.RS_STATUS.SHUTDOWN = false ∧ (resetWaits 1).rst.starting = none) ∧
    ((S0.raise R.RS_STATUS.SHUTDOWN).flag R.RS_STATUS.SHUTDOWN = true ∧ allSealed (S0.raise R.RS_STATUS.SHUTDOWN) = true ∧
      writing (S0.raise R.RS_STATUS.SHUTDOWN) = false ∧ isAsserted (S0.raise R.RS_STATUS.SHUTDOWN) 24 = false) := by decide +kernel

/-- A copy with one record of KIND 2, laid out by R409 and R410. -/
def optionCopy : List Byte :=
  let head := le 4 0x54504F5A ++ le 2 1 ++ le 2 1 ++ le 4 0 ++ List.replicate 16 0
  let recs := le 4 0x20000000 ++ le 4 2
  head ++ le 4 (crc32c (head ++ recs)) ++ recs

theorem met_OptionsAndFuses :
    (cmdAuth (.optionWrite (signer 0x0105 [] (keyed S0))) .any (keyed S0) = true ∧ (keyed S0).rst.optRun = none ∧
      rewriting (keyed S0) = false ∧ copyWear (keyed S0) (targetCopy (keyed S0)) < 10000) ∧
    (copyValid optionCopy = true ∧
      ({ S0 with rst := { optRun := some (1, optionCopy) } } : State).rst.optRun = some (1, optionCopy)) ∧
    (cmdAuth (.fuseProgram (signer 0x0106 (le 2 3 ++ le 4 63) (keyed S0)) 3 63) .adminOnly (keyed S0) = true ∧
      fuseBits 3 = some 6 ∧ 63 < 2 ^ 6 ∧ allSealed (keyed S0) = true ∧ (keyed S0).rst.fuseRun = none) ∧
    ({ S0 with rst := { fuseRun := some ⟨0x10, 1⟩ } } : State).rst.fuseRun = some ⟨0x10, 1⟩ :=
  ⟨⟨cmdAuth_signer _ _ _ _ _ rfl (by decide +kernel) (by decide +kernel) (by decide +kernel), by decide +kernel⟩, ⟨by decide +kernel, rfl⟩,
    ⟨cmdAuth_signer _ _ _ _ _ rfl (by decide +kernel) (by decide +kernel) (by decide +kernel), by decide +kernel⟩, rfl⟩

/-- All the world's parts work. -/
def world : StartEnv :=
  { minSet := true, loadCut := false, fuseMap := true, optRam := false, imageRam := false, pllA := true, dram := true, cores := true
    pwmAdc := true, trim := true, convTrim := true, serves := false, engines := 0xFFFF, engineMem := 0, engineLogic := 0, engineLate := 0
    dies := 2 ^ 48 - 1, converters := 0xFFFF, trng := true, startMs := 100 }

theorem met_StartsComplete :
    (State.reset.rst.owed = some 0 ∧ State.reset.rst.asserted.any (fun e => decide (e.level ≤ max 0 1)) = false ∧ world.minSet = true ∧
      world.serves = false ∧ State.reset.rst.starting = none ∧ world.loadCut = false ∧ levelHeld State.reset 2 = false) ∧
    ((owing 1 (some ⟨false, 0, true⟩)).rst.starting.any (fun r => !r.warm) = true ∧
      (owing 1 (some ⟨true, 0, true⟩)).rst.starting.any (fun r => r.warm) = true ∧ (owing 1 none).rst.retBad = false) ∧
    ((owing 2 none).rst.owed = some 2 ∧ (owing 2 none).rst.asserted.any (fun e => decide (e.level ≤ max 2 1)) = false ∧
      (owing 2 none).rst.retBad = false ∧ (owing 2 none).rst.starting = none) ∧
    (({ world with serves := true } : StartEnv).serves = true ∧ (owing 0 none).rst.asserted.any (fun e => decide (e.level ≤ max 0 1)) = false) ∧
    (({ S0 with rst := { owed := some 0, asserted := [⟨0, 0, 0⟩] } } : State).rst.asserted.any (fun e => decide (e.level ≤ max 0 1)) = true) ∧
    (State.reset.rd R.ID_STATUS.OPT_FAILS < 3 ∧ ({ world with loadCut := true } : StartEnv).loadCut = true) := by decide +kernel

/-- Bridge 3 holds its engines. -/
def holding : State := put [(R.CN_STATUS.HOLD_ACT, 0, 1), (R.CN_STATUS.HOLD_BR, 0, 3)] S0

/-- The hold of bridge 3 ended at tick 7. -/
def lately : State := { S0 with canopy := { lastHold := [(3, 7)] } }

/-- Bridge 0 in SERVICE with its carrier at a period of 20,000 ticks. -/
def loadable : State := put [(R.SH_CARRIER.PER, 0, 20000)] ((formed 1 0).setLeg 0 { per := 20000, perF := 20000 })

theorem met_CanopyCommands :
    (((runs onEngine 2).br 0).placed = some onEngine ∧ cmdReady (.canopyMap H 0) (runs onEngine 2) = true ∧
      cmdReady (.canopyWhere H 0 0) (runs onEngine 2) = true ∧ 0 < onEngine.graph.blocks.length ∧ onEngine.hinge = none) ∧
    ((S0.br 3).placed = none ∧ cmdReady (.canopyMap H 3) S0 = true ∧ cmdReady (.canopyWhere H 3 0) S0 = true) ∧
    (cmdReady (.canopyHold H 3 30) S0 = true ∧ heldBridge S0 3 = false ∧ cmdReady (.canopyHold H 3 1) holding = true ∧
      heldBridge holding 3 = true ∧ cmdReady (.canopyHold H 3 0) holding = true ∧ S0.canopy.lastHold = []) ∧
    ((3, 7) ∈ lately.canopy.lastHold ∧ lately.now < 7 + 4000000000 ∧ cmdReady (.canopyHold H 3 1) lately = true) ∧
    (cmdReady (.sashLoad H 0) loadable = true ∧ modeOf loadable 0 = 1 ∧ (loadable.br 0).placed = none ∧ cfgOk loadable 0 = true ∧
      masterPer loadable 0 ≠ 0 ∧ nextValley (loadable.br 0) ≤ loadable.now + presentPer loadable 0 ∧ modeOf S0 0 ≠ 1 ∧
      cmdReady (.sashLoad H 0) S0 = true ∧
      modeOf (runs onEngine 1) 0 = 1 ∧ cmdReady (.sashLoad H 0) (runs onEngine 1) = true ∧ ((runs onEngine 1).br 0).placed.isSome = true) := by
  decide +kernel

/-- A checkpoint of the ledger, as it is written and as it stands. -/
def ledgerAt (run : Option Checkpoint) (next : List Nat) (at_ : Nat) : State :=
  { keyed S0 with ledger := { run := run, next := next, cpAt := some at_, cpFrom := at_, copies := [⟨1, 0, [], [], true⟩] } }

/-- The header of a LEDGER_RESET of every switch. -/
def lh : Hdr := signer 0x0C05 (le 6 0xFFFFFFFFFFFF) (keyed S0)

theorem met_LedgerCommands :
    (cmdReady (.ledgerRead H 47) S0 = true ∧ cmdReady (.ledgerNfRead H 3) S0 = true) ∧
    (cmdAuth (.ledgerNf (signer 0x0C02 (le 1 3 ++ wordBytes (List.replicate 128 9)) (keyed S0)) 3 (List.replicate 128 9)) .any (keyed S0) = true ∧
      isRunning (keyed S0) 0x0C02 0 = false ∧ isRunning { keyed S0 with host := { (keyed S0).host with running := [⟨0x0C02, 1, 0⟩] } } 0x0C02 0 = true ∧
      (keyed S0).ledger.run = none ∧ (ledgerAt (some ⟨2, 0, [], [], true⟩) [] 0).ledger.run ≠ none) ∧
    (cmdReady (.ledgerSave H) S0 = true ∧ isRunning S0 0x0C04 0 = false ∧
      S0.ledger.cpAt.any (fun t => decide (S0.now < t + 24000000000)) = false ∧ S0.ledger.run = none ∧
      cmdReady (.ledgerSave H) (ledgerAt none [] 0) = true ∧
      (ledgerAt none [] 0).ledger.cpAt.any (fun t => decide ((ledgerAt none [] 0).now < t + 24000000000)) = true) ∧
    (cmdAuth (.ledgerReset lh 0xFFFFFFFFFFFF) .any (keyed S0) = true ∧ (keyed S0).ledger.run = none ∧
      (List.range 48).all (fun k => (bridgeOfLeg (keyed S0) (k / 2)).all (fun b => modeOf (keyed S0) b = 0)) = true) :=
  ⟨by decide +kernel, ⟨cmdAuth_signer _ _ _ _ _ rfl (by decide +kernel) (by decide +kernel) (by decide +kernel), by decide +kernel⟩,
    by decide +kernel, cmdAuth_signer _ _ _ _ _ rfl (by decide +kernel) (by decide +kernel) (by decide +kernel), by decide +kernel⟩

theorem met_LedgerPassesAndCheckpoints :
    ((S0.br 3).placed = none ∧ S0.flag R.CN_STEER.STEER_EN 3 = false ∧ systemUp S0 = true ∧ systemUp State.reset = false) ∧ S0.ledger.run = none ∧
    (validCopies (ledgerAt none [] 0) = [⟨1, 0, [], [], true⟩]) ∧
    (ledgerAt (some ⟨2, 0, [], [], true⟩) [] 0).ledger.run = some ⟨2, 0, [], [], true⟩ ∧
    flashNow (ledgerAt (some ⟨2, 0, [], [], true⟩) [] 0) = some 3 ∧ flashNow S0 ≠ some 3 ∧ (ledgerAt (some ⟨2, 0, [], [], true⟩) [] 0).ledger.next = [] ∧
    (ledgerAt (some ⟨2, 0, [], [], true⟩) [4, 2] 0).ledger.next = 4 :: [2] := by decide +kernel

/-- The same with the carrier of its bridge at a period of 20,000 ticks, the second valley just past; `q` is its placed graph. -/
def beating (q : Placed) (m : Nat) : State :=
  let s := runs q m
  (s.setLeg 0 { s.leg 0 with per := 20000, perF := 20000 }).setBr 0 { s.br 0 with valN := 2, vals := [(20000, 20000), (0, 20000)] }

/-- A beat whose blocks have run, and one that an uncorrectable error lets be late. -/
def ranOne : Placed := { onEngine with ranBeat := true, endEdge := 6 }
def lateOne : Placed := { ranOne with evacs := [⟨1, 0, false, true, 3, none⟩] }

/-- Every word of a signal board as after reset has even parity. -/
theorem wordsSound_reset (s : State) (l : List Nat) (h : s.board = []) : wordsSound s l = true := by
  have hp : ∀ i, parityOk (boardReset i) = true := by
    intro i
    unfold boardReset
    repeat' split
    all_goals decide
  simp [wordsSound, State.sigWord, h, hp]

theorem met_BeatsRun_words : wordsSound (beating { onEngine with nextEdge := 4 } 2) (List.range 4096) = true :=
  wordsSound_reset _ _ (by decide +kernel)

theorem met_BeatsRun :
    (S0.br 3).placed = none ∧ ((beating { onEngine with nextEdge := 4 } 2).br 0).placed = some { onEngine with nextEdge := 4 } ∧
    (edgeBegun ((beating onEngine 2).br 0) onEngine.nextEdge = false ∧ edgeBegun ((beating onEngine 2).br 0) 4 = true ∧
      stepOf (beating onEngine 2) 0 = 0 ∧
      ((beating onEngine 2).br 0).stepOver = false ∧ ((beating onEngine 2).br 0).failDue = none ∧ onEngine.hinge = none ∧ onEngine.evacs = []) ∧
    (onEngine.ranBeat = false ∧ ({ onEngine with late := true } : Placed).late = true ∧ mayOverrun (beating ranOne 2) 0 ranOne = false) ∧
    (((beating ranOne 2).br 0).placed = some ranOne ∧ ranOne.ranBeat = true ∧ wordsSound (beating ranOne 2) (outputReads ranOne.graph) = true ∧
      ranOne.graph.writes.contains (0xF40 + 0) = false ∧ ((beating ranOne 2).sig (0xF40 + 0)).val % 16 = 0 ∧
      ranOne.late = false ∧ ranOne.noDuty = false ∧ mayOverrun (beating ranOne 2) 0 ranOne = false ∧ modeOf (beating ranOne 2) 0 ≠ 4) ∧
    (mayOverrun (beating lateOne 2) 0 lateOne = true ∧ lateOne.ranBeat = true ∧ lateOne.late = false ∧ lateOne.overrun = false ∧
      (beating lateOne 2).now ≤ lastStrobe (beating lateOne 2) 0 lateOne ∧
      lastStrobe { beating lateOne 2 with now := 40000 } 0 lateOne < ({ beating lateOne 2 with now := 40000 } : State).now ∧
      modeOf (beating { lateOne with overrun := true } 2) 0 ≠ 0 ∧
      mayOverrun (beating { lateOne with overrun := true } 2) 0 { lateOne with overrun := true } = true) ∧
    (isConst 0x1C0 = false ∧ isReservedSig 0x1C0 = false ∧ isConst 0xF00 = false ∧ isReservedSig 0xF00 = false ∧
      writerPeriod S0 0x1C0 = some 400000 ∧ writerPeriod S0 0xF00 = none) ∧
    (pairOwner S0 7 = none ∧ bridgeOfLeg S0 23 = none ∧ graphRuns S0 0 = false ∧ encOwner (owner {} {}) 2 = some 3 ∧
      graphRuns (owner {} {}) 3 = false) := by decide +kernel

/-- Engine 1 fallow and ready, engine 2 in a state. -/
def rotary (st : Nat) (p : Option Placed) : State :=
  put [(R.CN_STATUS.NO_FALLOW, 0, 0), (R.CN_STATUS.FALLOW, 0, 1), (R.EN_STATUS.STATE, 1, 3), (R.EN_STATUS.STATE, 2, st), (R.EN_STATUS.OWNER, 2, 0)]
    ((formed 2 0).setBr 0 { placed := p })

/-- Engine 2 with its self-test of a warm start, and with an error of record 0 found. -/
def testing : State := { rotary 0 none with canopy := { engines := [(2, { testing := true })] } }
def erring (st : Nat) : State := rotary st (some { onEngine with evacs := [⟨2, 0, false, false, 3, none⟩] })

theorem met_EnginesRotateAndFail :
    ((S0.raise R.CN_STATUS.NO_FALLOW).flag R.CN_STATUS.NO_FALLOW = true ∧ controlUp (owing 2 none) = false) ∧
    ((put [(R.EN_STATUS.STATE, 1, 2)] (rotary 0 none)).flag R.CN_STATUS.NO_FALLOW = false ∧
      controlUp (put [(R.EN_STATUS.STATE, 1, 2)] (rotary 0 none)) = true ∧ hasFallow (put [(R.EN_STATUS.STATE, 1, 2)] (rotary 0 none)) = true ∧
      fallowReady (put [(R.EN_STATUS.STATE, 1, 2)] (rotary 0 none)) = false) ∧
    ((rotary 0 none).rd R.CN_STATUS.FALLOW = 1 ∧ fallowReady (rotary 0 none) = true ∧ rotationEngine (rotary 0 none) 1 = some 2 ∧
      controlUp (rotary 0 none) = true ∧ (rotary 0 none).rd R.EN_STATUS.STATE 2 = 0) ∧
    (rotationEngine (rotary 1 (some onEngine)) 1 = some 2 ∧ (rotary 1 (some onEngine)).rd R.EN_STATUS.STATE 2 = 1 ∧
      ((rotary 1 (some onEngine)).br ((rotary 1 (some onEngine)).rd R.EN_STATUS.OWNER 2)).placed = some onEngine ∧
      fallowReady (rotary 1 (some onEngine)) = true ∧ onEngine.hinge = none ∧
      rotationEngine (rotary 1 (some { onEngine with hinge := some ⟨1, none, [], [], []⟩ })) 1 = some 2 ∧
      fallowReady (rotary 1 (some { onEngine with hinge := some ⟨1, none, [], [], []⟩ })) = true) ∧
    ((rotary 2 none).rd R.EN_STATUS.STATE 2 = 2 ∧ ((rotary 2 none).eng 2).testing = false ∧ (rotary 2 none).canopy.rotWait = false ∧
      (rotary 0 none).rd R.EN_STATUS.STATE 15 ≠ 2 ∧ claimed (rotary 2 none) 2 = false ∧
      claimed (rotary 2 (some { onEngine with evacs := [⟨1, 0, false, true, 3, some 2⟩] })) 2 = true ∧
      (put [(R.CN_STATUS.FALLOW, 0, 2)] (rotary 2 none)).rd R.CN_STATUS.FALLOW = 2) ∧
    ((testing.eng 2).testing = true ∧ testing.flag R.CN_STATUS.NO_FALLOW = false) ∧
    (((erring 1).br ((erring 1).rd R.EN_STATUS.OWNER 2)).placed = some { onEngine with evacs := [⟨2, 0, false, false, 3, none⟩] } ∧
      (erring 1).rd R.EN_STATUS.STATE 2 = 1) ∧
    ((rotary 4 (some { onEngine with hinge := some ⟨1, some 2, [(0, 1, 2)], [], []⟩ })).rd R.EN_STATUS.STATE 2 = 4 ∧ onEngine.evacs = []) := by
  decide +kernel

/-- Leg 23 in pass-through, in SERVICE, as the one leg of bridge 3. -/
def passing : State :=
  put [(R.BR_CFG.KIND, 3, 1), (R.BR_CFG.NPHASE, 3, 1), (R.BR_PHASE.P0_FIRST, 3, 23), (R.BR_STATUS.CFG_OK, 3, 1), (R.IL_CFG.PT_EN, 23, 1),
    (R.IL_CFG.PT_SEL, 23, 3)] (inMode 3 1 0 S0)

theorem met_TimebaseAndPassThrough :
    (255 < 256 ∧ S0.rd R.SH_TB.DL_FAIL = 0 ∧ controlUp S0 = true ∧ controlUp (owing 2 none) = false) ∧
    ((List.range 24).all (fun n => !gatesOverlap passing n) = true ∧ (S0.leg 0).perF = 0) ∧ ptCommands passing 23 = some (false, false) ∧ ptCommands passing 0 = none ∧
    (S0.leg 23).wait = none ∧ ((S0.setLeg 23 { wait := some 9 }).leg 23).wait = some 9 := by decide +kernel

/-- Leg 0 of bridge 0 with its carrier running. -/
def carried (m : Nat) (x : Leg) (l : List (Fld × Nat × Nat)) : State := put l ((formed m 0).setLeg 0 x)

/-- Its pulses on. -/
def pulses (x : Leg) : State := carried 4 x [(R.SH_STATUS.PULSES, 0, 1), (R.SH_STATUS.BOTH_OFF, 0, 0), (R.SH_STATUS.LATCH_OFF, 0, 0)]

/-- The fall-back path of bridge 0 with what waits in it. -/
def fallen (x : Bridge) (l : List (Fld × Nat × Nat)) : State := (carried 1 { per := 20000, perF := 65535 } l).setBr 0 x

/-- The second valley of bridge 0 has begun at tick 20,000. -/
def valleys (s : State) : State := s.setBr 0 { s.br 0 with valN := 2, vals := [(20000, 20000), (0, 20000)] }

theorem met_SashUpdatesPulses :
    (bridgeOfLeg (pulses { perF := 20000 }) 0 = some 0 ∧ nextPoint (pulses { perF := 20000 }) 0 0 = none ∧
      nextPoint (valleys (pulses { perF := 20000, upN := 4 })) 0 0 = some (4, 64 * 20000) ∧
      periodAt ((valleys (pulses { perF := 20000, upN := 4 })).br 0) (64 * 20000) = 20000) ∧
    (((pulses { pend := some (0x2000, 4) }).leg 0).pend = some (0x2000, 4) ∧
      64 * edgeTick (valleys (pulses { pend := some (0x2000, 4) })) 0 4 ≤ 64 * 20000 ∧
      64 * 20000 < 64 * edgeTick (valleys (pulses { pend := some (0x2000, 5) })) 0 5 ∧ ((pulses {}).leg 0).pendT = none ∧
      ((pulses {}).leg 0).refresh = none) ∧
    (true ≠ decide (4 % 2 = 1) ∧ endsBeat (valleys (pulses { pend := some (0x2000, 4) })) 0 0 (64 * 20000) = true ∧
      endsBeat (valleys (pulses { pend := some (0x2000, 5) })) 0 0 (64 * 20000) = false) ∧
    (legRuns (pulses { perF := 65535 }) 0 = true ∧ legRuns (carried 4 { perF := 1 } []) 0 = false ∧
      bridgeOfLeg (carried 4 { perF := 1 } []) 0 = some 0) ∧
    (((pulses { perF := 20000, ton := 640000 }).leg 0).held = none ∧ carryOf (pulses { perF := 20000, ton := 640000 }) 0 = 0 ∧
      ((pulses { perF := 20000, ton := 640000 }).leg 0).gates = {} ∧ ((pulses { perF := 20000, ton := 640000 }).leg 0).edges = [] ∧
      (pulseStarts (sawtooth (pulses { perF := 20000, ton := 640000 }) 0) (updBoth (pulses { perF := 20000, ton := 640000 }) 0) false
        (64 * 20000) none none 640000).all (fun p => !shortPulse (pulses { perF := 20000, ton := 640000 }) 0 (64 * 20000) 640000 p) = true) ∧
    (cfgOk (carried 2 { perF := 1 } []) 0 = true ∧ masterPer (carried 2 { perF := 1 } []) 0 ≠ 0 ∧
      fallbackRuns (carried 2 { perF := 1 } []) 0 = false ∧ ((carried 2 { perF := 1 } []).br 0).sashLoad = false ∧
      (((carried 2 { perF := 1 } []).setBr 0 { strobePer := some (20000, 2) }).br 0).strobePer = some (20000, 2)) ∧
    (fallbackRuns (fallen { fbDuty := [0] } []) 0 = true ∧ ((fallen { fbDuty := [0] } []).br 0).fbDuty = [0] ∧
      (fallen { fbDuty := [0] } []).rd R.FB_DUTY.TAG 0 0 = (fallen { fbDuty := [0] } []).rd R.FB_PER.TAG 0 ∧
      cfgOk (fallen { fbDuty := [0] } []) 0 = true) ∧
    ((fallen { fbDuty := [0] } [(R.FB_PER.TAG, 0, 127), (R.FB_STATUS.SPLIT_AGE, 0, 2)]).rd R.FB_DUTY.TAG 0 0 ≠
      (fallen { fbDuty := [0] } [(R.FB_PER.TAG, 0, 127), (R.FB_STATUS.SPLIT_AGE, 0, 2)]).rd R.FB_PER.TAG 0 ∧
      (fallen { fbDuty := [0] } [(R.FB_PER.TAG, 0, 127), (R.FB_STATUS.SPLIT_AGE, 0, 2)]).rd R.FB_STATUS.SPLIT_AGE 0 < 3) ∧
    (fallbackRuns (fallen { fbPer := true } []) 0 = true ∧ ((fallen { fbPer := true } []).br 0).fbPer = true ∧
      ((fallen { fbPer := true } []).br 0).fbDuty = []) ∧
    (fallbackRuns (fallen { sashLoad := true } []) 0 = true ∧ ((fallen { sashLoad := true } []).br 0).sashLoad = true ∧
      max (fallen { sashLoad := true } []).now (nextValley ((fallen { sashLoad := true } []).br 0)) <
        ({ S0 with host := { S0.host with heldDue := 9000000 } } : State).host.heldDue ∧
      ({ S0 with host := { S0.host with heldMask := 2 ^ (4 + 0), held := some ⟨false, 0x0202, [], [1], [2], 0⟩ } } : State).host.heldMask = 2 ^ (4 + 0)) := by
  decide +kernel

/-- Leg 23 with its pulses on and its high side on, the overcurrent warning of that switch as its first trip source, its window at
a sum. -/
def tripping (sum n : Nat) : State :=
  put [(R.SH_STATUS.PULSES, 23, 1), (R.SH_TRIP.TRIP_DRV, 23, 1), (R.SH_TRIP.TRIP_N, 23, n), (R.SH_STATUS.WIN_SUM, 23, sum), (R.SH_STATUS.BOTH_OFF, 23, 0),
    (R.SH_BOOT.BOOT_EN, 23, 1), (R.DRV_STATUS.OC_ACT, 46, 1), (R.DRV_STATUS.OC_ACT, 47, 1), (R.DRV_STATUS.STATE, 46, 1)]
    (((inMode 3 4 0 passing).setLeg 23 { held := some 5, slots := [sum], gates := { hi := true, lowEnd := some 0 }, upAt := some 2000000000 }).setBr 3
      { ((inMode 3 4 0 passing).br 3) with open_ := true })

/-- The window comparator of the leg's input asserts for the conversion that runs. -/
def windowing : State :=
  put [(R.SH_TRIP.TRIP_AIN_EN, 23, 1), (R.SH_TRIP.TRIP_AIN, 23, 63), (R.CV_CFG.EN, 15, 1), (R.CV_SLOTS0.SLOT0, 15, 7), (R.CV_STATUS.STATE, 15, 1),
    (R.CV_CFG.TRIG_LEG, 15, 0xFF)] ((tripping 0 2).setConv 15 { slot := some 0 })

/-- Both gates of the leg have been on for longer than 40 ns. -/
def overlapping : State := { put [(R.DRV_STATUS.GATE, 46, 1), (R.DRV_STATUS.GATE, 47, 1)] (tripping 0 2) with now := 17 }

/-- The same with its high side tripped in this period and due to turn on again at tick 5. -/
def tripped : State :=
  let s := tripping 0 2
  s.setLeg 23 { s.leg 23 with gates := {}, edges := [⟨true, true, 320⟩], trips := [⟨true, 0, legPeriod s 3 23⟩] }

theorem met_TripsAndRefresh :
    (bridgeOfLeg S0 0 = none ∧ tripEnabled (tripping 0 2) 23 2 = false ∧ windowDue (tripping 0 2) 23 = none) ∧
    (bridgeOfLeg windowing 23 = some 3 ∧ (windowDue windowing 23).isSome = true) ∧
    (bridgeOfLeg overlapping 23 = some 3 ∧ tripEnabled overlapping 23 0 = true ∧ gatesOverlap overlapping 23 = true) ∧
    gatesOverlap (tripping 0 2) 23 = false ∧
    (legRuns (tripping 0 2) 23 = true ∧ tripEnabled (tripping 0 2) 23 0 = true ∧ tripEnabled (tripping 0 2) 23 1 = true ∧
      (gatesAt ((tripping 0 2).leg 23) (tripping 0 2).now).hi = true ∧
      (tripping 0 2).rd R.SH_STATUS.WIN_SUM 23 + 1 < 2 ^ R.SH_STATUS.WIN_SUM.width ∧
      (tripping 0 2).rd R.SH_STATUS.WIN_SUM 23 + 1 < (tripping 0 2).rd R.SH_TRIP.TRIP_N 23) ∧
    (legRuns tripped 23 = true ∧ tripEnabled tripped 23 0 = true ∧ (gatesAt (tripped.leg 23) tripped.now).hi = false ∧
      (gatesAt (tripped.leg 23) tripped.now).lo = false ∧ blockedTurnOn tripped 3 23 0 = some ⟨true, true, 320⟩ ∧
      blockedTurnOn tripped 3 23 1 = none) ∧
    ((tripping 1 2).rd R.SH_TRIP.TRIP_N 23 ≤ (tripping 1 2).rd R.SH_STATUS.WIN_SUM 23 + 1 ∧ bridgeOfLeg (tripping 1 2) 23 = some 3 ∧
      modeOf (tripping 1 2) 3 ≠ 0 ∧ (tripping 1 2).rd R.SH_STATUS.WIN_SUM 23 = ((tripping 1 2).leg 23).slots.foldl (· + ·) 0) ∧
    (((tripping 0 2).leg 23).upAt = some 2000000000 ∧ refreshDue (tripping 0 2) 23 2000000000 = true ∧
      ((tripping 0 2).leg 23).refresh = none ∧ (tripping 0 2).flag R.DRV_STATUS.UV_POS (2 * 23) = false ∧
      (((tripping 0 2).setLeg 23 { refresh := some 640 }).leg 23).refresh = some 640 ∧
      ((tripping 0 2).raise R.DRV_STATUS.UV_POS (2 * 23)).flag R.DRV_STATUS.UV_POS (2 * 23) = true) := by decide +kernel

/-- The die of switch 47 in a state with its gate on and supply armed. -/
def died (st : Nat) (x : Die) (l : List (Fld × Nat × Nat)) : State :=
  put ([(R.DRV_STATUS.STATE, 47, st), (R.DRV_STATUS.GATE, 47, 1)] ++ l) ((tripping 0 2).setDie 47 x)

theorem met_DieFaults :
    (dieState (died 1 {} []) 47 = 1 ∧ (died 1 {} []).flag R.DRV_STATUS.UV_POS 47 = false ∧ (died 1 {} []).flag R.DRV_STATUS.UV_NEG 47 = false ∧
      ((died 1 {} []).die 47).soft = false ∧ ((died 1 {} []).die 47).scSeen = false ∧ gateDiffers (died 1 {} []) 47 = true ∧
      gateDiffers (died 1 {} [(R.DRV_STATUS.GATE, 47, 0)]) 47 = false ∧ supplyArmed (died 1 {} [(R.DRV_CFG.BOOT_SUP, 47, 0)]) 47 = true ∧
      (died 1 {} []).flag R.DRV_STATUS.GATE 47 = true ∧ (died 1 {} [(R.DRV_SUP.VNEG_UV, 47, 1)]).rd R.DRV_SUP.VNEG_UV 47 ≠ 0) ∧
    (bridgeOfLeg (died 1 {} []) (47 / 2) = some 3 ∧ modeOf (died 1 {} []) 3 ≠ 0 ∧ bridgeOfLeg S0 0 = none) ∧
    (justFaulted (died 1 {} []) 47 = false ∧ gatesOverlap (died 1 {} []) (47 / 2) = false ∧ justFaulted (died 2 {} []) 47 = true) ∧
    (((died 2 { soft := true } []).die 47).soft = true ∧ (died 2 { soft := true } []).flag R.DRV_STATUS.GATE (4 * (47 / 2) + 1 - 47) = false) ∧
    (diePresent (died 1 {} []) 47 = true ∧ (died 1 {} [(R.DRV_STATUS.OC_ACT, 47, 0)]).flag R.DRV_STATUS.OC_ACT 47 = false ∧
      (died 1 {} []).flag R.DRV_STATUS.OC_ACT 47 = true ∧ scAbove (died 1 {} []) 47 = false ∧ uvSince (died 1 {} []) 47 true = none ∧
      uvSince (died 1 { uvNeg := some 4 } []) 47 true = some 4 ∧
      supplyArmed (died 1 {} [(R.DRV_STATUS.GATE, 47, 0), (R.DRV_CFG.BOOT_SUP, 47, 0)]) 47 = true ∧
      supplyArmed (died 1 {} [(R.SH_STATUS.PULSES, 23, 0), (R.DRV_SUP.VNEG_UV, 47, 1)]) 47 = false) ∧
    dieState S0 47 = 0 := by decide +kernel

/-- Leg 23's low side is commanded on and its die lets it turn on. -/
def commanded (l : List (Fld × Nat × Nat)) : State :=
  put ([(R.DRV_STATUS.STATE, 47, 1)] ++ l) ((tripping 0 2).setLeg 23 { gates := { lo := true } })

theorem met_DieReports :
    (diePresent (died 1 {} []) 47 = true ∧ bridgeOfLeg (died 1 {} []) (47 / 2) = some 3 ∧ (!((died 1 {} []).br 3).open_) = false) ∧
    ((died 1 {} [(R.DRV_STATUS.GATE, 46, 1)]).flag R.DRV_STATUS.GATE (2 * (47 / 2)) = true ∧
      (died 1 {} [(R.DRV_STATUS.GATE, 46, 1)]).flag R.DRV_STATUS.GATE (2 * (47 / 2) + 1) = true ∧
      ((died 1 {} []).leg (47 / 2)).xchk = false ∧
      max ((died 1 {} []).die (2 * (47 / 2))).onAt ((died 1 {} []).die (2 * (47 / 2) + 1)).onAt + 16 < ({ died 1 {} [] with now := 17 } : State).now ∧
      (died 1 {} []).flag R.DRV_STATUS.GATE (2 * (47 / 2)) = false) ∧
    (((died 1 { shtBad := 2 } []).die 47).shtBad = 2 ∧ true = ((died 1 { shtBad := 2 } []).br 3).open_) ∧
    (gateCommand (died 1 {} []) 47 = false ∧ gateCommand (commanded []) 47 = true ∧ supplyLow (commanded []) 47 = false ∧
      gateCommand (commanded [(R.DRV_STATUS.UV_POS, 47, 1)]) 47 = true ∧ supplyLow (commanded [(R.DRV_STATUS.UV_POS, 47, 1)]) 47 = true) ∧
    (graphRuns (died 1 {} []) 3 = false ∧ bridgeOfLeg (formed 2 0) 0 = some 0 ∧ graphRuns (runs onEngine 2) 0 = true ∧
      ntcTemp S0 47 .openCircuit = none) := by
  decide +kernel

/-- A resistance that the die's table puts at 25 °C is a zone temperature in range. -/
theorem met_ntcTemp (b r25 : Nat) (hb : S0.rd R.DRV_NTC.NTC_B 47 = b) (hr : S0.rd R.DRV_NTC.NTC_R25 47 = r25)
    (h : Config.ntcTemp b r25 10000 = 25) : ntcTemp S0 47 (.ohms 10000) = some 25 := by
  simp only [ntcTemp, hb, hr, h]; exact if_pos ⟨by decide +kernel, by decide +kernel⟩

/-- Converter 15 sequenced on the first channel and the check slot, free-running trigger, converter 14 live. -/
def sampling (x : Conv) (l : List (Fld × Nat × Nat)) : State :=
  put ([(R.CV_CFG.EN, 15, 1), (R.CV_CFG.EN, 14, 1), (R.CV_CFG.MODE, 15, 0), (R.CV_CFG.TRIG_LEG, 15, 0xFF), (R.CV_SLOTS0.SLOT0, 15, 7),
    (R.CV_SLOTS0.SLOT1, 15, 0x20), (R.TW_CFG.CHK_WIN, 7, 100), (R.CV_STATUS.STATE, 15, 1), (R.CV_STATUS.STATE, 14, 1)] ++ l) ((S0.setConv 15 x).setConv 14 { chk := some (52, 7) })

theorem met_ConversionsRun :
    (convLive (sampling {} []) 15 = true ∧ isContinuous (sampling {} []) 15 = false ∧ triggerTick (sampling {} []) 15 = some 0 ∧
      triggerTick (sampling {} [(R.CV_CFG.TRIG_LEG, 15, 0)]) 15 = none ∧
      slotList (sampling {} []) 15 ≠ [] ∧ listRuns (sampling {} []) 15 = false ∧ listRuns (sampling { slot := some 1 } []) 15 = true) ∧
    (isContinuous (sampling {} [(R.CV_CFG.MODE, 15, 1)]) 15 = true ∧ convLive (sampling {} [(R.CV_CFG.MODE, 15, 1)]) 15 = true ∧ convLive S0 0 = false ∧
      controlUp (sampling {} [(R.CV_CFG.MODE, 15, 1)]) = true) ∧
    (((sampling { slot := some 0 } []).conv 15).slot = some 0 ∧ (slotList (sampling { slot := some 0 } []) 15)[0]? = some 7 ∧
      higherWrote (sampling { slot := some 0 } []) 15 7 2 = none ∧
      higherWrote ((sampling {} []).setConv 15 { last := some (2, 7, true) }) 14 7 2 = some true) ∧
    (((sampling { slot := some 1 } []).conv 15).slot = some 1 ∧ (slotList (sampling { slot := some 1 } []) 15)[1]? = some 0x20 ∧
      ((sampling { slot := some 1 } []).conv (2 * (15 / 2) + (1 - 15 % 2))).chk = some (52, 7) ∧
      convLive (sampling { slot := some 1 } []) (2 * (15 / 2) + (1 - 15 % 2)) = true ∧
      max (((sampling { slot := some 1 } []).conv 15).trig + 2 + 1 * tConv (sampling { slot := some 1 } []) 15) 52 -
        min (((sampling { slot := some 1 } []).conv 15).trig + 2 + 1 * tConv (sampling { slot := some 1 } []) 15) 52 ≤
          (sampling { slot := some 1 } []).rd R.TW_CFG.CHK_WIN (15 / 2)) := by decide +kernel

/-- An average runs on input 63; a store of it runs. -/
def averaging (r : CalRun) : State := { S0 with cal := { runs := [(63, r)] } }
def storing (l : List Nat) : State := { S0 with cal := { store := some l } }

/-- Input 63 has a candidate. -/
def candidates : State := keyed (put [(R.IN_STATUS.CAND_OFS, 63, 1)] S0)

theorem met_CalibrationRuns :
    (ownerWorks (sampling {} []) 63 = false ∧ calRun (sampling {} []) 63 = none ∧ (sampling {} []).cal.store = none ∧
      (inputConvs (sampling {} []) 63).any (fun c => convLive (sampling {} []) c && !isContinuous (sampling {} []) c) = true ∧
      cmdReady (.calZero H 63 16) (sampling {} []) = true ∧ cmdReady (.calFull H 63 4 65535) (sampling {} []) = true) ∧
    (calRun (averaging { full := none, n := 16, start := 0 }) 63 = some { full := none, n := 16, start := 0 } ∧
      calCheck (averaging { full := none, n := 16, got := 16, start := 0 }) 63 { full := none, n := 16, got := 16, start := 0 } = 0 ∧
      calCheck (averaging { full := none, n := 16, start := 0, clip := true }) 63 { full := none, n := 16, start := 0, clip := true } ≠ 0) ∧
    (cmdAuth (.calStore (signer 0x0603 (le 8 (2 ^ 63)) candidates) (2 ^ 63)) .any candidates = true ∧ maskBits 64 (2 ^ 63) = [63] ∧
      hasCandidate candidates 63 = true ∧ ownerWorks candidates 63 = false ∧ candidates.cal.store = none ∧ candidates.cal.runs = []) ∧
    ((storing [0, 63]).cal.store = some [0, 63] ∧ flashNow (storing [0, 63]) = some 2 ∧ flashNow S0 ≠ some 2) ∧ cmdReady (.calDiscard H (2 ^ 64 - 1)) S0 = true ∧ cmdReady (.calRead H 63) S0 = true :=
  ⟨by decide +kernel, by decide +kernel,
    ⟨cmdAuth_signer _ _ _ _ _ rfl (by decide +kernel) (by decide +kernel) (by decide +kernel), by decide +kernel⟩, by decide +kernel, by decide +kernel,
    by decide +kernel⟩

/-- Capture unit 7 with four rows of one word, source 9 enabled, in a state; the panes of DRAM are there. -/
def capturing (st : Nat) (x : Unit_) (r : List Rec_) (l : List (Fld × Nat × Nat)) : State :=
  let s := put ([(R.CAP_STATUS.STATE, 7, st), (R.CAP_CFG.MODE, 7, 1), (R.CAP_ROWS.ROWS, 7, 4), (R.CAP_PRE.PRE, 7, 0),
    (R.CAP_TRIG.SRC_EN, 7, 0x200)] ++ l) S0
  { s with capture := { units := [(7, x)], records := r } }

/-- A record of unit 7 that is held. -/
def heldRec : Rec_ := ⟨7, 3, false, [1, 2, 3], []⟩

theorem met_CaptureCommandsAct :
    (cmdReady (.capArm H 7) (capturing 0 {} [] []) = true ∧ capArmUnit (capturing 0 {} [] []) 7 = true ∧
      (capMembers (capturing 0 {} [] []) 7).all (fun m => decide (capState (capturing 0 {} [] []) m = 0) && capCfgOk (capturing 0 {} [] []) m &&
        capSourceOk (capturing 0 {} [] []) m) = true ∧
      panesNeeded (capturing 0 {} [] []) (capMembers (capturing 0 {} [] []) 7) ≤ takeable (capturing 0 {} [] []) ∧
      islandsHeld (capturing 0 {} [] []) = false) ∧
    (capState (capturing 2 {} [] []) 7 ≠ 0 ∧ capArmUnit (capturing 2 {} [] []) 7 = true) ∧
    (cmdReady (.capDisarm H 7) (capturing 2 {} [] []) = true ∧ (capturing 2 {} [] []).flag R.CAP_CFG.GROUP 7 = false) ∧
    (cmdReady (.capForce H 7) (capturing 2 {} [] []) = true ∧ bitAt ((capturing 2 {} [] []).rd R.CAP_TRIG.SRC_EN 7) 9 = true ∧
      (capturing 2 {} [] []).capture.due = [] ∧ readyAt (capturing 2 {} [] []) 7 ≤ (capturing 2 {} [] []).now ∧
      capState (capturing 1 {} [] []) 7 = 1 ∧ bitAt ((capturing 2 {} [] [(R.CAP_TRIG.SRC_EN, 7, 1)]).rd R.CAP_TRIG.SRC_EN 7) 9 = false) ∧
    (cmdReady (.capList H) (capturing 0 {} [heldRec] []) = true ∧ findRec (capturing 0 {} [heldRec] []) 7 3 = some heldRec ∧
      cmdReady (.capRead H 7 3 2 1) (capturing 0 {} [heldRec] []) = true ∧ cmdReady (.capRelease H 7 3) (capturing 0 {} [heldRec] []) = true ∧
      findRec (capturing 0 {} [heldRec] []) 7 4 = none) := by decide +kernel

/-- A unit that waits for panes while every bank is quarantined. -/
def spoilt : State := capturing 4 {} [] ((List.range 8).map (fun b => (R.CN_DRAM.QUAR, b, 1)))

theorem met_CaptureEventsAct :
    (capMode (capturing 1 {} [] []) 7 = 1 ∧ capState (capturing 1 {} [] []) 7 = 1 ∧ capState (capturing 2 {} [] []) 7 = 2 ∧
      ((capturing 1 {} [] []).unit 7).full = false ∧ ((capturing 1 { full := true } [] []).unit 7).full = true ∧
      wordsSound (capturing 1 {} [] []) (capChans (capturing 1 {} [] []) 7) = true ∧
      wordsSound { capturing 1 {} [] [(R.CAP_CH.CH_EVEN, 7, 5)] with board := [(5, 1)] } (capChans (capturing 1 {} [] [(R.CAP_CH.CH_EVEN, 7, 5)]) 7) = false) ∧
    (capMode (capturing 1 {} [] [(R.CAP_CFG.MODE, 7, 0)]) 7 = 0 ∧ (S0.br ((capturing 1 {} [] []).rd R.CAP_CFG.BR 7)).placed = none ∧
      0 < presentPer ((capturing 1 {} [] [(R.CAP_CFG.MODE, 7, 0)]).setLeg 0 { per := 20000 }) 0 ∧ (capturing 1 {} [] []).rd R.CAP_CFG.BR 7 = 0) ∧
    capState (capturing 0 {} [] []) 7 = 0 ∧
    (({ S0 with capture := { due := [([7], [7], ⟨5, 9, 0, 0, false, none, 0⟩)] } } : State).capture.due.find? (fun d => d.1.contains 7) =
      some ([7], [7], ⟨5, 9, 0, 0, false, none, 0⟩) ∧ S0.capture.due.find? (fun d => d.1.contains 7) = none) ∧
    (takeable spoilt < panesNeeded spoilt (capMembers spoilt 7) ∧ capState spoilt 7 = 4) ∧
    (capState (capturing 4 {} [] []) 7 = 4 ∧
      panesNeeded (capturing 4 {} [] []) (capMembers (capturing 4 {} [] []) 7) ≤ takeable (capturing 4 {} [] [])) ∧
    (S0.flag R.CAP_PIN.DIR 0 3 = false ∧ bitAt S0.capture.pins 3 = !true) ∧
    (bitAt S0.capture.pulsing 3 = false ∧ bitAt ({ S0 with capture := { pulsing := 8 } } : State).capture.pulsing 3 = true) := by
  decide +kernel

/-- Controller 3 in a state, its object 63 enabled for transmission. -/
def canAt (st : Nat) (x : CanCtl) (l : List (Fld × Nat × Nat)) : State :=
  let s := put ([(R.CF_STATUS.STATE, 3, st), (R.CF_MODE.MON, 3, 0)] ++ l) S0
  let s := (s.wr2 R.MO_CFG.EN 3 63 1).wr2 R.MO_CFG.DIR 3 63 1
  { s with cans := [(3, x)] }

theorem met_CanRegisterCommands :
    (cmdReady (.cfgReq H 3) (canAt 0 {} []) = true ∧ canOnBus (canAt 4 {} []) 3 = false ∧ canOnBus (canAt 3 {} []) 3 = true) ∧
    (cmdReady (.txReq H 3 63) (canAt 2 {} []) = true ∧ (canAt 2 {} []).flag R.MO_CFG.EN 3 63 = true ∧ (canAt 2 {} []).flag R.MO_CFG.DIR 3 63 = true ∧
      (canAt 2 {} []).flag R.CF_MODE.MON 3 = false ∧ (canAt 2 {} []).flag R.MO_STAT.TX_PEND 3 63 = false ∧
      ((canAt 2 {} []).wr2 R.MO_STAT.TX_PEND 3 63 1).flag R.MO_STAT.TX_PEND 3 63 = true) ∧
    (cmdReady (.bufIdRead H 3) (canAt 2 {} []) = true ∧ cmdReady (.bufData15Read H 3) (canAt 2 {} []) = true ∧
      cmdReady (.moSelWrite H 3 63) (canAt 2 {} []) = true ∧ ((canAt 2 {} []).can 3).lock = none ∧ ((canAt 2 {} []).obj 3 63).held = none ∧
      ((canAt 2 { lock := some (63, 5) } []).can 3).lock = some (63, 5)) := by decide +kernel

/-- An idle frame that fits any controller with WAKE_ID closed. -/
def frame0 : CanFrame := ⟨false, false, false, false, false, 0x7FF, 8, List.replicate 8 1⟩

theorem met_CanBusCommands :
    (cmdReady (.canBusOn H 3) (canAt 0 {} []) = true ∧ islandsHeld (canAt 0 {} []) = false ∧ isRunning (canAt 0 {} []) 0x0A01 3 = false ∧ canState (canAt 0 {} []) 3 = 0 ∧
      canState (canAt 4 {} []) 3 = 4 ∧ canState (canAt 6 {} []) 3 = 6 ∧ canOnBus (canAt 2 {} []) 3 = true) ∧
    (cmdReady (.canSleep H 3) (canAt 2 {} []) = true ∧ isRunning (canAt 2 {} []) 0x0A03 3 = false ∧ canOnBus (canAt 1 {} []) 3 = false) ∧
    cmdReady (.canStatus H 3) S0 = true ∧
    (cmdReady (.canMap H 3 (le 1 0 ++ le 1 (b2n true) ++ [((62 : Byte), (63 : Byte))].flatMap (fun p => [p.1, p.2]))) S0 = true ∧
      S0.flag R.MO_CFG.DIR 3 0 = false ∧ mappedElsewhere S0 3 0 63 = false ∧ modeOf S0 3 = 0) ∧
    (cmdReady (.canMap H 3 (le 1 0)) S0 = true ∧ busState (canAt 1 {} []) 3 = 2 ∧ busState (canAt 1 {} [(R.CF_STATUS.REC, 3, 130)]) 3 = 3) ∧
    (wakes (canAt 6 {} []) 3 (.dominant 5) = true ∧ canState (canAt 1 {} []) 3 = 1 ∧ canState (canAt 5 {} []) 3 = 5) ∧
    (((canAt 2 { sleepWait := true } []).can 3).sleepWait = true ∧ ((canAt 3 { cfgWait := true } []).can 3).cfgWait = true) := by decide +kernel

/-- Object 0 of controller 3 takes every frame of the base format. -/
def listening : State := (canAt 2 {} []).wr2 R.MO_CFG.EN 3 0 1

/-- Controller 0 is a time slave whose reference messages have identifier 5. -/
def slave : State := put [(R.CF_MODE.TS_EN, 0, 1), (R.CF_REF_ID.REF_ID, 0, 5), (R.CF_REF_ID.REF_IDE, 0, 0)] S0

theorem met_CanTraffic :
    canOnBus (canAt 1 {} []) 3 = false ∧
    (canOnBus listening 3 = true ∧ isReference listening 3 frame0 = false ∧
      (canOn listening && decide (canSel listening = 3) && isCommandFrame listening frame0) = false ∧
      (List.range 64).find? (objMatches listening 3 frame0) = some 0 ∧ listening.flag R.MO_STAT.LOCK 3 0 = false ∧
      (listening.wr2 R.MO_STAT.LOCK 3 0 1).flag R.MO_STAT.LOCK 3 0 = true ∧ (listening.obj 3 0).held = none ∧ holdsUsed listening 3 < 4) ∧
    (List.range 64).find? (objMatches (canAt 2 {} []) 3 frame0) = none ∧
    (offered ((canAt 2 {} []).wr2 R.MO_STAT.TX_PEND 3 63 1) 3 = some 63 ∧ canState (canAt 2 {} []) 3 = 2 ∧
      (canAt 2 {} [(R.CF_MODE.RTRY_INF, 3, 1)]).flag R.CF_MODE.RTRY_INF 3 = true ∧
      (canAt 2 {} [(R.CF_STATUS.TEC, 3, 247)]).rd R.CF_STATUS.TEC 3 + 8 ≤ 255 ∧ 255 < (canAt 3 {} [(R.CF_STATUS.TEC, 3, 248)]).rd R.CF_STATUS.TEC 3 + 8) ∧
    ((canAt 2 {} []).flag R.CF_MODE.MON 3 = false ∧ (canAt 2 {} [(R.CF_MODE.RTRY_LIM, 3, 0), (R.CF_MODE.RTRY_INF, 3, 0)]).flag R.CF_MODE.RTRY_INF 3 = false ∧
      (canAt 2 {} [(R.CF_MODE.RTRY_LIM, 3, 0)]).rd R.CF_MODE.RTRY_LIM 3 ≤ ((canAt 2 {} []).obj 3 63).fails ∧
      ((canAt 3 {} []).can 3).cfgWait = false ∧ (canAt 2 {} [(R.CF_MODE.MON, 3, 1)]).flag R.CF_MODE.MON 3 = true) ∧
    (isReference (onCan slave) 0 (seg [] false) = true ∧ (seg [] false).rtr = false ∧ canOnBus (onCan slave) 0 = true) ∧
    (canOnBus (onCan (busy [] [[1]])) 0 = true ∧ offered (onCan (busy [] [[1]])) 0 = some 64 ∧
      (onCan (busy [] [[1]])).flag R.CF_MODE.MON 0 = false) ∧
    (offered (canAt 2 { refPend := true } [(R.CF_MODE.TM_EN, 3, 1)]) 3 = some 65 ∧ canOnBus (canAt 2 { refPend := true } [(R.CF_MODE.TM_EN, 3, 1)]) 3 = true) ∧
    (canAt 2 {} [(R.CF_MODE.TM_EN, 3, 1)]).flag R.CF_MODE.TM_EN 3 = true := by decide +kernel

/-- The Sill tick of the pulse of output 3. -/
def pulsed : State := { S0 with sill := { ticks := 3 * S0.rd R.SF_TP.TP_PER / 4 } }

theorem met_SafetyInputsJudged :
    (sinFunc (S0.wr2 R.SF_SIN_CFG.FUNC 0 0 1) 0 ≠ 0 ∧ sinDisc S0 0 = false ∧
      sinA (put [(R.SF_INPUTS.SIN, 0, 1)] S0) 0 ≠ sinB (put [(R.SF_INPUTS.SIN, 0, 1)] S0) 0 ∧ sinA S0 8 = sinB S0 8) ∧
    (testsA ((S0.wr2 R.SF_SIN_CFG.TP_EN 0 0 1).wr2 R.SF_SIN_CFG.TPA 0 0 3) 0 3 = true ∧ bitAt 1 0 = true ∧
      (({ S0 with sill := { ins := [(0, { blankA := true })] } } : State).sin 0).blankA = true) ∧
    (pulseTick pulsed 3 = true ∧ (testOut pulsed 3).start = none ∧ pulseTick S0 3 = false ∧
      (testOut (setTestOut 3 ⟨some 7, none⟩ S0) 3).start = some 7) ∧
    (cmdReady (.safetyStatus H) S0 = true ∧ cmdReady (.safetyCode H) S0 = true ∧ cmdReady (.safetyLog H 0) S0 = true ∧ S0.sill.log[0]? = none ∧
      ({ S0 with sill := { log := [[7]] } } : State).sill.log[0]? = some [7]) := by decide +kernel

/-- Bridge 0 in GRID FORMING with its graph, its test interval running. -/
def operating (st : Nat) (p : Option Placed) : State :=
  put [(R.SF_STATUS.CODE_OK, 0, 1)] ((formed 4 st).setBr 0 { opFrom := some 0, placed := p, open_ := true })

/-- Contactor 3 reads closed against its output since tick 0. -/
def welded : State := { S0 with sill := { krb := 8, kons := [(3, ⟨false, some 0⟩)] } }

theorem met_SafetyMonitorsAct :
    (reads S0 3 = konOut S0 3 ∧ (konSeen S0 3).since = none ∧ reads welded 3 ≠ konOut welded 3 ∧ (konSeen welded 3).since = some 0 ∧
      bitAt (welded.rd R.SF_FAULT.KON_FAULT) 3 = false) ∧ systemUp S0 = true ∧
    (((operating 0 (some onEngine)).br 0).opFrom = some 0 ∧ 2 ≤ modeOf (operating 0 (some onEngine)) 0 ∧
      bitAt (operating 0 (some onEngine)).sill.overdue 0 = false ∧ bitAt ((operating 0 (some onEngine)).rd R.SF_STATUS.SS1_ACT) 0 = false ∧
      ((operating 0 (some onEngine)).br 0).ramp = none ∧
      bitAt (stoMask (operating 0 (some onEngine)) ||| scoMask (operating 0 (some onEngine))) 0 = false ∧
      stepOf (operating 0 (some onEngine)) 0 = 0 ∧ stepOf (operating 5 none) 0 ≠ 0) ∧
    (({ S0 with sill := { ins := [(8, { act := some (3, 1, 15, 4) })] } } : State).sin 8).act = some (3, 1, 15, 4) ∧
    S0.flag R.SF_FAULT.OSC_FAULT = false ∧
    (1 % 65536 &&& (put [(R.SF_SEAL.SEAL_MASK, 0, 1)] S0).rd R.SF_SEAL.SEAL_MASK ≠ 0 ∧
      0 % 65536 &&& S0.rd R.SF_SEAL.SEAL_MASK = ({ S0 with sill := { patN := 3 } } : State).sill.pat ∧
      1 % 65536 &&& (put [(R.SF_SEAL.SEAL_MASK, 0, 1)] S0).rd R.SF_SEAL.SEAL_MASK ≠ S0.sill.pat) := by decide +kernel

/-- A stream of one signal every 10 ms on SPI, and stream 7 running. -/
def streamCfg : List Byte := [0, 0] ++ le 2 10 ++ le 2 0x010
def streaming (on_ : Bool) : State := { S0 with bg := { streams := [(7, { set := true, period := 10, sigs := [0x010], on_ := on_ })] } }

theorem met_TelemetryStreams :
    (cmdReady (.tlmCfg H 7 streamCfg) S0 = true ∧ streamOk streamCfg = true ∧ (stream S0 7).on_ = false ∧ (stream (streaming true) 7).on_ = true) ∧
    (cmdReady (.tlmStart H 128) (streaming false) = true ∧ maskBits 8 128 = [7] ∧ (stream (streaming false) 7).set = true ∧
      (stream (streaming false) 7).can = false ∧
      streamLoad (streaming false) ((List.range 8).filter (fun k => (maskBits 8 128).contains k || (stream (streaming false) k).on_)) ≤ 2000) ∧
    (cmdReady (.tlmStop H 255) (streaming true) = true) ∧
    (((streaming true).transport (stream (streaming true) 7).can).rp.length < 4 ∧ wordsSound (streaming true) [0x010] = true ∧
      sampleFirst (streaming true) 7 = true ∧ sampleFirst { streaming true with bg := { streams := (streaming true).bg.streams ++ [(0, { set := true, period := 1, sigs := [5], on_ := true })] } } 7 = false ∧
      wordsSound { streaming true with board := [(0x010, 1)] } (stream { streaming true with board := [(0x010, 1)] } 7).sigs = false) := by decide +kernel

/-- A ring of flash with its place and the bytes before it that are not erased. -/
def ringed (area pos used : Nat) : State := { S0 with bg := { rings := [(area, ⟨pos, used⟩)] } }

theorem met_BackgroundFinds :
    ((usedPanes S0).contains (0x20000 / 0x10000) = false ∧ (usedPanes { S0 with capture := { units := [(7, { panes := [9] })] } }).contains (0x9FFFC / 0x10000) = true ∧
      2 ≤ 0x9FFFC / 0x10000 % 256 ∧ 0x1000000 / 0x10000 % 256 = 0 ∧ 0x1010000 / 0x10000 % 256 = 1 ∧ flashFree S0 = true ∧
      flashFree { S0 with cal := { store := some [] } } = false ∧
      (({ onEngine with hinge := some ⟨1, some 2, [(0, 1, 2)], [(0, 1)], []⟩ } : Placed).engines.getD 0 99 % 8 = 0x1010000 / 0x10000 / 256)) ∧
    (systemUp S0 = true ∧ systemUp State.reset = false ∧ controlUp S0 = true ∧ controlUp (owing 2 none) = false) ∧
    (oldestSector (ringed 0 4 65536) 0 < areaSectors 0 ∧ mayErase (ringed 0 4 65536) 0 = true ∧ flushDue (ringed 0 4 65536) = false ∧
      flashFree (ringed 0 4 65536) = true ∧ mayErase S0 0 = false ∧
      90000 ≤ areaWear { S0 with bg := { wear := [(1024, 90000)] } } 1) ∧
    (S0.bg.patrolNext = 0 ∧ beingWritten S0 0 = false ∧ beingWritten { S0 with graphs := { storing := some (1, 7) } } 3 = true ∧
      ({ S0 with bg := { patrolNext := 3 } } : State).bg.patrolNext = 3) ∧
    (32 * S0.log.buf.length + 64 ≤ ringRoom S0 2 ∧
      ringRoom (ringed 2 0 4194304) 2 < 96 ∧ 4096 ≤ (ring (ringed 2 0 4194304) 2).used ∧ areaWear (ringed 2 0 4194304) 2 < 89999 ∧
      ({ S0 with log := { buf := [⟨0, 0, 1, 0, 0, []⟩] } } : State).log.buf = [⟨0, 0, 1, 0, 0, []⟩]) ∧
    (cmdReady (.logRead H 0) S0 = true ∧ (logHeld S0).find? (fun e => decide (e.seq = 0)) = none ∧
      (logHeld { S0 with log := { buf := [⟨0, 0, 1, 0, 0, []⟩] } }).find? (fun e => decide (e.seq = 0)) = some ⟨0, 0, 1, 0, 0, []⟩) ∧
    (((loaded ramGood S0).br 0).ram.isSome = true ∧ (asgHeld onEngine).any (fun a => decide (a.rcd = 0) && decide (a.eng = 1)) = true) := by
  decide +kernel

/-! ### Well-formedness: one ill-formed term for each check, and every range met at its greatest values -/

/-- A header and a frame in their ranges, and one of each that is not. -/
def h0 : Hdr := ⟨false, 255, some ⟨255, 0xFFFFFFFF, List.replicate 8 0⟩⟩
def hBad : Hdr := ⟨false, 256, none⟩
def f0 : CanFrame := ⟨false, false, true, true, false, 0x7FF, 15, List.replicate 64 0⟩
def fBad : CanFrame := { f0 with id := 0x800 }

theorem test_wf_header : Hdr.wf h0 = true ∧ Hdr.wf hBad = false ∧ Hdr.wf ⟨true, 0, some ⟨256, 0, List.replicate 8 0⟩⟩ = false ∧
    Hdr.wf ⟨true, 0, some ⟨0, 2 ^ 32, List.replicate 8 0⟩⟩ = false ∧ Hdr.wf ⟨true, 0, some ⟨0, 0, List.replicate 7 0⟩⟩ = false ∧
    Hdr.wf ⟨true, 0, some ⟨0, 0, List.replicate 9 0⟩⟩ = false := by decide

theorem test_wf_frame : frameOperand f0 = true ∧ frameOperand fBad = false ∧ frameOperand { f0 with ide := true, id := 2 ^ 29 } = false ∧
    frameOperand { f0 with ide := true, id := 2 ^ 29 - 1 } = true ∧ frameOperand { f0 with dlc := 16 } = false ∧
    frameOperand { f0 with data := List.replicate 65 0 } = false ∧ frameOperand { f0 with fdf := false, data := List.replicate 9 0 } = false := by
  decide

theorem test_wf_refuses_1 : (
    [.ping hBad, .getStatus hBad, .reset hBad 0 0, .reset h0 256 0, .reset h0 0 256, .shutdown hBad, .optionWrite hBad, .fuseProgram hBad 0 0,
      .fuseProgram h0 65536 0, .fuseProgram h0 0 4294967296, .setMode hBad 0 0 0, .setMode h0 256 0 0, .setMode h0 0 256 0, .setMode h0 0 0 256,
      .getMode hBad 0, .getMode h0 256, .sashLoad hBad 0, .sashLoad h0 256, .graphBegin hBad 0, .graphBegin h0 4294967296, .graphData hBad 0 [0],
      .graphData h0 4294967296 [0], .graphData h0 0 (List.replicate 1025 0), .graphCheck hBad, .graphLoad hBad 0 0, .graphLoad h0 256 0,
      .graphLoad h0 0 256, .parameterSwap 4, .graphStore hBad 0, .graphStore h0 256, .graphStart hBad 0, .graphStart h0 256, .graphUnload hBad 0,
      .graphUnload h0 256, .graphInfo hBad 0, .graphInfo h0 256, .graphVerify hBad 0, .graphVerify h0 256, .readWin hBad 0 0, .readWin h0 4294967296 0] : List Instr).all (fun i => !i.wf) = true := by decide +kernel

theorem test_wf_refuses_2 : (
    [.readWin h0 0 65536, .writeWin hBad 0 [0], .writeWin h0 4294967296 [0], .writeWin h0 0 (List.replicate 257 0), .bridgeConfigWrite hBad 0 0 0,
      .bridgeConfigWrite h0 4 0 0, .bridgeConfigWrite h0 0 3 0, .faultClr hBad 0, .faultClr h0 4, .resyncWrite hBad 0 true, .resyncWrite h0 4 true,
      .encoderConfigWrite hBad 0 0, .encoderConfigWrite h0 4 0, .hostSignalWrite hBad 0 [0], .hostSignalWrite h0 4096 [0],
      .hostSignalWrite h0 0 (List.replicate 257 0), .perWrite hBad 0 0, .perWrite h0 24 0, .fallbackWrite hBad 0 0 [0], .fallbackWrite h0 4 0 [0],
      .fallbackWrite h0 0 13 [0], .fallbackWrite h0 0 12 [0, 0], .latchClr hBad 0, .latchClr h0 24, .xchkTripClear hBad 0, .xchkTripClear h0 24,
      .louvreWrite hBad 0 0, .louvreWrite h0 48 0, .drvClr hBad 0, .drvClr h0 48, .twClr hBad 0, .twClr h0 8, .steerWrite hBad 0 0 0,
      .steerWrite h0 4 0 0, .safetyConfigWrite hBad 0x800000 [0], .safetyConfigWrite h0 8388604 [0], .safetyConfigWrite h0 9437184 [0],
      .safetyConfigWrite h0 0x800000 (List.replicate 257 0), .vangatCanConfigWrite hBad 0 0, .vangatCanConfigWrite h0 3 0] : List Instr).all (fun i => !i.wf) = true := by decide +kernel

theorem test_wf_refuses_3 : (
    [.captureConfigWrite hBad 0 0 [0], .captureConfigWrite h0 8 0 [0], .captureConfigWrite h0 0 2 [0], .captureConfigWrite h0 0 256 [0],
      .captureConfigWrite h0 0 0 (List.replicate 65 0), .cfgReq hBad 0, .cfgReq h0 4, .canConfigEnter 4, .txReq hBad 0 0, .txReq h0 4 0,
      .txReq h0 0 64, .bufIdRead hBad 0, .bufIdRead h0 4, .bufData15Read hBad 0, .bufData15Read h0 4, .moSelWrite hBad 0 0, .moSelWrite h0 4 0,
      .moSelWrite h0 0 64, .lockTimeout 4, .retrain hBad, .capArm hBad 0, .capArm h0 256, .capDisarm hBad 0, .capDisarm h0 256, .capForce hBad 0,
      .capForce h0 256, .capList hBad, .capRead hBad 0 0 0 0, .capRead h0 256 0 0 0, .capRead h0 0 4294967296 0 0, .capRead h0 0 0 4294967296 0,
      .capRead h0 0 0 0 65536, .capRelease hBad 0 0, .capRelease h0 256 0, .capRelease h0 0 4294967296, .calZero hBad 0 0, .calZero h0 256 0,
      .calZero h0 0 256, .calFull hBad 0 0 0, .calFull h0 256 0 0] : List Instr).all (fun i => !i.wf) = true := by decide +kernel

theorem test_wf_refuses_4 : (
    [.calFull h0 0 256 0, .calFull h0 0 0 65536, .calAverageEnd 64, .calStore hBad 0, .calStore h0 18446744073709551616, .calDiscard hBad 0,
      .calDiscard h0 18446744073709551616, .calRead hBad 0, .calRead h0 256, .safetyStatus hBad, .safetyCode hBad, .safetyLog hBad 0,
      .safetyLog h0 65536, .getCounter hBad 0, .getCounter h0 256, .counterResync hBad 0 0, .counterResync h0 256 0, .counterResync h0 0 4294967296,
      .keyLoad hBad 0 [0], .keyLoad h0 256 [0], .keyLoad h0 0 (List.replicate 161 0), .keyRevoke hBad 0, .keyRevoke h0 256, .keyInfo hBad 0,
      .keyInfo h0 256, .fwBegin hBad 0, .fwBegin h0 4294967296, .fwData hBad 0 [0], .fwData h0 4294967296 [0], .fwData h0 0 (List.replicate 1025 0),
      .fwCommit hBad, .fwInfo hBad, .trngRead hBad 0, .trngRead h0 256, .tlmCfg hBad 0 [0], .tlmCfg h0 256 [0], .tlmCfg h0 0 (List.replicate 65 0),
      .tlmStart hBad 0, .tlmStart h0 256, .tlmStop hBad 0] : List Instr).all (fun i => !i.wf) = true := by decide +kernel

theorem test_wf_refuses_5 : (
    [.tlmStop h0 256, .logRead hBad 0, .logRead h0 4294967296, .canBusOn hBad 0, .canBusOn h0 256, .canMap hBad 0 [0], .canMap h0 256 [0],
      .canMap h0 0 (List.replicate 33 0), .canSleep hBad 0, .canSleep h0 256, .canSleepEnter 4, .canStatus hBad 0, .canStatus h0 256,
      .canopyMap hBad 0, .canopyMap h0 256, .canopyWhere hBad 0 0, .canopyWhere h0 256 0, .canopyWhere h0 0 65536, .canopyHold hBad 0 0,
      .canopyHold h0 256 0, .canopyHold h0 0 256, .ledgerRead hBad 0, .ledgerRead h0 256, .ledgerNf hBad 0 [0], .ledgerNf h0 256 [0],
      .ledgerNf h0 0 (List.replicate 129 0), .ledgerNfRead hBad 0, .ledgerNfRead h0 256, .ledgerSave hBad, .ledgerReset hBad 0,
      .ledgerReset h0 281474976710656, .canSegmentReceive fBad, .resetRelease 26, .bridgeReset 4, .beatInputPoint 4 ⟨none, 0, []⟩, .beatInputPoint 0 ⟨some 4096, 0, []⟩, .beatInputPoint 0 ⟨none, 256, []⟩, .beatInputPoint 0 ⟨none, 0, [4096]⟩, .beatOutputPoint 4,
      .beatOverrun 4, .signalAgeing 4096, .stepAdvance 4, .busCheckWaitExpiry 4] : List Instr).all (fun i => !i.wf) = true := by decide +kernel

theorem test_wf_refuses_6 : (
    [.konWaitExpiry 4, .holdTimerExpiry 4, .blackstartTimeout 4, .syncTimeout 4, .rampEnd 4, .ss1SillTimeout 4, .scoContactorForce 9, .bistDone 16 0,
      .bistDone 0 4, .engineUncorrectableError 16 ⟨0, true⟩, .engineUncorrectableError 0 ⟨65536, true⟩, .switchEdgeMeasurement 0 ⟨true, true, 16384⟩, .updatePoint 24 false false, .masterValley 4,
      .tripWindowExpire 24, .bootstrapRefresh 24, .cycleTrip 24 0, .cycleTrip 0 12, .converterTrigger 16, .conversionResult 16 ⟨0, 0⟩,
      .conversionResult 0 ⟨65536, 0⟩, .conversionResult 0 ⟨0, 256⟩, .autozero 16, .passThroughEdge 8 true, .conflictResume 24, .dieStatusFrame 48 ⟨true, true, false, false⟩, .dieLinkLost 48,
      .dieCommandTimeout 48, .stuckGate 48, .switchEdgeMeasurement 48 ⟨true, true, 0⟩, .shortCircuit 48, .softTurnOffEnd 48, .overcurrentWarning 48,
      .supplyUndervoltage 48 true, .dieOverTemperature 48, .ntcWrite 48 .shorted, .encoderEdge 4 0 0, .encoderEdge 0 8 0, .pulseInputEdge 4 true 0,
      .captureRow 8 true, .paneWaitRearm 8, .captureFire 8] : List Instr).all (fun i => !i.wf) = true := by decide +kernel

theorem test_wf_refuses_7 : (
    [.trigPinInput 4 true 0, .trigOutputPulseEnd 4, .frameReceive 4 f0, .frameReceive 0 fBad, .frameTransmit 4 0 .sent, .frameTransmit 0 66 .sent,
      .integrationDone 4, .busOffRecoveryDone 4, .referenceMessageDue 4, .canWake 4 (.dominant 0), .safetyInputSample 262144, .testPulse 4,
      .testPulseBlankEnd 4 0, .testPulseBlankEnd 0 262144, .contactorReadbackAccept 4 true, .konFault 4, .testDue 4, .testOverdueSs1 4,
      .sealSwitchRead 65536 0, .sealSwitchRead 0 65536, .syncSymbolReceive ⟨256, 0, 0, true⟩, .syncSymbolReceive ⟨0, 1048576, 0, true⟩,
      .syncSymbolReceive ⟨0, 0, 64, true⟩, .timeSymbolReceive ⟨256, 0, 0, true⟩, .timeSymbolReceive ⟨0, 256, 0, true⟩,
      .timeSymbolReceive ⟨0, 0, 281474976710656, true⟩, .triggerSymbolReceive ⟨4, 0, 0, 0, true⟩, .triggerSymbolReceive ⟨0, 16, 0, 0, true⟩,
      .triggerSymbolReceive ⟨0, 0, 1048576, 0, true⟩, .triggerSymbolReceive ⟨0, 0, 0, 64, true⟩, .train ⟨16, true, 0, 0, true⟩,
      .train ⟨0, true, 65536, 0, true⟩, .train ⟨0, true, 0, 256, true⟩, .trainReply ⟨256, 0, true⟩, .transomSend 28, .transomDrain 28,
      .creditReturn 28, .eraseAhead 4 0, .eraseAhead 0 1024, .flashPatrol 8 true,
      .sramScrub (.engine 16), .sramScrub (.imageDiffers 4), .sramScrub (.copyDiffers 16 0), .sramScrub (.copyDiffers 0 4096)] : List Instr).all (fun i => !i.wf) = true := by decide +kernel

theorem test_wf_refuses_8 : (
    [.tlmSample 8, .zoneSupplyRecovery 48 true, .canReceiveError 4 ⟨3, 0⟩] : List Instr).all (fun i => !i.wf) = true := by decide +kernel

theorem test_wf_accepts_1 : (
    [.ping h0, .getStatus h0, .reset h0 255 255, .shutdown h0, .optionWrite h0, .fuseProgram h0 65535 4294967295, .setMode h0 255 255 255,
      .getMode h0 255, .sashLoad h0 255, .graphBegin h0 4294967295, .graphData h0 4294967295 (List.replicate 1024 0), .graphCheck h0,
      .graphLoad h0 255 255, .parameterSwap 3, .graphStore h0 255, .graphStart h0 255, .graphUnload h0 255, .graphInfo h0 255, .graphVerify h0 255,
      .readWin h0 4294967295 65535, .writeWin h0 4294967295 (List.replicate 256 0), .bridgeConfigWrite h0 3 2 0, .faultClr h0 3,
      .resyncWrite h0 3 true, .encoderConfigWrite h0 3 0, .hostSignalWrite h0 4095 (List.replicate 256 0), .perWrite h0 23 0,
      .fallbackWrite h0 3 12 [0], .latchClr h0 23, .xchkTripClear h0 23, .louvreWrite h0 47 0, .drvClr h0 47, .twClr h0 7, .steerWrite h0 3 0 0,
      .safetyConfigWrite h0 9437180 (List.replicate 256 0), .vangatCanConfigWrite h0 2 0, .captureConfigWrite h0 7 252 (List.replicate 64 0),
      .cfgReq h0 3, .canConfigEnter 3, .txReq h0 3 63] : List Instr).all Instr.wf = true := by decide +kernel

theorem test_wf_accepts_2 : (
    [.bufIdRead h0 3, .bufData15Read h0 3, .moSelWrite h0 3 63, .lockTimeout 3, .retrain h0, .capArm h0 255, .capDisarm h0 255, .capForce h0 255,
      .capList h0, .capRead h0 255 4294967295 4294967295 65535, .capRelease h0 255 4294967295, .calZero h0 255 255, .calFull h0 255 255 65535,
      .calAverageEnd 63, .calStore h0 18446744073709551615, .calDiscard h0 18446744073709551615, .calRead h0 255, .safetyStatus h0, .safetyCode h0,
      .safetyLog h0 65535, .getCounter h0 255, .counterResync h0 255 4294967295, .keyLoad h0 255 (List.replicate 160 0), .keyRevoke h0 255,
      .keyInfo h0 255, .fwBegin h0 4294967295, .fwData h0 4294967295 (List.replicate 1024 0), .fwCommit h0, .fwInfo h0, .trngRead h0 255,
      .tlmCfg h0 255 (List.replicate 64 0), .tlmStart h0 255, .tlmStop h0 255, .logRead h0 4294967295, .canBusOn h0 255,
      .canMap h0 255 (List.replicate 32 0), .canSleep h0 255, .canSleepEnter 3, .canStatus h0 255, .canopyMap h0 255] : List Instr).all Instr.wf = true := by decide +kernel

theorem test_wf_accepts_3 : (
    [.canopyWhere h0 255 65535, .canopyHold h0 255 255, .ledgerRead h0 255, .ledgerNf h0 255 (List.replicate 128 0), .ledgerNfRead h0 255,
      .ledgerSave h0, .ledgerReset h0 281474976710655, .canSegmentReceive f0, .resetRelease 25, .bridgeReset 3, .beatInputPoint 3 ⟨some 4095, 255, [4095]⟩,
      .beatOutputPoint 3, .beatOverrun 3, .signalAgeing 4095, .stepAdvance 3, .busCheckWaitExpiry 3, .konWaitExpiry 3, .holdTimerExpiry 3,
      .blackstartTimeout 3, .syncTimeout 3, .rampEnd 3, .ss1SillTimeout 3, .scoContactorForce 8, .bistDone 15 3, .engineUncorrectableError 15 ⟨65535, true⟩,
      .updatePoint 23 false false, .masterValley 3, .tripWindowExpire 23, .bootstrapRefresh 23, .cycleTrip 23 11, .converterTrigger 15,
      .conversionResult 15 ⟨65535, 255⟩, .autozero 15, .passThroughEdge 7 true, .conflictResume 23, .dieStatusFrame 47 ⟨true, true, false, true⟩, .dieLinkLost 47,
      .dieCommandTimeout 47, .stuckGate 47, .switchEdgeMeasurement 47 ⟨true, true, 0⟩] : List Instr).all Instr.wf = true := by decide +kernel

theorem test_wf_accepts_4 : (
    [.shortCircuit 47, .softTurnOffEnd 47, .overcurrentWarning 47, .supplyUndervoltage 47 true, .dieOverTemperature 47, .ntcWrite 47 .shorted,
      .encoderEdge 3 7 0, .pulseInputEdge 3 true 0, .captureRow 7 true, .paneWaitRearm 7, .captureFire 7, .trigPinInput 3 true 0,
      .trigOutputPulseEnd 3, .frameReceive 3 f0, .frameTransmit 3 65 .sent, .integrationDone 3, .busOffRecoveryDone 3, .referenceMessageDue 3,
      .canWake 3 (.dominant 0), .safetyInputSample 262143, .testPulse 3, .testPulseBlankEnd 3 262143, .contactorReadbackAccept 3 true, .konFault 3,
      .testDue 3, .testOverdueSs1 3, .sealSwitchRead 65535 65535, .syncSymbolReceive ⟨0, 0, 0, true⟩, .timeSymbolReceive ⟨0, 0, 0, true⟩,
      .triggerSymbolReceive ⟨0, 0, 0, 0, true⟩, .train ⟨0, true, 0, 0, true⟩, .trainReply ⟨0, 0, true⟩, .transomSend 27, .transomDrain 27,
      .creditReturn 27, .eraseAhead 3 1023, .flashPatrol 7 true, .sramScrub (.engine 15), .sramScrub (.imageDiffers 3), .sramScrub (.copyDiffers 15 4095), .tlmSample 7, .zoneSupplyRecovery 47 true, .canReceiveError 3 ⟨3, 2⟩] : List Instr).all Instr.wf = true := by decide +kernel

/-! ### One step each, on the spec's worked examples -/

/-- The state a command leaves. -/
def after (c : Instr) (s : State) : State := match exec c s with | .next t => t | _ => s

/-- Registers set whole. -/
def regsOf (l : List (Nat × Word)) (s : State) : State := l.foldl (fun t e => t.setReg e.1 e.2) s

/-- R304: the CRC of the nine ASCII bytes. -/
theorem test_crc : crc32c [0x31, 0x32, 0x33, 0x34, 0x35, 0x36, 0x37, 0x38, 0x39] = 0xE3069283 := by decide +kernel

/-- 00_scope.md, worked example: bridge B and switch 35 in the register window. -/
theorem test_addresses : fldAddr R.BR_CFG.KIND 1 0 = 0x100400 ∧ fldAddr R.DRV_CFG.STUCK_T 35 0 = 0x4808C0 := by decide

/-- 11_vangat_commands.md, worked example: the packets of GET_COUNTER. -/
theorem test_getCounter_packets :
    (packetBytes (commandPacket ⟨false, 0x2B, none⟩ 0x0801 [4])).take 8 = [0xA5, 0x0C, 0x00, 0x2B, 0x01, 0x08, 0x00, 0x04] ∧
    (after (.getCounter ⟨false, 0x2B, none⟩ 4) (S0.wr2 R.SEC_CTR.C 0 4 0x3C00)).host.spi.rp.map (fun l => l.take 12) =
      [[0xA5, 0x10, 0x00, 0x2B, 0x01, 0x08, 0x02, 0x00, 0x00, 0x3C, 0x00, 0x00]] := by decide +kernel

/-- The same example: the head of an authenticated SET_MODE, and VG_ERR after its refusal with COUNTER_STALE. -/
theorem test_setMode_packet :
    (packetBytes (commandPacket ⟨false, 0x2C, some ⟨4, 0x3C01, List.replicate 8 0⟩⟩ 0x0201 [0, 3, 0])).take 15 =
      [0xA5, 0x1B, 0x00, 0x2C, 0x01, 0x02, 0x01, 0x00, 0x03, 0x00, 0x04, 0x01, 0x3C, 0x00, 0x00] ∧
    (recordRefusal ⟨false, 0x2C, none⟩ 0x0201 0x22 S0).reg A.VG_ERR = 0x02012200 := by decide +kernel

/-- 07_sash_pwm.md, worked example: leg 0 at duty 0x0040, with CARRY before the point and the on-time that governed; the point
is valley 1 or the peak after it. -/
def nearZero (peak : Bool) (carry : Nat) (held : Option Nat) : State :=
  let s := regsOf [(0x400000, 0x40009C40), (0x400004, 0x1E001E00), (0x400008, 0x3200)]
    (carried 4 { per := 40000, perF := 40000, duty := some 0x40, held := held, upN := 2 + b2n peak }
      [(R.SH_STATUS.PULSES, 0, 1), (R.SH_CARRY.CARRY, 0, carry)])
  s.setBr 0 { s.br 0 with valN := 1, vals := [(1000, 40000)] }

/-- SH_TON and SH_CARRY. -/
def tonCarry (s : State) : Nat × Nat := (s.rd R.SH_TON.TON 0, s.rd R.SH_CARRY.CARRY 0)

/-- Its first and second row: a short pulse is dropped. -/
theorem test_updatePoint_drops :
    tonCarry (after (.updatePoint 0 false false) (nearZero false 0 none)) = (0, 0x4E20) ∧
    tonCarry (after (.updatePoint 0 true false) (nearZero true 0x4E20 (some 0))) = (0, 0x9C40) := by decide +kernel

/-- Its third and fourth row: the pulse is emitted, and its trailing edge follows. -/
theorem test_updatePoint_emits :
    tonCarry (after (.updatePoint 0 false false) (nearZero false 0x9C40 (some 0))) = (0xEA60, 0) ∧
    tonCarry (after (.updatePoint 0 true false) (nearZero true 0 (some 60000))) = (0x4E20, 0) := by decide +kernel

/-- The six register values of that example pass the checks of their writes. -/
theorem test_perWrite_example :
    [(0x400000, (0x40009C40 : Word)), (0x400004, 0x1E001E00), (0x400008, 0x3200), (0x400014, 0x8000030A), (0x400018, 0x30000),
      (0x40001C, 0xBB8)].all (fun e => writeOpen e.1 e.2 S0) = true := by decide +kernel

/-- 03_block_library.md, worked example: the PI of a current loop. -/
theorem test_block_pi :
    (runBlock 0x07 ⟨20000, 800000, 1600000, 50000, 1150000, 1, 20000, 0, 4, 0, [0]⟩
      [⟨0x1000, 0, 0, false, false⟩, ⟨0x0CCD, 0, 0, false, false⟩, ⟨0, 0, 0, false, false⟩]
      [0xCCCD, 0x1900000, 0x1333, 0xFFFFECCD] (a40Words (1 / 10))).1 = [⟨0x05D3, false, false⟩] := by decide +kernel

/-- 09_measurement.md, worked example: converters 0 and 1 of bridge A. -/
def pair0 : State :=
  regsOf [(0x500000, 0x80000000), (0x500004, 0x02010005), (0x500008, 0xFFFF2003), (0x500080, 0x80000000), (0x500084, 0x20070604),
    (0x500088, 0xFFFFFFFF), (0x500040, 0x10080364)] S0

/-- Their last results after a trigger, ticks. -/
theorem test_tLast : tLast pair0 0 = 250 ∧ tLast pair0 1 = 170 := by decide +kernel

/-- The same example: AIN5 at raw code 0xBCA6 is written as 0xD593 at tick 50. -/
def ain5 : State := put [(R.IN_OFS.OFS, 5, 0x256), (R.IN_GAIN.GAIN, 5, 0x283A4157)] (pair0.setConv 0 { slot := some 0, trig := 0 })
theorem test_conversionResult :
    ((after (.conversionResult 0 ⟨0xBCA6, 0⟩) ain5).sig 0x015).val = 0xD593 ∧ (after (.conversionResult 0 ⟨0xBCA6, 0⟩) ain5).now = 50 := by
  decide +kernel

/-- The same example: the candidate offset of CAL_ZERO, and the candidate gain of CAL_FULL over it. -/
def cal5 (ofs : Nat) (r : CalRun) : State :=
  { put [(R.IN_NEW_OFS.OFS, 5, ofs), (R.IN_STATUS.CAND_OFS, 5, b2n (decide (ofs ≠ 0)))] S0 with cal := { runs := [(5, r)] } }
theorem test_calAverageEnd_zero :
    (after (.calAverageEnd 5) (cal5 0 { full := none, n := 4096, got := 4096, sum := 153088, start := 0 })).rd R.IN_NEW_OFS.OFS 5 = 0x256 := by
  decide +kernel
theorem test_calAverageEnd_full :
    (after (.calAverageEnd 5) (cal5 0x256 { full := some 0x1C49, n := 4096, got := 4096, sum := 47339264, hi := 212, start := 0 })).rd
      R.IN_NEW_GAIN.GAIN 5 = 0x283A4157 := by decide +kernel

/-- 12_can_fd.md, worked example: object 0 of CAN1, mapped, and the battery unit's frame. -/
def battery : State :=
  let s := regsOf [(0x601400, 0x98FFA0F3), (0x601404, 0x1FFFFFFF), (0x601408, 0x80000000)] (put [(R.CF_STATUS.STATE, 1, 2)] S0)
  { s with cans := [(1, { objs := [(0, { map := some (false, [(0, 0x04), (2, 0x05)]) })] })] }
def soc : CanFrame := ⟨true, false, false, false, false, 0x18FFA0F3, 8, [0xD7, 0x13, 0xC7, 0x1A, 0xFF, 0xFF, 0xFF, 0xFF]⟩

/-- CAN_MAP sets the two pairs. -/
theorem test_canMap : ((after (.canMap H 1 [0, 0, 0, 4, 2, 5]) S0).obj 1 0).map = some (false, [(0, 4), (2, 5)]) := by decide +kernel

/-- The frame writes both signals and its buffer words. -/
theorem test_frameReceive :
    ((after (.frameReceive 1 soc) battery).sig 0x1C4).val = 0x13D7 ∧ ((after (.frameReceive 1 soc) battery).sig 0x1C5).val = 0x1AC7 ∧
    ((after (.frameReceive 1 soc) battery).obj 1 0).buf.take 2 = [0x98FFA0F3, 8] ∧
    (((after (.frameReceive 1 soc) battery).obj 1 0).buf.drop 4).take 2 = [0x1AC713D7, 0xFFFFFFFF] := by decide +kernel

/-- 14_security.md, worked example: a counter 768 above its checkpoint starts the next one, 767 above does not. -/
def slot4 (c : Nat) : State :=
  (((S0.wr2 R.SEC_SLOT.STATE 0 4 1).wr2 R.SEC_SLOT.USE 0 4 1).wr2 R.SEC_CTR.C 0 4 c).wr2 R.SEC_CP.CP 0 4 0x3C00
theorem test_checkpoint_due :
    (afterCounter 4 (slot4 0x3F00)).sec.cpRun = some [(4, 0x3F00)] ∧ (afterCounter 4 (slot4 0x3EFF)).sec.cpRun = none := by decide +kernel

/-- 16_clocks_islands.md, worked example: H2 repeats a TRIGGER with D 29,778. -/
def hop2 : State :=
  put [(R.DL_HOP.IN_HOP, 0, 2642), (R.DL_HOP.OUT_HOP, 0, 3287), (R.DL_STATUS.OUT_STATE, 0, 2), (R.DL_STATUS.POS, 0, 1),
    (R.DL_STATUS.POS_OK, 0, 1)] chained
theorem test_triggerSymbolReceive : (after (.triggerSymbolReceive ⟨1, 0, 0, 0, true⟩) hop2).clk.trigOut = some (1, 0, 29778) := by
  decide +kernel

/-- 17_background.md, worked example: TLM_CFG is DONE and shows its stream configured. -/
theorem test_tlmCfg :
    (after (.tlmCfg H 0 [1, 0, 0x64, 0, 0x15, 0, 0x14, 0, 0x23, 1, 0xC4, 1]) S0).reg A.TLM_STATUS = 0x00000100 := by decide +kernel

/-- 13_shutter_safety.md, worked example: the values of SIN0, SIN2 and the seal switches pass their checks. -/
theorem test_safety_values :
    [(0x800040, (0x33018000 : Word)), (0x800044, 0x00140004), (0x800050, 0x63718000), (0x800088, 0x006401F4), (0x800090, 0x00140064),
      (0x800094, 0x00FF0002)].all (fun e => checkWord S0 (storeWord e.1 e.2 S0) e.1 e.2 = stDone) = true := by decide +kernel

end Sys2Proof.Tests
end

section
/-! SUPPORT. O2: every step keeps the block. `Keeps s t` says what every operation of the machine keeps; one lemma for
each operation, in the order of the model, says so of that operation. Its proof reads as the operation is made: `h.wr.raise`
for a field write and then an event, `.ite` for two branches. -/

namespace Sys2Proof.Machine

open Sys2Proof

/-- The registers of `t` are in canonical form where those of `s` are, its queue is that of `s`, and its time is not
earlier. -/
structure Keeps (s t : State) : Prop where
  regs : swf regReset s.regs = true → swf regReset t.regs = true
  pending : t.pending = s.pending
  now : s.now ≤ t.now

/-- The same of the state a command's own checks and effect come to. -/
structure KeepsRes (s : State) (r : Res) : Prop where
  st : Keeps s r.st

/-- The same of the command an opcode names, if it names one. -/
def KeepsBody (s t : State) (o : Option (State → Res)) : Prop := ∀ f, o = some f → KeepsRes s (f t)

/-- The same of an outcome, which is a next state. -/
def KeepsOutcome (s : State) (o : Host.Outcome State Fault Refusal) : Prop := ∃ t, o = .next t ∧ Keeps s t

section
variable {s t : State}

/-- A map built by writes alone is canonical. -/
theorem swf_foldl_sput (g : Nat × Word → Word) (l m : List (Nat × Word)) (hm : swf regReset m = true) :
    swf regReset (l.foldl (fun m e => sput regReset m e.1 (g e)) m) = true := by
  induction l generalizing m with
  | nil => exact hm
  | cons e l ih => exact ih _ (swf_sput _ _ _ _ hm)

theorem KeepsRes.ite {c : Prop} [Decidable c] {q r : Res} (hq : KeepsRes s q) (hr : KeepsRes s r) :
    KeepsRes s (if c then q else r) := by
  split
  · exact hq
  · exact hr

theorem KeepsBody.some {f : State → Res} (hf : KeepsRes s (f t)) : KeepsBody s t (some f) :=
  fun _ e => Option.some.inj e ▸ hf

theorem KeepsBody.none : KeepsBody s t none := nofun

theorem KeepsOutcome.next (h : Keeps s t) : KeepsOutcome s (.next t) := ⟨t, rfl, h⟩

namespace Keeps

theorem refl (s : State) : Keeps s s := ⟨id, rfl, Nat.le_refl _⟩

theorem ite {c : Prop} [Decidable c] {u : State} (ht : Keeps s t) (hu : Keeps s u) : Keeps s (if c then t else u) := by
  split
  · exact ht
  · exact hu

section
variable {board : List (Nat × Word)} {aged : List (Nat × Nat)} {host : HostPort} {sec : Sec} {graphs : GraphStore}
  {bridges : List (Nat × Bridge)} {legs : List (Nat × Leg)} {dies : List (Nat × Die)} {convs : List (Nat × Conv)}
  {pairs : List (Nat × Pair)} {cal : Cal} {encs : List (Nat × Enc)} {pulses : List (Nat × Pulse)} {pth : Nat}
  {canopy : Canopy} {ledger : Ledger} {capture : Capture} {log : EvLog} {clk : Clk} {bg : Background} {rst : ResetCtl}
  {sill : Sill} {cans : List (Nat × CanCtl)} {latched : List (Nat × Word)} {freeCtr : Nat}

/-- An update of other parts of the state. -/
theorem same (h : Keeps s t) : Keeps s ⟨t.pending, t.now, t.regs, board, aged, host, sec, graphs, bridges, legs, dies, convs,
    pairs, cal, encs, pulses, pth, canopy, ledger, capture, log, clk, bg, rst, sill, cans, latched, freeCtr⟩ :=
  ⟨h.regs, h.pending, h.now⟩

end

protected theorem foldl {α : Type} {f : State → α → State} {l : List α} (h : Keeps s t)
    (hf : ∀ u x, Keeps s u → Keeps s (f u x)) : Keeps s (l.foldl f t) := by
  induction l generalizing t with
  | nil => exact h
  | cons x l ih => exact ih (hf _ x h)

protected theorem each {α : Type} {f : State → α → State} {l : List α} (h : Keeps s t)
    (hf : ∀ u x, Keeps s u → Keeps s (f u x)) : Keeps s (t.each l f) := h.foldl hf

protected theorem setReg {a : Nat} {w : Word} (h : Keeps s t) : Keeps s (t.setReg a w) :=
  ⟨fun hs => State.regs_wf_setReg _ _ _ (h.regs hs), h.pending, h.now⟩

protected theorem reachTime {n : Nat} (h : Keeps s t) : Keeps s (reachTime n t) :=
  ⟨h.regs, h.pending, h.now.trans (Nat.le_max_left _ _)⟩

/-! ### Machine/Ops.lean -/

protected theorem wr {f : Fld} {i v : Nat} (h : Keeps s t) : Keeps s (t.wr f i v) := h.setReg
protected theorem wr2 {f : Fld} {i j v : Nat} (h : Keeps s t) : Keeps s (t.wr2 f i j v) := h.setReg
protected theorem setBr {b : Nat} {v : Bridge} (h : Keeps s t) : Keeps s (t.setBr b v) := h.same
protected theorem setLeg {n : Nat} {v : Leg} (h : Keeps s t) : Keeps s (t.setLeg n v) := h.same
protected theorem setDie {n : Nat} {v : Die} (h : Keeps s t) : Keeps s (t.setDie n v) := h.same
protected theorem setConv {n : Nat} {v : Conv} (h : Keeps s t) : Keeps s (t.setConv n v) := h.same
protected theorem setPair {n : Nat} {v : Pair} (h : Keeps s t) : Keeps s (t.setPair n v) := h.same
protected theorem setEnc {n : Nat} {v : Enc} (h : Keeps s t) : Keeps s (t.setEnc n v) := h.same
protected theorem setPul {n : Nat} {v : Pulse} (h : Keeps s t) : Keeps s (t.setPul n v) := h.same
protected theorem setEng {e : Nat} {v : Eng} (h : Keeps s t) : Keeps s (t.setEng e v) := h.same
protected theorem setEntry {k : Nat} {v : Entry} (h : Keeps s t) : Keeps s (t.setEntry k v) := h.same
protected theorem setUnit {u : Nat} {v : Unit_} (h : Keeps s t) : Keeps s (t.setUnit u v) := h.same
protected theorem setSin {i : Nat} {v : SafeIn} (h : Keeps s t) : Keeps s (t.setSin i v) := h.same
protected theorem setCan {c : Nat} {v : CanCtl} (h : Keeps s t) : Keeps s (t.setCan c v) := h.same
protected theorem setObj {c k : Nat} {v : CanObj} (h : Keeps s t) : Keeps s (t.setObj c k v) := h.setCan

/-! ### Machine/Flags.lean -/

protected theorem countUp {f : Fld} {i n : Nat} (h : Keeps s t) : Keeps s (t.countUp f i n) := h.wr
protected theorem countUp2 {f : Fld} {i j n : Nat} (h : Keeps s t) : Keeps s (t.countUp2 f i j n) := h.wr2
protected theorem countWrap {f : Fld} {i : Nat} (h : Keeps s t) : Keeps s (t.countWrap f i) := h.wr
protected theorem raise {f : Fld} {i : Nat} (h : Keeps s t) : Keeps s (t.raise f i) := h.wr
protected theorem clear {f : Fld} {i : Nat} (h : Keeps s t) : Keeps s (t.clear f i) := h.wr
protected theorem raiseBit {f : Fld} {k i : Nat} (h : Keeps s t) : Keeps s (t.raiseBit f k i) := h.wr
protected theorem clearBit {f : Fld} {k i : Nat} (h : Keeps s t) : Keeps s (t.clearBit f k i) := h.wr

protected theorem putBit {f : Fld} {k : Nat} {v : Bool} {i : Nat} (h : Keeps s t) : Keeps s (t.putBit f k v i) :=
  .ite h.raiseBit h.clearBit

protected theorem drawFree (h : Keeps s t) : Keeps s (drawFree t).2 := h.same

/-! ### Machine/Board.lean -/

protected theorem setSig {i : Nat} {g : Sig} (h : Keeps s t) : Keeps s (t.setSig i g) := h.same
protected theorem stamp {i : Nat} (h : Keeps s t) : Keeps s (t.stamp i) := h.same

protected theorem sigWrite {i val : Nat} {sat taint : Bool} (h : Keeps s t) :
    Keeps s (t.sigWrite i val sat taint) :=
  h.setSig.stamp

protected theorem sigAge {i period : Nat} (h : Keeps s t) : Keeps s (sigAge i period t) :=
  .ite h h.reachTime.setSig.stamp

/-! ### Machine/Flash.lean -/

protected theorem flashBegin {k : Nat} (h : Keeps s t) : Keeps s (flashBegin k t) := by
  unfold flashBegin
  split
  · exact h.same
  · exact .ite h.same h.same

/-! ### Machine/HostPort.lean -/

protected theorem refuse {status : Nat} (h : Keeps s t) : KeepsRes s (refuse status t) := ⟨h⟩
protected theorem doneWith {data : List Byte} (h : Keeps s t) : KeepsRes s (doneWith data t) := ⟨h⟩
protected theorem done (h : Keeps s t) : KeepsRes s (done t) := h.doneWith
protected theorem exhaustSlot {slot : Nat} (h : Keeps s t) : Keeps s (exhaustSlot slot t) := .ite h.wr2.raise h

protected theorem startCheckpoint {slots : List Nat} (h : Keeps s t) : Keeps s (startCheckpoint slots t) :=
  .ite h h.flashBegin.same

protected theorem afterCounter {slot : Nat} (h : Keeps s t) : Keeps s (afterCounter slot t) :=
  h.exhaustSlot.startCheckpoint

protected theorem authConsume {hd : Hdr} {status : Nat} (h : Keeps s t) : Keeps s (authConsume hd status t) := by
  unfold authConsume
  split
  · exact .ite h.wr2.afterCounter (.ite h.countUp.raise h)
  · exact h

protected theorem withAuth {hd : Hdr} {op : Nat} {params : List Byte} {rule : AuthRule} {k : State → Res} (h :
    Keeps s t)
    (hk : ∀ u, Keeps s u → KeepsRes s (k u)) : KeepsRes s (withAuth hd op params rule t k) :=
  .ite ⟨(hk _ h.authConsume).st⟩ h.authConsume.refuse

protected theorem setTransport {can : Bool} {t' : Transport} (h : Keeps s t) : Keeps s (t.setTransport can t') :=
  h.same

protected theorem queueReply {can : Bool} {bytes : List Byte} (h : Keeps s t) : Keeps s (queueReply can bytes t) :=
  h.setTransport

protected theorem recordError {can : Bool} {op status : Nat} (h : Keeps s t) : Keeps s (recordError can op status t) :=
  h.wr.wr.wr

protected theorem recordRefusal {hd : Hdr} {op status : Nat} (h : Keeps s t) : Keeps s (recordRefusal hd op status t) :=
  .ite h h.recordError

protected theorem beginRun {op seq obj : Nat} (h : Keeps s t) : Keeps s (beginRun op seq obj t) := h.same

protected theorem endRun {op obj result : Nat} (h : Keeps s t) : Keeps s (endRun op obj result t) := by
  unfold endRun
  split
  · exact h
  · exact h.same.wr.wr.wr.raise

protected theorem answerRepeat {can : Bool} (h : Keeps s t) : Keeps s (answerRepeat can t) := by
  unfold answerRepeat
  split
  · exact h.countUp.queueReply
  · exact h

protected theorem sendReply {can : Bool} {cmd reply : List Byte} (h : Keeps s t) :
    Keeps s (sendReply can cmd reply t) :=
  h.queueReply.setTransport

protected theorem giveReply {hd : Hdr} {op : Nat} {cmd : List Byte} {r : Res} (h : Keeps s t) :
    Keeps s (giveReply hd op cmd r t) :=
  .ite h (.ite h.sendReply h.same)

protected theorem holdReply {k due : Nat} (h : Keeps s t) : Keeps s (holdReply k due t) := h.same
protected theorem dropHeld (h : Keeps s t) : Keeps s (dropHeld t) := h.same

protected theorem sendHeld {r : Held} {reply : List Byte} (h : Keeps s t) : Keeps s (sendHeld r reply t) :=
  h.dropHeld.sendReply.setTransport

protected theorem expireHeld (h : Keeps s t) : Keeps s (expireHeld t) := by
  unfold expireHeld
  split
  · exact .ite h.sendHeld.recordError h
  · exact h

protected theorem swapSettled {b : Nat} (h : Keeps s t) : Keeps s (swapSettled b t) := by
  unfold swapSettled
  extract_lets u1
  have h1 : Keeps s u1 := h.expireHeld
  refine .ite ?_ h1
  split
  · exact h1.sendHeld
  · exact h1.same

protected theorem applyCheckpoint {l : List (Nat × Nat)} (h : Keeps s t) : Keeps s (applyCheckpoint l t) :=
  h.same.foldl fun _ _ h1 => h1.wr2

protected theorem writeResync {slot value : Nat} (h : Keeps s t) : Keeps s (writeResync slot value t) :=
  h.applyCheckpoint.wr2

protected theorem acceptCmd {hd : Hdr} {op : Nat} {params : List Byte} {body : State → Res} (h : Keeps s t)
    (hb : ∀ u, Keeps s u → KeepsRes s (body u)) : Keeps s (acceptCmd hd op params body t) :=
  .ite h.expireHeld (.ite h.expireHeld.answerRepeat
    (.giveReply (.recordRefusal (KeepsRes.st (.ite (hb _ h.expireHeld) h.expireHeld.refuse)))))

/-! ### Machine/ConvCfg.lean -/

protected theorem windowRises {n : Nat} (h : Keeps s t) : Keeps s (windowRises n t) := by
  unfold windowRises
  split
  · exact h.reachTime.raise.countUp
  · exact h

protected theorem endAverage {n err : Nat} (h : Keeps s t) : Keeps s (endAverage n err t) := by
  unfold endAverage
  split
  · exact h
  · exact h.same.wr.wr.clear.endRun

protected theorem endAverages {b : Nat} (h : Keeps s t) : Keeps s (endAverages b t) :=
  h.each fun _ _ h1 => h1.endAverage

/-! ### Machine/Log.lean -/

protected theorem logPut {code obj : Nat} {data : List Byte} (h : Keeps s t) : Keeps s (logPut code obj data t) :=
  h.same

protected theorem logEvent {code obj : Nat} {data : List Byte} (h : Keeps s t) : Keeps s (logEvent code obj data t) :=
  .ite h.same.same.countUp.raise (.ite h.same.logPut h.same.logPut.same.logPut)

protected theorem logCorrected {memory : Nat} (h : Keeps s t) : Keeps s (logCorrected memory t) := by
  unfold logCorrected
  extract_lets
  split
  · exact .ite h.same (.ite h.logEvent.same h.logEvent.same)
  · exact .ite h.logEvent.same h.logEvent.same

protected theorem countErase {area sector : Nat} (h : Keeps s t) : Keeps s (countErase area sector t) :=
  .ite h.same.raise.logEvent h.same

protected theorem setRing {area : Nat} {x : Ring} (h : Keeps s t) : Keeps s (setRing area x t) := h.same

protected theorem eraseSector {area : Nat} (h : Keeps s t) : Keeps s (eraseSector area t) :=
  .ite h.setRing.countErase.same h.setRing.countErase

protected theorem makeRoom {area : Nat} (h : Keeps s t) : Keeps s (makeRoom area t) :=
  h.each fun _ _ h1 => .ite h1.eraseSector h1

protected theorem ringWrite {area : Nat} (h : Keeps s t) : Keeps s (ringWrite area t) := h.makeRoom.setRing

protected theorem settleResync (h : Keeps s t) : Keeps s (settleResync t) := by
  unfold settleResync
  split
  · exact h.same.writeResync.ringWrite.swapSettled
  · exact h

protected theorem flushEntry {e : LogEntry} (h : Keeps s t) : Keeps s (flushEntry e t) := h.ringWrite.same

protected theorem eventLogFlush {ok : Bool} (h : Keeps s t) : Keeps s (eventLogFlush ok t) :=
  .ite (.foldl (.same (.ite h h.reachTime)) (fun _ _ h1 => h1.flushEntry)) h

protected theorem logReadBody {entry : Nat} (h : Keeps s t) : KeepsRes s (logReadBody entry t) := by
  unfold logReadBody
  split
  · exact h.doneWith
  · exact h.refuse

/-! ### Machine/Ledger.lean -/

protected theorem pullBlock {g : Graph} {states : List (List Nat)} {i : Nat} (h : Keeps s t) :
    Keeps s (pullBlock g states i t) :=
  .ite h.setEntry (.ite h.setEntry h)

protected theorem pullBridge {b : Nat} (h : Keeps s t) : Keeps s (pullBridge b t) := by
  unfold pullBridge
  split
  · exact h
  · extract_lets _ _ u1
    have h1 : Keeps s u1 := (h.each (fun _ _ h2 => h2.pullBlock)).each fun _ _ h2 => h2.setEntry
    exact h1.setBr.each fun _ _ h2 => h2.setEntry

protected theorem setShare {n v : Nat} (h : Keeps s t) : Keeps s (setShare n v t) := h.same

protected theorem steerPhase {b : Nat} {ls : List Nat} (h : Keeps s t) : Keeps s (steerPhase b ls t) :=
  h.each fun _ _ h1 => h1.setShare

protected theorem steerAll (h : Keeps s t) : Keeps s (steerAll t) :=
  h.each fun _ _ h1 => .ite (h1.each (fun _ _ h2 => h2.steerPhase)) h1

protected theorem ledgerPass (h : Keeps s t) : Keeps s (ledgerPass t) :=
  .ite h ((h.each (fun _ _ h1 => h1.pullBridge)).each (fun _ _ h1 => h1.setEntry)).steerAll

protected theorem beginCheckpoint {cause : Nat} (h : Keeps s t) : Keeps s (beginCheckpoint cause t) :=
  (h.flashBegin.each (fun _ _ h1 => h1.setEntry)).same.wr

protected theorem demandCheckpoint {cause : Nat} (h : Keeps s t) : Keeps s (demandCheckpoint cause t) :=
  .ite h.same h.beginCheckpoint

protected theorem ledgerCheckpoint (h : Keeps s t) : Keeps s (ledgerCheckpoint t) := .ite h h.reachTime.beginCheckpoint

protected theorem ledgerCheckpointDone {ok : Bool} (h : Keeps s t) : Keeps s (ledgerCheckpointDone ok t) := by
  unfold ledgerCheckpointDone
  split
  · exact h
  · refine .ite h ?_
    extract_lets _ u1 _ _ u2
    have h1 : Keeps s u1 := h.same.ringWrite.settleResync.clear
    have h2 : Keeps s u2 := .endRun (.ite h1.same.wr h1.raise.logEvent)
    split
    · exact h2.same.beginCheckpoint
    · exact h2

protected theorem restoreLedger (h : Keeps s t) : Keeps s (restoreLedger t) := by
  unfold restoreLedger
  dsimp only
  split
  · exact h.same.wr
  · exact h.same.raise

protected theorem ledgerReadBody {k : Nat} (h : Keeps s t) : KeepsRes s (ledgerReadBody k t) := .ite h.refuse h.doneWith

protected theorem ledgerNfChecks {hd : Hdr} {t' : Nat} {words : List Word} (h : Keeps s t) :
    KeepsRes s (ledgerNfChecks hd t' words t) :=
  .ite h.refuse (.ite h.refuse ⟨h.same.demandCheckpoint.logEvent.beginRun⟩)

protected theorem ledgerNfBody {hd : Hdr} {t' : Nat} {words : List Word} (h : Keeps s t) :
    KeepsRes s (ledgerNfBody hd t' words t) :=
  h.withAuth fun _ h1 => h1.ledgerNfChecks

protected theorem ledgerNfReadBody {t' : Nat} (h : Keeps s t) : KeepsRes s (ledgerNfReadBody t' t) :=
  .ite h.refuse h.doneWith

protected theorem ledgerSaveBody {hd : Hdr} (h : Keeps s t) : KeepsRes s (ledgerSaveBody hd t) :=
  .ite h.refuse ⟨h.demandCheckpoint.beginRun⟩

protected theorem ledgerResetChecks {mask : Nat} (h : Keeps s t) : KeepsRes s (ledgerResetChecks mask t) :=
  .ite h.refuse (.ite h.refuse (h.each (fun _ _ h1 => h1.setEntry)).same.beginCheckpoint.logEvent.done)

protected theorem ledgerResetBody {hd : Hdr} {mask : Nat} (h : Keeps s t) : KeepsRes s (ledgerResetBody hd mask t) :=
  h.withAuth fun _ h1 => h1.ledgerResetChecks

/-! ### Machine/Canopy.lean -/

protected theorem showEngine {p : Placed} {e : Nat} (h : Keeps s t) : Keeps s (showEngine p e t) := h.wr.wr.wr

protected theorem showPlacement {b : Nat} (h : Keeps s t) : Keeps s (showPlacement b t) := by
  unfold showPlacement
  split
  · exact h
  · exact (h.each (fun _ _ h1 => h1.showEngine)).wr.wr.wr.wr

protected theorem idleEngine {e : Nat} (h : Keeps s t) : Keeps s (idleEngine e t) := h.wr.wr.wr.wr.wr

protected theorem commitPlacement {b : Nat} {g : Graph} {a : List Asg} (h : Keeps s t) :
    Keeps s (commitPlacement b g a t) :=
  (h.each (fun _ _ h1 => h1.wr.wr)).setBr.wr.showPlacement

protected theorem placeFailed {b code : Nat} (h : Keeps s t) : Keeps s (placeFailed b code t) := h.wr.raise

protected theorem failEngine {e cause : Nat} (h : Keeps s t) : Keeps s (failEngine e cause t) :=
  h.idleEngine.wr.wr.clearBit.raise.logEvent

protected theorem makeFallow {e : Nat} (h : Keeps s t) : Keeps s (makeFallow e t) := h.idleEngine.wr.wr.clear

/-- The state of a bridge squeezed onto one engine less, where that succeeds. -/
protected theorem squeezeBridge {b : Nat} {u : State} (h : Keeps s t)
  (hu : squeezeBridge b t = some u) : Keeps s u := by
  unfold squeezeBridge at hu
  split at hu
  · cases hu
  · dsimp only at hu
    split at hu
    · cases hu
    · split at hu
      · cases hu
        exact h.setBr.showPlacement
      · cases hu

protected theorem noFallow (h : Keeps s t) : Keeps s (noFallow t) := .ite h h.raise.raise

protected theorem recoverFallow (h : Keeps s t) : Keeps s (recoverFallow t) := by
  unfold recoverFallow
  split
  · exact h.makeFallow
  · refine .noFallow ?_
    cases hu : (List.range 4).findSome? (fun b => squeezeBridge b t) with
    | none => exact h
    | some u =>
      obtain ⟨b, -, hb⟩ := List.exists_of_findSome?_eq_some hu
      exact h.squeezeBridge hb

protected theorem rotate (h : Keeps s t) : Keeps s (rotate t) := by
  unfold rotate
  extract_lets
  split
  · exact h.same
  · refine .ite h.same.wr.makeFallow ?_
    extract_lets
    split
    · exact h.same
    · exact .ite h h.same.wr.wr.setBr.showPlacement

protected theorem takeStep (h : Keeps s t) : Keeps s (takeStep t) := .ite h.rotate h
protected theorem rotationStep (h : Keeps s t) : Keeps s (rotationStep t) := .ite h h.same.takeStep

protected theorem lateTestDone {e result : Nat} (h : Keeps s t) : Keeps s (lateTestDone e result t) := by
  unfold lateTestDone
  extract_lets _ _ u1
  have h1 : Keeps s u1 := h.setEng.wr.wr.raiseBit
  exact .ite (.ite h1.recoverFallow h1) h.setEng.countUp.failEngine

protected theorem bistDone {e result : Nat} (h : Keeps s t) : Keeps s (bistDone e result t) :=
  .ite h.lateTestDone (.ite h (.ite h.setEng.wr.countUp.takeStep h.setEng.countUp.failEngine.recoverFallow))

protected theorem freeEngines {b : Nat} (h : Keeps s t) : Keeps s (freeEngines b t) := by
  unfold freeEngines
  split
  · exact h
  · extract_lets u1 _ _ u2
    have h1 : Keeps s u1 := by
      refine h.each fun _ _ h2 => .ite h2.idleEngine.wr ?_
      split
      · exact h2.failEngine
      · exact h2.idleEngine
    have h2 : Keeps s u2 := h1.setBr.wr.wr.wr.wr
    exact .takeStep (.ite h2.recoverFallow h2)

protected theorem backToSource {b : Nat} {p : Placed} {hd : Hinge} (h : Keeps s t) : Keeps s (backToSource b p hd t) :=
  h.setBr

protected theorem hingeFails {b e cause : Nat} {p : Placed} {hd : Hinge} (h : Keeps s t) :
    Keeps s (hingeFails b e cause p hd t) := by
  unfold hingeFails
  extract_lets u1
  have h1 : Keeps s u1 := h.backToSource
  refine .ite h1.failEngine.showPlacement.recoverFallow ?_
  split
  · exact h1.setBr.showPlacement
  · exact h1

protected theorem findErrors {b : Nat} (h : Keeps s t) : Keeps s (findErrors b t) := by
  unfold findErrors
  split
  · exact h
  · refine h.each fun _ _ h1 => ?_
    split
    · exact h1
    · exact h1.setBr

protected theorem engineBad {e i : Nat} {st : Bool} {cause : Nat} (h : Keeps s t) :
    Keeps s (engineBad e i st cause t) := by
  unfold engineBad
  extract_lets
  split
  · exact h
  · refine .ite h.setBr (.ite ?_ h)
    split
    · exact h.hingeFails
    · exact h

protected theorem engineError {e i : Nat} {st : Bool} (h : Keeps s t) : Keeps s (engineError e i st t) :=
  .ite h h.countUp.engineBad

protected theorem evacuate {b e : Nat} {f : Option Nat} (h : Keeps s t) : Keeps s (evacuate b e f t) := by
  unfold evacuate
  split
  · exact h
  · extract_lets _ _ _ _ _ _ u1 _ u2
    have h1 : Keeps s u1 := by
      unfold u1
      split
      · exact h.wr.wr
      · exact h
    have h2 : Keeps s u2 := h1.setBr.failEngine
    exact .showPlacement (.recoverFallow (.ite h2 h2.countUp.raise))

protected theorem hingeEnds {b : Nat} {hd : Hinge} (h : Keeps s t) : Keeps s (hingeEnds b hd t) := by
  unfold hingeEnds
  split
  · exact h.wr.makeFallow.showPlacement
  · extract_lets _ u1
    have h1 : Keeps s u1 := h.each fun _ _ h2 => h2.idleEngine
    exact .takeStep (.showPlacement (.ite h1.makeFallow h1))

protected theorem hingeAdvance {b : Nat} (h : Keeps s t) : Keeps s (hingeAdvance b t) := by
  unfold hingeAdvance
  split
  · exact h
  · split
    · exact h
    · exact .ite h.setBr.countUp.hingeEnds h.setBr.countUp.showPlacement

protected theorem hingeMismatch {b i : Nat} (h : Keeps s t) : Keeps s (hingeMismatch b i t) := by
  unfold hingeMismatch
  split
  · exact h
  · split
    · exact .ite h.countUp.hingeFails h
    · exact h

protected theorem hingeAbandon {b : Nat} {p : Placed} {hd : Hinge} (h : Keeps s t) : Keeps s
  (hingeAbandon b p hd t) := by
  unfold hingeAbandon
  extract_lets u1
  have h1 : Keeps s u1 := h.backToSource
  split
  · exact h1.idleEngine.wr.countUp.showPlacement.takeStep
  · exact h1.showPlacement.takeStep

protected theorem hingeAgain {b : Nat} {pick : Placed → Nat → Bool} (h : Keeps s t) : Keeps s
  (hingeAgain b pick t) := by
  unfold hingeAgain
  split
  · exact h
  · split
    · exact h
    · exact .ite h.setBr.countUp.hingeAbandon h.setBr.countUp

protected theorem hingeRestart {k b : Nat} (h : Keeps s t) : Keeps s (hingeRestart k b t) := h.hingeAgain

protected theorem canopyMapBody {b : Nat} (h : Keeps s t) : KeepsRes s (canopyMapBody b t) := by
  unfold canopyMapBody
  refine .ite h.refuse ?_
  split
  · exact h.refuse
  · exact h.doneWith

protected theorem canopyWhereBody {b i : Nat} (h : Keeps s t) : KeepsRes s (canopyWhereBody b i t) := by
  unfold canopyWhereBody
  refine .ite h.refuse ?_
  split
  · exact h.refuse
  · exact .ite h.refuse h.doneWith

protected theorem endHold (h : Keeps s t) : Keeps s (endHold t) := .ite h.same.clear h

protected theorem canopyHoldBody {b sec : Nat} (h : Keeps s t) : KeepsRes s (canopyHoldBody b sec t) :=
  .ite h.refuse (.ite (Keeps.done (.ite h.endHold h)) (.ite h.refuse h.endHold.same.raise.wr.done))

protected theorem canopyHoldExpiry (h : Keeps s t) : Keeps s (canopyHoldExpiry t) := .ite h.reachTime.endHold h

/-! ### Machine/Dellan.lean -/

protected theorem showOut (h : Keeps s t) : Keeps s (showOut t) := h.same
protected theorem dropSymbol (h : Keeps s t) : Keeps s (dropSymbol t) := h.countUp
protected theorem sendSymbol {o : OutSym} (h : Keeps s t) : Keeps s (sendSymbol o t) := .ite h.dropSymbol h.same.showOut

protected theorem sendTrigSymbol {own : Bool} {o : OutSym} (h : Keeps s t) : Keeps s (sendTrigSymbol own o t) :=
  .ite h.dropSymbol (.showOut (.same (.ite h.countUp h)))

protected theorem ownTrigger {line age : Nat} (h : Keeps s t) : Keeps s (ownTrigger line age t) :=
  .ite h.sendTrigSymbol h

protected theorem setCrossing {id : Nat} {x : Crossing} (h : Keeps s t) : Keeps s (setCrossing id x t) := h.same

/-! ### Machine/Capture.lean -/

protected theorem markNotAligned (h : Keeps s t) : Keeps s (markNotAligned t) := h.raise.each fun _ _ h1 => h1.setUnit

protected theorem onReady {u : Nat} (h : Keeps s t) : Keeps s (onReady u t) :=
  .ite (h.each (fun _ _ h1 => h1.setUnit.wr)) h

protected theorem fillUnit {noPane : Bool} {from_ : Nat} {panes : List Nat} {u : Nat} (h : Keeps s t) :
    Keeps s (fillUnit noPane from_ panes u t) :=
  h.setUnit.wr.wr

protected theorem fillGroup {us : List Nat} {noPane : Bool} {from_ : Nat → Nat} (h : Keeps s t) :
    Keeps s (fillGroup us noPane from_ t) := by
  unfold fillGroup
  split
  · exact h
  · exact (h.same.each (fun _ _ h1 => h1.fillUnit)).onReady

protected theorem idleUnit {u : Nat} (h : Keeps s t) : Keeps s (idleUnit u t) := h.setUnit.wr

protected theorem closeRecord {u : Nat} {trunc : Bool} (h : Keeps s t) : Keeps s (closeRecord u trunc t) :=
  h.same.setUnit.raise

protected theorem rearmGroup {us : List Nat} (h : Keeps s t) : Keeps s (rearmGroup us t) :=
  .ite h.fillGroup (h.each (fun _ _ h1 => h1.setUnit.wr.raise))

protected theorem recordFull {u : Nat} (h : Keeps s t) : Keeps s (recordFull u t) := by
  unfold recordFull
  extract_lets _ _ _ u1
  have h1 : Keeps s u1 := h.closeRecord.setUnit
  exact .ite (.ite h1.rearmGroup h1) h1.idleUnit

protected theorem fullCheck {u : Nat} (h : Keeps s t) : Keeps s (fullCheck u t) := by
  unfold fullCheck
  refine .ite ?_ h
  split
  · split
    · exact .ite h.recordFull h
    · exact h
  · exact h

protected theorem takeRow {u : Nat} {bytes : List Byte} {lost : Bool} (h : Keeps s t) :
    Keeps s (takeRow u bytes lost t) := by
  unfold takeRow
  extract_lets _ _ _ _ _ _ _ _ u1 u2
  have h1 : Keeps s u1 := h.setUnit
  have h2 : Keeps s u2 := .ite h1.countUp.raise h1
  exact .ite (.fullCheck (.ite h2.wr.onReady h2)) h

protected theorem countIgnored {us : List Nat} (h : Keeps s t) : Keeps s (countIgnored us t) :=
  h.each fun _ _ h1 => .ite h1 h1.setUnit.countUp

protected theorem fireGroup {us : List Nat} {f : Fire} (h : Keeps s t) : Keeps s (fireGroup us f t) := by
  unfold fireGroup
  extract_lets u1 _ u2
  have h1 : Keeps s u1 := h.each fun _ _ h2 => h2.setUnit.wr.raise
  have h2 : Keeps s u2 := .ite h1.same h1
  exact h2.each fun _ _ h3 => h3.fullCheck

protected theorem triggerGroup {us on_ : List Nat} {f : Fire} (h : Keeps s t) : Keeps s (triggerGroup us on_ f t) := by
  unfold triggerGroup
  dsimp only
  refine .ite ?_ (.ite (h.each (fun _ _ h1 => h1.setUnit)) h.countIgnored)
  split
  · exact .ite h.same (.ite (.ite h.same.countIgnored.fireGroup h.same.countIgnored.same) h.countIgnored)
  · exact .ite h.fireGroup h.same

protected theorem sendTrigger {us : List Nat} {f : Fire} (h : Keeps s t) : Keeps s (sendTrigger us f t) :=
  .ite h.ownTrigger h

protected theorem triggerUnits {mk : State → Bool → Fire} {local_ : Bool} {us : List Nat} (h : Keeps s t) :
    Keeps s (triggerUnits mk local_ us t) := by
  unfold triggerUnits
  extract_lets _ u1
  have h1 : Keeps s u1 := h.each fun _ _ h2 => h2.triggerGroup
  exact .ite h1 (.triggerGroup (.ite h1.sendTrigger h1))

protected theorem triggerSource {source t' : Nat} (h : Keeps s t) : Keeps s (triggerSource source t' t) :=
  h.triggerUnits

protected theorem triggerSink {u t' : Nat} (h : Keeps s t) : Keeps s (triggerSink u t' t) := .ite h.triggerUnits h

protected theorem triggerSymbol {line origin d phase : Nat} (h : Keeps s t) :
    Keeps s (triggerSymbol line origin d phase t) := by
  unfold triggerSymbol
  exact .triggerUnits (.ite h.countUp h)

protected theorem captureFire {u : Nat} (h : Keeps s t) : Keeps s (captureFire u t) := by
  unfold captureFire
  split
  · exact h
  · exact h.same.reachTime.fireGroup

protected theorem trigPinInput {pin : Nat} {high : Bool} {samples : Nat} (h : Keeps s t) :
    Keeps s (trigPinInput pin high samples t) :=
  .ite h (.ite h.countUp2 (.ite h.same.triggerSource h.same))

protected theorem trigOutputPulseEnd {pin : Nat} (h : Keeps s t) : Keeps s (trigOutputPulseEnd pin t) :=
  .ite h.same.reachTime h

protected theorem paneWaitRearm {u : Nat} (h : Keeps s t) : Keeps s (paneWaitRearm u t) := .ite h.rearmGroup h

protected theorem capArmBody {u : Nat} (h : Keeps s t) : KeepsRes s (capArmBody u t) :=
  .ite h.refuse (.ite h.refuse (.ite h.refuse (.ite h.refuse (.ite h.refuse h.fillGroup.done))))

protected theorem disarmUnit {u : Nat} (h : Keeps s t) : Keeps s (disarmUnit u t) :=
  .ite h.closeRecord.idleUnit (.ite h.setUnit.idleUnit h.idleUnit)

protected theorem disarmGroup {us : List Nat} (h : Keeps s t) : Keeps s (disarmGroup us t) := by
  unfold disarmGroup
  extract_lets u1
  have h1 : Keeps s u1 := by
    unfold u1
    split
    · exact .ite h.fireGroup h
    · exact h
  exact h1.same.each fun _ _ h2 => h2.disarmUnit

protected theorem capDisarmBody {u : Nat} (h : Keeps s t) : KeepsRes s (capDisarmBody u t) :=
  .ite h.refuse h.disarmGroup.done

protected theorem capForceBody {u : Nat} (h : Keeps s t) : KeepsRes s (capForceBody u t) :=
  .ite h.refuse (.ite h.refuse (.ite ⟨h.countIgnored⟩ h.triggerUnits.done))

protected theorem capListBody (h : Keeps s t) : KeepsRes s (capListBody t) := h.doneWith

protected theorem capReadBody {u n off len : Nat} (h : Keeps s t) : KeepsRes s (capReadBody u n off len t) := by
  unfold capReadBody
  split
  · exact h.refuse
  · exact .ite h.refuse h.same.doneWith

protected theorem capReleaseBody {u n : Nat} (h : Keeps s t) : KeepsRes s (capReleaseBody u n t) := by
  unfold capReleaseBody
  split
  · exact h.refuse
  · exact h.same.done

/-! ### Machine/Graphs.lean -/

protected theorem setStageErr {code dir rcd : Nat} (h : Keeps s t) : Keeps s (setStageErr code dir rcd t) := h.wr.wr.wr

protected theorem setBridgeErr {code rcd b : Nat} (h : Keeps s t) : Keeps s (setBridgeErr code rcd b t) :=
  .ite h.wr.wr h

protected theorem recordStage {e : GErr} (h : Keeps s t) : Keeps s (recordStage e t) := h.setStageErr

protected theorem recordLoad {e : GErr} {bridges : List Nat} (h : Keeps s t) : Keeps s (recordLoad e bridges t) :=
  h.recordStage.foldl fun _ _ h1 => h1.setBridgeErr

protected theorem graphBeginBody {length : Nat} (h : Keeps s t) : KeepsRes s (graphBeginBody length t) :=
  .ite h.refuse (.ite h.refuse h.same.wr.wr.done)

protected theorem graphDataBody {offset : Nat} {data : List Byte} (h : Keeps s t) :
    KeepsRes s (graphDataBody offset data t) :=
  .ite h.refuse (.ite h.refuse (.ite h.refuse (Keeps.done (.ite h.same.wr.wr h.same.wr))))

protected theorem graphCheckBody (h : Keeps s t) : KeepsRes s (graphCheckBody t) := by
  unfold graphCheckBody
  refine .ite h.refuse ?_
  split
  · exact ⟨h.recordStage.wr⟩
  · exact h.setStageErr.wr.done

protected theorem describeGraph {b id source : Nat} {r : RamGraph} (h : Keeps s t) :
    Keeps s (describeGraph b id source r t) :=
  h.wr.wr.wr.wr.wr.wr.wr.wr.wr.wr

protected theorem installGraph {id source : Nat} {x : Sect} (h : Keeps s t) : Keeps s (installGraph id source x t) :=
  h.setBr.describeGraph

protected theorem unloadGraph {b : Nat} (h : Keeps s t) : Keeps s (unloadGraph b t) := h.setBr.wr.wr.wr.wr.wr.wr.wr.wr

protected theorem swapGraph {id : Nat} {x : Sect} (h : Keeps s t) : Keeps s (swapGraph id x t) := by
  unfold swapGraph
  extract_lets _ u1
  have h1 : Keeps s u1 := h.installGraph
  split
  · exact h1.countUp.logEvent
  · exact h1.setBr.holdReply

protected theorem graphLoadChecks {mask style : Nat} (h : Keeps s t) : KeepsRes s (graphLoadChecks mask style t) := by
  unfold graphLoadChecks
  extract_lets _ _ _ _ u1
  have h1 : Keeps s u1 := h.setStageErr
  refine .ite h.refuse (.ite h.refuse ?_)
  split
  · exact ⟨h.recordLoad⟩
  · exact .ite ⟨h.recordLoad⟩ (.ite (.ite ⟨h1⟩ (h1.foldl (fun _ _ h2 => h2.installGraph)).logEvent.done)
      (.ite ⟨h1⟩ (h1.foldl (fun _ _ h2 => h2.swapGraph)).done))

protected theorem graphLoadBody {hd : Hdr} {mask style : Nat} (h : Keeps s t) :
    KeepsRes s (graphLoadBody hd mask style t) :=
  h.withAuth fun _ h1 => h1.graphLoadChecks

protected theorem applySwap {b : Nat} (h : Keeps s t) : Keeps s (applySwap b t) := by
  unfold applySwap
  split
  · split
    · exact h.setBr.countUp.logEvent.swapSettled
    · exact h
  · exact h

protected theorem graphUnloadBody {b : Nat} (h : Keeps s t) : KeepsRes s (graphUnloadBody b t) :=
  .ite h.refuse (.ite h.refuse h.unloadGraph.done)

protected theorem graphInfoBody {b : Nat} (h : Keeps s t) : KeepsRes s (graphInfoBody b t) := by
  unfold graphInfoBody
  refine .ite h.refuse ?_
  split
  · exact .ite h.doneWith h.doneWith
  · exact h.doneWith

protected theorem setSlot {slot : Nat} {img : Option (List Byte)} {ok : Bool} (h : Keeps s t) :
    Keeps s (setSlot slot img ok t) :=
  .ite h.same.wr h.same.wr

protected theorem graphStoreChecks {hd : Hdr} {slot : Nat} (h : Keeps s t) : KeepsRes s
  (graphStoreChecks hd slot t) := by
  unfold graphStoreChecks
  refine .ite h.refuse (.ite h.refuse ?_)
  split
  · exact ⟨h.recordStage⟩
  · exact ⟨h.setStageErr.flashBegin.same.wr.beginRun⟩

protected theorem graphStoreBody {hd : Hdr} {slot : Nat} (h : Keeps s t) : KeepsRes s (graphStoreBody hd slot t) :=
  h.withAuth fun _ h1 => h1.graphStoreChecks

protected theorem graphStoreDone {ok : Bool} (h : Keeps s t) : Keeps s (graphStoreDone ok t) := by
  unfold graphStoreDone
  split
  · exact h
  · refine .ite h ?_
    extract_lets _ _ u1
    have h1 : Keeps s u1 := h.same.countErase.setSlot
    exact .endRun (.wr (.ite h1.logEvent h1))

protected theorem startLoad {i source k : Nat} {sel : List Sect} (h : Keeps s t) :
    Keeps s (startLoad i source k sel t) := by
  induction k generalizing sel t with
  | zero => exact h
  | succ k ih =>
    unfold startLoad
    split
    · exact .ite h (h.foldl fun _ _ h1 => h1.installGraph).logEvent
    · dsimp only
      split
      · exact ih h.recordLoad
      · exact h.recordLoad

protected theorem loadStartSlot (h : Keeps s t) : Keeps s (loadStartSlot t) := by
  unfold loadStartSlot
  extract_lets
  refine .ite h ?_
  split
  · exact h
  · extract_lets _ u1
    have h1 : Keeps s u1 := h.same.wr.setStageErr.wr
    split
    · exact h1.recordLoad
    · exact h1.startLoad

/-! ### Machine/Interlock.lean -/

protected theorem crossTrip {n : Nat} (h : Keeps s t) : Keeps s (crossTrip n t) := .ite h.setLeg.raise.countUp h

protected theorem gateFell {k : Nat} (h : Keeps s t) : Keeps s (gateFell k t) :=
  .ite h.crossTrip.clear.clear.setDie h.clear

protected theorem softTurnOff {k : Nat} (h : Keeps s t) : Keeps s (softTurnOff k t) := h.setDie
protected theorem gateOff {k : Nat} (h : Keeps s t) : Keeps s (gateOff k t) := .ite h (.ite h.softTurnOff h.gateFell)
protected theorem legOff {n : Nat} (h : Keeps s t) : Keeps s (legOff n t) := h.gateOff.gateOff

protected theorem interlock {n : Nat} (h : Keeps s t) : Keeps s (interlock n t) := by
  unfold interlock
  split
  · exact h
  · exact .ite (.ite h h.raise.countUp.setLeg.legOff) (.ite h.clear.setLeg (.ite h h.setLeg))

protected theorem interlocks (h : Keeps s t) : Keeps s (interlocks t) := h.each fun _ _ h1 => h1.interlock

protected theorem ptLowEnds {old : State} (h : Keeps s t) : Keeps s (ptLowEnds old t) :=
  h.each fun _ _ h1 => .ite h1.setLeg h1

protected theorem conflictResume {n : Nat} (h : Keeps s t) : Keeps s (conflictResume n t) := by
  unfold conflictResume
  split
  · exact h.setLeg.reachTime
  · exact h

/-! ### Machine/SillCore.lean -/

protected theorem noteKon (h : Keeps s t) : Keeps s (noteKon t) := h.each fun _ _ h1 => h1.same
protected theorem showActs (h : Keeps s t) : Keeps s (showActs t) := h.wr.wr.wr.wr

protected theorem safetyLog {event source bridges detail : Nat} (h : Keeps s t) :
    Keeps s (safetyLog event source bridges detail t) :=
  h.same.logEvent

protected theorem recode (h : Keeps s t) : Keeps s (recode t) :=
  .ite h.wr.wr.raise.safetyLog (.ite h.wr.wr.safetyLog h.wr.wr)

/-! ### Machine/Seal.lean -/

protected theorem armSupply {k : Nat} {on_ : Bool} (h : Keeps s t) : Keeps s (armSupply k on_ t) := h.setDie
protected theorem legRelease {n : Nat} (h : Keeps s t) : Keeps s (legRelease n t) := .ite h h.raise.armSupply.armSupply

protected theorem legBlock {n : Nat} (h : Keeps s t) : Keeps s (legBlock n t) :=
  h.clear.clear.setLeg.legOff.armSupply.armSupply

protected theorem setPulses {b : Nat} {on_ : Bool} (h : Keeps s t) : Keeps s (setPulses b on_ t) :=
  .ite (h.setBr.each (fun _ _ h1 => h1.legRelease)) (h.setBr.each (fun _ _ h1 => h1.legBlock))

protected theorem closeShutter {b : Nat} (h : Keeps s t) : Keeps s (closeShutter b t) := h.setBr.setPulses
protected theorem openShutter {b : Nat} (h : Keeps s t) : Keeps s (openShutter b t) := h.setBr.setPulses

protected theorem opClock {b : Nat} {on_ : Bool} (h : Keeps s t) : Keeps s (opClock b on_ t) := by
  unfold opClock
  extract_lets
  split
  · exact .ite h h.setBr
  · exact .ite h.setBr h

protected theorem setStep {b step : Nat} (h : Keeps s t) : Keeps s (setStep b step t) := h.wr.setBr.noteKon

protected theorem changeMode {b mode step : Nat} (h : Keeps s t) : Keeps s (changeMode b mode step t) :=
  h.wr.wr.raiseBit.setBr.noteKon.opClock.logEvent

protected theorem sealLeg {n : Nat} (h : Keeps s t) : Keeps s (sealLeg n t) :=
  h.setLeg.clear.clear.clear.clear.clear.clear.clear

protected theorem clearGraphRegs {b : Nat} (h : Keeps s t) : Keeps s (clearGraphRegs b t) :=
  h.clear.clear.clear.clear.clear.clear.clear.clear.clear.clear.clear

protected theorem refuseBeat {b : Nat} (h : Keeps s t) : Keeps s (refuseBeat b t) := by
  unfold refuseBeat
  split
  · exact h.setBr
  · exact h

protected theorem endOverdue {b : Nat} (h : Keeps s t) : Keeps s (endOverdue b t) := .ite h.same.safetyLog h

protected theorem sealBridge {b : Nat} {hd : SealHow} (h : Keeps s t) : Keeps s (sealBridge b hd t) := by
  unfold sealBridge
  refine .ite h ?_
  extract_lets u1 _ _ _ u2 _ _ u3 u4 _ u5
  have h1 : Keeps s u1 := .ite h.refuseBeat h
  have h2 : Keeps s u2 := .clearGraphRegs (.clear (.each (.freeEngines
    (.swapSettled (.swapSettled (.closeShutter (.ite h1.pullBridge h1))))) (fun _ _ h3 => h3.sealLeg)))
  have h3 : Keeps s u3 := h2.setBr.changeMode.wr.countUp
  have h4 : Keeps s u4 := .ite h3.raise h3
  have h5 : Keeps s u5 := .logEvent (.endRun (.ite h4.raiseBit h4))
  exact .triggerSource (.showActs (.endOverdue (.ite h5.endHold h5)))

protected theorem sealFor {b reason : Nat} (h : Keeps s t) : Keeps s (sealFor b reason t) := h.sealBridge

protected theorem crossCheck {n : Nat} (h : Keeps s t) : Keeps s (crossCheck n t) := by
  unfold crossCheck
  refine .ite ?_ h
  split
  · exact h.crossTrip.sealFor
  · exact h

protected theorem startRamp {b kind len reason : Nat} {latch : Bool} (h : Keeps s t) :
    Keeps s (startRamp b kind len reason latch t) :=
  h.setStep.setBr

protected theorem rampEnd {b : Nat} (h : Keeps s t) : Keeps s (rampEnd b t) := by
  unfold rampEnd
  split
  · split
    · exact h.reachTime.sealBridge
    · exact h
  · exact h

protected theorem ss1SillTimeout {b : Nat} (h : Keeps s t) : Keeps s (ss1SillTimeout b t) := by
  unfold ss1SillTimeout
  split
  · exact h.reachTime.sealBridge
  · exact h

protected theorem ss1Start {b : Nat} (h : Keeps s t) : Keeps s (ss1Start b t) := by
  unfold ss1Start
  split
  · exact .ite h.sealBridge (.ite h.setBr h)
  · exact .ite h.startRamp.setBr h.sealFor

protected theorem safetyBridge {old b : Nat} (h : Keeps s t) : Keeps s (safetyBridge old b t) :=
  .ite h (.ite h.sealBridge (.ite h.sealBridge (.ite h.ss1Start h)))

protected theorem applySafety (h : Keeps s t) : Keeps s (applySafety t) :=
  (h.each (fun _ _ h1 => h1.safetyBridge)).showActs

protected theorem faultLatched {event source bridges detail : Nat} (h : Keeps s t) :
    Keeps s (faultLatched event source bridges detail t) :=
  h.raise.safetyLog.applySafety

/-! ### Machine/GraphRun.lean -/

protected theorem blockWrite {b w : Nat} {o : OutW} (h : Keeps s t) : Keeps s (blockWrite b w o t) :=
  .ite h (.ite h.sigWrite.countUp h.sigWrite)

protected theorem inertiaEvents {b old new : Nat} (h : Keeps s t) : Keeps s (inertiaEvents b old new t) :=
  .ite h (.ite h.raise.countUp.logEvent h.raise.logEvent)

protected theorem inertiaCopy {b : Nat} {pars : List Nat} {outs : List OutW} (h : Keeps s t) :
    Keeps s (inertiaCopy b pars outs t) :=
  h.wr.wr.wr.wr.wr.wr.inertiaEvents

protected theorem freeOuts {l : List OutW} (h : Keeps s t) : Keeps s (freeOuts l t).2 := by
  induction l generalizing t with
  | nil => exact h
  | cons o os ih => exact ih h.drawFree

protected theorem boardOuts {p : Placed} {bad : Option Nat} {i : Nat} {outs : List OutW} (h : Keeps s t) :
    Keeps s (boardOuts p bad i outs t).2 := by
  unfold boardOuts
  split
  · exact h.freeOuts
  · exact h

protected theorem runRecord {b ip : Nat} {bad : Option Nat} {i : Nat} (h : Keeps s t) :
    Keeps s (runRecord b ip bad i t) := by
  unfold runRecord
  split
  · exact h
  · extract_lets _ _ _ _ _ _ _ u1
    have h1 : Keeps s u1 := (h.boardOuts.foldl (fun _ _ h2 => h2.blockWrite)).countUp
    exact .setBr (.ite h (.ite h1.inertiaCopy h1))

protected theorem runDue {b ip beatno : Nat} {before bad : Option Nat} (h : Keeps s t) :
    Keeps s (runDue b ip beatno before bad t) := by
  unfold runDue
  split
  · exact h
  · exact h.foldl fun _ _ h1 => h1.runRecord

protected theorem initSignals {g : Graph} (h : Keeps s t) : Keeps s (initSignals g t) :=
  h.foldl fun _ _ h1 => h1.sigWrite

/-! ### Machine/Modes.lean -/

protected theorem shutterFails {b : Nat} (h : Keeps s t) : Keeps s (shutterFails b t) := h.raiseBit.faultLatched
protected theorem shutterPasses {b : Nat} (h : Keeps s t) : Keeps s (shutterPasses b t) := h.setBr.clearBit

/-- A failed check 11 leaves the state in which its error is recorded. -/
protected theorem checkEleven {b mode : Nat} {u : State} (h : Keeps s t) (hu : checkEleven t b mode = .error u) :
    Keeps s u := by
  unfold checkEleven at hu
  split at hu
  · by_cases h1 : hasAbsentDie t b = true
    · rw [if_pos h1] at hu
      cases hu
      exact h
    · rw [if_neg h1] at hu
      extract_lets err at hu
      clear_value err
      by_cases h2 : err ≠ 0
      · rw [if_pos h2] at hu
        cases hu
        exact .ite h.wr h.wr
      · rw [if_neg h2] at hu
        rename_i g _ _
        by_cases h3 : msError t b g ≠ 0
        · rw [if_pos h3] at hu
          cases hu
          exact h.wr
        · rw [if_neg h3] at hu
          split at hu
          · cases hu
          · cases hu
            exact h.placeFailed
  · cases hu
    exact h

protected theorem recordModeRefusal {b mode : Nat} {r : Res} (h : Keeps s r.st) :
    KeepsRes s (recordModeRefusal b mode r) :=
  .ite ⟨h⟩ ⟨.ite h.raiseBit.countUp.wr.wr h.raiseBit.countUp.wr⟩

protected theorem enterFallback {b : Nat} (h : Keeps s t) : Keeps s (enterFallback b t) :=
  .ite (h.wr.clear.each (fun _ _ h1 => h1.wr2)).setBr ((h.wr.clear.each (fun _ _ h1 => h1.wr2)).setBr.each
    (fun _ _ h1 => h1.raise))

protected theorem enterService {b : Nat} (h : Keeps s t) : Keeps s (enterService b t) := by
  unfold enterService
  extract_lets u1
  have h1 : Keeps s u1 := h.changeMode
  refine .interlocks (.enterFallback ?_)
  split
  · exact h1.commitPlacement
  · exact h1.placeFailed
  · exact h1

protected theorem drawWait (h : Keeps s t) : Keeps s (drawWait t).2 := by
  unfold drawWait
  split
  · exact h.same
  · exact h

protected theorem enterWorking {b mode : Nat} {g : Graph} {a : List Asg} (h : Keeps s t) :
    Keeps s (enterWorking b mode g a t) := by
  unfold enterWorking
  extract_lets u1
  have h1 : Keeps s u1 := h.changeMode.commitPlacement.endAverages
  exact .ite h1.drawWait.setBr h1

protected theorem siteSeal {b : Nat} (h : Keeps s t) : Keeps s (siteSeal b t) := .ite h.sealFor h

protected theorem setSealed {hd : Hdr} {b style : Nat} (h : Keeps s t) : KeepsRes s (setSealed hd b style t) := by
  unfold setSealed
  extract_lets
  split
  · exact .ite h.sealBridge.doneWith (.ite h.sealBridge.doneWith h.sealBridge.doneWith)
  · exact .ite h.sealBridge.doneWith ⟨h.startRamp.beginRun⟩

protected theorem enterMode {hd : Hdr} {b mode : Nat} (h : Keeps s t) : KeepsRes s (enterMode hd b mode t) := by
  unfold enterMode
  refine .ite h.refuse (.ite h.enterService.doneWith (.ite ⟨h.shutterFails⟩ ?_))
  extract_lets
  split
  · rename_i hu
    exact ⟨h.shutterPasses.checkEleven hu⟩
  · exact ⟨h.shutterPasses.enterWorking.beginRun⟩

protected theorem setModeChecks {hd : Hdr} {b mode style : Nat} (h : Keeps s t) :
    KeepsRes s (setModeChecks hd b mode style t) :=
  .ite h.refuse (.ite h.refuse (.ite h.refuse (.ite h.refuse (.ite h.doneWith
    (.ite h.refuse (.ite h.refuse (.ite h.setSealed h.enterMode)))))))

protected theorem setModeBody {hd : Hdr} {b mode style : Nat} (h : Keeps s t) :
    KeepsRes s (setModeBody hd b mode style t) :=
  .ite h.refuse.st.recordModeRefusal (.ite h.refuse.st.recordModeRefusal
    (.ite (h.withAuth (fun _ h1 => h1.setModeChecks)).st.recordModeRefusal h.setModeChecks.st.recordModeRefusal))

protected theorem getModeBody {b : Nat} (h : Keeps s t) : KeepsRes s (getModeBody b t) := .ite h.refuse h.doneWith

protected theorem reachRun {b mode : Nat} (h : Keeps s t) : Keeps s (reachRun b mode t) :=
  .endRun (.ite h.setStep h.changeMode)

protected theorem nextStep {b : Nat} (h : Keeps s t) : Keeps s (nextStep b t) := by
  unfold nextStep
  extract_lets
  split
  · exact h.reachRun
  · exact h.setBr.setStep
  · exact h.setBr.setStep
  · exact h.setBr.setStep
  · exact h.setBr.reachRun
  · exact h.setBr.setStep
  · exact h.reachRun
  · exact h

protected theorem endStep {b : Nat} (h : Keeps s t) : Keeps s (endStep b t) := .ite h.setBr h.nextStep

protected theorem failStep {b reason : Nat} (h : Keeps s t) : Keeps s (failStep b reason t) :=
  .ite h.setBr (.ite h h.sealFor)

protected theorem settleStep {b : Nat} (h : Keeps s t) : Keeps s (settleStep b t) := by
  unfold settleStep
  refine .ite h.nextStep ?_
  split
  · exact h.sealFor
  · exact h

protected theorem stepAdvance {b : Nat} (h : Keeps s t) : Keeps s (stepAdvance b t) := .ite h.endStep h

protected theorem busCheckWaitExpiry {b : Nat} (h : Keeps s t) : Keeps s (busCheckWaitExpiry b t) :=
  .ite h.reachTime.endStep h

protected theorem konWaitExpiry {b : Nat} (h : Keeps s t) : Keeps s (konWaitExpiry b t) :=
  .ite h (.ite h.reachTime.failStep (.ite h.reachTime h))

protected theorem holdTimerExpiry {b : Nat} (h : Keeps s t) : Keeps s (holdTimerExpiry b t) := by
  unfold holdTimerExpiry
  refine .ite ?_ h
  split
  · exact h.reachTime.endStep
  · exact h

protected theorem blackstartTimeout {b : Nat} (h : Keeps s t) : Keeps s (blackstartTimeout b t) := by
  unfold blackstartTimeout
  refine .ite ?_ h
  split
  · exact h.reachTime.failStep
  · exact h

protected theorem syncTimeout {b : Nat} (h : Keeps s t) : Keeps s (syncTimeout b t) := .ite h.reachTime.failStep h
protected theorem clearLatch {b : Nat} (h : Keeps s t) : Keeps s (clearLatch b t) := .ite h h.clear
protected theorem startCarrier {b per : Nat} (h : Keeps s t) : Keeps s (startCarrier b per t) := h.same.setBr

protected theorem masterCarriers {s0 : State} (h : Keeps s t) : Keeps s (masterCarriers s0 t) :=
  h.each fun _ _ h1 => .ite (.ite h1.startCarrier h1) h1.setBr

protected theorem legCarrier {n per perF : Nat} (h : Keeps s t) : Keeps s (legCarrier n per perF t) :=
  .ite h.setLeg (.ite h.setLeg h.setLeg)

protected theorem startCarriers (h : Keeps s t) : Keeps s (startCarriers t) :=
  h.masterCarriers.foldl fun _ _ h1 => h1.legCarrier

protected theorem checkConfig {b : Nat} (h : Keeps s t) : Keeps s (checkConfig b t) := h.wr.wr.startCarriers

protected theorem verifyGraph {b : Nat} (h : Keeps s t) : Keeps s (verifyGraph b t).2 := by
  unfold verifyGraph
  split
  · exact h
  · split
    · exact h
    · extract_lets _ u1
      have h1 : Keeps s u1 := (h.each fun _ _ h2 => h2.engineBad).findErrors
      split
      · exact h1.clear.sealFor
      · exact h1

protected theorem graphVerifyBody {b : Nat} (h : Keeps s t) : KeepsRes s (graphVerifyBody b t) :=
  .ite h.refuse (.ite h.refuse h.verifyGraph.doneWith)

protected theorem graphVerifyPeriodic (h : Keeps s t) : Keeps s (graphVerifyPeriodic t) :=
  .ite h (h.each (fun _ _ h1 => h1.verifyGraph))

/-! ### Machine/Sash.lean -/

protected theorem delayLineFails (h : Keeps s t) : Keeps s (delayLineFails t) :=
  .ite h (h.raise.raise.each (fun _ _ h1 => h1.setLeg))

protected theorem delayLineMeasurement {taps : Nat} (h : Keeps s t) : Keeps s (delayLineMeasurement taps t) :=
  .ite h (.ite h.countWrap.wr.clear h.countWrap.wr.delayLineFails)

protected theorem putCarry {n per : Nat} {c : Int} (h : Keeps s t) : Keeps s (putCarry n per c t) :=
  .ite h.wr h.wr.countUp.raise

protected theorem putCounts {n : Nat} {q : Plan} (h : Keeps s t) : Keeps s (putCounts n q t) :=
  .ite h.countUp.countUp h.countUp.countUp.raise

protected theorem legFault {n : Nat} (h : Keeps s t) : Keeps s (legFault n t) := by
  unfold legFault
  extract_lets u1
  have h1 : Keeps s u1 := h.raise.legOff.logEvent
  split
  · exact h1.sealFor
  · exact h1

protected theorem refreshCheck {n : Nat} (h : Keeps s t) : Keeps s (refreshCheck n t) := by
  unfold refreshCheck
  split
  · exact h
  · exact .ite h.reachTime.setLeg.raise.raise.legFault h.reachTime.setLeg

protected theorem updatePulses {b n : Nat} {peak : Bool} {t' per : Nat} (h : Keeps s t) :
    Keeps s (updatePulses b n peak t' per t) :=
  h.putCarry.putCounts.wr.setLeg

protected theorem startFallback {b : Nat} (h : Keeps s t) : Keeps s (startFallback b t) := .ite h.openShutter h

protected theorem updatePoint {n : Nat} {peak beatEnd : Bool} (h : Keeps s t) :
    Keeps s (updatePoint n peak beatEnd t) := by
  unfold updatePoint
  split
  · exact h
  · split
    · exact h
    · refine .ite h ?_
      extract_lets _ _ _ _ _ u1 u2
      have h1 : Keeps s u1 := h.reachTime.refreshCheck.setLeg
      have h2 : Keeps s u2 := .ite h1.startFallback h1
      exact .ite h2.updatePulses h2.wr.clear.setLeg

protected theorem applyFbPer {b : Nat} (h : Keeps s t) : Keeps s (applyFbPer b t) :=
  .ite (h.each (fun _ _ h1 => h1.setLeg)) h

protected theorem applySet {b : Nat} {lim : FbLimit} (h : Keeps s t) : Keeps s (applySet b lim t) :=
  (h.applyFbPer.each (fun _ _ h1 => .ite h1.setLeg h1.setLeg)).setBr

protected theorem clearSplit {b : Nat} (h : Keeps s t) : Keeps s (clearSplit b t) := h.clear.clear

protected theorem fallbackValley {b : Nat} (h : Keeps s t) : Keeps s (fallbackValley b t) := by
  unfold fallbackValley
  extract_lets _ _ u1
  have h1 : Keeps s u1 := .ite h.countUp h
  exact .ite h.applySet.clearSplit (.ite h.clearSplit (.ite h.applySet.clearSplit
    (.ite h1.applySet.countUp.clearSplit h1.raise.wr)))

protected theorem takeStrobePer {b k : Nat} (h : Keeps s t) : Keeps s (takeStrobePer b k t) := by
  unfold takeStrobePer
  split
  · exact .ite (h.setBr.each (fun _ _ h1 => h1.setLeg)) h
  · exact h

protected theorem takePeriod {n : Nat} (h : Keeps s t) : Keeps s (takePeriod n t) := by
  unfold takePeriod
  refine .ite h ?_
  split
  · exact h.wr.setLeg
  · exact h.setLeg

protected theorem pushValley {b v : Nat} (h : Keeps s t) : Keeps s (pushValley b v t) := h.setBr

protected theorem masterValley {b : Nat} (h : Keeps s t) : Keeps s (masterValley b t) := by
  unfold masterValley
  refine .ite h ?_
  extract_lets _ u1
  have h1 : Keeps s u1 := h.reachTime.takeStrobePer
  exact .swapSettled (.pushValley (.each (.ite h1.fallbackValley h1) (fun _ _ h2 => h2.takePeriod)))

protected theorem sashLoadBody {b : Nat} (h : Keeps s t) : KeepsRes s (sashLoadBody b t) :=
  .ite h.refuse (.ite h.refuse (.ite h.refuse h.setBr.holdReply.done))

protected theorem countTrip {n : Nat} (h : Keeps s t) : Keeps s (countTrip n t) := by
  unfold countTrip
  extract_lets _ _ u1
  have h1 : Keeps s u1 := h.setLeg.countUp.countWrap.raise
  exact .ite h1.raise.raise.legFault h1

protected theorem endPulse {b n source : Nat} {high : Bool} (h : Keeps s t) : Keeps s (endPulse b n source high t) :=
  .ite h.setLeg h.setLeg.gateOff

protected theorem cycleTrip {n source : Nat} (h : Keeps s t) : Keeps s (cycleTrip n source t) := by
  unfold cycleTrip
  split
  · exact h
  · extract_lets u1
    have h1 : Keeps s u1 := .ite h.windowRises h
    refine .ite h1 (.ite h1.crossCheck (.ite (.ite h1.endPulse.countTrip ?_) (.ite h1.countTrip h1)))
    split
    · exact h1.reachTime.setLeg.countTrip
    · exact h1

protected theorem tripWindowExpire {n : Nat} (h : Keeps s t) : Keeps s (tripWindowExpire n t) := by
  unfold tripWindowExpire
  split
  · exact h
  · split
    · exact h
    · exact h.reachTime.setLeg.wr.wr

protected theorem clearLatchOff {n : Nat} (h : Keeps s t) : Keeps s (clearLatchOff n t) := h.wr.clear.clear.setLeg

protected theorem bootstrapRefresh {n : Nat} (h : Keeps s t) : Keeps s (bootstrapRefresh n t) := by
  unfold bootstrapRefresh
  refine .ite h ?_
  split
  · exact h.refreshCheck
  · exact .ite h.countUp.setLeg h
  · exact h

/-! ### Machine/Gate.lean -/

protected theorem passThroughEdge {input : Nat} {high : Bool} (h : Keeps s t) :
    Keeps s (passThroughEdge input high t) :=
  .ite (h.each (fun _ _ h1 => h1.crossCheck)).same.interlocks.ptLowEnds h

protected theorem causeEvents {k cause : Nat} (h : Keeps s t) : Keeps s (causeEvents k cause t) :=
  .ite h.raise.raise (.ite h.raise.raise (.ite h.raise.raise h.raise))

protected theorem dieOff {k cause : Nat} (h : Keeps s t) : Keeps s (dieOff k cause t) :=
  .gateOff (.ite h (.ite h.softTurnOff h.gateOff))

protected theorem dieFault {k cause : Nat} (h : Keeps s t) : Keeps s (dieFault k cause t) := by
  unfold dieFault
  refine .ite ?_ (.ite (.ite (.ite h.dieOff.wr.causeEvents h.dieOff) h.dieOff.setDie) h)
  extract_lets _ _ _ u1
  have h1 : Keeps s u1 := h.wr.wr.causeEvents.setDie.dieOff.logEvent
  split
  · exact h1.sealFor
  · exact h1

protected theorem shortCircuit {k : Nat} (h : Keeps s t) : Keeps s (shortCircuit k t) :=
  .ite (.dieFault (.setDie (.countUp (.ite h.reachTime h.raise.setDie)))) h

protected theorem softTurnOffEnd {k : Nat} (h : Keeps s t) : Keeps s (softTurnOffEnd k t) :=
  .ite h.reachTime.crossCheck.setDie.gateFell h

protected theorem overcurrentWarning {k : Nat} (h : Keeps s t) : Keeps s (overcurrentWarning k t) :=
  .ite h (.ite h.reachTime.raise.setDie h.reachTime.raise.setDie.countUp)

protected theorem stuckGate {k : Nat} (h : Keeps s t) : Keeps s (stuckGate k t) := .ite h.countUp.dieFault h
protected theorem dieLinkLost {k : Nat} (h : Keeps s t) : Keeps s (dieLinkLost k t) := .ite h.setDie.dieFault h

protected theorem dieOverTemperature {k : Nat} (h : Keeps s t) : Keeps s (dieOverTemperature k t) :=
  .ite h.setDie.dieFault h

protected theorem dieCommandTimeout {k : Nat} (h : Keeps s t) : Keeps s (dieCommandTimeout k t) :=
  .ite h.crossCheck.gateOff h

protected theorem setUvSince {k : Nat} {neg : Bool} {t' : Option Nat} (h : Keeps s t) :
    Keeps s (setUvSince k neg t' t) :=
  h.setDie

protected theorem supplyUndervoltage {k : Nat} {neg : Bool} (h : Keeps s t) : Keeps s (supplyUndervoltage k neg t) := by
  unfold supplyUndervoltage
  refine .ite h (.ite h.raise.dieFault (.ite (.setUvSince (.ite h.raise h.raise.crossCheck.gateOff))
    (.ite h.raise.dieFault ?_)))
  split
  · exact h.raise.setUvSince
  · exact h.raise.reachTime.dieFault

protected theorem zoneSupplyRecovery {k : Nat} {neg : Bool} (h : Keeps s t) : Keeps s (zoneSupplyRecovery k neg t) :=
  .ite h.clear.setUvSince h

protected theorem supplyWritten {k : Nat} (h : Keeps s t) : Keeps s (supplyWritten k t) := .ite h.zoneSupplyRecovery h

protected theorem causeGone {k : Nat} (h : Keeps s t) : Keeps s (causeGone k t).2 := by
  unfold causeGone
  split
  · exact h
  · exact h
  · exact h
  · exact h
  · exact h
  · exact h.drawFree

protected theorem clearDie {k : Nat} (h : Keeps s t) : Keeps s (clearDie k t) := by
  unfold clearDie
  refine .ite h ?_
  split
  · exact h.wr.causeEvents
  · exact .ite h.causeGone.wr.clear h.causeGone

protected theorem judgeShutter {k : Nat} {asserted : Bool} (h : Keeps s t) : Keeps s (judgeShutter k asserted t) := by
  unfold judgeShutter
  split
  · exact h
  · exact .ite h.setDie.setDie.setDie.shutterFails h.setDie

protected theorem gateRose {k : Nat} (h : Keeps s t) : Keeps s (gateRose k t) := .ite h h.raise.setDie.setLeg

protected theorem dieStatusFrame {k : Nat} {f : DieFrame} (h : Keeps s t) : Keeps s (dieStatusFrame k f t) := by
  unfold dieStatusFrame
  refine .ite h ?_
  extract_lets u1 _ _ u2
  have h1 : Keeps s u1 := h.crossCheck
  have h2 : Keeps s u2 := .setDie (.ite h1.gateRose h1.gateFell)
  exact .judgeShutter (.ite h2 h2.clear)

protected theorem adaptEdge {k : Nat} {on_ valid : Bool} {t' : Nat} (h : Keeps s t) :
    Keeps s (adaptEdge k on_ valid t' t) :=
  .ite h.wr h.wr

protected theorem switchEdgeMeasurement {k : Nat} {e : EdgeMeas} (h : Keeps s t) :
    Keeps s (switchEdgeMeasurement k e t) := by
  unfold switchEdgeMeasurement
  refine .ite h (.ite h.countUp ?_)
  extract_lets _ _ _ u1 u2
  have h1 : Keeps s u1 := h.crossCheck.sigWrite.wr.adaptEdge
  have h2 : Keeps s u2 := .ite h1.gateRose h1.gateOff
  exact .ite h2 h2.countUp

protected theorem louvreInit {k : Nat} (h : Keeps s t) : Keeps s (louvreInit k t) := h.wr.wr

/-! ### Machine/Measurement.lean -/

protected theorem converterTrigger {c : Nat} (h : Keeps s t) : Keeps s (converterTrigger c t) := by
  unfold converterTrigger
  refine .ite h ?_
  split
  · exact h
  · exact .ite h.reachTime.setConv.countUp h.reachTime.setConv

protected theorem windowCompare {n : Nat} {y : Int} (h : Keeps s t) : Keeps s (windowCompare n y t) :=
  .ite h.wr.countUp h.wr

protected theorem averageTake {c n : Nat} {raw : Int} (h : Keeps s t) : Keeps s (averageTake c n raw t) := .ite h h.same

protected theorem lowerLate {n : Nat} {y : Int} {before : Bool} (h : Keeps s t) : Keeps s (lowerLate n y before t) :=
  .ite h.sigWrite.countUp h.sigWrite

protected theorem inputResult {c n k t' : Nat} {raw : Int} (h : Keeps s t) : Keeps s (inputResult c n k t' raw t) := by
  unfold inputResult
  refine .averageTake ?_
  split
  · exact h.lowerLate
  · exact h.setConv.wr.sigWrite.windowCompare

protected theorem countOff {c p : Nat} {raw : Int} (h : Keeps s t) : Keeps s (countOff c p raw t) := h.setConv

protected theorem judgePair {p : Nat} (h : Keeps s t) : Keeps s (judgePair p t) := by
  unfold judgePair
  extract_lets _ _ _ _ u1 u2
  have h1 : Keeps s u1 := .ite h.raise.raise h.raise
  have h2 : Keeps s u2 := .ite h1.raise h1
  exact .ite (.ite h2 h2.raise.logEvent) h

protected theorem comparePair {p : Nat} {a b : Int} (h : Keeps s t) : Keeps s (comparePair p a b t) := by
  unfold comparePair
  extract_lets _ u1
  have h1 : Keeps s u1 := h.wr.setPair
  exact .judgePair (.countOff (.countOff (.ite h1.countUp h1)))

protected theorem checkResult {c t' : Nat} {raw : Int} (h : Keeps s t) : Keeps s (checkResult c t' raw t) := by
  unfold checkResult
  extract_lets _ _ u1
  have h1 : Keeps s u1 := .ite h.countUp h
  split
  · exact .ite h1.comparePair h1.countUp.setConv.setConv
  · exact h1.setConv

protected theorem clearTwin {p : Nat} (h : Keeps s t) : Keeps s (clearTwin p t) := .ite h.clear.clear.clear h

/-- The state in which the result of a conversion that is due has come. -/
protected theorem resultSlot {c n m : Nat} {u : State} (h : Keeps s t) (hu : resultSlot c t = some (n, m, u)) :
    Keeps s u := by
  unfold resultSlot at hu
  obtain ⟨⟨code, due⟩, -, hx⟩ := Option.map_eq_some_iff.1 hu
  dsimp only at hx
  split at hx <;> (cases hx; exact h.reachTime.setConv)

protected theorem captureResult {c raw lost : Nat} (h : Keeps s t) : Keeps s (captureResult c raw lost t) :=
  h.each fun _ _ h1 => h1.takeRow

protected theorem conversionResult {c : Nat} {r : ConvResult} (h : Keeps s t) : Keeps s (conversionResult c r t) := by
  unfold conversionResult
  refine .ite h ?_
  split
  · exact h
  · rename_i hu
    extract_lets u1
    have h1 : Keeps s u1 := (h.resultSlot hu).wr
    refine .ite h1.checkResult (.captureResult ?_)
    split
    · exact h1.inputResult
    · split
      · exact h1.sigWrite
      · exact h1

protected theorem autozero {c : Nat} (h : Keeps s t) : Keeps s (autozero c t) := .ite h.setConv h

protected theorem calStart {hd : Hdr} {op n log2n : Nat} {full : Option Int} (h : Keeps s t) :
    KeepsRes s (calStart hd op n log2n full t) :=
  .ite h.refuse (.ite h.refuse (.ite h.refuse ⟨h.same.raise.beginRun⟩))

protected theorem calZeroBody {hd : Hdr} {n log2n : Nat} (h : Keeps s t) : KeepsRes s (calZeroBody hd n log2n t) :=
  .ite h.refuse h.calStart

protected theorem calFullBody {hd : Hdr} {n log2n refq : Nat} (h : Keeps s t) :
    KeepsRes s (calFullBody hd n log2n refq t) :=
  .ite h.refuse h.calStart

protected theorem setCandidates {n : Nat} {r : CalRun} (h : Keeps s t) : Keeps s (setCandidates n r t) := by
  unfold setCandidates
  split
  · exact h.wr.raise.clear.clear
  · exact h.wr.raise

protected theorem calAverageEnd {n : Nat} (h : Keeps s t) : Keeps s (calAverageEnd n t) := by
  unfold calAverageEnd
  split
  · exact h
  · extract_lets u1
    have h1 : Keeps s u1 := .ite h.reachTime h
    exact .endAverage (.ite h1.setCandidates h1)

protected theorem calStoreChecks {hd : Hdr} {mask : Nat} (h : Keeps s t) : KeepsRes s (calStoreChecks hd mask t) :=
  .ite h.refuse (.ite h.refuse (.ite h.refuse ⟨h.flashBegin.same.beginRun⟩))

protected theorem calStoreBody {hd : Hdr} {mask : Nat} (h : Keeps s t) : KeepsRes s (calStoreBody hd mask t) :=
  h.withAuth fun _ h1 => h1.calStoreChecks

protected theorem dropCandidates {n : Nat} (h : Keeps s t) : Keeps s (dropCandidates n t) := h.clear.clear.clear.clear

protected theorem putCandidates {n : Nat} (h : Keeps s t) : Keeps s (putCandidates n t) := by
  unfold putCandidates
  extract_lets _ _ _ u1
  have h1 : Keeps s u1 := .ite h.same.wr h.same
  exact .dropCandidates (.clear (.ite h1.wr.raise h1))

protected theorem calStoreDone {ok : Bool} (h : Keeps s t) : Keeps s (calStoreDone ok t) := by
  unfold calStoreDone
  split
  · exact h
  · refine .ite h ?_
    extract_lets _ u1
    have h1 : Keeps s u1 := h.same.ringWrite.settleResync
    exact .ite (h1.each (fun _ _ h3 => h3.putCandidates)).same.logEvent.endRun (h1.each (fun _ _ h2 => h2.wr)).endRun

protected theorem calDiscardBody {mask : Nat} (h : Keeps s t) : KeepsRes s (calDiscardBody mask t) :=
  (h.each (fun _ _ h1 => h1.dropCandidates)).done

protected theorem calReadBody {n : Nat} (h : Keeps s t) : KeepsRes s (calReadBody n t) := .ite h.refuse h.doneWith

/-! ### Machine/HostLink.lean -/

protected theorem overflow (h : Keeps s t) : Keeps s (overflow t) := h.countUp.raise

protected theorem deliver {can : Bool} {bytes : List Byte} (h : Keeps s t) : Keeps s (deliver can bytes t) :=
  .ite h.overflow h.setTransport

protected theorem spiShow {bytes : List Byte} (h : Keeps s t) : Keeps s (spiShow bytes t) := h.same

protected theorem spiWrite {packet : List Byte} (h : Keeps s t) : Keeps s (spiWrite packet t) :=
  .ite h.deliver.spiShow h

protected theorem spiRead {n : Nat} (h : Keeps s t) : Keeps s (spiRead n t) := by
  unfold spiRead
  refine .ite h.spiShow ?_
  split
  · exact h.spiShow
  · exact .ite h.spiShow.setTransport h.spiShow

protected theorem spiStatus (h : Keeps s t) : Keeps s (spiStatus t) := h.spiShow
protected theorem badInstruction {b : Byte} (h : Keeps s t) : Keeps s (badInstruction b t) := .ite h h.countUp.spiShow
protected theorem setStream {k : Nat} {x : Stream} (h : Keeps s t) : Keeps s (setStream k x t) := h.same.putBit.putBit

protected theorem stopStreams {ks : List Nat} (h : Keeps s t) : Keeps s (stopStreams ks t) :=
  h.each fun _ _ h1 => .ite h1.setStream h1

protected theorem stopAllCan (h : Keeps s t) : Keeps s (stopAllCan t) := h.stopStreams
protected theorem stopCanStreams (h : Keeps s t) : Keeps s (stopCanStreams t) := .ite h h.stopAllCan
protected theorem dropSegments (h : Keeps s t) : Keeps s (dropSegments t) := h.same

protected theorem abandonSegments {r : SegRx} (h : Keeps s t) : Keeps s (abandonSegments r t) :=
  h.dropSegments.setTransport

protected theorem judgeSegments {r : SegRx} {n : Nat} (h : Keeps s t) : Keeps s (judgeSegments r n t) :=
  .ite h.dropSegments.deliver (.ite h.abandonSegments h.same)

protected theorem expireSegments (h : Keeps s t) : Keeps s (expireSegments t) := by
  unfold expireSegments
  split
  · exact .ite h.abandonSegments h
  · exact h

protected theorem segmentFrame {f : CanFrame} (h : Keeps s t) : Keeps s (segmentFrame f t) := by
  unfold segmentFrame
  refine .ite h.countUp ?_
  extract_lets u1
  have h1 : Keeps s u1 := h.expireSegments
  refine .ite h1.dropSegments.judgeSegments ?_
  split
  · exact h1
  · exact .ite h1.judgeSegments h1.abandonSegments

protected theorem segmentTimeout (h : Keeps s t) : Keeps s (segmentTimeout t) := by
  unfold segmentTimeout
  split
  · exact h
  · exact h.reachTime.abandonSegments

protected theorem canReplyEnds {sent : Bool} (h : Keeps s t) : Keeps s (canReplyEnds sent t) := by
  unfold canReplyEnds
  split
  · exact h
  · exact .ite h.same.setTransport h.same.setTransport.countUp

/-! ### Machine/Shutter.lean -/

protected theorem putLevels {i : Nat} {a b : Bool} (h : Keeps s t) : Keeps s (putLevels i a b t) :=
  .ite h.wr h.putBit.putBit

protected theorem sampleInput {levels i : Nat} (h : Keeps s t) : Keeps s (sampleInput levels i t) :=
  h.putLevels.countUp2.setSin

protected theorem beginDemand {start : Bool} {i : Nat} (h : Keeps s t) : Keeps s (beginDemand start i t) :=
  .ite h.setSin h.setSin.countUp.raise.safetyLog

protected theorem releaseDemand {i : Nat} (h : Keeps s t) : Keeps s (releaseDemand i t) := h.setSin.noteKon.safetyLog

protected theorem judgeInput {start ack : Bool} {i : Nat} (h : Keeps s t) : Keeps s (judgeInput start ack i t) := by
  unfold judgeInput
  split
  · exact .ite h.beginDemand h
  · exact .ite h.releaseDemand h

protected theorem judgeInputs {start ack : Bool} (h : Keeps s t) : Keeps s (judgeInputs start ack t) :=
  (h.each (fun _ _ h1 => h1.judgeInput)).applySafety

protected theorem clearFaults (h : Keeps s t) : Keeps s (clearFaults t) := by
  unfold clearFaults
  extract_lets _ u1 u2 u3
  have h1 : Keeps s u1 := (h.each (fun _ _ h2 => .ite (.setSin (.ite h2.clear h2.clearBit)) h2)).each fun _ _ h2 =>
    .ite h2.clearBit h2
  have h2 : Keeps s u2 := .ite h1.clear h1
  have h3 : Keeps s u3 := h2.each fun _ _ h4 => .ite (h4.clearBit.shutterPasses.each (fun _ _ h5 => h5.setDie)) h4
  exact .recode (.ite h3.clear h3)

protected theorem acknowledge {i : Nat} (h : Keeps s t) : Keeps s (acknowledge i t) :=
  h.safetyLog.clearFaults.judgeInputs

protected theorem ackSample {i : Nat} (h : Keeps s t) : Keeps s (ackSample i t).2 := by
  unfold ackSample
  dsimp only
  split
  · exact h.setSin
  · split
    · exact h.setSin
    · exact h.setSin

protected theorem ackInputs (h : Keeps s t) : Keeps s (ackInputs t) :=
  h.each fun _ _ h1 => .ite h1.ackSample.acknowledge h1.ackSample

protected theorem safetyInputSample {levels : Nat} (h : Keeps s t) : Keeps s (safetyInputSample levels t) :=
  (h.each (fun _ _ h1 => h1.sampleInput)).judgeInputs.ackInputs

protected theorem putDisc {i : Nat} {v : Bool} (h : Keeps s t) : Keeps s (putDisc i v t) := .ite h.wr h.putBit

protected theorem discTick {i : Nat} (h : Keeps s t) : Keeps s (discTick i t) :=
  .ite (.ite h.setSin.setSin (.ite h.setSin.setSin.putDisc.safetyLog h.setSin))
    (.ite h.setSin.setSin.putDisc.countUp.raise.safetyLog h.setSin)

protected theorem discrepancyTick (h : Keeps s t) : Keeps s (discrepancyTick t) :=
  (h.same.each (fun _ _ h1 => h1.discTick)).judgeInputs

protected theorem setTestOut {o : Nat} {x : TestOut} (h : Keeps s t) : Keeps s (setTestOut o x t) := h.same
protected theorem blankChannels (h : Keeps s t) : Keeps s (blankChannels t) := h.each fun _ _ h1 => h1.setSin
protected theorem testPulse {o : Nat} (h : Keeps s t) : Keeps s (testPulse o t) := .ite h.setTestOut.blankChannels h

protected theorem blankEndInput {o levels i : Nat} (h : Keeps s t) : Keeps s (blankEndInput o levels i t) :=
  .ite (.safetyLog (.raise (.countUp (.ite h.setSin.raise h.setSin.raiseBit)))) h.setSin

protected theorem testPulseBlankEnd {o levels : Nat} (h : Keeps s t) : Keeps s (testPulseBlankEnd o levels t) := by
  unfold testPulseBlankEnd
  split
  · exact h
  · exact (h.reachTime.setTestOut.each (fun _ _ h1 => h1.blankEndInput)).judgeInputs

protected theorem contactorReadbackAccept {k : Nat} {level : Bool} (h : Keeps s t) :
    Keeps s (contactorReadbackAccept k level t) :=
  .ite h (h.same.noteKon.each (fun _ _ h1 => h1.siteSeal))

protected theorem konFault {k : Nat} (h : Keeps s t) : Keeps s (konFault k t) := by
  unfold konFault
  split
  · exact h
  · exact .ite h h.reachTime.raiseBit.faultLatched

protected theorem scoContactorForce {i : Nat} (h : Keeps s t) : Keeps s (scoContactorForce i t) := by
  unfold scoContactorForce
  split
  · exact .ite h.reachTime.setSin.noteKon h
  · exact h

protected theorem reachOp {b hours : Nat} (h : Keeps s t) : Keeps s (reachOp b hours t) := by
  unfold reachOp
  split
  · exact h.reachTime
  · exact h

protected theorem testDue {b : Nat} (h : Keeps s t) : Keeps s (testDue b t) :=
  .ite h (.ite h.reachOp h.reachOp.raiseBit.raise.safetyLog)

protected theorem testOverdueSs1 {b : Nat} (h : Keeps s t) : Keeps s (testOverdueSs1 b t) := by
  unfold testOverdueSs1
  refine .ite h ?_
  extract_lets u1
  have h1 : Keeps s u1 := h.reachOp
  exact .ite h1 h1.same.countUp.raise.safetyLog.applySafety

protected theorem oscCheck {ratio : Nat} (h : Keeps s t) : Keeps s (oscCheck ratio t) :=
  .ite h (.ite h.same (.ite h.same h.same.raise.faultLatched))

protected theorem readPattern {p : Nat} (h : Keeps s t) : Keeps s (readPattern p t) := .ite h.same.wr h.same

protected theorem sealSwitchRead {levels pulsed : Nat} (h : Keeps s t) : Keeps s (sealSwitchRead levels pulsed t) := by
  unfold sealSwitchRead
  extract_lets _ _ _ u1
  have h1 : Keeps s u1 := h.same.readPattern
  exact .applySafety (.recode (.ite h1.raise.raise.safetyLog h1))

protected theorem safetyStatusBody (h : Keeps s t) : KeepsRes s (safetyStatusBody t) := h.doneWith
protected theorem safetyCodeBody (h : Keeps s t) : KeepsRes s (safetyCodeBody t) := h.doneWith

protected theorem safetyLogBody {entry : Nat} (h : Keeps s t) : KeepsRes s (safetyLogBody entry t) := by
  unfold safetyLogBody
  split
  · exact h.doneWith
  · exact h.refuse

/-! ### Machine/Can.lean -/

protected theorem setCanState {c v : Nat} (h : Keeps s t) : Keeps s (setCanState c v t) := h.wr
protected theorem reachActive {c : Nat} (h : Keeps s t) : Keeps s (reachActive c t) := .ite h.endRun h

protected theorem followCounters {c : Nat} (h : Keeps s t) : Keeps s (followCounters c t) :=
  .ite h.setCanState.reachActive h

protected theorem abortObj {c k : Nat} (h : Keeps s t) : Keeps s (abortObj c k t) := h.wr2.wr2.raise.setObj

protected theorem abandonAll {c : Nat} (h : Keeps s t) : Keeps s (abandonAll c t) := by
  unfold abandonAll
  extract_lets u1 u2
  have h1 : Keeps s u1 := h.each fun _ _ h2 => h2.abortObj
  have h2 : Keeps s u2 := .ite h1.canReplyEnds.setObj h1
  exact h2.setObj.setCan

protected theorem cutRuns {c : Nat} (h : Keeps s t) : Keeps s (cutRuns c t) :=
  .setCan (.ite (.endRun (.ite h.endRun h)) (.ite h.endRun h))

protected theorem enterConfig {c : Nat} (h : Keeps s t) : Keeps s (enterConfig c t) := h.abandonAll.cutRuns.setCanState

protected theorem enterBusOff {c : Nat} (h : Keeps s t) : Keeps s (enterBusOff c t) := by
  unfold enterBusOff
  extract_lets _ _ u1
  have h1 : Keeps s u1 := h.abandonAll.cutRuns.setCanState.countUp.raise.logEvent
  exact .ite h1.enterConfig h1

protected theorem transmitError {c code : Nat} (h : Keeps s t) : Keeps s (transmitError c code t) :=
  .ite h.wr (.ite h.wr.wr.enterBusOff h.wr.wr.followCounters)

protected theorem transmitOk {c : Nat} (h : Keeps s t) : Keeps s (transmitOk c t) := h.wr.followCounters

protected theorem canReceiveError {c : Nat} {e : RxError} (h : Keeps s t) : Keeps s (canReceiveError c e t) :=
  .ite h (.ite h.wr h.wr.wr.followCounters)

protected theorem receiveOk {c : Nat} (h : Keeps s t) : Keeps s (receiveOk c t) :=
  .ite h (.ite h.wr h.drawFree.wr.followCounters)

protected theorem countAttempt {c k : Nat} (h : Keeps s t) : Keeps s (countAttempt c k t) := .ite h.countUp2 h

protected theorem judgeCollision {c k code pos : Nat} (h : Keeps s t) : Keeps s (judgeCollision c k code pos t) := by
  unfold judgeCollision
  extract_lets _ _ _ u1
  have h1 : Keeps s u1 := h.setObj.countUp.raise
  exact .ite (.ite h1.wr2 h1) h.setObj

protected theorem abandonOne {c k : Nat} (h : Keeps s t) : Keeps s (abandonOne c k t) := by
  unfold abandonOne
  extract_lets u1
  have h1 : Keeps s u1 := h.countUp.raise
  exact .ite h1.abortObj (.ite h1.canReplyEnds.setObj h1.setObj.setCan)

protected theorem attemptFails {c k code pos : Nat} (h : Keeps s t) : Keeps s (attemptFails c k code pos t) := by
  unfold attemptFails
  refine .ite h.transmitError ?_
  extract_lets _ _ _ u1
  have h1 : Keeps s u1 := h.countAttempt.judgeCollision.setObj
  exact .transmitError (.ite h1.abandonOne h1)

protected theorem attemptSucceeds {c k : Nat} (h : Keeps s t) : Keeps s (attemptSucceeds c k t) := by
  unfold attemptSucceeds
  extract_lets u1
  have h1 : Keeps s u1 := h.countAttempt.transmitOk
  exact .ite h1.setObj.same.setCan (.ite h1.setObj.setCan h1.wr2.setObj.setCan)

protected theorem measureDelay {c k : Nat} {past : Nat → Bool} (h : Keeps s t) : Keeps s (measureDelay c k past t) :=
  .ite h.drawFree.wr h

protected theorem frameTransmit {c k : Nat} {o : TxOutcome} (h : Keeps s t) : Keeps s (frameTransmit c k o t) := by
  unfold frameTransmit
  refine .ite h ?_
  split
  · exact h
  · exact h.measureDelay.attemptSucceeds
  · exact h.measureDelay.attemptFails

protected theorem canReplySend {sent : Bool} (h : Keeps s t) : Keeps s (canReplySend sent t) :=
  .ite (.ite h.canReplyEnds.setObj h.abandonOne) h

protected theorem txRequest {c k : Nat} (h : Keeps s t) : Keeps s (txRequest c k t).2 := by
  unfold txRequest
  split
  · exact h
  · split
    · exact h
    · exact h.wr2.wr2.setObj

protected theorem referenceMessageDue {c : Nat} (h : Keeps s t) : Keeps s (referenceMessageDue c t) :=
  .ite h.reachTime.setObj.setCan h

protected theorem storeFrame {c k : Nat} {ws : List Nat} (h : Keeps s t) : Keeps s (storeFrame c k ws t) :=
  .setObj (.wr2 (.ite h.wr2 h))

protected theorem mapFrame {f : CanFrame} {m : Option (Bool × List (Nat × Nat))} (h : Keeps s t) :
    Keeps s (mapFrame f m t) := by
  unfold mapFrame
  split
  · exact h
  · exact h.each fun _ _ h1 => h1.sigWrite

protected theorem takeFrame {c k : Nat} {f : CanFrame} (h : Keeps s t) : Keeps s (takeFrame c k f t) :=
  .ite h.storeFrame.mapFrame (.ite h.wr2.setObj.mapFrame (.ite h.countUp.raise h.wr2.setObj.mapFrame))

protected theorem releaseLock {c : Nat} (h : Keeps s t) : Keeps s (releaseLock c t) := by
  unfold releaseLock
  split
  · exact h
  · extract_lets _ u1
    have h1 : Keeps s u1 := h.setCan.wr2
    split
    · exact h1.wr2.setObj.storeFrame
    · exact h1

protected theorem takeLock {c : Nat} (h : Keeps s t) : Keeps s (takeLock c t) := by
  unfold takeLock
  extract_lets
  split
  · exact h
  · exact h.setCan.wr2

protected theorem readLastWord {c : Nat} (h : Keeps s t) : Keeps s (readLastWord c t) := h.wr2.releaseLock

protected theorem lockTimeout {c : Nat} (h : Keeps s t) : Keeps s (lockTimeout c t) := by
  unfold lockTimeout
  split
  · exact h
  · exact h.reachTime.countUp.raise.releaseLock

protected theorem takeReference {c : Nat} {f : CanFrame} (h : Keeps s t) : Keeps s (takeReference c f t) := by
  unfold takeReference
  extract_lets
  split
  · exact h.setCan
  · exact .ite h.setCan.wr.wr.wr.wr.raise h.setCan

protected theorem frameReceive {c : Nat} {f : CanFrame} (h : Keeps s t) : Keeps s (frameReceive c f t) := by
  unfold frameReceive
  refine .ite h ?_
  extract_lets u1
  have h1 : Keeps s u1 := h.receiveOk
  refine .ite h1.takeReference (.ite h1.segmentFrame (.ite h1 ?_))
  split
  · exact h1.takeFrame
  · exact h1

protected theorem canSegmentReceive {f : CanFrame} (h : Keeps s t) : Keeps s (canSegmentReceive f t) :=
  .ite h.frameReceive h

protected theorem goOnBus {c v : Nat} (h : Keeps s t) : Keeps s (goOnBus c v t) := h.setCanState.setCan
protected theorem integrate {c : Nat} (h : Keeps s t) : Keeps s (integrate c t) := h.goOnBus

protected theorem integrationDone {c : Nat} (h : Keeps s t) : Keeps s (integrationDone c t) :=
  .ite h.setCanState.reachActive h

protected theorem busOffRecoveryDone {c : Nat} (h : Keeps s t) : Keeps s (busOffRecoveryDone c t) :=
  .ite h.clear.clear.setCanState.endRun h

protected theorem canWake {c : Nat} {w : Wake} (h : Keeps s t) : Keeps s (canWake c w t) := .ite h.integrate.raise h
protected theorem requestConfig {c : Nat} (h : Keeps s t) : Keeps s (requestConfig c t) := .ite h.setCan h.enterConfig
protected theorem canConfigEnter {c : Nat} (h : Keeps s t) : Keeps s (canConfigEnter c t) := .ite h.enterConfig h

protected theorem canBusOnBody {hd : Hdr} {c : Nat} (h : Keeps s t) : KeepsRes s (canBusOnBody hd c t) := by
  unfold canBusOnBody
  refine .ite h.refuse (.ite h.refuse (.ite h.refuse ?_))
  extract_lets
  split
  · exact ⟨h.integrate.beginRun⟩
  · exact ⟨h.integrate.raise.beginRun⟩
  · exact ⟨h.goOnBus.beginRun⟩
  · exact h.refuse

protected theorem canSleepBody {hd : Hdr} {c : Nat} (h : Keeps s t) : KeepsRes s (canSleepBody hd c t) :=
  .ite h.refuse (.ite h.refuse (.ite h.refuse ⟨h.setCan.beginRun⟩))

protected theorem canSleepEnter {c : Nat} (h : Keeps s t) : Keeps s (canSleepEnter c t) := by
  unfold canSleepEnter
  refine .ite ?_ h
  extract_lets _ _ u1
  have h1 : Keeps s u1 := h.abandonAll.setCanState.setCan.endRun
  exact .ite h1.enterConfig h1

protected theorem canStatusBody {c : Nat} (h : Keeps s t) : KeepsRes s (canStatusBody c t) := .ite h.refuse h.doneWith

protected theorem canMapBody {c : Nat} {entry : List Byte} (h : Keeps s t) : KeepsRes s (canMapBody c entry t) :=
  .ite h.refuse (.ite h.refuse (.ite h.refuse (.ite h.refuse (.ite h.refuse h.setObj.done))))

protected theorem showTriple {c : Nat} (h : Keeps s t) : Keeps s (showTriple c t) := h.wr

/-! ### Machine/Security.lean -/

protected theorem setBankState {bank v : Nat} (h : Keeps s t) : Keeps s (setBankState bank v t) := .ite h.wr h.wr
protected theorem runBank {b : Nat} (h : Keeps s t) : Keeps s (runBank b t) := h.same.wr
protected theorem evalCert (h : Keeps s t) : Keeps s (evalCert t) := .ite h.same.wr.wr.wr.raise h.same.wr.wr.wr

protected theorem getCounterBody {slot : Nat} (h : Keeps s t) : KeepsRes s (getCounterBody slot t) :=
  .ite h.refuse h.doneWith

protected theorem resyncCounter {slot value : Nat} (h : Keeps s t) : KeepsRes s (resyncCounter slot value t) :=
  .ite h.refuse (.ite h.refuse (.ite h.refuse (.ite h.same.holdReply.doneWith h.writeResync.ringWrite.doneWith)))

protected theorem counterResyncBody {hd : Hdr} {slot value : Nat} (h : Keeps s t) :
    KeepsRes s (counterResyncBody hd slot value t) :=
  h.withAuth fun _ h1 => h1.resyncCounter

protected theorem keyLoadChecks {hd : Hdr} {slot : Nat} {record wrap : List Byte} (h : Keeps s t) :
    KeepsRes s (keyLoadChecks hd slot record wrap t) := by
  unfold keyLoadChecks
  refine .ite h.refuse ?_
  split
  · exact h.refuse
  · exact .ite h.refuse (.ite h.refuse (.ite h.refuse ⟨.ite h.same.beginRun.holdReply h.same.beginRun⟩))

protected theorem keyLoadBody {hd : Hdr} {slot : Nat} {record : List Byte} (h : Keeps s t) :
    KeepsRes s (keyLoadBody hd slot record t) :=
  h.withAuth fun _ h1 => h1.keyLoadChecks

protected theorem keyLoadDone {ok : Bool} (h : Keeps s t) : Keeps s (keyLoadDone ok t) := by
  unfold keyLoadDone
  split
  · exact h
  · refine .ite h ?_
    extract_lets _ u1
    have h1 : Keeps s u1 := h.same.swapSettled
    exact .ite h1.raise.endRun.evalCert.logEvent h1.same.wr2.wr2.wr2.wr2.wr2.raise.endRun.evalCert.logEvent

protected theorem setRevoked {slot : Nat} (h : Keeps s t) : Keeps s (setRevoked slot t) := h.wr2.raise.evalCert.logEvent

protected theorem revokeKey {slot : Nat} (h : Keeps s t) : KeepsRes s (revokeKey slot t) :=
  .ite h.refuse (.ite h.same.holdReply.done h.setRevoked.done)

protected theorem keyRevokeBody {hd : Hdr} {slot : Nat} (h : Keeps s t) : KeepsRes s (keyRevokeBody hd slot t) :=
  h.withAuth fun _ h1 => h1.revokeKey

protected theorem keyInfoBody {slot : Nat} (h : Keeps s t) : KeepsRes s (keyInfoBody slot t) := .ite h.refuse h.doneWith

protected theorem counterCheckpointDone {ok : Bool} (h : Keeps s t) : Keeps s (counterCheckpointDone ok t) := by
  unfold counterCheckpointDone
  split
  · exact h
  · refine .ite h ?_
    extract_lets _ _ _ u1 u2
    have h1 : Keeps s u1 := .each (.ringWrite (.ite h.same.applyCheckpoint h.same)) fun _ _ h2 => h2.setRevoked
    have h2 : Keeps s u2 := .ite h1 h1.swapSettled
    exact h2.startCheckpoint

protected theorem afterDraw {n : Nat} (h : Keeps s t) : Keeps s (afterDraw n t) := h.same

protected theorem trngReadBody {count : Nat} (h : Keeps s t) : KeepsRes s (trngReadBody count t) :=
  .ite h.refuse (.ite h.refuse h.afterDraw.doneWith)

protected theorem trngHealthFail (h : Keeps s t) : Keeps s (trngHealthFail t) := h.wr.raise

protected theorem fwBeginChecks {length : Nat} (h : Keeps s t) : KeepsRes s (fwBeginChecks length t) :=
  .ite h.refuse (.ite h.refuse h.same.done)

protected theorem fwBeginBody {hd : Hdr} {length : Nat} (h : Keeps s t) : KeepsRes s (fwBeginBody hd length t) :=
  h.withAuth fun _ h1 => h1.fwBeginChecks

protected theorem fwDataBody {offset : Nat} {data : List Byte} (h : Keeps s t) :
    KeepsRes s (fwDataBody offset data t) := by
  unfold fwDataBody
  refine .ite h.refuse ?_
  split
  · exact h.refuse
  · exact .ite h.refuse (.ite h.refuse h.same.done)

protected theorem confirmTrial (h : Keeps s t) : Keeps s (confirmTrial t) :=
  h.setBankState.setBankState.wr.wr.evalCert.logEvent

protected theorem fwCommitChecks {hd : Hdr} (h : Keeps s t) : KeepsRes s (fwCommitChecks hd t) := by
  unfold fwCommitChecks
  refine .ite h.refuse ?_
  split
  · exact .ite h.confirmTrial.done h.refuse
  · exact .ite h.refuse (.ite h.refuse ⟨h.flashBegin.same.beginRun⟩)

protected theorem fwCommitBody {hd : Hdr} (h : Keeps s t) : KeepsRes s (fwCommitBody hd t) :=
  h.withAuth fun _ h1 => h1.fwCommitChecks

protected theorem spoilBank (h : Keeps s t) : Keeps s (spoilBank t) := h.same.same

protected theorem fwCommitDone {ok : Bool} (h : Keeps s t) : Keeps s (fwCommitDone ok t) := by
  unfold fwCommitDone
  refine .ite h ?_
  extract_lets _ _ _ _ u1 u2 _ _ _ _ u3
  have h1 : Keeps s u1 := .ite h.same.countErase h.same
  have h2 : Keeps s u2 := .ite h1.spoilBank h1
  have h3 : Keeps s u3 := h2.same.setBankState.wr
  exact .ite h (.ite h2.wr.evalCert.endRun.logEvent (.logEvent (.endRun (.evalCert (.ite h3.runBank.wr h3)))))

protected theorem fwInfoBody (h : Keeps s t) : KeepsRes s (fwInfoBody t) := h.doneWith

protected theorem setCounters {f : Nat → Nat} (h : Keeps s t) : Keeps s (setCounters f t) :=
  h.foldl fun _ _ h1 => .ite h1.wr2 h1

protected theorem restoreCounters {kept : Bool} (h : Keeps s t) : Keeps s (restoreCounters kept t) := by
  unfold restoreCounters
  extract_lets _ _ _ _ _ _ _ u1
  have h1 : Keeps s u1 := .ite h.same (.ite h.same.setCounters
    (.ite (h.same.each (fun _ _ h2 => .ite h2.wr2 h2)).setCounters
    (.ite (h.same.same.setCounters.foldl (fun _ _ h2 => h2.wr2)).wr.raise.raise
    (h.same.each (fun _ _ h2 => .ite h2.wr2.raise h2)))))
  exact (h1.foldl (fun _ _ h2 => h2.exhaustSlot)).startCheckpoint

protected theorem chooseBank {fatal : Bool} (h : Keeps s t) : Keeps s (chooseBank fatal t) := by
  unfold chooseBank
  extract_lets trial u1 _ confirmed previous
  have h1 : Keeps s u1 := by
    unfold u1
    clear_value trial
    split
    · exact .ite h.setBankState.raise h.wr.runBank
    · exact h
  clear_value confirmed previous
  refine .ite h1 ?_
  split
  · exact h1.runBank
  · exact h1.runBank
  · exact h1.raise

/-! ### Machine/Options.lean -/

protected theorem setCopy {k : Nat} {bs : List Byte} (h : Keeps s t) : Keeps s (setCopy k bs t) := h.same
protected theorem showCopies (h : Keeps s t) : Keeps s (showCopies t) := h.wr.wr.wr.wr

protected theorem applyRec {r : OptRec} (h : Keeps s t) : Keeps s (applyRec r t) := by
  unfold applyRec
  split
  · split
    · exact h.foldl fun _ _ h1 => h1.setReg
    · exact h
  · exact h.setObj
  · exact h.wr

protected theorem applyImage {bs : List Byte} (h : Keeps s t) : Keeps s (applyImage bs t) :=
  (h.foldl (fun _ _ h1 => h1.applyRec)).wr

protected theorem optionWriteChecks {hd : Hdr} (h : Keeps s t) : KeepsRes s (optionWriteChecks hd t) :=
  .ite h.refuse (.ite h.refuse ⟨h.countUp.setCopy.same.raise.beginRun⟩)

protected theorem optionWriteBody {hd : Hdr} (h : Keeps s t) : KeepsRes s (optionWriteBody hd t) :=
  h.withAuth fun _ h1 => h1.optionWriteChecks

protected theorem optionWriteDone {ok : Bool} (h : Keeps s t) : Keeps s (optionWriteDone ok t) := by
  unfold optionWriteDone
  split
  · exact h
  · extract_lets _ u1
    have h1 : Keeps s u1 := h.same.clear
    exact .ite h1.same.setCopy.showCopies.wr.endRun h1.showCopies.raise.endRun

protected theorem graphStartChecks {slot : Nat} (h : Keeps s t) : KeepsRes s (graphStartChecks slot t) := by
  unfold graphStartChecks
  refine .ite h.refuse (.ite h.refuse (.ite h.refuse ?_))
  extract_lets u1
  have h1 : Keeps s u1 := by
    unfold u1
    split
    · exact h.setCopy.same
    · exact h
  exact h1.same.wr.done

protected theorem graphStartBody {hd : Hdr} {slot : Nat} (h : Keeps s t) : KeepsRes s (graphStartBody hd slot t) :=
  h.withAuth fun _ h1 => h1.graphStartChecks

/-! ### Machine/Traction.lean -/

protected theorem encoderEdge {e levels stable : Nat} (h : Keeps s t) : Keeps s (encoderEdge e levels stable t) := by
  unfold encoderEdge
  split
  · exact .ite h.setEnc h
  · extract_lets _ _ _ _ _ _ u1
    have h1 : Keeps s u1 := .ite h.setEnc.countUp h.setEnc
    exact .ite h (.ite h.setEnc.countUp (.ite h1.countUp h1))

protected theorem encWrite {e b : Nat} (h : Keeps s t) : Keeps s (encWrite e b t) := by
  unfold encWrite
  extract_lets _ _ u1 u2
  have h1 : Keeps s u1 := h.sigWrite
  have h2 : Keeps s u2 := by
    refine .ite h.raise ?_
    split
    · exact h1.sigWrite
    · exact h1.drawFree.sigWrite
  exact h2.sigWrite.sigWrite.setEnc

protected theorem encClear {e : Nat} (h : Keeps s t) : Keeps s (encClear e t) := h.setEnc
protected theorem encRestart {e : Nat} (h : Keeps s t) : Keeps s (encRestart e t) := h.setEnc

protected theorem pulseInputEdge {p : Nat} {high : Bool} {stable : Nat} (h : Keeps s t) :
    Keeps s (pulseInputEdge p high stable t) := by
  unfold pulseInputEdge
  split
  · exact .ite h.setPul h
  · exact .ite h (.ite h.countUp (.ite h.setPul h.setPul))

protected theorem pulseWrite {p b : Nat} (h : Keeps s t) : Keeps s (pulseWrite p b t) := by
  unfold pulseWrite
  extract_lets
  split
  · exact .ite h.sigWrite.sigWrite h.raise
  · exact h.raise

protected theorem sourcesWrite {b : Nat} (h : Keeps s t) : Keeps s (sourcesWrite b t) :=
  (h.each (fun _ _ h1 => h1.encWrite)).each fun _ _ h1 => h1.pulseWrite

/-! ### Machine/ResetCtl.lean -/

protected theorem recordSource {n l : Nat} (h : Keeps s t) : Keeps s (recordSource n l t) := by
  unfold recordSource
  extract_lets u1 u2
  have h1 : Keeps s u1 := h.raiseBit
  have h2 : Keeps s u2 := by
    unfold u2
    split
    · exact h1.countUp
    · exact h1.countUp
    · exact h1.countUp
    · exact h1.countUp
    · exact h1
  exact h2.same

/-- A reset builds the register map anew, one canonical write after the other. -/
protected theorem resetRegs {sel : Nat → RegDef → FieldDef → Bool} (h : Keeps s t) : Keeps s (resetRegs sel t) :=
  ⟨fun _ => swf_foldl_sput _ _ [] rfl, h.pending, h.now⟩

protected theorem blowFuses {w v : Nat} (h : Keeps s t) : Keeps s (blowFuses w v t) := h.same

protected theorem cutPulse {n : Nat} (h : Keeps s t) : Keeps s (cutPulse n t) := by
  unfold cutPulse
  split
  · exact h
  · exact .ite h.same.drawFree.blowFuses h.same.blowFuses

protected theorem markFailed (h : Keeps s t) : Keeps s (markFailed t) := h.each fun _ _ h1 => h1.setEng
protected theorem restartAges (h : Keeps s t) : Keeps s (restartAges t) := (h.each (fun _ _ h1 => h1.setEng)).same
protected theorem resetCapture {lost : Bool} (h : Keeps s t) : Keeps s (resetCapture lost t) := h.same

protected theorem resetTraction (h : Keeps s t) : Keeps s (resetTraction t) :=
  (h.each (fun _ _ h1 => h1.encRestart)).each fun _ _ h1 => h1.setPul

protected theorem tornBank (h : Keeps s t) : Keeps s (tornBank t) := .ite h.spoilBank h

protected theorem tornRewrite (h : Keeps s t) : Keeps s (tornRewrite t) := by
  unfold tornRewrite
  split
  · exact .ite h.same.setCopy.same h.same
  · exact h

protected theorem systemParts {l n : Nat} (h : Keeps s t) : Keeps s (systemParts l n t) := by
  unfold systemParts
  extract_lets _ u1 u2
  have h1 : Keeps s u1 := h.resetCapture.resetTraction.cutPulse.tornRewrite
  have h2 : Keeps s u2 := by
    refine .tornBank ?_
    split
    · exact h1.setSlot
    · exact h1
  exact h2.same.each fun _ _ h3 => h3.setBr

protected theorem controlParts (h : Keeps s t) : Keeps s (controlParts t) := by
  unfold controlParts
  extract_lets u1 u2 _ _ _ _ _ u3
  have h1 : Keeps s u1 := h.resetCapture.resetTraction
  have h2 : Keeps s u2 := by
    unfold u2
    split
    · exact h1.setSlot
    · exact h1
  have h3 : Keeps s u3 := (h2.same.each (fun _ _ h4 => h4.setBr)).each fun _ _ h4 => h4.setDie
  exact h3.clear.wr

protected theorem endControlRuns (h : Keeps s t) : Keeps s (endControlRuns t) := by
  unfold endControlRuns
  extract_lets u1
  have h1 : Keeps s u1 := h.each fun _ _ h2 => h2.endAverage
  exact .endRun (.ite h1.endRun h1)

protected theorem levelReset {l n : Nat} (h : Keeps s t) : Keeps s (levelReset l n t) := by
  unfold levelReset
  extract_lets u1 u2 u3
  have h1 : Keeps s u1 := (h.each (fun _ _ h2 => h2.sealBridge)).markFailed
  have h2 : Keeps s u2 := .ite h1.endControlRuns h1
  have h3 : Keeps s u3 := h2.resetRegs
  exact .same (.clear (.restartAges (.ite h3.controlParts h3.systemParts)))

protected theorem abandonShutdown (h : Keeps s t) : Keeps s (abandonShutdown t) := .ite h.clear.endRun h

protected theorem bridgeReset {b : Nat} (h : Keeps s t) : Keeps s (bridgeReset b t) := by
  unfold bridgeReset
  refine .ite h ?_
  extract_lets _ _ _ _ _ u1 _ u2
  have h1 : Keeps s u1 := (h.sealBridge.setBr.each (fun _ _ h2 => h2.encClear)).resetRegs
  have h2 : Keeps s u2 := (h1.each (fun _ _ h3 => h3.setLeg)).each fun _ _ h3 => h3.setConv
  exact h2.startCarriers.abandonShutdown

protected theorem interpreterReset (h : Keeps s t) : Keeps s (interpreterReset t) :=
  (h.tornRewrite.abandonShutdown.each (fun _ _ h1 => h1.setObj)).same

protected theorem stopServing (h : Keeps s t) : Keeps s (stopServing t) := h.same

protected theorem takeReset {n l : Nat} (h : Keeps s t) : Keeps s (takeReset n l t) :=
  .ite h.levelReset.same (.ite h.interpreterReset.stopServing h)

protected theorem assertSource {n l : Nat} (h : Keeps s t) : Keeps s (assertSource n l t) :=
  .ite h (.recordSource (.ite h h.takeReset))

protected theorem assertMapped {n : Nat} (h : Keeps s t) : Keeps s (assertMapped n t) := h.assertSource

protected theorem storeError {x : CriticalStore} (h : Keeps s t) : Keeps s (storeError x t) :=
  .ite h.assertMapped.same h.assertMapped

/-! ### Machine/Start.lean -/

protected theorem readMap {ok : Bool} (h : Keeps s t) : Keeps s (readMap ok t) :=
  h.same.wr.each fun _ _ h1 => .ite h1 h1.wr

protected theorem beginTimestamp (h : Keeps s t) : Keeps s (beginTimestamp t) := h.same
protected theorem sealedDefaults (h : Keeps s t) : Keeps s (sealedDefaults t) := h.wr.raise

protected theorem loadOptions {warm ramOk : Bool} (h : Keeps s t) : Keeps s (loadOptions warm ramOk t) := by
  unfold loadOptions
  refine .showCopies (.ite h.sealedDefaults ?_)
  split
  · exact h.applyImage.wr.clear
  · exact .ite h.same.applyImage.wr.clear h.same.applyImage.wr.clear.raise
  · exact .ite h.sealedDefaults h.sealedDefaults.raise

protected theorem checkAll (h : Keeps s t) : Keeps s (checkAll t) := h.each fun _ _ h1 => h1.checkConfig

protected theorem startClocks {pllA : Bool} (h : Keeps s t) : Keeps s (startClocks pllA t) := by
  unfold startClocks
  extract_lets _ _ u1 u2
  have h1 : Keeps s u1 := h.same.wr.wr.wr
  have h2 : Keeps s u2 := .ite h1.clear.wr.wr.raise h1
  exact .ite h1 (.ite h2.same.wr h2)

protected theorem startTrng {trng : Bool} (h : Keeps s t) : Keeps s (startTrng trng t) := .ite h.clear h.trngHealthFail

protected theorem startSecurity {warm trng : Bool} (h : Keeps s t) : Keeps s (startSecurity warm trng t) :=
  h.chooseBank.startTrng.restoreCounters.evalCert

protected theorem putCalibration {vals : List (Nat × Nat × Nat × Bool)} (h : Keeps s t) :
    Keeps s (putCalibration vals t) :=
  h.each fun _ _ h1 => h1.wr.wr.wr

protected theorem restoreCalibration (h : Keeps s t) : Keeps s (restoreCalibration t) := by
  unfold restoreCalibration
  split
  · exact h.putCalibration
  · exact h.putCalibration.raise

protected theorem startStores {warm : Bool} (h : Keeps s t) : Keeps s (startStores warm t) := by
  unfold startStores
  extract_lets u1 u2 _ u3
  have h1 : Keeps s u1 := h.each fun _ _ h2 => h2.dropCandidates
  have h2 : Keeps s u2 := h1.restoreLedger.restoreCalibration.each fun _ _ h3 => h3.clear.clear
  have h3 : Keeps s u3 := .ite h1 h2.same
  exact h3.wr.wr

protected theorem startCan (h : Keeps s t) : Keeps s (startCan t) := h.each fun _ _ h1 => h1.setCanState.showTriple
protected theorem startSafety (h : Keeps s t) : Keeps s (startSafety t) := h.noteKon.judgeInputs.recode.applySafety

protected theorem trimConverters {ok : Bool} (h : Keeps s t) : Keeps s (trimConverters ok t) :=
  .ite h (h.each (fun _ _ h1 => h1.wr.raise))

protected theorem earlyStart {warm : Bool} {env : StartEnv} (h : Keeps s t) : Keeps s (earlyStart warm env t) := by
  unfold earlyStart
  extract_lets _ _ _ u1
  have h1 : Keeps s u1 := .trimConverters (.startSecurity (.startClocks
    (.checkAll (.loadOptions (.beginTimestamp (.readMap (.ite h h.same)))))))
  exact .wr (.wr (.wr (.startSafety (.ite h1 h1.startCan))))

protected theorem lateStart {l : Nat} {warm : Bool} {env : StartEnv} (h : Keeps s t) :
    Keeps s (lateStart l warm env t) :=
  .ite h.startStores.wr h.startTrng.evalCert

protected theorem startDie {l : Nat} {present : Bool} {k : Nat} (h : Keeps s t) : Keeps s (startDie l present k t) :=
  .ite h.wr.clear.clear (.louvreInit (.ite h.wr.wr.wr h.wr.wr))

protected theorem startDies {l dies : Nat} (h : Keeps s t) : Keeps s (startDies l dies t) :=
  (h.each (fun _ _ h1 => h1.startDie)).wr

protected theorem startConverter {l : Nat} {warm trims passes : Bool} {c : Nat} (h : Keeps s t) :
    Keeps s (startConverter l warm trims passes c t) :=
  .ite h.wr.raise (.ite h (.ite h.wr (.ite h.wr h.wr.raise)))

protected theorem startEngines {warm : Bool} {env : StartEnv} (h : Keeps s t) : Keeps s (startEngines warm env t) := by
  unfold startEngines
  extract_lets _ _ _ _ u1 u2
  have h1 : Keeps s u1 := by
    refine h.each fun _ _ h2 => ?_
    extract_lets _ u3
    have h3 : Keeps s u3 := h2.setEng
    exact .ite (.wr (.ite h3.wr h3)) (.ite h3.wr.clearBit h3.countUp.failEngine)
  have h2 : Keeps s u2 := .ite h1.raise h1
  exact h2.wr.wr.wr.wr

protected theorem startGraphs {l : Nat} {imageRam : Bool} (h : Keeps s t) : Keeps s (startGraphs l imageRam t) :=
  .ite h (h.each (fun _ _ h1 => h1.unloadGraph)).loadStartSlot

protected theorem showMinimum (h : Keeps s t) : Keeps s (showMinimum t) :=
  .each (.ite h.wr.stopAllCan h.wr) fun _ _ h1 => h1.wr

protected theorem startTimebase (h : Keeps s t) : Keeps s (startTimebase t) := h.same.wr

protected theorem controlStart {l : Nat} {warm : Bool} {env : StartEnv} (h : Keeps s t) :
    Keeps s (controlStart l warm env t) := by
  unfold controlStart
  extract_lets _ _ u1 _ u2
  have h1 : Keeps s u1 := (h.startDies.each (fun _ _ h2 => h2.startConverter)).startEngines
  have h2 : Keeps s u2 := .startTimebase (.ite h1 h1.wr)
  exact .startGraphs (.wr (.ite h2.checkAll h2.startCarriers))

protected theorem startDone {l : Nat} {warm : Bool} {began ms : Nat} (h : Keeps s t) :
    Keeps s (startDone l warm began ms t) := by
  unfold startDone
  extract_lets _ _ _ _ u1
  have h1 : Keeps s u1 := h.same.raise.wr.wr.wr.wr
  exact .logEvent (.reachTime (.ite h1.interpreterReset.stopServing h1))

protected theorem finishStart {l : Nat} {r : StartRun} {env : StartEnv} (h : Keeps s t) :
    Keeps s (finishStart l r env t) := by
  unfold finishStart
  extract_lets _ u1
  have h1 : Keeps s u1 := h.lateStart
  exact .startDone (.showMinimum (.ite h1 (.ite h1.same h1.controlStart)))

protected theorem serveEarly {r : StartRun} {ms : Nat} (h : Keeps s t) : Keeps s (serveEarly r ms t) :=
  h.showMinimum.same.reachTime

protected theorem runStart {warm : Bool} {env : StartEnv} (h : Keeps s t) : Keeps s (runStart warm env t) := by
  unfold runStart
  split
  · exact h
  · refine .ite h ?_
    split
    · exact .ite h.finishStart h
    · exact .ite h.wr (.ite (.ite h h.finishStart) (.ite h.earlyStart.serveEarly h.earlyStart.finishStart))

protected theorem coldStart {env : StartEnv} (h : Keeps s t) : Keeps s (coldStart env t) := .ite h h.runStart
protected theorem warmStart {env : StartEnv} (h : Keeps s t) : Keeps s (warmStart env t) := .ite h h.runStart

protected theorem joinParts (h : Keeps s t) : Keeps s (joinParts t) := by
  unfold joinParts
  split
  · exact .ite h h.same.controlStart.showMinimum
  · exact h

protected theorem dropSource {n : Nat} (h : Keeps s t) : Keeps s (dropSource n t) := by
  unfold dropSource
  extract_lets _ _ u1
  have h1 : Keeps s u1 := h.same.joinParts
  exact .ite h1 (.ite h1.interpreterReset.stopServing h1.same)

protected theorem resetRelease {n : Nat} (h : Keeps s t) : Keeps s (resetRelease n t) := by
  unfold resetRelease
  split
  · exact h
  · exact .ite h (.ite h.dropSource h.reachTime.dropSource)

/-! ### Machine/Reset.lean -/

protected theorem powerOn (h : Keeps s t) : Keeps s (powerOn t) := by
  unfold powerOn
  exact h.same.levelReset.recordSource

protected theorem rstNAssert (h : Keeps s t) : Keeps s (rstNAssert t) := .assertMapped (.ite h.same h)
protected theorem rstNRelease (h : Keeps s t) : Keeps s (rstNRelease t) := .ite h (.dropSource (.ite h.same h))
protected theorem pllaLockLoss (h : Keeps s t) : Keeps s (pllaLockLoss t) := .ite h.clear.assertMapped h

protected theorem watchdogExpiry {dog : Watchdog} (h : Keeps s t) : Keeps s (watchdogExpiry dog t) := by
  unfold watchdogExpiry
  split
  · split
    · exact h.reachTime.assertMapped
    · exact h
  · exact h.assertMapped

protected theorem debugResetRequest (h : Keeps s t) : Keeps s (debugResetRequest t) := .ite h h.assertMapped

protected theorem resetBody {hd : Hdr} {level b : Nat} (h : Keeps s t) : KeepsRes s (resetBody hd level b t) :=
  .ite h.refuse (.ite h.assertSource.done (.ite (Keeps.done (.recordSource (.ite h h.bridgeReset))) h.same.done))

protected theorem resetCommandAct (h : Keeps s t) : Keeps s (resetCommandAct t) := by
  unfold resetCommandAct
  split
  · exact h
  · exact .assertSource (.ite (.clear (.same (.ite h.reachTime h))) (.same (.ite h.reachTime h)))

protected theorem shutBridge {hd : Hdr} {b : Nat} (h : Keeps s t) : Keeps s (shutBridge hd b t) :=
  .ite h (.ite h.startRamp h.setSealed.st)

protected theorem shutdownBody {hd : Hdr} (h : Keeps s t) : KeepsRes s (shutdownBody hd t) := by
  unfold shutdownBody
  refine .ite h.refuse ⟨?_⟩
  dsimp only
  exact h.raise.beginRun.each fun _ _ h1 => h1.shutBridge

protected theorem shutdownFinish (h : Keeps s t) : Keeps s (shutdownFinish t) :=
  .ite h.beginCheckpoint.ledgerCheckpointDone.startCheckpoint.counterCheckpointDone.same.assertSource h

protected theorem fuseProgramChecks {hd : Hdr} {w v : Nat} (h : Keeps s t) : KeepsRes s
  (fuseProgramChecks hd w v t) := by
  unfold fuseProgramChecks
  split
  · exact h.refuse
  · exact .ite h.refuse (.ite h.refuse (.ite h.refuse ⟨h.same.beginRun⟩))

protected theorem fuseProgramBody {hd : Hdr} {w v : Nat} (h : Keeps s t) : KeepsRes s (fuseProgramBody hd w v t) :=
  h.withAuth fun _ h1 => h1.fuseProgramChecks

protected theorem fuseProgramDone {ok : Bool} (h : Keeps s t) : Keeps s (fuseProgramDone ok t) := by
  unfold fuseProgramDone
  split
  · exact h
  · exact .endRun (.logEvent (.evalCert (.ite h.same.blowFuses h.same.drawFree.blowFuses)))

/-! ### Machine/Clocks.lean -/

protected theorem refInLost (h : Keeps s t) : Keeps s (refInLost t) := .ite h (.ite h.clear.raise h.pllaLockLoss)
protected theorem abandonTraining (h : Keeps s t) : Keeps s (abandonTraining t) := .ite h.same.wr h

protected theorem coast (h : Keeps s t) : Keeps s (coast t) := by
  unfold coast
  extract_lets _ _ u1
  have h1 : Keeps s u1 := .countUp (.raise (.raise (.clear (.ite h.raise h))))
  exact .ite h (.same (.ite h1 h1.markNotAligned))

protected theorem dellanRefLost {cki : Bool} (h : Keeps s t) : Keeps s (dellanRefLost cki t) :=
  .ite (.ite h (.coast (.abandonTraining (.wr (.same (.ite h h.raise.raise)))))) (.ite h.coast h)

protected theorem dellanRefReturn {stable : Bool} (h : Keeps s t) : Keeps s (dellanRefReturn stable t) :=
  .ite h (.ite h.same.clear.wr.reachTime h.same.wr)

protected theorem beginTraining (h : Keeps s t) : Keeps s (beginTraining t) :=
  .ite (h.each (fun _ _ h1 => h1.dropSymbol)).same.wr h

protected theorem pllbLock (h : Keeps s t) : Keeps s (pllbLock t) := by
  unfold pllbLock
  refine .ite h ?_
  extract_lets _ _ _ _ u1
  have h1 : Keeps s u1 := h.raise.clear.raise.same.same.wr
  exact .ite h.raise.clear.raise.same.clear (.ite (.ite h1.beginTraining h1) h.raise.clear.raise.same)

protected theorem showErr {e : Int} (h : Keeps s t) : Keeps s (showErr e t) := h.wr

protected theorem measure {e left : Int} (h : Keeps s t) : Keeps s (measure e left t) := by
  unfold measure
  extract_lets _ u1 _ u2
  have h1 : Keeps s u1 := h.same.showErr
  have h2 : Keeps s u2 := .ite h1.clear h1
  exact .ite (.ite h1.clear.clear.raise h1.clear) (.ite h2 h2.markNotAligned)

protected theorem loadTimestamp {e z : Int} {epoch : Nat} (h : Keeps s t) : Keeps s (loadTimestamp e z epoch t) :=
  h.same.showErr.countUp.raise.clear.wr.markNotAligned

protected theorem compareTime {y : SyncSeen} {t' : TimeSymbol} (h : Keeps s t) : Keeps s (compareTime y t' t) :=
  .ite (.ite h.loadTimestamp h) h.measure

protected theorem checkedSymbol {crcOk : Bool} {k : State → State} (h : Keeps s t)
  (hk : ∀ u, Keeps s u → Keeps s (k u)) :
    Keeps s (checkedSymbol crcOk k t) :=
  .ite h (.ite (hk _ h) h.countUp)

protected theorem syncReceive {y : SyncSymbol} (h : Keeps s t) : Keeps s (syncReceive y t) :=
  .ite h (.ite (.sendSymbol (.ite h.same h)) (.ite h.same h))

protected theorem sendTime {t' : TimeSymbol} {sched : Int} (h : Keeps s t) : Keeps s (sendTime t' sched t) :=
  .ite h.sendSymbol h.sendSymbol.same

protected theorem timeReceive {y : TimeSymbol} (h : Keeps s t) : Keeps s (timeReceive y t) := by
  unfold timeReceive
  refine .ite h ?_
  extract_lets _ u1 _ u2
  have h1 : Keeps s u1 := h.same.clear
  have h2 : Keeps s u2 := by
    unfold u2
    split
    · exact .ite h1.same.compareTime h1
    · exact h1
  exact .ite h1 (.ite h2.sendTime h2)

protected theorem triggerReceive {y : TrigSymbol} (h : Keeps s t) : Keeps s (triggerReceive y t) :=
  .ite h (.ite h.wr.triggerSymbol.sendTrigSymbol h.wr.triggerSymbol)

protected theorem stepTimestamp {up : Bool} (h : Keeps s t) : Keeps s (stepTimestamp up t) := h.same

protected theorem tsFineStep (h : Keeps s t) : Keeps s (tsFineStep t) := by
  unfold tsFineStep
  refine .ite (.ite h h.reachTime.same.stepTimestamp) (.ite h ?_)
  extract_lets _ u1
  have h1 : Keeps s u1 := by
    unfold u1
    split
    · exact h.reachTime
    · exact h
  exact h1.same.stepTimestamp

protected theorem holdRateMeasure {ppb : Int} (h : Keeps s t) : Keeps s (holdRateMeasure ppb t) := .ite h h.same.wr
protected theorem ppsEdge (h : Keeps s t) : Keeps s (ppsEdge t) := .ite h.same.showErr h
protected theorem syncSchedule (h : Keeps s t) : Keeps s (syncSchedule t) := .ite h.reachTime.sendSymbol.sendTime.same h
protected theorem symbolLoss (h : Keeps s t) : Keeps s (symbolLoss t) := .ite h h.raise.reachTime

protected theorem trainReceive {y : TrainSymbol} (h : Keeps s t) : Keeps s (trainReceive y t) := by
  unfold trainReceive
  refine .ite h (.ite h.same ?_)
  extract_lets _ u1
  have h1 : Keeps s u1 := h.wr.wr.raise.clear
  exact .ite (.ite h1 h1.raise) h.wr.wr.wr.raise.clear

protected theorem trainReply {y : TrainReply} (h : Keeps s t) : Keeps s (trainReply y t) := by
  unfold trainReply
  split
  · exact h
  · exact h.same

protected theorem trainingEnd (h : Keeps s t) : Keeps s (trainingEnd t) := by
  unfold trainingEnd
  split
  · exact h
  · exact .ite h.same.same.wr h.same.wr.wr.countUp.raise.same

protected theorem trainingRetry (h : Keeps s t) : Keeps s (trainingRetry t) := .ite h.reachTime.beginTraining h

protected theorem crossingFails {id : Nat} (h : Keeps s t) : Keeps s (crossingFails id t) :=
  .ite h.raise.engineBad h.raise

protected theorem checkCrossing {id : Nat} {x : Crossing} (h : Keeps s t) : Keeps s (checkCrossing id x t) :=
  .ite h.setCrossing.crossingFails h.setCrossing

protected theorem watchCrossing {id : Nat} (h : Keeps s t) : Keeps s (watchCrossing t id) :=
  .ite h.setCrossing.crossingFails h

protected theorem watchCrossings (h : Keeps s t) : Keeps s (watchCrossings t) := h.each fun _ _ h1 => h1.watchCrossing

protected theorem idleTick (h : Keeps s t) : Keeps s (idleTick t) :=
  Keeps.watchCrossings (Keeps.expireHeld ⟨h.regs, h.pending, h.now.trans (Nat.le_succ _)⟩)

protected theorem transomSend {id : Nat} (h : Keeps s t) : Keeps s (transomSend id t) := .ite h h.checkCrossing

protected theorem transomDrain {id : Nat} (h : Keeps s t) : Keeps s (transomDrain id t) :=
  .ite h (.ite h h.checkCrossing)

protected theorem creditReturn {id : Nat} (h : Keeps s t) : Keeps s (creditReturn id t) :=
  .ite h (.ite h.checkCrossing h.checkCrossing)

/-! ### Machine/Background.lean -/

protected theorem bankCorrected {k : Nat} (h : Keeps s t) : Keeps s (bankCorrected k t) :=
  .ite h (.logCorrected (.ite h.countUp.raise h.countUp))

protected theorem paneBad {n addr : Nat} (h : Keeps s t) : Keeps s (paneBad n addr t) := .ite h.countUp.raise.logEvent h

protected theorem dramBad {addr : Nat} (h : Keeps s t) : Keeps s (dramBad addr t) :=
  .ite h.storeError (.ite (h.each (fun _ _ h1 => h1.hingeRestart)) h.paneBad)

protected theorem dramFound {f : DramFinding} (h : Keeps s t) : Keeps s (dramFound f t) := by
  unfold dramFound
  refine .ite h ?_
  split
  · exact h
  · exact h.bankCorrected
  · exact h.dramBad
  · exact h.wr.countWrap

protected theorem imageChanges {b : Nat} (h : Keeps s t) : Keeps s (imageChanges b t) := .ite h h.setBr

protected theorem copyChanges {e i : Nat} (h : Keeps s t) : Keeps s (copyChanges e i t) := by
  unfold copyChanges
  refine h.each fun _ _ h1 => ?_
  split
  · exact .ite h1.setBr h1
  · exact h1

protected theorem sramFound {f : SramFinding} (h : Keeps s t) : Keeps s (sramFound f t) := by
  unfold sramFound
  refine .ite h ?_
  split
  · exact h
  · exact h.countUp.logCorrected
  · exact .ite h h.countUp.logCorrected
  · exact h.storeError
  · exact h.imageChanges
  · exact h.copyChanges

protected theorem parityPatrol (h : Keeps s t) : Keeps s (parityPatrol t) := .ite h h.storeError

protected theorem eraseAhead {area sector : Nat} (h : Keeps s t) : Keeps s (eraseAhead area sector t) :=
  .ite h (.ite h h.eraseSector)

protected theorem patrolMark {k : Nat} {sound : Bool} (h : Keeps s t) : Keeps s (patrolMark k sound t) := by
  unfold patrolMark
  have h1 : Keeps s (if sound ∨ k < 4 ∨ 7 ≤ k then (0, t) else drawFree t).2 := by
    split
    · exact h
    · exact h.drawFree
  exact .ite h1.same (.ite h1.same (.ite h1.same (.ite h1.same (.ite h1.same h1))))

protected theorem patrolOn {k : Nat} (h : Keeps s t) : Keeps s (patrolOn k t) := h.wr.same

protected theorem patrolRead {k : Nat} {sound : Bool} (h : Keeps s t) : Keeps s (patrolRead k sound t) := by
  unfold patrolRead
  refine .ite h.clearBit ?_
  extract_lets u1
  have h1 : Keeps s u1 := h.raiseBit.raise
  exact .logEvent (.ite h1.clear (.ite h1.clear h1))

protected theorem flashPatrol {k : Nat} {sound : Bool} (h : Keeps s t) : Keeps s (flashPatrol k sound t) :=
  .ite h (.ite h.patrolOn (.ite h h.patrolMark.patrolOn.patrolRead))

protected theorem tlmCfgBody {k : Nat} {config : List Byte} (h : Keeps s t) : KeepsRes s (tlmCfgBody k config t) :=
  .ite h.refuse (.ite h.refuse h.setStream.done)

protected theorem tlmStartBody {mask : Nat} (h : Keeps s t) : KeepsRes s (tlmStartBody mask t) :=
  .ite h.refuse (.ite h.refuse (.ite h.refuse (h.each (fun _ _ h1 => .ite h1 h1.setStream)).done))

protected theorem tlmStopBody {mask : Nat} (h : Keeps s t) : KeepsRes s (tlmStopBody mask t) := h.stopStreams.done

protected theorem tlmSample {k : Nat} (h : Keeps s t) : Keeps s (tlmSample k t) := by
  unfold tlmSample
  extract_lets _ _ u1
  have h1 : Keeps s u1 := h.reachTime.setStream
  exact .ite h (.ite h1.storeError (.ite h1.queueReply h1.countUp))

/-! ### Machine/Zone.lean -/

protected theorem ntcConvert {k : Nat} (h : Keeps s t) : Keeps s (ntcConvert k t) := by
  unfold ntcConvert
  split
  · exact h
  · split
    · exact h.raise
    · extract_lets u1
      have h1 : Keeps s u1 := h.clear.sigWrite
      exact .ite (.ite h1.raise h1.raise.raise) h1.clear

protected theorem ntcWrite {k : Nat} {r : NtcReading} (h : Keeps s t) : Keeps s (ntcWrite k r t) := by
  unfold ntcWrite
  refine .ite h ?_
  extract_lets
  split
  · exact .ite h.setDie h.setDie.ntcConvert
  · exact h.setDie.ntcConvert

/-! ### Machine/Beat.lean -/

protected theorem beginRamp {b : Nat} (h : Keeps s t) : Keeps s (beginRamp b t) := by
  unfold beginRamp
  split
  · exact h.setBr
  · exact h

protected theorem settleShares {b : Nat} (h : Keeps s t) : Keeps s (settleShares b t) :=
  .ite h (h.each (fun _ _ h1 => h1.setShare))

protected theorem ntcWrites {b : Nat} (h : Keeps s t) : Keeps s (ntcWrites b t) := h.each fun _ _ h1 => h1.ntcConvert

protected theorem systemWrites {b : Nat} {g : Graph} (h : Keeps s t) : Keeps s (systemWrites b g t) := by
  unfold systemWrites
  extract_lets _ _ _ _ _ _ u1
  have h1 : Keeps s u1 := (h.sourcesWrite.ntcWrites.sigWrite.sigWrite.sigWrite.sigWrite.sigWrite.sigWrite.wr.wr.each
    (fun _ _ h2 => h2.sigWrite)).settleShares
  exact h1.each fun _ _ h2 => h2.sigWrite

protected theorem judgeBeat {b : Nat} {g : Graph} (h : Keeps s t) : Keeps s (judgeBeat b g t) := by
  unfold judgeBeat
  split
  · exact .ite h.sealFor h
  · exact .ite h.setBr.setStep h.setBr
  · exact .ite h.setBr h.setBr.setStep
  · exact .ite h.sealBridge h
  · exact .ite h.sealBridge h
  · exact h

protected theorem captureInput {b lost : Nat} (h : Keeps s t) : Keeps s (captureInput b lost t) :=
  h.each fun _ _ h1 => .ite h1.setUnit.takeRow h1.setUnit

protected theorem rearmSinks {g : Graph} (h : Keeps s t) : Keeps s (rearmSinks g t) := h.each fun _ _ h1 => h1.setUnit

protected theorem openBeat {b : Nat} {p : Placed} (h : Keeps s t) : Keeps s (openBeat b p t) := by
  unfold openBeat
  extract_lets u1 u2
  have h1 : Keeps s u1 := by
    unfold u1
    split
    · exact h.countWrap.wr
    · exact h.initSignals
  have h2 : Keeps s u2 := h1.applySwap
  split
  · exact h2.setBr
  · exact h2

protected theorem moveBlocks {b : Nat} (h : Keeps s t) : Keeps s (moveBlocks b t) := by
  unfold moveBlocks
  extract_lets u1
  have h1 : Keeps s u1 := h.hingeAdvance
  split
  · exact h1
  · exact .ite h1.sealFor (h1.each (fun _ _ h2 => h2.evacuate)).findErrors

protected theorem hingeLate {b : Nat} {late : List Nat} (h : Keeps s t) : Keeps s (hingeLate b late t) := h.hingeAgain

protected theorem runBeat {b : Nat} {bad : Option Nat} (h : Keeps s t) : Keeps s (runBeat b bad t) := by
  unfold runBeat
  split
  · exact h
  · exact h.setBr.runDue

protected theorem beatInputPoint {b : Nat} {x : BeatShown} (h : Keeps s t) : Keeps s (beatInputPoint b x t) := by
  unfold beatInputPoint
  refine .ite h ?_
  split
  · exact h
  · refine .ite h ?_
    extract_lets u1 u2 _ u3 _ _ u4
    have h1 : Keeps s u1 := h.reachTime
    have h2 : Keeps s u2 := .ite h1.settleStep h1
    have h3 : Keeps s u3 := h2.reachTime.openBeat.beginRamp.systemWrites
    have h4 : Keeps s u4 := h3.judgeBeat.captureInput.rearmSinks.hingeLate.moveBlocks.runBeat
    refine .ite h2 (.ite h3.storeError ?_)
    split
    · exact h4.hingeMismatch
    · exact h4

protected theorem strobePulses {b : Nat} (h : Keeps s t) : Keeps s (strobePulses b t) :=
  .ite h.setPulses (.ite h.setPulses (.ite h h.openShutter))

protected theorem loadAll {b e : Nat} (h : Keeps s t) : Keeps s (loadAll b e t) := h.setBr.each fun _ _ h1 => h1.setLeg
protected theorem takeDuties {b : Nat} (h : Keeps s t) : Keeps s (takeDuties b t) := h.each fun _ _ h1 => h1.setLeg

protected theorem copyGrid {b : Nat} {g : Graph} (h : Keeps s t) : Keeps s (copyGrid b g t) := by
  unfold copyGrid
  extract_lets _ u1
  have h1 : Keeps s u1 := by
    unfold u1
    split
    · exact h.wr.wr.setBr
    · exact h
  split
  · exact h1.wr.wr
  · exact h1

protected theorem countReaction {b code : Nat} {ramp first : Bool} (h : Keeps s t) :
    Keeps s (countReaction b code ramp first t) :=
  .ite h (.ite h.countUp.raise (.ite h.countUp.raise h.countUp.raise))

protected theorem reactTraction {b code reason : Nat} (h : Keeps s t) : Keeps s (reactTraction b code reason t) := by
  unfold reactTraction
  refine .ite h ?_
  extract_lets _ _ _ u1
  have h1 : Keeps s u1 := h.setBr.wr.wr
  refine .ite h1.raise.countReaction (.ite h1.countReaction.sealBridge ?_)
  split
  · exact h1.setBr.countReaction.refuseBeat
  · exact .ite h1.startRamp.countReaction.refuseBeat h1.countReaction.sealBridge

protected theorem rideLog {b code : Nat} (h : Keeps s t) : Keeps s (rideLog b code t) := h.logEvent

protected theorem reactGrid {b code reason : Nat} (h : Keeps s t) : Keeps s (reactGrid b code reason t) :=
  .ite h.changeMode.raise.countUp.rideLog (.ite h.sealBridge (.ite h.changeMode.raise.rideLog
    (.ite h.raise.rideLog.sealFor h.raise)))

protected theorem readReaction {b : Nat} {g : Graph} (h : Keeps s t) : Keeps s (readReaction b g t) :=
  .ite h (.ite h.reactTraction h.reactGrid)

protected theorem takeDac {g : Graph} (h : Keeps s t) : Keeps s (takeDac g t) := .ite h.same h

protected theorem fireSinks {g : Graph} {ip : Nat} (h : Keeps s t) : Keeps s (fireSinks g ip t) :=
  h.each fun _ _ h1 => .ite h1.setUnit.triggerSink h1

protected theorem countOverrun {b : Nat} {p : Placed} (h : Keeps s t) : Keeps s (countOverrun b p t) :=
  .ite h.countUp.sealFor h.countUp.setBr

protected theorem strobe {b e : Nat} (h : Keeps s t) : Keeps s (strobe b e t) :=
  .ite h.takeDuties.loadAll.setBr.sealFor h.takeDuties.loadAll.setBr.strobePulses

protected theorem beatOutputPoint {b : Nat} (h : Keeps s t) : Keeps s (beatOutputPoint b t) := by
  unfold beatOutputPoint
  refine .ite h ?_
  split
  · exact h
  · refine .ite h (.ite h.storeError ?_)
    extract_lets _ _ _ u1
    have h1 : Keeps s u1 := .ite h.setBr (.ite h.setBr.countOverrun h.setBr.strobe)
    exact .ite h1 h1.copyGrid.takeDac.readReaction.fireSinks

protected theorem beatOverrun {b : Nat} (h : Keeps s t) : Keeps s (beatOverrun b t) := by
  unfold beatOverrun
  refine .ite h ?_
  split
  · exact .ite h.reachTime.countOverrun h
  · exact h

protected theorem signalAgeing {i : Nat} (h : Keeps s t) : Keeps s (signalAgeing i t) := by
  unfold signalAgeing
  split
  · exact h.sigAge
  · exact h

protected theorem noGraphWriteCycle {slow : Bool} (h : Keeps s t) : Keeps s (noGraphWriteCycle slow t) :=
  .ite ((h.each (fun _ _ h1 => h1.sigWrite)).each (fun _ _ h1 => h1.sigWrite)) (h.each (fun _ _ h1 => h1.sourcesWrite))

/-! ### Machine/Window.lean -/

protected theorem refuseAt {status a : Nat} (h : Keeps s t) : KeepsRes s (refuseAt status a t) := h.wr.refuse
protected theorem clearRc {r : RegDef} {a : Nat} (h : Keeps s t) : Keeps s (clearRc r a t) := .ite h.setReg h

protected theorem readEffect {r : RegDef} {a i j : Nat} (h : Keeps s t) : Keeps s (readEffect r a i j t) := by
  unfold readEffect
  extract_lets u1
  have h1 : Keeps s u1 := h.clearRc
  exact .ite h1.same (.ite h1.setCrossing (.ite h1.takeLock (.ite h1.readLastWord h1)))

protected theorem readReg {a : Nat} (h : Keeps s t) : Keeps s (readReg a t).2 := by
  unfold readReg
  split
  · exact h.readEffect
  · exact h

protected theorem readRegs {l : List Nat} (h : Keeps s t) : Keeps s (readRegs l t).2 := by
  induction l generalizing t with
  | nil => exact h
  | cons a l ih => exact ih h.readReg

protected theorem readWinBody {addr count : Nat} (h : Keeps s t) : KeepsRes s (readWinBody addr count t) := by
  unfold readWinBody
  refine .ite h.refuse ?_
  split
  · exact h.refuseAt
  · exact .ite h.readRegs.doneWith h.storeError.refuse

protected theorem storeBuf {r : RegDef} {c k : Nat} {w : Word} (h : Keeps s t) : Keeps s (storeBuf r c k w t) :=
  h.setObj

protected theorem storeSignal {n : Nat} {w : Word} (h : Keeps s t) : Keeps s (storeSignal n w t) := h.sigWrite

protected theorem storeWord {a : Nat} {w : Word} (h : Keeps s t) : Keeps s (storeWord a w t) := by
  unfold storeWord
  split
  · exact h.storeSignal
  · split
    · exact h
    · exact .ite h.storeBuf (.ite h.storeBuf (.ite h.storeBuf (.ite h.setEntry h.setReg)))

protected theorem applyPer {n : Nat} (h : Keeps s t) : Keeps s (applyPer n t) := by
  unfold applyPer
  split
  · exact .ite h (.ite h.startCarriers (h.each (fun _ _ h1 => h1.setLeg)))
  · exact h

protected theorem bridgeWritten {b : Nat} (h : Keeps s t) : Keeps s (bridgeWritten b t) :=
  h.unloadGraph.checkConfig.recode.applySafety

protected theorem encoderWritten {s0 : State} {b : Nat} (h : Keeps s t) : Keeps s (encoderWritten s0 b t) :=
  .ite (.encClear (.ite h.encClear h)) (.ite h.encClear h)

protected theorem steerWritten {b : Nat} (h : Keeps s t) : Keeps s (steerWritten b t) :=
  .ite h (h.each (fun _ _ h1 => h1.setShare))

protected theorem vangatWritten {s0 : State} {a : Nat} (h : Keeps s t) : Keeps s (vangatWritten s0 a t) :=
  .ite h h.dropSegments.stopCanStreams

protected theorem convWritten {c : Nat} (h : Keeps s t) : Keeps s (convWritten c t) :=
  .ite (.ite h h.setConv) (.wr (.ite h h.setConv))

protected theorem fbWritten {b : Nat} {duty : Option Nat} (h : Keeps s t) : Keeps s (fbWritten b duty t) := by
  unfold fbWritten
  split
  · exact h.wr.setBr
  · exact h.wr2.setBr

protected theorem faultClear {b : Nat} (h : Keeps s t) : Keeps s (faultClear b t) := .ite h.clearLatch h.storeError

protected theorem actBridge {s0 : State} {base i j : Nat} {w : Word} (h : Keeps s t) :
    Keeps s (actBridge s0 base i j w t) :=
  .ite h.bridgeWritten (.ite (.ite h.faultClear h) (.ite h.encoderWritten
    (.ite h.fbWritten (.ite h.fbWritten (.ite h.steerWritten h)))))

protected theorem actPower {base i : Nat} {w : Word} (h : Keeps s t) : Keeps s (actPower base i w t) :=
  .ite h.applyPer (.ite (.ite h.clearLatchOff h) (.ite h.louvreInit
    (.ite h.supplyWritten (.ite (.ite h.clearDie h) (.ite h.interlocks
    (.ite h.convWritten (.ite (.ite h.clearTwin h) (.ite (.ite h.same h) h))))))))

protected theorem actLink {s0 : State} {a base i j : Nat} {w : Word} (h : Keeps s t) :
    Keeps s (actLink s0 a base i j w t) :=
  .ite h.vangatWritten (.ite h.showTriple (.ite (.ite h.requestConfig h)
    (.ite h.releaseLock (.ite (.ite h.txRequest h) (.ite (.ite h.beginTraining h)
    (.ite h.noteKon.blankChannels.recode.applySafety h))))))

protected theorem actWord {s0 : State} {a : Nat} {w : Word} (h : Keeps s t) : Keeps s (actWord s0 a w t) := by
  unfold actWord
  split
  · exact h.actBridge.actPower.actLink
  · exact h

protected theorem writeAll {ws : List (Nat × Word)} (h : Keeps s t) : Keeps s (writeAll ws t) :=
  (h.foldl (fun _ _ h1 => h1.storeWord)).foldl fun _ _ h1 => h1.actWord

protected theorem writeChecked {ws : List (Nat × Word)} (h : Keeps s t) : KeepsRes s (writeChecked ws t) := by
  unfold writeChecked
  split
  · exact h.refuseAt
  · exact h.writeAll.done

protected theorem writeWinBody {hd : Hdr} {addr : Nat} {values : List Word} (h : Keeps s t) :
    KeepsRes s (writeWinBody hd addr values t) := by
  unfold writeWinBody
  refine .ite h.refuse ?_
  split
  · exact h.refuseAt
  · exact .ite (h.withAuth (fun _ h1 => h1.writeChecked)) h.writeChecked

/-! ### Machine/WindowRows.lean -/

protected theorem pingBody (h : Keeps s t) : KeepsRes s (pingBody t) := h.doneWith
protected theorem getStatusBody (h : Keeps s t) : KeepsRes s (getStatusBody t) := h.doneWith

protected theorem readWin {hd : Hdr} {addr count : Nat} (h : Keeps s t) : Keeps s (readWin hd addr count t) :=
  h.acceptCmd fun _ h1 => h1.readWinBody

protected theorem writeWin {hd : Hdr} {addr : Nat} {values : List Word} (h : Keeps s t) :
    Keeps s (writeWin hd addr values t) :=
  h.acceptCmd fun _ h1 => h1.writeWinBody

/-! ### Machine/Interp.lean -/

protected theorem bodyLow {hd : Hdr} {op : Nat} {p : List Byte} (h : Keeps s t) : KeepsBody s t (bodyLow hd op p) := by
  unfold bodyLow
  dsimp only
  split
  · exact .some h.pingBody
  · exact .some h.getStatusBody
  · exact .some h.resetBody
  · exact .some h.shutdownBody
  · exact .some h.optionWriteBody
  · exact .some h.fuseProgramBody
  · exact .some h.setModeBody
  · exact .some h.sashLoadBody
  · exact .some h.getModeBody
  · exact .some h.graphBeginBody
  · exact .some h.graphDataBody
  · exact .some h.graphCheckBody
  · exact .some h.graphLoadBody
  · exact .some h.graphStoreBody
  · exact .some h.graphStartBody
  · exact .some h.graphUnloadBody
  · exact .some h.graphInfoBody
  · exact .some h.graphVerifyBody
  · exact .none

protected theorem bodyWindow {hd : Hdr} {op : Nat} {p : List Byte} (h : Keeps s t) :
    KeepsBody s t (bodyWindow hd op p) := by
  unfold bodyWindow
  split
  · exact .some h.readWinBody
  · exact .some (.ite h.writeWinBody h.refuse)
  · exact .none

protected theorem bodyMiddle {hd : Hdr} {op : Nat} {p : List Byte} (h : Keeps s t) :
    KeepsBody s t (bodyMiddle hd op p) := by
  unfold bodyMiddle
  dsimp only
  split
  · exact .some h.capArmBody
  · exact .some h.capDisarmBody
  · exact .some h.capForceBody
  · exact .some h.capListBody
  · exact .some h.capReadBody
  · exact .some h.capReleaseBody
  · exact .some h.calZeroBody
  · exact .some h.calFullBody
  · exact .some h.calStoreBody
  · exact .some h.calDiscardBody
  · exact .some h.calReadBody
  · exact .some h.safetyStatusBody
  · exact .some h.safetyCodeBody
  · exact .some h.safetyLogBody
  · exact .none

protected theorem bodySecurity {hd : Hdr} {op : Nat} {p : List Byte} (h : Keeps s t) :
    KeepsBody s t (bodySecurity hd op p) := by
  unfold bodySecurity
  dsimp only
  split
  · exact .some h.getCounterBody
  · exact .some h.counterResyncBody
  · exact .some h.keyLoadBody
  · exact .some h.keyRevokeBody
  · exact .some h.keyInfoBody
  · exact .some h.fwBeginBody
  · exact .some h.fwDataBody
  · exact .some h.fwCommitBody
  · exact .some h.fwInfoBody
  · exact .some h.trngReadBody
  · exact .some h.tlmCfgBody
  · exact .some h.tlmStartBody
  · exact .some h.tlmStopBody
  · exact .some h.logReadBody
  · exact .none

protected theorem bodyHigh {hd : Hdr} {op : Nat} {p : List Byte} (h : Keeps s t) : KeepsBody s t
  (bodyHigh hd op p) := by
  unfold bodyHigh
  dsimp only
  split
  · exact .some h.canBusOnBody
  · exact .some h.canMapBody
  · exact .some h.canSleepBody
  · exact .some h.canStatusBody
  · exact .some h.canopyMapBody
  · exact .some h.canopyWhereBody
  · exact .some h.canopyHoldBody
  · exact .some h.ledgerReadBody
  · exact .some h.ledgerNfBody
  · exact .some h.ledgerNfReadBody
  · exact .some h.ledgerSaveBody
  · exact .some h.ledgerResetBody
  · exact .none

protected theorem bodyOf {hd : Hdr} {op : Nat} {p : List Byte} (h : Keeps s t) : KeepsBody s t (bodyOf hd op p) := by
  unfold bodyOf
  split
  · exact h.bodyLow
  · exact h.bodyLow
  · exact h.bodyLow
  · exact h.bodyWindow
  · exact h.bodyMiddle
  · exact h.bodyMiddle
  · exact h.bodyMiddle
  · exact h.bodySecurity
  · exact h.bodySecurity
  · exact h.bodyHigh

protected theorem badPacket {can : Bool} {status : Nat} {bs : List Byte} (h : Keeps s t) :
    Keeps s (badPacket can status bs t) :=
  h.countUp.recordRefusal.raise.queueReply

protected theorem interpret {can : Bool} {x : RxPkt} (h : Keeps s t) : Keeps s (interpret can x t) := by
  unfold interpret
  extract_lets
  refine .ite h.badPacket (.ite h.badPacket (.ite h.answerRepeat ?_))
  split
  · rename_i hb
    exact h.acceptCmd fun _ h1 => h1.bodyOf _ hb
  · exact h.recordRefusal.sendReply

protected theorem takeFrom {can : Bool} {x : RxPkt} (h : Keeps s t) : Keeps s (takeFrom can x t) :=
  h.setTransport.interpret

protected theorem packetTake (h : Keeps s t) : Keeps s (packetTake t) := by
  unfold packetTake
  split
  · exact .ite h.takeFrom h.takeFrom
  · exact h.takeFrom
  · exact h.takeFrom
  · exact h

/-! ### Machine/Rows.lean -/

protected theorem clockRow {u every : Nat} {lost : Bool} (h : Keeps s t) : Keeps s (clockRow u every lost t) :=
  .ite (.ite h.setUnit.takeRow h.setUnit.storeError) h.setUnit

protected theorem captureRow {u : Nat} {lost : Bool} (h : Keeps s t) : Keeps s (captureRow u lost t) :=
  .ite h (.ite h.reachTime.clockRow (.ite h.reachTime.clockRow h))

end Keeps

/-! ### The step -/

/-- Every command completes, and keeps what a step keeps. -/
theorem exec_keeps (c : Instr) (s : State) : KeepsOutcome s (exec c s) := by
  have h := Keeps.refl s
  cases c with
  | ping => exact .next (h.acceptCmd fun _ h1 => h1.pingBody)
  | getStatus => exact .next (h.acceptCmd fun _ h1 => h1.getStatusBody)
  | reset => exact .next (h.acceptCmd fun _ h1 => h1.resetBody)
  | resetCommandAct => exact .next h.resetCommandAct
  | shutdown => exact .next (h.acceptCmd fun _ h1 => h1.shutdownBody)
  | shutdownFinish => exact .next h.shutdownFinish
  | optionWrite => exact .next (h.acceptCmd fun _ h1 => h1.optionWriteBody)
  | optionWriteDone => exact .next h.optionWriteDone
  | fuseProgram => exact .next (h.acceptCmd fun _ h1 => h1.fuseProgramBody)
  | fuseProgramDone => exact .next h.fuseProgramDone
  | setMode => exact .next (h.acceptCmd fun _ h1 => h1.setModeBody)
  | getMode => exact .next (h.acceptCmd fun _ h1 => h1.getModeBody)
  | sashLoad => exact .next (h.acceptCmd fun _ h1 => h1.sashLoadBody)
  | graphBegin => exact .next (h.acceptCmd fun _ h1 => h1.graphBeginBody)
  | graphData => exact .next (h.acceptCmd fun _ h1 => h1.graphDataBody)
  | graphCheck => exact .next (h.acceptCmd fun _ h1 => h1.graphCheckBody)
  | graphLoad => exact .next (h.acceptCmd fun _ h1 => h1.graphLoadBody)
  | parameterSwap => exact .next h.applySwap
  | graphStore => exact .next (h.acceptCmd fun _ h1 => h1.graphStoreBody)
  | graphStoreDone => exact .next h.graphStoreDone
  | graphStart => exact .next (h.acceptCmd fun _ h1 => h1.graphStartBody)
  | graphUnload => exact .next (h.acceptCmd fun _ h1 => h1.graphUnloadBody)
  | graphInfo => exact .next (h.acceptCmd fun _ h1 => h1.graphInfoBody)
  | graphVerify => exact .next (h.acceptCmd fun _ h1 => h1.graphVerifyBody)
  | graphVerifyPeriodic => exact .next h.graphVerifyPeriodic
  | readWin => exact .next h.readWin
  | writeWin => exact .next h.writeWin
  | bridgeConfigWrite => exact .next h.writeWin
  | faultClr => exact .next h.writeWin
  | resyncWrite => exact .next h.writeWin
  | encoderConfigWrite => exact .next h.writeWin
  | hostSignalWrite => exact .next h.writeWin
  | perWrite => exact .next h.writeWin
  | fallbackWrite => exact .next h.writeWin
  | latchClr => exact .next h.writeWin
  | xchkTripClear => exact .next h.writeWin
  | louvreWrite => exact .next h.writeWin
  | drvClr => exact .next h.writeWin
  | twClr => exact .next h.writeWin
  | steerWrite => exact .next h.writeWin
  | safetyConfigWrite => exact .next h.writeWin
  | vangatCanConfigWrite => exact .next h.writeWin
  | captureConfigWrite => exact .next h.writeWin
  | cfgReq => exact .next h.writeWin
  | canConfigEnter => exact .next h.canConfigEnter
  | txReq => exact .next h.writeWin
  | bufIdRead => exact .next h.readWin
  | bufData15Read => exact .next h.readWin
  | moSelWrite => exact .next h.writeWin
  | lockTimeout => exact .next h.lockTimeout
  | retrain => exact .next h.writeWin
  | capArm => exact .next (h.acceptCmd fun _ h1 => h1.capArmBody)
  | capDisarm => exact .next (h.acceptCmd fun _ h1 => h1.capDisarmBody)
  | capForce => exact .next (h.acceptCmd fun _ h1 => h1.capForceBody)
  | capList => exact .next (h.acceptCmd fun _ h1 => h1.capListBody)
  | capRead => exact .next (h.acceptCmd fun _ h1 => h1.capReadBody)
  | capRelease => exact .next (h.acceptCmd fun _ h1 => h1.capReleaseBody)
  | calZero => exact .next (h.acceptCmd fun _ h1 => h1.calZeroBody)
  | calFull => exact .next (h.acceptCmd fun _ h1 => h1.calFullBody)
  | calAverageEnd => exact .next h.calAverageEnd
  | calStore => exact .next (h.acceptCmd fun _ h1 => h1.calStoreBody)
  | calStoreDone => exact .next h.calStoreDone
  | calDiscard => exact .next (h.acceptCmd fun _ h1 => h1.calDiscardBody)
  | calRead => exact .next (h.acceptCmd fun _ h1 => h1.calReadBody)
  | safetyStatus => exact .next (h.acceptCmd fun _ h1 => h1.safetyStatusBody)
  | safetyCode => exact .next (h.acceptCmd fun _ h1 => h1.safetyCodeBody)
  | safetyLog => exact .next (h.acceptCmd fun _ h1 => h1.safetyLogBody)
  | getCounter => exact .next (h.acceptCmd fun _ h1 => h1.getCounterBody)
  | counterResync => exact .next (h.acceptCmd fun _ h1 => h1.counterResyncBody)
  | keyLoad => exact .next (h.acceptCmd fun _ h1 => h1.keyLoadBody)
  | keyLoadDone => exact .next h.keyLoadDone
  | keyRevoke => exact .next (h.acceptCmd fun _ h1 => h1.keyRevokeBody)
  | keyInfo => exact .next (h.acceptCmd fun _ h1 => h1.keyInfoBody)
  | fwBegin => exact .next (h.acceptCmd fun _ h1 => h1.fwBeginBody)
  | fwData => exact .next (h.acceptCmd fun _ h1 => h1.fwDataBody)
  | fwCommit => exact .next (h.acceptCmd fun _ h1 => h1.fwCommitBody)
  | fwCommitDone => exact .next h.fwCommitDone
  | fwInfo => exact .next (h.acceptCmd fun _ h1 => h1.fwInfoBody)
  | trngRead => exact .next (h.acceptCmd fun _ h1 => h1.trngReadBody)
  | tlmCfg => exact .next (h.acceptCmd fun _ h1 => h1.tlmCfgBody)
  | tlmStart => exact .next (h.acceptCmd fun _ h1 => h1.tlmStartBody)
  | tlmStop => exact .next (h.acceptCmd fun _ h1 => h1.tlmStopBody)
  | logRead => exact .next (h.acceptCmd fun _ h1 => h1.logReadBody)
  | canBusOn => exact .next (h.acceptCmd fun _ h1 => h1.canBusOnBody)
  | canMap => exact .next (h.acceptCmd fun _ h1 => h1.canMapBody)
  | canSleep => exact .next (h.acceptCmd fun _ h1 => h1.canSleepBody)
  | canSleepEnter => exact .next h.canSleepEnter
  | canStatus => exact .next (h.acceptCmd fun _ h1 => h1.canStatusBody)
  | canopyMap => exact .next (h.acceptCmd fun _ h1 => h1.canopyMapBody)
  | canopyWhere => exact .next (h.acceptCmd fun _ h1 => h1.canopyWhereBody)
  | canopyHold => exact .next (h.acceptCmd fun _ h1 => h1.canopyHoldBody)
  | canopyHoldExpiry => exact .next h.canopyHoldExpiry
  | ledgerRead => exact .next (h.acceptCmd fun _ h1 => h1.ledgerReadBody)
  | ledgerNf => exact .next (h.acceptCmd fun _ h1 => h1.ledgerNfBody)
  | ledgerNfRead => exact .next (h.acceptCmd fun _ h1 => h1.ledgerNfReadBody)
  | ledgerSave => exact .next (h.acceptCmd fun _ h1 => h1.ledgerSaveBody)
  | ledgerReset => exact .next (h.acceptCmd fun _ h1 => h1.ledgerResetBody)
  | pktWrite => exact .next h.expireHeld.spiWrite
  | pktWriteQ => exact .next h.expireHeld.spiWrite
  | pktRead => exact .next h.expireHeld.spiRead
  | pktReadQ => exact .next h.expireHeld.spiRead
  | status => exact .next h.expireHeld.spiStatus
  | badInstruction => exact .next h.badInstruction
  | canSegmentReceive => exact .next h.canSegmentReceive
  | segmentTimeout => exact .next h.segmentTimeout
  | packetTake => exact .next h.expireHeld.packetTake
  | canReplySend => exact .next h.expireHeld.canReplySend
  | powerOn => exact .next h.powerOn
  | supplyBrownOut => exact .next h.assertMapped
  | rstNAssert => exact .next h.rstNAssert
  | rstNRelease => exact .next h.rstNRelease
  | pllaLockLoss => exact .next h.pllaLockLoss
  | lockstepMismatch => exact .next h.assertMapped
  | watchdogExpiry => exact .next h.watchdogExpiry
  | uncorrectableError => exact .next h.storeError
  | overTemperature => exact .next h.assertMapped
  | debugResetRequest => exact .next h.debugResetRequest
  | resetRelease => exact .next h.resetRelease
  | coldStart => exact .next h.coldStart
  | warmStart => exact .next h.warmStart
  | bridgeReset => exact .next h.bridgeReset
  | interpreterReset => exact .next h.interpreterReset
  | beatInputPoint => exact .next h.beatInputPoint
  | beatOutputPoint => exact .next h.beatOutputPoint
  | beatOverrun => exact .next h.beatOverrun
  | signalAgeing => exact .next h.signalAgeing
  | noGraphWriteCycle => exact .next h.noGraphWriteCycle
  | stepAdvance => exact .next h.stepAdvance
  | busCheckWaitExpiry => exact .next h.busCheckWaitExpiry
  | konWaitExpiry => exact .next h.konWaitExpiry
  | holdTimerExpiry => exact .next h.holdTimerExpiry
  | blackstartTimeout => exact .next h.blackstartTimeout
  | syncTimeout => exact .next h.syncTimeout
  | rampEnd => exact .next h.rampEnd
  | ss1SillTimeout => exact .next h.ss1SillTimeout
  | scoContactorForce => exact .next h.scoContactorForce
  | rotationStep => exact .next h.rotationStep
  | bistDone => exact .next h.bistDone
  | engineUncorrectableError => exact .next (.ite h h.engineError)
  | ledgerPass => exact .next h.ledgerPass
  | ledgerCheckpoint => exact .next h.ledgerCheckpoint
  | ledgerCheckpointDone => exact .next h.ledgerCheckpointDone
  | delayLineMeasurement => exact .next h.delayLineMeasurement
  | delayLineTimeout => exact .next (.ite h.delayLineFails h)
  | updatePoint => exact .next h.updatePoint
  | masterValley => exact .next h.masterValley
  | tripWindowExpire => exact .next h.tripWindowExpire
  | bootstrapRefresh => exact .next h.bootstrapRefresh
  | cycleTrip => exact .next h.cycleTrip
  | converterTrigger => exact .next h.converterTrigger
  | conversionResult => exact .next h.conversionResult
  | autozero => exact .next h.autozero
  | passThroughEdge => exact .next h.passThroughEdge
  | conflictResume => exact .next h.conflictResume
  | dieStatusFrame => exact .next h.dieStatusFrame
  | dieLinkLost => exact .next h.dieLinkLost
  | dieCommandTimeout => exact .next h.dieCommandTimeout
  | stuckGate => exact .next h.stuckGate
  | switchEdgeMeasurement => exact .next h.switchEdgeMeasurement
  | shortCircuit => exact .next h.shortCircuit
  | softTurnOffEnd => exact .next h.softTurnOffEnd
  | overcurrentWarning => exact .next h.overcurrentWarning
  | supplyUndervoltage => exact .next h.supplyUndervoltage
  | dieOverTemperature => exact .next h.dieOverTemperature
  | ntcWrite => exact .next h.ntcWrite
  | encoderEdge => exact .next h.encoderEdge
  | pulseInputEdge => exact .next h.pulseInputEdge
  | captureRow => exact .next h.captureRow
  | paneWaitRearm => exact .next h.paneWaitRearm
  | captureFire => exact .next h.captureFire
  | trigPinInput => exact .next h.trigPinInput
  | trigOutputPulseEnd => exact .next h.trigOutputPulseEnd
  | frameReceive => exact .next h.frameReceive
  | frameTransmit => exact .next h.frameTransmit
  | integrationDone => exact .next h.integrationDone
  | busOffRecoveryDone => exact .next h.busOffRecoveryDone
  | referenceMessageDue => exact .next h.referenceMessageDue
  | canWake => exact .next h.canWake
  | safetyInputSample => exact .next h.safetyInputSample
  | discrepancyTick => exact .next h.discrepancyTick
  | testPulse => exact .next h.testPulse
  | testPulseBlankEnd => exact .next h.testPulseBlankEnd
  | contactorReadbackAccept => exact .next h.contactorReadbackAccept
  | konFault => exact .next h.konFault
  | testDue => exact .next h.testDue
  | testOverdueSs1 => exact .next h.testOverdueSs1
  | oscCheck => exact .next h.oscCheck
  | sealSwitchRead => exact .next h.sealSwitchRead
  | counterCheckpointDone => exact .next h.counterCheckpointDone
  | trngHealthFail => exact .next (.ite h.trngHealthFail h)
  | refInLost => exact .next h.refInLost
  | pllbLock => exact .next h.pllbLock
  | dellanRefLost => exact .next h.dellanRefLost
  | dellanRefReturn => exact .next h.dellanRefReturn
  | tsFineStep => exact .next h.tsFineStep
  | holdRateMeasure => exact .next h.holdRateMeasure
  | syncSchedule => exact .next h.syncSchedule
  | syncSymbolReceive => exact .next (h.checkedSymbol fun _ h1 => h1.syncReceive)
  | timeSymbolReceive => exact .next (h.checkedSymbol fun _ h1 => h1.timeReceive)
  | triggerSymbolReceive => exact .next (h.checkedSymbol fun _ h1 => h1.triggerReceive)
  | ppsEdge => exact .next h.ppsEdge
  | trainReq => exact .next (h.checkedSymbol fun _ h1 => h1.beginTraining)
  | train => exact .next (h.checkedSymbol fun _ h1 => h1.trainReceive)
  | trainReply => exact .next (h.checkedSymbol fun _ h1 => h1.trainReply)
  | trainingEnd => exact .next h.trainingEnd
  | trainingRetry => exact .next h.trainingRetry
  | symbolLoss => exact .next h.symbolLoss
  | transomSend => exact .next h.transomSend
  | transomDrain => exact .next h.transomDrain
  | creditReturn => exact .next h.creditReturn
  | dramPatrolScrub => exact .next h.dramFound
  | sramScrub => exact .next h.sramFound
  | parityPatrol => exact .next h.parityPatrol
  | eventLogFlush => exact .next h.eventLogFlush
  | eraseAhead => exact .next h.eraseAhead
  | flashPatrol => exact .next h.flashPatrol
  | tlmSample => exact .next h.tlmSample
  | zoneSupplyRecovery => exact .next h.zoneSupplyRecovery
  | canReceiveError => exact .next h.canReceiveError

end

/-- Settles O2: the operations keep the block one by one, and a step is one command on the rest of the queue. -/
theorem everyStepKeepsTheBlock : Obligations.EveryStepKeepsTheBlock := by
  intro s hs
  cases hp : s.pending with
  | nil =>
    have h := (Keeps.refl s).idleTick
    exact ⟨_, by simp only [step, hp], h.regs hs, h.pending.trans hp, h.now⟩
  | cons c rest =>
    obtain ⟨t, ht, h⟩ := exec_keeps c { s with pending := rest }
    exact ⟨t, by simp only [step, hp, ht], h.regs hs, h.pending, h.now⟩

end Sys2Proof.Machine
end

section
/-! SUPPORT. O6, O17 and O18: what a READ_WIN and a WRITE_WIN are answered, and what they change. -/

namespace Sys2Proof.Machine

open Sys2Proof

section
variable (h : Hdr) (addr count : Nat) (values : List Word) (s : State)

theorem exec_readWin : exec (.readWin h addr count) s = .next (readWin h addr count s) := rfl

theorem exec_writeWin : exec (.writeWin h addr values) s = .next (writeWin h addr values s) := rfl

end

/-! ### Refusals -/

section
variable {h : Hdr} {addr count : Nat} {values : List Word} {s u : State} {st : Nat}

/-- A taken READ_WIN whose checks refuse it. -/
theorem readWin_refused (hr : cmdReady (.readWin h addr count) s = true) (hb : readWinBody addr count s = refuse st u)
    (hu : u.host = s.host) : exec (.readWin h addr count) s =
      .next (answer (.readWin h addr count) st [] (refusedBy (.readWin h addr count) st u)) := by
  rw [exec_readWin, readWin,
    acceptCmd_refused (.readWin h addr count) h 0x0401 _ _ s rfl hr st u hb (by rw [hu]) (by rw [hu])]

/-- A taken WRITE_WIN whose checks refuse it. -/
theorem writeWin_refused (hr : cmdReady (.writeWin h addr values) s = true)
    (hb : writeWinBody h addr values s = refuse st u) (hu : u.host = s.host) : exec (.writeWin h addr values) s =
      .next (answer (.writeWin h addr values) st [] (refusedBy (.writeWin h addr values) st u)) := by
  rw [exec_writeWin, writeWin,
    acceptCmd_refused (.writeWin h addr values) h 0x0402 _ _ s rfl hr st u hb (by rw [hu]) (by rw [hu])]

theorem readWinBody_fault {a : Nat} (hs : winShapeOk addr count = true) (ha : winFault addr count = some a) :
    readWinBody addr count s = refuse stBadParam (s.wr R.VG_ERR_ADDR.ADDR 0 a) := by
  simp only [readWinBody, hs, ha, Bool.true_eq_false, if_false, refuseAt]

theorem writeWinBody_fault {a : Nat} (hs : winShapeOk addr values.length = true)
    (ha : winFault addr values.length = some a) :
    writeWinBody h addr values s = refuse stBadParam (s.wr R.VG_ERR_ADDR.ADDR 0 a) := by
  simp only [writeWinBody, hs, ha, Bool.true_eq_false, if_false, refuseAt]

/-- A range that holds a WA field asks for authentication, and a packet without it is refused unchanged (R12). -/
theorem writeWinBody_unauthenticated (hs : winShapeOk addr values.length = true)
    (ha : winFault addr values.length = none) (hw : (winAddrs addr values.length).any holdsWa = true)
    (hn : h.auth = none) : writeWinBody h addr values s = refuse stAuthRequired s := by
  have hst : authStatus h 0x0402 (writeParams addr values) .any s = stAuthRequired := by simp only [authStatus, hn]
  have hc : authConsume h stAuthRequired s = s := by simp only [authConsume, hn]
  have hne : stAuthRequired ≠ stDone := by decide
  simp only [writeWinBody, hs, ha, hw, Bool.true_eq_false, if_false, if_true, withAuth, hst, hc, hne]

/-- A range without WA fields whose registers do not all pass check 4 is refused with the first that fails. -/
theorem writeWinBody_firstRefused {a : Nat} (hs : winShapeOk addr values.length = true)
    (ha : winFault addr values.length = none) (hw : (winAddrs addr values.length).any holdsWa = false)
    (hf : firstRefused s (((winAddrs addr values.length).zip values).foldl (fun t e => storeWord e.1 e.2 t) s)
      ((winAddrs addr values.length).zip values) = some (a, st)) :
    writeWinBody h addr values s = refuse st (s.wr R.VG_ERR_ADDR.ADDR 0 a) := by
  simp only [writeWinBody, hs, ha, hw, Bool.true_eq_false, Bool.false_eq_true, if_false, writeChecked, hf, refuseAt]

end

/-! ### Reads -/

/-- What the read of a register does to one field (R8). -/
def stepClear (w : Word) (f : FieldDef) : Word :=
  if f.acc == .RC then BitVec.ofNat 32 (setBits w.toNat f.lo f.width 0) else w

theorem clearRc_eq (r : RegDef) (a : Nat) (s : State) : clearRc r a s =
    if r.fields.any (fun f => f.acc == .RC) then s.setReg a (r.fields.foldl stepClear (s.reg a)) else s := rfl

theorem clearRc_onlyRegs (r : RegDef) (a : Nat) (s : State) : OnlyRegs s (clearRc r a s) [a] := by
  rw [clearRc_eq]
  split
  · exact OnlyRegs.setReg s a _
  · exact OnlyRegs.refl s [a]

/-- A read leaves at 0 what is 0. -/
theorem stepClear_testBit_false (w : Word) (f : FieldDef) (k : Nat) (hw : w.toNat.testBit k = false) :
    (stepClear w f).toNat.testBit k = false := by
  unfold stepClear
  split
  · rw [BitVec.toNat_ofNat, Nat.testBit_mod_two_pow, testBit_setBits, hw]
    simp
  · exact hw

/-- A read takes an RC field to 0. -/
theorem stepClear_testBit_field (w : Word) (f : FieldDef) (k : Nat) (hf : f.acc = .RC)
    (hk : f.lo ≤ k ∧ k < f.lo + f.width) : (stepClear w f).toNat.testBit k = false := by
  have hacc : (f.acc == .RC) = true := by simp [hf]
  rw [stepClear, if_pos hacc, BitVec.toNat_ofNat, Nat.testBit_mod_two_pow, testBit_setBits, if_pos hk, Nat.zero_testBit,
    Bool.and_false]

theorem foldClear_testBit_false (l : List FieldDef) (w : Word) (k : Nat) (hw : w.toNat.testBit k = false) :
    (l.foldl stepClear w).toNat.testBit k = false := by
  induction l generalizing w with
  | nil => exact hw
  | cons f t ih => exact ih _ (stepClear_testBit_false w f k hw)

theorem foldClear_testBit_field (l : List FieldDef) (w : Word) (f : FieldDef) (hf : f ∈ l) (ha : f.acc = .RC) (k : Nat)
    (hk : f.lo ≤ k ∧ k < f.lo + f.width) : (l.foldl stepClear w).toNat.testBit k = false := by
  induction l generalizing w with
  | nil => cases hf
  | cons g t ih =>
    rcases List.mem_cons.1 hf with rfl | hf
    · exact foldClear_testBit_false t _ k (stepClear_testBit_field w f k ha hk)
    · exact ih (stepClear w g) hf

/-- After its read an RC field is 0 (R8). -/
theorem clearRc_field (r : RegDef) (a : Nat) (s : State) (f : FieldDef) (hf : f ∈ r.fields) (ha : f.acc = .RC) :
    bitsOf ((clearRc r a s).reg a).toNat f.lo f.width = 0 := by
  have hany : r.fields.any (fun f => f.acc == .RC) = true := List.any_eq_true.2 ⟨f, hf, by simp [ha]⟩
  rw [clearRc_eq, if_pos hany, State.reg_setReg_same]
  refine Nat.eq_of_testBit_eq fun k => ?_
  rw [testBit_bitsOf, Nat.zero_testBit]
  by_cases hk : k < f.width
  · rw [foldClear_testBit_field r.fields _ f hf ha (f.lo + k) (by omega), Bool.and_false]
  · simp [hk]

/-- A taken READ_WIN that passes its checks: the words read, and the state their reads leave. -/
theorem readWin_done {h : Hdr} {addr count : Nat} {s t : State} {data : List Byte}
    (hr : cmdReady (.readWin h addr count) s = true) (hs : winShapeOk addr count = true)
    (hf : winFault addr count = none) (hw : wordsSound s ((winAddrs addr count).filterMap winSignal) = true)
    (hd : readRegs (winAddrs addr count) s = (data, t)) (ht : t.host = s.host) :
    exec (.readWin h addr count) s = .next (answer (.readWin h addr count) stDone data t) := by
  have hb : readWinBody addr count s = ⟨stDone, data, none, t⟩ := by
    simp only [readWinBody, hs, hf, hw, hd, Bool.true_eq_false, if_false, if_true, doneWith]
  rw [exec_readWin, readWin,
    acceptCmd_answer (.readWin h addr count) h 0x0401 _ _ s rfl hr stDone data t hb (.inl rfl) (by rw [ht]) (by rw [ht])]

/-- The read of a register that is no half of a pair, no crossing counter and no buffer word clears its RC fields. -/
theorem readReg_clearRc {a i j : Nat} {r : RegDef} (s : State) (hw : winSignal a = none) (hx : regAt a = some (r, i, j))
    (hl : pairLow r.base = false) (hh : pairHigh r.base = false) (h1 : r.base ≠ A.XG_STALL) (h2 : r.base ≠ A.BUF_ID)
    (h3 : r.base ≠ A.BUF_DATA) : readReg a s = (viewReg s a, clearRc r a s) := by
  simp [readReg, hw, hx, hh, readEffect, hl, h1, h2, h3]

/-- Settles O17: its clauses are the read of plain registers, the range R11 forbids, and the read of one register. -/
theorem readWindowReads : Obligations.ReadWindowReads := by
  intro h addr count s hr hs
  refine ⟨fun hf hp hw => ?_, fun a ha => ?_, ?_⟩
  · exact readWin_done hr hs hf hw (readRegs_plain _ s hp) rfl
  · exact readWin_refused hr (readWinBody_fault hs ha) (State.wr_host s _ _ _)
  · rintro rfl hf hsig r i j hx hl hh h1 h2 h3
    have hd : readRegs (winAddrs addr 1) s = (le 4 (viewReg s addr).toNat, clearRc r addr s) := by
      simp only [winAddrs_one, readRegs, readReg_clearRc s hsig hx hl hh h1 h2 h3, List.append_nil]
    have hw : wordsSound s ((winAddrs addr 1).filterMap winSignal) = true := by
      simp [winAddrs_one, hsig, wordsSound]
    have ho := clearRc_onlyRegs r addr s
    exact ⟨readWin_done hr hs hf hw hd ho.host, ho, fun f hf ha => clearRc_field r addr s f hf ha⟩

/-! ### Writes -/

theorem regAt_apart {a i j : Nat} {r : RegDef} (hx : regAt a = some (r, i, j)) : apart r.fields = true :=
  List.all_eq_true.1 regTable_apart r (regFind_mem a regTable r i j hx)

/-- A taken WRITE_WIN of one register whose write has no further effect, that passes every check. -/
theorem writeWin_stores {h : Hdr} {a i j : Nat} {w : Word} {s : State} {r : RegDef}
    (hr : cmdReady (.writeWin h a [w]) s = true) (ha : winAddrOk a = true) (hp : plainWrite a = true)
    (hx : regAt a = some (r, i, j)) (ho : writeOpen a w s = true) : exec (.writeWin h a [w]) s =
      .next (answer (.writeWin h a [w]) stDone [] (s.setReg a (r.fields.foldl (stepMerge w) (s.reg a)))) := by
  have e : actWord s a w (storeWord a w s) = s.setReg a (r.fields.foldl (stepMerge w) (s.reg a)) := by
    rw [actWord_plain a w s _ hp, storeWord_plain a w s hp r i j hx, mergeWord_eq]
  rw [exec_writeWin, writeWin_one (.writeWin h a [w]) h a w s rfl hr ha ho (by rw [e]; rfl) (by rw [e]; rfl), e]

/-- Settles O18: its clauses are the write of one register, the refusal of check 4, the missing authentication, and the
range R11 forbids. -/
theorem writeWindowWrites : Obligations.WriteWindowWrites := by
  intro h addr values s hr hs
  refine ⟨?_, fun a st hf hw hc => ?_, fun hf hw hn => ?_, fun a ha => ?_⟩
  · rintro w r i j rfl ha hp hx ho
    refine ⟨_, writeWin_stores hr ha hp hx ho, OnlyRegs.setReg s addr _, fun f hf => ?_, fun k hk hout => ?_⟩
    · rw [State.reg_setReg_same]
      exact foldMerge_in w r.fields (s.reg addr) (regAt_apart hx) f hf
    · rw [State.reg_setReg_same]
      exact foldMerge_out w r.fields (s.reg addr) k hk hout
  · exact writeWin_refused hr (writeWinBody_firstRefused hs hf hw hc) (State.wr_host s _ _ _)
  · exact writeWin_refused hr (writeWinBody_unauthenticated hs hf hw hn) rfl
  · exact writeWin_refused hr (writeWinBody_fault hs ha) (State.wr_host s _ _ _)

/-! ### BR_BAND and BR_TIMES -/

/-- The registers of R43 that hold limits of a bridge: their places, and what their checks ask before its state. -/
theorem bandTimes_row {b a : Nat} (hb : b < 4) (ha : a = A.BR_BAND + 0x400 * b ∨ a = A.BR_TIMES + 0x400 * b) :
    ∃ base r, (base = A.BR_BAND ∨ base = A.BR_TIMES) ∧ RegRow a base b 0 false true r := by
  have hrows : ∀ b < 4, regRowOk (A.BR_BAND + 0x400 * b) A.BR_BAND b 0 false true = true ∧
      regRowOk (A.BR_TIMES + 0x400 * b) A.BR_TIMES b 0 false true = true := by decide +kernel
  rcases ha with rfl | rfl
  · obtain ⟨r, hrow⟩ := RegRow.of (hrows b hb).1
    exact ⟨_, r, .inl rfl, hrow⟩
  · obtain ⟨r, hrow⟩ := RegRow.of (hrows b hb).2
    exact ⟨_, r, .inr rfl, hrow⟩

/-- No other register's value enters the ranges of BR_BAND and BR_TIMES. -/
theorem rangesOk_bandTimes {r : RegDef} (hbase : r.base = A.BR_BAND ∨ r.base = A.BR_TIMES) (s s' : State) (i j : Nat)
    (w : Word) : rangesOk s s' r i j w = fieldsOk r w := by
  have hothers : ∀ base, base = A.BR_BAND ∨ base = A.BR_TIMES →
      (sashOk s s' base i && (fallbackOk s' base i j && (tractionOk s' base i && (driverOk s' base i &&
        (measureOk s' base i && (canCfgOk s' base i w && otherOk s' base i j)))))) = true := by
    rintro _ (rfl | rfl)
    · rfl
    · rfl
  simp only [rangesOk, Bool.and_assoc, hothers _ hbase, Bool.and_true]

/-- BR_BAND and BR_TIMES are written in SEALED alone (R43). -/
theorem stateStatus_bandTimes {base : Nat} (hbase : base = A.BR_BAND ∨ base = A.BR_TIMES) (s s' : State) (i j : Nat)
    (w : Word) : stateStatus s s' base i j w = need (decide (modeOf s i = 0)) stWrongMode := by
  have hsealed : sealedOnly base = true := by
    rcases hbase with rfl | rfl
    · rfl
    · rfl
  rw [stateStatus, if_pos hsealed]

/-- Check 4 on BR_BAND and BR_TIMES: the ranges of the fields, then the mode. -/
theorem checkWord_bandTimes {a base b : Nat} {r : RegDef} (hrow : RegRow a base b 0 false true r)
    (hbase : base = A.BR_BAND ∨ base = A.BR_TIMES) (s s' : State) (w : Word) : checkWord s s' a w =
      if fieldsOk r w = true then need (decide (modeOf s b = 0)) stWrongMode else stBadParam := by
  obtain ⟨hreg, rfl, hsig, hsafe, -, -, -⟩ := hrow
  have hdone : ∀ n, (if n ≠ stDone then n else stDone) = n := fun n => by
    split
    · rfl
    · next hn => exact (not_not.1 hn).symm
  simp only [checkWord, hsig, hreg, rangesOk_bandTimes hbase, stateStatus_bandTimes hbase, hsafe, Bool.not_false,
    Bool.true_or, need, if_true, hdone]

/-- A taken write of one register without a WA field that check 4 refuses shows its address and stores nothing. -/
theorem writeWin_one_refused {h : Hdr} {a st : Nat} {w : Word} {s : State}
    (hr : cmdReady (.writeWin h a [w]) s = true) (ha : winAddrOk a = true) (hw : holdsWa a = false)
    (hst : st ≠ stDone) (hc : ∀ s', checkWord s s' a w = st) : ∃ t, exec (.writeWin h a [w]) s =
      .next (answer (.writeWin h a [w]) st [] (refusedBy (.writeWin h a [w]) st t)) ∧ OnlyRegs s t [A.VG_ERR_ADDR] := by
  have hb : writeWinBody h a [w] s = refuse st (s.wr R.VG_ERR_ADDR.ADDR 0 a) :=
    writeWinBody_firstRefused (winShape_one a ha) (winFault_one a ha) (by simp [winAddrs_one, hw])
      (by simp [winAddrs_one, firstRefused, hc, hst])
  exact ⟨_, writeWin_refused hr hb (State.wr_host s _ _ _), OnlyRegs.wr s R.VG_ERR_ADDR.ADDR 0 a⟩

/-- Settles O6: a range with a WA field asks for authentication, and BR_BAND and BR_TIMES pass check 4 by their ranges and
the mode. -/
theorem guardedRegisterWrites : Obligations.GuardedRegisterWrites := by
  intro h s
  refine ⟨fun a vs hr hn ha h1 h2 hf hw => ?_, fun b a r w hb ha hx hr => ?_⟩
  · have hs : winShapeOk a vs.length = true := by simp only [winShapeOk, ha, h1, h2, and_self, decide_true, Bool.and_self]
    exact writeWin_refused hr (writeWinBody_unauthenticated hs hf hw hn) rfl
  · obtain ⟨base, r', hbase, hrow⟩ := bandTimes_row hb ha
    obtain rfl : r' = r := by simpa [hx] using hrow.reg.symm
    have hcheck := fun s' => checkWord_bandTimes hrow hbase s s' w
    refine ⟨fun hv => ?_, fun hv hm => ?_, fun hv hm => ?_⟩
    · exact writeWin_one_refused hr hrow.addr hrow.wa (by decide) fun s' => by rw [hcheck, hv]; rfl
    · exact writeWin_one_refused hr hrow.addr hrow.wa (by decide) fun s' => by
        rw [hcheck, if_pos hv, need, decide_eq_false hm]; rfl
    · have ho : writeOpen a w s = true := by
        simp only [writeOpen, hrow.wa, hcheck, hv, need, hm, decide_true, if_true, Bool.not_false, Bool.and_self]
      refine ⟨_, writeWin_stores hr hrow.addr hrow.plain hx ho, OnlyRegs.setReg s a _, fun f hf hacc => ?_⟩
      rw [State.reg_setReg_same, foldMerge_in w r'.fields (s.reg a) (regAt_apart hx) f hf, hacc]

end Sys2Proof.Machine
end
section
/-! SUPPORT. O19, O23 to O25, O27 and O48: what the operations that a seal and a change of mode are made of leave alone.
`Calm s t` says it of the time, the queue and the host port, `Frame s t` also of the bridge block and of what a bridge
holds, `Aside s t` also of the sash units and the driver dies. One lemma for each operation, in the order of the model. -/

namespace Sys2Proof.Machine

open Sys2Proof

/-! ### The three relations -/

/-- No time passes, the queue stays, and the host port goes on to serve, with no reply held back where none was. -/
structure Calm (s t : State) : Prop where
  now : t.now = s.now
  pending : t.pending = s.pending
  serving : t.host.serving = s.host.serving
  held : s.host.heldMask = 0 → t.host.heldMask = 0

/-- A bridge gets no placement and does not release its Shutter line; its ramp and its current ceiling stay. -/
structure BrKeeps (x y : Bridge) : Prop where
  placed : x.placed = none → y.placed = none
  shut : x.open_ = false → y.open_ = false
  ramp : y.ramp = x.ramp
  ceiling : y.ceiling = x.ceiling

/-- The registers of the four bridges and the window of the signals (R7, R50). -/
def bridgeBlock (a : Nat) : Prop := 0x100000 ≤ a ∧ a < 0x300000

/-- The bridge block stays, and every bridge keeps what `BrKeeps` says. -/
structure Frame (s t : State) : Prop extends Calm s t where
  reg : ∀ a, bridgeBlock a → t.reg a = s.reg a
  br : ∀ c, BrKeeps (s.br c) (t.br c)

/-- The registers of the sash units, the driver dies, the converters and the CAN controllers (R7). -/
def powerBlock (a : Nat) : Prop := 0x400000 ≤ a ∧ a < 0x700000

/-- The power block, the legs and the dies stay too. -/
structure Aside (s t : State) : Prop extends Frame s t where
  power : ∀ a, powerBlock a → t.reg a = s.reg a
  legs : t.legs = s.legs
  dies : t.dies = s.dies

/-- A field that lies outside the bridge block in every copy. -/
def outerFld (f : Fld) : Bool :=
  decide (0x300000 ≤ f.base) || (decide (f.base < 0x100000) && decide (f.stride = 0))

/-- A field that lies outside the bridge block and the power block in every copy. -/
def asideFld (f : Fld) : Bool :=
  decide (0x700000 ≤ f.base) ||
    (decide (f.base < 0x100000 ∨ 0x300000 ≤ f.base ∧ f.base < 0x400000) && decide (f.stride = 0))

/-- A field of the Grove and of Canopy, whose first sixteen copies lie between the two blocks (R152, R189). -/
def groveFld (f : Fld) : Bool := decide (0x300000 ≤ f.base ∧ f.base + 16 * f.stride < 0x400000)

theorem outerFld_addr {f : Fld} (hf : outerFld f = true) (i : Nat) {a : Nat} (ha : bridgeBlock a) : a ≠ fldAddr f i 0 := by
  obtain ⟨h1, h2⟩ := ha
  simp only [outerFld, Bool.or_eq_true, Bool.and_eq_true, decide_eq_true_eq] at hf
  simp only [fldAddr]
  rcases hf with hf | ⟨hf, hs⟩
  · omega
  · rw [hs]; omega

theorem asideFld_outer {f : Fld} (hf : asideFld f = true) : outerFld f = true := by
  simp only [asideFld, outerFld, Bool.or_eq_true, Bool.and_eq_true, decide_eq_true_eq] at hf ⊢
  omega

theorem asideFld_addr {f : Fld} (hf : asideFld f = true) (i : Nat) {a : Nat} (ha : powerBlock a) : a ≠ fldAddr f i 0 := by
  obtain ⟨h1, h2⟩ := ha
  simp only [asideFld, Bool.or_eq_true, Bool.and_eq_true, decide_eq_true_eq] at hf
  simp only [fldAddr]
  rcases hf with hf | ⟨hf, hs⟩
  · omega
  · rw [hs]; omega

theorem groveFld_outer {f : Fld} (hf : groveFld f = true) : outerFld f = true := by
  simp only [groveFld, outerFld, Bool.or_eq_true, decide_eq_true_eq] at hf ⊢
  exact .inl hf.1

theorem groveFld_addr {f : Fld} (hf : groveFld f = true) {i : Nat} (hi : i < 16) {a : Nat} (ha : powerBlock a) :
    a ≠ fldAddr f i 0 := by
  obtain ⟨h1, h2⟩ := ha
  simp only [groveFld, decide_eq_true_eq] at hf
  have : i * f.stride ≤ 16 * f.stride := Nat.mul_le_mul_right _ hi.le
  simp only [fldAddr]
  omega

/-- An engine that a bridge owns is one of the sixteen. -/
theorem ownedEngines_lt {s : State} {b e : Nat} (he : e ∈ ownedEngines s b) : e < 16 :=
  List.mem_range.1 (List.mem_filter.1 he).1

theorem enginesIn_lt {s : State} {st e : Nat} (he : e ∈ enginesIn s st) : e < 16 :=
  List.mem_range.1 (List.mem_filter.1 he).1

theorem rotationEngine_lt {s : State} {f e : Nat} (he : rotationEngine s f = some e) : e < 16 := by
  obtain ⟨k, -, rfl⟩ := List.mem_map.1 (List.mem_of_find?_eq_some he)
  exact Nat.mod_lt _ (by decide)

theorem BrKeeps.refl (x : Bridge) : BrKeeps x x := ⟨id, id, rfl, rfl⟩

theorem BrKeeps.trans {x y z : Bridge} (h : BrKeeps x y) (k : BrKeeps y z) : BrKeeps x z :=
  ⟨k.placed ∘ h.placed, k.shut ∘ h.shut, k.ramp.trans h.ramp, k.ceiling.trans h.ceiling⟩

section
variable {s t u : State}

/-- A field of the power block reads as before. -/
theorem Aside.rd (h : Aside s t) {f : Fld} {i j : Nat} (ha : powerBlock (fldAddr f i j)) : t.rd f i j = s.rd f i j := by
  rw [State.rd_eq, State.rd_eq, h.power _ ha]

section
variable {board : List (Nat × Word)} {aged : List (Nat × Nat)} {sec : Sec} {graphs : GraphStore}
  {bridges : List (Nat × Bridge)} {legs : List (Nat × Leg)} {dies : List (Nat × Die)} {convs : List (Nat × Conv)}
  {pairs : List (Nat × Pair)} {cal : Cal} {encs : List (Nat × Enc)} {pulses : List (Nat × Pulse)} {pth : Nat}
  {canopy : Canopy} {ledger : Ledger} {capture : Capture} {log : EvLog} {clk : Clk} {bg : Background} {rst : ResetCtl}
  {sill : Sill} {cans : List (Nat × CanCtl)} {latched : List (Nat × Word)} {freeCtr : Nat} {regs : List (Nat × Word)}

/-- An update of other parts of the state. -/
theorem Calm.same (h : Calm s t) : Calm s ⟨t.pending, t.now, regs, board, aged, t.host, sec, graphs, bridges, legs, dies, convs,
    pairs, cal, encs, pulses, pth, canopy, ledger, capture, log, clk, bg, rst, sill, cans, latched, freeCtr⟩ :=
  ⟨h.now, h.pending, h.serving, h.held⟩

theorem Frame.same (h : Frame s t) : Frame s ⟨t.pending, t.now, t.regs, board, aged, t.host, sec, graphs, t.bridges, legs, dies,
    convs, pairs, cal, encs, pulses, pth, canopy, ledger, capture, log, clk, bg, rst, sill, cans, latched, freeCtr⟩ :=
  ⟨h.toCalm.same, h.reg, h.br⟩

theorem Aside.same (h : Aside s t) : Aside s ⟨t.pending, t.now, t.regs, board, aged, t.host, sec, graphs, t.bridges, t.legs, t.dies,
    convs, pairs, cal, encs, pulses, pth, canopy, ledger, capture, log, clk, bg, rst, sill, cans, latched, freeCtr⟩ :=
  ⟨h.toFrame.same, h.power, h.legs, h.dies⟩

end

/-! ### Calm -/

namespace Calm

protected theorem refl (s : State) : Calm s s := ⟨rfl, rfl, rfl, id⟩

protected theorem trans (h : Calm s t) (k : Calm t u) : Calm s u :=
  ⟨k.now.trans h.now, k.pending.trans h.pending, k.serving.trans h.serving, k.held ∘ h.held⟩

protected theorem ite {c : Prop} [Decidable c] (ht : Calm s t) (hu : Calm s u) : Calm s (if c then t else u) := by
  split
  · exact ht
  · exact hu

protected theorem each {α : Type} {f : State → α → State} {l : List α} (h : Calm s t)
    (hf : ∀ v x, Calm s v → Calm s (f v x)) : Calm s (t.each l f) := State.each_ind _ f hf l t h

protected theorem wr {f : Fld} {i v : Nat} (h : Calm s t) : Calm s (t.wr f i v) := h.same
protected theorem wr2 {f : Fld} {i j v : Nat} (h : Calm s t) : Calm s (t.wr2 f i j v) := h.same
protected theorem raise {f : Fld} {i : Nat} (h : Calm s t) : Calm s (t.raise f i) := h.wr
protected theorem countUp {f : Fld} {i n : Nat} (h : Calm s t) : Calm s (t.countUp f i n) := h.wr
protected theorem raiseBit {f : Fld} {k i : Nat} (h : Calm s t) : Calm s (t.raiseBit f k i) := h.wr
protected theorem setBr {b : Nat} {v : Bridge} (h : Calm s t) : Calm s (t.setBr b v) := h.same
protected theorem setLeg {n : Nat} {v : Leg} (h : Calm s t) : Calm s (t.setLeg n v) := h.same

end Calm

/-! ### Frame -/

namespace Frame

protected theorem refl (s : State) : Frame s s := ⟨.refl s, fun _ _ => rfl, fun _ => .refl _⟩

protected theorem trans (h : Frame s t) (k : Frame t u) : Frame s u :=
  ⟨h.toCalm.trans k.toCalm, fun a ha => (k.reg a ha).trans (h.reg a ha), fun c => (h.br c).trans (k.br c)⟩

protected theorem ite {c : Prop} [Decidable c] (ht : Frame s t) (hu : Frame s u) : Frame s (if c then t else u) := by
  split
  · exact ht
  · exact hu

protected theorem each {α : Type} {f : State → α → State} {l : List α} (h : Frame s t)
    (hf : ∀ v x, Frame s v → Frame s (f v x)) : Frame s (t.each l f) := State.each_ind _ f hf l t h

protected theorem wr {f : Fld} {i v : Nat} (h : Frame s t) (hf : outerFld f = true := by decide) : Frame s (t.wr f i v) :=
  ⟨h.toCalm.wr, fun a ha => (State.reg_wr_ne t f i v a (outerFld_addr hf i ha)).trans (h.reg a ha), h.br⟩

protected theorem raise {f : Fld} {i : Nat} (h : Frame s t) (hf : outerFld f = true := by decide) : Frame s (t.raise f i) :=
  h.wr hf
protected theorem clear {f : Fld} {i : Nat} (h : Frame s t) (hf : outerFld f = true := by decide) : Frame s (t.clear f i) :=
  h.wr hf
protected theorem countUp {f : Fld} {i n : Nat} (h : Frame s t) (hf : outerFld f = true := by decide) :
    Frame s (t.countUp f i n) := h.wr hf

protected theorem setBr {b : Nat} {v : Bridge} (h : Frame s t) (hv : BrKeeps (t.br b) v) : Frame s (t.setBr b v) := by
  refine ⟨h.toCalm.setBr, h.reg, fun c => ?_⟩
  by_cases hc : c = b
  · subst hc
    rw [State.br_setBr_same]
    exact (h.br c).trans hv
  · rw [State.br_setBr_ne t b v hc]
    exact h.br c

protected theorem setLeg {n : Nat} {v : Leg} (h : Frame s t) : Frame s (t.setLeg n v) := h.same
protected theorem setDie {k : Nat} {v : Die} (h : Frame s t) : Frame s (t.setDie k v) := h.same

end Frame

/-! ### Aside -/

namespace Aside

protected theorem refl (s : State) : Aside s s := ⟨.refl s, fun _ _ => rfl, rfl, rfl⟩

protected theorem ite {c : Prop} [Decidable c] (ht : Aside s t) (hu : Aside s u) : Aside s (if c then t else u) := by
  split
  · exact ht
  · exact hu

/-- A loop whose passes are made for the members of its list. -/
protected theorem eachMem {α : Type} {f : State → α → State} {l : List α} (h : Aside s t)
    (hf : ∀ v x, x ∈ l → Aside s v → Aside s (f v x)) : Aside s (t.each l f) := by
  induction l generalizing t with
  | nil => exact h
  | cons x l ih => exact ih (hf t x List.mem_cons_self h) fun v y hy => hf v y (List.mem_cons_of_mem x hy)

protected theorem each {α : Type} {f : State → α → State} {l : List α} (h : Aside s t)
    (hf : ∀ v x, Aside s v → Aside s (f v x)) : Aside s (t.each l f) := h.eachMem fun v x _ => hf v x

/-! ### Machine/Ops.lean and Machine/Flags.lean -/

protected theorem wr {f : Fld} {i v : Nat} (h : Aside s t) (hf : asideFld f = true := by decide) : Aside s (t.wr f i v) :=
  ⟨h.toFrame.wr (asideFld_outer hf),
    fun a ha => (State.reg_wr_ne t f i v a (asideFld_addr hf i ha)).trans (h.power a ha), h.legs, h.dies⟩

/-- A write for one of the sixteen engines, or one of the bridges as Canopy shows them. -/
protected theorem wrGrove {f : Fld} {i v : Nat} (h : Aside s t) (hi : i < 16) (hf : groveFld f = true := by decide) :
    Aside s (t.wr f i v) :=
  ⟨h.toFrame.wr (groveFld_outer hf),
    fun a ha => (State.reg_wr_ne t f i v a (groveFld_addr hf hi ha)).trans (h.power a ha), h.legs, h.dies⟩

protected theorem raise {f : Fld} {i : Nat} (h : Aside s t) (hf : asideFld f = true := by decide) : Aside s (t.raise f i) :=
  h.wr hf
protected theorem clear {f : Fld} {i : Nat} (h : Aside s t) (hf : asideFld f = true := by decide) : Aside s (t.clear f i) :=
  h.wr hf
protected theorem countUp {f : Fld} {i n : Nat} (h : Aside s t) (hf : asideFld f = true := by decide) :
    Aside s (t.countUp f i n) := h.wr hf
protected theorem clearBit {f : Fld} {k i : Nat} (h : Aside s t) (hf : asideFld f = true := by decide) :
    Aside s (t.clearBit f k i) := h.wr hf

protected theorem setBr {b : Nat} {v : Bridge} (h : Aside s t) (hv : BrKeeps (t.br b) v) : Aside s (t.setBr b v) :=
  ⟨h.toFrame.setBr hv, h.power, h.legs, h.dies⟩

protected theorem setEntry {k : Nat} {v : Entry} (h : Aside s t) : Aside s (t.setEntry k v) := h.same
protected theorem setUnit {k : Nat} {v : Unit_} (h : Aside s t) : Aside s (t.setUnit k v) := h.same

/-! ### Machine/HostPort.lean -/

/-- An update of the host port that does not stop it and holds no reply back. -/
protected theorem host {p : HostPort} (h : Aside s t) (hs : p.serving = t.host.serving)
    (hm : t.host.heldMask = 0 → p.heldMask = 0) : Aside s { t with host := p } :=
  ⟨⟨⟨h.now, h.pending, hs.trans h.serving, fun h0 => hm (h.held h0)⟩, h.reg, h.br⟩, h.power, h.legs, h.dies⟩

protected theorem setTransport {can : Bool} {x : Transport} (h : Aside s t) : Aside s (t.setTransport can x) := by
  cases can
  · exact h.host rfl id
  · exact h.host rfl id

protected theorem sendReply {can : Bool} {cmd reply : List Byte} (h : Aside s t) : Aside s (sendReply can cmd reply t) :=
  h.setTransport.setTransport

protected theorem recordError {can : Bool} {op status : Nat} (h : Aside s t) : Aside s (recordError can op status t) :=
  h.wr.wr.wr

protected theorem beginRun {op seq obj : Nat} (h : Aside s t) : Aside s (beginRun op seq obj t) := h.host rfl id

protected theorem endRun {op obj result : Nat} (h : Aside s t) : Aside s (endRun op obj result t) := by
  unfold endRun
  split
  · exact h
  · next r _ =>
    have h1 : Aside s { t with host := { t.host with running := t.host.running.erase r } } := h.host rfl id
    exact h1.wr.wr.wr.raise

protected theorem sendHeld {r : Held} {reply : List Byte} (h : Aside s t) : Aside s (sendHeld r reply t) :=
  (h.host (p := { t.host with heldMask := 0, held := none, heldDue := 0 }) rfl fun _ => rfl).sendReply.setTransport

protected theorem expireHeld (h : Aside s t) : Aside s (expireHeld t) := by
  unfold expireHeld
  split
  · exact .ite h.sendHeld.recordError h
  · exact h

protected theorem swapSettled {b : Nat} (h : Aside s t) : Aside s (swapSettled b t) := by
  unfold swapSettled
  extract_lets u1
  have h1 : Aside s u1 := h.expireHeld
  refine .ite ?_ h1
  split
  · exact h1.sendHeld
  · exact h1.host rfl fun h0 => (congrArg (· - 2 ^ b) h0).trans (Nat.zero_sub _)

/-! ### Machine/Log.lean -/

protected theorem logPut {code obj : Nat} {data : List Byte} (h : Aside s t) : Aside s (logPut code obj data t) := h.same

protected theorem logEvent {code obj : Nat} {data : List Byte} (h : Aside s t) : Aside s (logEvent code obj data t) :=
  .ite h.same.same.countUp.raise (.ite h.same.logPut h.same.logPut.same.logPut)

/-! ### Machine/Ledger.lean -/

protected theorem pullBlock {g : Graph} {states : List (List Nat)} {i : Nat} (h : Aside s t) :
    Aside s (pullBlock g states i t) :=
  .ite h.setEntry (.ite h.setEntry h)

protected theorem pullBridge {b : Nat} (h : Aside s t) : Aside s (pullBridge b t) := by
  unfold pullBridge
  split
  · exact h
  · extract_lets _ _ u1
    have h1 : Aside s u1 := (h.each (fun _ _ h2 => h2.pullBlock)).each fun _ _ h2 => h2.setEntry
    refine Aside.each (h1.setBr ?_) fun _ _ h2 => h2.setEntry
    exact ⟨id, id, rfl, rfl⟩

/-! ### Machine/Canopy.lean -/

protected theorem showEngine {p : Placed} {e : Nat} (h : Aside s t) (he : e < 16) : Aside s (showEngine p e t) :=
  ((h.wrGrove he).wrGrove he).wrGrove he

protected theorem showPlacement {b : Nat} (h : Aside s t) (hb : b < 4) : Aside s (showPlacement b t) := by
  have hb : b < 16 := by omega
  unfold showPlacement
  split
  · exact h
  · exact ((((h.eachMem fun _ _ he h1 => h1.showEngine (ownedEngines_lt he)).wrGrove hb).wrGrove hb).wrGrove hb).wrGrove hb

protected theorem idleEngine {e : Nat} (h : Aside s t) (he : e < 16) : Aside s (idleEngine e t) :=
  ((((h.wrGrove he).wrGrove he).wrGrove he).wrGrove he).wrGrove he

protected theorem failEngine {e cause : Nat} (h : Aside s t) (he : e < 16) : Aside s (failEngine e cause t) :=
  (((h.idleEngine he).wrGrove he).wrGrove he).clearBit.raise.logEvent

protected theorem makeFallow {e : Nat} (h : Aside s t) (he : e < 16) : Aside s (makeFallow e t) :=
  ((h.idleEngine he).wrGrove he).wr.clear

protected theorem squeezeBridge {b : Nat} (h : Aside s t) (hb : b < 4) (hu : squeezeBridge b t = some u) : Aside s u := by
  unfold squeezeBridge at hu
  split at hu
  · cases hu
  · next p hp =>
    dsimp only at hu
    split at hu
    · cases hu
    · split at hu
      · cases hu
        refine Aside.showPlacement (h.setBr ?_) hb
        exact ⟨fun h0 => by simp [hp] at h0, id, rfl, rfl⟩
      · cases hu

protected theorem noFallow (h : Aside s t) : Aside s (noFallow t) := .ite h h.raise.raise

protected theorem recoverFallow (h : Aside s t) : Aside s (recoverFallow t) := by
  unfold recoverFallow
  split
  · next e l he => exact h.makeFallow (enginesIn_lt (he ▸ List.mem_cons_self))
  · refine .noFallow ?_
    cases hu : (List.range 4).findSome? (fun b => squeezeBridge b t) with
    | none => exact h
    | some u =>
      obtain ⟨b, hb, hs⟩ := List.exists_of_findSome?_eq_some hu
      exact h.squeezeBridge (List.mem_range.1 hb) hs

protected theorem rotate (h : Aside s t) : Aside s (rotate t) := by
  have hf : t.rd R.CN_STATUS.FALLOW < 16 := State.rd_lt t R.CN_STATUS.FALLOW 0 0
  unfold rotate
  extract_lets _ _ u1
  have h1 : Aside s u1 := h.same
  split
  · exact h1
  · next e he =>
    have he := rotationEngine_lt he
    refine .ite ((h1.wrGrove hf).makeFallow he) ?_
    extract_lets b
    have hb : b < 4 := State.rd_lt t R.EN_STATUS.OWNER e 0
    split
    · exact h1
    · next p hp =>
      refine .ite h (Aside.showPlacement (((h1.wrGrove hf).wrGrove hf).setBr ?_) hb)
      exact ⟨fun h0 => by simp [u1, hp] at h0, id, rfl, rfl⟩

protected theorem takeStep (h : Aside s t) : Aside s (takeStep t) := .ite h.rotate h

protected theorem freeEngines {b : Nat} (h : Aside s t) (hb : b < 4) : Aside s (freeEngines b t) := by
  have hb : b < 16 := by omega
  unfold freeEngines
  split
  · exact h
  · extract_lets u1 _ u2 u3
    have h1 : Aside s u1 := by
      refine h.eachMem fun _ _ he h2 => ?_
      have he := ownedEngines_lt he
      refine .ite ((h2.idleEngine he).wrGrove he) ?_
      split
      · exact h2.failEngine he
      · exact h2.idleEngine he
    have h2 : Aside s u2 := by
      refine h1.setBr ?_
      exact ⟨fun _ => rfl, id, rfl, rfl⟩
    have h3 : Aside s u3 := (((h2.wrGrove hb).wrGrove hb).wrGrove hb).wrGrove hb
    exact .takeStep (.ite h3.recoverFallow h3)

protected theorem endHold (h : Aside s t) : Aside s (endHold t) := .ite h.same.clear h

/-! ### Machine/Dellan.lean -/

protected theorem showOut (h : Aside s t) : Aside s (showOut t) := h.same
protected theorem dropSymbol (h : Aside s t) : Aside s (dropSymbol t) := h.countUp

protected theorem sendTrigSymbol {own : Bool} {o : OutSym} (h : Aside s t) : Aside s (sendTrigSymbol own o t) :=
  .ite h.dropSymbol (.showOut (.same (.ite h.countUp h)))

protected theorem ownTrigger {line age : Nat} (h : Aside s t) : Aside s (ownTrigger line age t) :=
  .ite h.sendTrigSymbol h

/-! ### Machine/Capture.lean -/

protected theorem onReady {n : Nat} (h : Aside s t) : Aside s (onReady n t) :=
  .ite (h.each (fun _ _ h1 => h1.setUnit.wr)) h

protected theorem fillUnit {noPane : Bool} {from_ : Nat} {panes : List Nat} {n : Nat} (h : Aside s t) :
    Aside s (fillUnit noPane from_ panes n t) :=
  h.setUnit.wr.wr

protected theorem fillGroup {us : List Nat} {noPane : Bool} {from_ : Nat → Nat} (h : Aside s t) :
    Aside s (fillGroup us noPane from_ t) := by
  unfold fillGroup
  split
  · exact h
  · exact (h.same.each (fun _ _ h1 => h1.fillUnit)).onReady

protected theorem idleUnit {n : Nat} (h : Aside s t) : Aside s (idleUnit n t) := h.setUnit.wr

protected theorem closeRecord {n : Nat} {trunc : Bool} (h : Aside s t) : Aside s (closeRecord n trunc t) :=
  h.same.setUnit.raise

protected theorem rearmGroup {us : List Nat} (h : Aside s t) : Aside s (rearmGroup us t) :=
  .ite h.fillGroup (h.each (fun _ _ h1 => h1.setUnit.wr.raise))

protected theorem recordFull {n : Nat} (h : Aside s t) : Aside s (recordFull n t) := by
  unfold recordFull
  extract_lets _ _ _ u1
  have h1 : Aside s u1 := h.closeRecord.setUnit
  exact .ite (.ite h1.rearmGroup h1) h1.idleUnit

protected theorem fullCheck {n : Nat} (h : Aside s t) : Aside s (fullCheck n t) := by
  unfold fullCheck
  refine .ite ?_ h
  split
  · split
    · exact .ite h.recordFull h
    · exact h
  · exact h

protected theorem countIgnored {us : List Nat} (h : Aside s t) : Aside s (countIgnored us t) :=
  h.each fun _ _ h1 => .ite h1 h1.setUnit.countUp

protected theorem fireGroup {us : List Nat} {f : Fire} (h : Aside s t) : Aside s (fireGroup us f t) := by
  unfold fireGroup
  extract_lets u1 _ u2
  have h1 : Aside s u1 := h.each fun _ _ h2 => h2.setUnit.wr.raise
  have h2 : Aside s u2 := .ite h1.same h1
  exact h2.each fun _ _ h3 => h3.fullCheck

protected theorem triggerGroup {us on_ : List Nat} {f : Fire} (h : Aside s t) : Aside s (triggerGroup us on_ f t) := by
  unfold triggerGroup
  dsimp only
  refine .ite ?_ (.ite (h.each (fun _ _ h1 => h1.setUnit)) h.countIgnored)
  split
  · exact .ite h.same (.ite (.ite h.same.countIgnored.fireGroup h.same.countIgnored.same) h.countIgnored)
  · exact .ite h.fireGroup h.same

protected theorem sendTrigger {us : List Nat} {f : Fire} (h : Aside s t) : Aside s (sendTrigger us f t) :=
  .ite h.ownTrigger h

protected theorem triggerUnits {mk : State → Bool → Fire} {local_ : Bool} {us : List Nat} (h : Aside s t) :
    Aside s (triggerUnits mk local_ us t) := by
  unfold triggerUnits
  extract_lets _ u1
  have h1 : Aside s u1 := h.each fun _ _ h2 => h2.triggerGroup
  exact .ite h1 (.triggerGroup (.ite h1.sendTrigger h1))

protected theorem triggerSource {source t' : Nat} (h : Aside s t) : Aside s (triggerSource source t' t) :=
  h.triggerUnits

/-! ### Machine/SillCore.lean and Machine/Seal.lean -/

protected theorem noteKon (h : Aside s t) : Aside s (noteKon t) := h.each fun _ _ h1 => h1.same
protected theorem showActs (h : Aside s t) : Aside s (showActs t) := h.wr.wr.wr.wr

protected theorem safetyLog {event source bridges detail : Nat} (h : Aside s t) :
    Aside s (safetyLog event source bridges detail t) :=
  h.same.logEvent

protected theorem recode (h : Aside s t) : Aside s (recode t) :=
  .ite h.wr.wr.raise.safetyLog (.ite h.wr.wr.safetyLog h.wr.wr)

protected theorem opClock {b : Nat} {on_ : Bool} (h : Aside s t) : Aside s (opClock b on_ t) := by
  unfold opClock
  extract_lets
  split
  · exact .ite h (h.setBr ⟨id, id, rfl, rfl⟩)
  · exact .ite (h.setBr ⟨id, id, rfl, rfl⟩) h

protected theorem refuseBeat {b : Nat} (h : Aside s t) : Aside s (refuseBeat b t) := by
  unfold refuseBeat
  split
  · exact h.setBr ⟨id, id, rfl, rfl⟩
  · exact h

protected theorem endOverdue {b : Nat} (h : Aside s t) : Aside s (endOverdue b t) := .ite h.same.safetyLog h

end Aside

/-! ### The legs and their gates leave the bridge block alone -/

namespace Frame

/-- What an operation that stays aside does to the state reached so far. -/
protected theorem aside (h : Frame s t) (k : Aside t u) : Frame s u := h.trans k.toFrame

protected theorem crossTrip {n : Nat} (h : Frame s t) : Frame s (crossTrip n t) := .ite h.setLeg.raise.countUp h

protected theorem gateFell {k : Nat} (h : Frame s t) : Frame s (gateFell k t) :=
  .ite h.crossTrip.clear.clear.setDie h.clear

protected theorem gateOff {k : Nat} (h : Frame s t) : Frame s (gateOff k t) := .ite h (.ite h.setDie h.gateFell)
protected theorem legOff {n : Nat} (h : Frame s t) : Frame s (legOff n t) := h.gateOff.gateOff

protected theorem interlock {n : Nat} (h : Frame s t) : Frame s (interlock n t) := by
  unfold interlock
  split
  · exact h
  · exact .ite (.ite h h.raise.countUp.setLeg.legOff) (.ite h.clear.setLeg (.ite h h.setLeg))

protected theorem interlocks (h : Frame s t) : Frame s (interlocks t) := h.each fun _ _ h1 => h1.interlock

protected theorem armSupply {k : Nat} {on_ : Bool} (h : Frame s t) : Frame s (armSupply k on_ t) := h.setDie
protected theorem legRelease {n : Nat} (h : Frame s t) : Frame s (legRelease n t) := .ite h h.raise.armSupply.armSupply

protected theorem legBlock {n : Nat} (h : Frame s t) : Frame s (legBlock n t) :=
  h.clear.clear.setLeg.legOff.armSupply.armSupply

protected theorem setPulses {b : Nat} {on_ : Bool} (h : Frame s t) : Frame s (setPulses b on_ t) := by
  refine .ite (.each (h.setBr ?_) fun _ _ h1 => h1.legRelease) (.each (h.setBr ?_) fun _ _ h1 => h1.legBlock)
  · exact ⟨id, id, rfl, rfl⟩
  · exact ⟨id, id, rfl, rfl⟩

protected theorem closeShutter {b : Nat} (h : Frame s t) : Frame s (closeShutter b t) := by
  refine Frame.setPulses (h.setBr ?_)
  exact ⟨id, fun _ => rfl, rfl, rfl⟩

protected theorem sealLeg {n : Nat} (h : Frame s t) : Frame s (sealLeg n t) :=
  h.setLeg.clear.clear.clear.clear.clear.clear.clear

end Frame

end
end Sys2Proof.Machine
end
section
/-! SUPPORT. Two fields that no copy of either shares a bit of a register with. -/

namespace Sys2Proof.Machine

open Sys2Proof

/-- No copy of `g` shares a bit with one of `f`: other bits of the word, or addresses that differ modulo every stride, or a
single register below the other's first. -/
def apartFld (f g : Fld) : Bool :=
  decide (g.lo + g.width ≤ 32) &&
    (decide (f.lo + f.width ≤ g.lo ∨ g.lo + g.width ≤ f.lo) ||
      decide (f.base % ((f.stride.gcd f.stride2).gcd (g.stride.gcd g.stride2)) ≠
        g.base % ((f.stride.gcd f.stride2).gcd (g.stride.gcd g.stride2))) ||
      decide (g.stride = 0 ∧ g.base < f.base))

/-- A copy of a field lies a whole number of steps from the first, for a step that divides both strides. -/
theorem fldAddr_mod (f : Fld) (i j : Nat) {d : Nat} (hd : d ∣ f.stride.gcd f.stride2) : fldAddr f i j % d = f.base % d := by
  have h1 : d ∣ i * f.stride := (hd.trans (Nat.gcd_dvd_left _ _)).mul_left i
  have h2 : d ∣ j * f.stride2 := (hd.trans (Nat.gcd_dvd_right _ _)).mul_left j
  rw [fldAddr, Nat.add_assoc, Nat.add_mod, Nat.mod_eq_zero_of_dvd (h1.add h2), Nat.add_zero, Nat.mod_mod]

theorem rd_wr_apart {f g : Fld} (s : State) (i j k v : Nat) (h : apartFld f g = true := by decide) :
    (s.wr g k v).rd f i j = s.rd f i j := by
  simp only [apartFld, Bool.and_eq_true, Bool.or_eq_true, decide_eq_true_eq] at h
  obtain ⟨hg, (hbits | haddr) | ⟨hzero, hlow⟩⟩ := h
  · exact State.rd_wr_bits s f g i j k v hg hbits
  · refine State.rd_wr_addr s f g i j k v fun he => haddr ?_
    rw [← fldAddr_mod f i j (Nat.gcd_dvd_left _ _), ← fldAddr_mod g k 0 (Nat.gcd_dvd_right _ _), he]
  · refine State.rd_wr_addr s f g i j k v fun he => ?_
    simp only [fldAddr, hzero] at he
    omega

/-- Another copy of the same register. -/
theorem rd_wr_instance (s : State) {f g : Fld} {i k : Nat} (v : Nat) (hi : i ≠ k)
    (h : (f.base, f.stride) = (g.base, g.stride) ∧ 0 < g.stride := by decide) : (s.wr g k v).rd f i = s.rd f i := by
  obtain ⟨he, hpos⟩ := h
  obtain ⟨hbase, hstride⟩ := Prod.mk.inj he
  refine State.rd_wr_addr s f g i 0 k v fun ha => hi (Nat.eq_of_mul_eq_mul_right hpos ?_)
  simpa [fldAddr, hbase, hstride] using ha

end Sys2Proof.Machine
end
section
/-! SUPPORT. O23, O24, O25, O27 and O48: what a seal does, in its four parts: the bridge gives up what it holds, its legs and its graph's
registers clear, MODE and the reason are recorded, and what follows from the seal elsewhere. -/

namespace Sys2Proof.Machine

open Sys2Proof

/-! ### Legs of a bridge -/

/-- A bridge's legs, valid or not, are numbered below 35 (R15, R16). -/
theorem legsOf_lt {s : State} {b n : Nat} (hn : n ∈ legsOf s b) : n < 35 := by
  have hfirst : ∀ p, phaseFirst s b p < 32 := fun p => by
    unfold phaseFirst
    split
    · exact State.rd_lt s R.BR_PHASE.P0_FIRST b 0
    · exact State.rd_lt s R.BR_PHASE.P1_FIRST b 0
    · exact State.rd_lt s R.BR_PHASE.P2_FIRST b 0
    · exact State.rd_lt s R.BR_PHASE.P3_FIRST b 0
  unfold legsOf at hn
  split at hn
  · cases hn
  · obtain ⟨p, -, hp⟩ := List.mem_flatMap.1 hn
    obtain ⟨k, hk, rfl⟩ := List.mem_map.1 hp
    have hk : k < s.rd R.BR_CFG.NLEG_M1 b + 1 := List.mem_range.1 hk
    have hl : s.rd R.BR_CFG.NLEG_M1 b < 4 := State.rd_lt s R.BR_CFG.NLEG_M1 b 0
    have := hfirst p
    omega

/-- What says which legs a bridge has stays where BR_CFG and BR_PHASE do. -/
theorem legsOf_congr {s t : State} {b : Nat} (hc : t.reg (A.BR_CFG + 0x400 * b) = s.reg (A.BR_CFG + 0x400 * b))
    (hp : t.reg (A.BR_PHASE + 0x400 * b) = s.reg (A.BR_PHASE + 0x400 * b)) : legsOf t b = legsOf s b := by
  have hcfg : ∀ f : Fld, f.base = A.BR_CFG → f.stride = 0x400 → t.rd f b = s.rd f b := fun f hf hs => by
    rw [State.rd_eq, State.rd_eq, fldAddr, hf, hs, Nat.zero_mul, Nat.add_zero, Nat.mul_comm b, hc]
  have hphase : ∀ f : Fld, f.base = A.BR_PHASE → f.stride = 0x400 → t.rd f b = s.rd f b := fun f hf hs => by
    rw [State.rd_eq, State.rd_eq, fldAddr, hf, hs, Nat.zero_mul, Nat.add_zero, Nat.mul_comm b, hp]
  have hfirst : ∀ p, phaseFirst t b p = phaseFirst s b p := fun p => by
    unfold phaseFirst
    split
    · exact hphase _ rfl rfl
    · exact hphase _ rfl rfl
    · exact hphase _ rfl rfl
    · exact hphase _ rfl rfl
  simp only [legsOf, phaseLegs, kindOf, nphaseOf, nlegOf, hfirst, hcfg R.BR_CFG.KIND rfl rfl, hcfg R.BR_CFG.NPHASE rfl rfl,
    hcfg R.BR_CFG.NLEG_M1 rfl rfl]
  rfl

/-- What one pass of a loop brings about and every other pass keeps. -/
theorem each_reaches {α : Type} {p : State → Prop} {f : State → α → State} {l : List α} {x : α} (hx : x ∈ l)
    (hset : ∀ u, p (f u x)) (hkeep : ∀ u y, p u → p (f u y)) (s : State) : p (s.each l f) := by
  induction l generalizing s with
  | nil => cases hx
  | cons y l ih =>
    rcases List.mem_cons.1 hx with rfl | hx
    · exact State.each_ind p f hkeep l _ (hset s)
    · exact ih hx (f s y)

/-! ### The four parts of a seal -/

/-- The bridge gives up what it holds: the ledger pull, its Shutter line, the replies that wait for it, its engines (R36, R161). -/
def sealRelease (b : Nat) (h : SealHow) (s : State) : State :=
  let s0 := if h.auto then refuseBeat b s else s
  freeEngines b (swapSettled (4 + b) (swapSettled b (closeShutter b (if h.pull then pullBridge b s0 else s0))))

/-- The legs `ls`, the registers of its graph and its steps clear (R216, R122, R137). -/
def sealClear (ls : List Nat) (b : Nat) (s : State) : State :=
  let t := clearGraphRegs b ((s.each ls (fun s n => sealLeg n s)).clear R.FB_STATUS.SPLIT b)
  t.setBr b { t.br b with
    due := 0, rampAt := none, inBand := false, holdAt := none, syncOk := false, isoOk := false, ramp := none,
    sillDue := none, acted := 0, actedMask := 0, back := false, strobePer := none, fbPer := false, fbDuty := [],
    sashLoad := false }

/-- The state as the bridge's record is made: it holds nothing any more, and its legs are cleared. -/
def sealCleared (b : Nat) (h : SealHow) (s : State) : State := sealClear (legsOf s b) b (sealRelease b h s)

/-- MODE, the reason and the latch are recorded (R33, R40). -/
def sealRecord (b : Nat) (h : SealHow) (s : State) : State :=
  let s6 := (changeMode b 0 0 s).wr R.BR_REASON.SEAL_REASON b h.reason |>.countUp R.BR_COUNT.SEALS b
  let s7 := if latchingReason h.reason || h.latch then s6.raise R.BR_STATUS.LATCHED b else s6
  if h.auto then s7.raiseBit R.DEV_EVENT.AUTO_SEAL b else s7

/-- What follows elsewhere: the log, the SET_MODE that ran, a hold, the test-due demand and the capture units (R321, R360, R293). -/
def sealTell (b : Nat) (h : SealHow) (s : State) : State :=
  let s9 := logEvent 0x0011 b (le 1 h.reason) (endRun 0x0201 b h.result s)
  let s11 := endOverdue b (if heldBridge s9 b then endHold s9 else s9)
  triggerSource (10 + b) s11.now (showActs s11)

/-- A seal of a bridge that is not SEALED is its four parts in turn. -/
theorem sealBridge_eq {b : Nat} (h : SealHow) {s : State} (hm : modeOf s b ≠ 0) :
    sealBridge b h s = sealTell b h (sealRecord b h (sealCleared b h s)) := by
  rw [sealBridge, if_neg hm]
  rfl

theorem sealBridge_sealed {b : Nat} (h : SealHow) {s : State} (hm : modeOf s b = 0) : sealBridge b h s = s := if_pos hm

section
variable {b : Nat} (h : SealHow) (s : State)

/-! ### What the bridge held -/

theorem freeEngines_placed (hb : b < 4) : ((freeEngines b s).br b).placed = none := by
  have hb16 : b < 16 := by omega
  unfold freeEngines
  split
  · next hp => exact hp
  · extract_lets u1 _ u2 u3
    have h2 : (u2.br b).placed = none := by simp [u2]
    have h3 : Aside u2 u3 := ((((Aside.refl u2).wrGrove hb16).wrGrove hb16).wrGrove hb16).wrGrove hb16
    have h4 : Aside u2 (takeStep (if u3.flag R.CN_STATUS.NO_FALLOW then recoverFallow u3 else u3)) :=
      .takeStep (.ite h3.recoverFallow h3)
    exact (h4.br b).placed h2

theorem closeShutter_open : ((closeShutter b s).br b).open_ = false := by
  have h1 := (Frame.refl (s.setBr b { s.br b with open_ := false })).setPulses (b := b) (on_ := false)
  exact (h1.br b).shut (by rw [State.br_setBr_same])

/-- The bridge block stays while the bridge gives up what it holds. -/
theorem sealRelease_frame (hb : b < 4) : Frame s (sealRelease b h s) := by
  have h0 : Frame s (if h.auto then refuseBeat b s else s) := .ite (Aside.refl s).refuseBeat.toFrame (.refl s)
  have h1 := Frame.ite (c := h.pull) (h0.aside ((Aside.refl _).pullBridge (b := b))) h0
  exact h1.closeShutter.aside ((Aside.refl _).swapSettled.swapSettled.freeEngines hb)

theorem sealRelease_placed (hb : b < 4) : ((sealRelease b h s).br b).placed = none := freeEngines_placed _ hb

theorem sealRelease_open (hb : b < 4) : ((sealRelease b h s).br b).open_ = false :=
  (((Aside.refl _).swapSettled.swapSettled.freeEngines hb).br b).shut (closeShutter_open _)

/-! ### The legs -/

/-- An entry into SEALED blocks the pulses of a leg, and of no other leg releases them. -/
theorem sealLeg_pulses (n : Nat) : (sealLeg n s).rd R.SH_STATUS.PULSES n = 0 := by
  simp only [sealLeg, State.clear_eq]
  rw [rd_wr_apart, rd_wr_apart, State.rd_wr_same _ _ _ _ (by decide), Nat.zero_mod]

theorem sealLeg_pulses_zero (n m : Nat) (h0 : s.rd R.SH_STATUS.PULSES n = 0) : (sealLeg m s).rd R.SH_STATUS.PULSES n = 0 := by
  by_cases hm : m = n
  · subst hm
    exact sealLeg_pulses s m
  · simp only [sealLeg, State.clear_eq]
    rw [rd_wr_apart, rd_wr_apart, State.rd_wr_addr _ _ _ _ _ _ _ (by simp only [fldAddr, R.SH_STATUS.PULSES]; omega),
      rd_wr_apart, rd_wr_apart, rd_wr_apart, rd_wr_apart, State.rd_setLeg, h0]

end
end Sys2Proof.Machine
end
section
/-! SUPPORT. O23, O24, O25 and O27: the registers of a bridge's modes through a seal, and what a seal comes to. -/

namespace Sys2Proof.Machine

open Sys2Proof

/-! ### The registers of the modes -/

/-- A register of a bridge's configuration, modes and limits: the first 0x100 bytes of its block (R21 to R43). -/
def modeReg (a : Nat) : Prop := bridgeBlock a ∧ a % 0x400 < 0x100

/-- No time passes, the queue and the host port stay as `Calm` says, and so do the registers of the modes. -/
structure Modes (s t : State) : Prop extends Calm s t where
  reg : ∀ a, modeReg a → t.reg a = s.reg a

/-- A field that no bridge's mode registers hold. -/
def modeApart (f : Fld) : Bool := outerFld f || (decide (f.stride = 0x400) && decide (0x100 ≤ f.base % 0x400))

theorem modeApart_addr {f : Fld} (hf : modeApart f = true) (i : Nat) {a : Nat} (ha : modeReg a) : a ≠ fldAddr f i 0 := by
  obtain ⟨hb, hm⟩ := ha
  simp only [modeApart, Bool.or_eq_true, Bool.and_eq_true, decide_eq_true_eq] at hf
  rcases hf with hf | ⟨hs, hf⟩
  · exact outerFld_addr hf i hb
  · simp only [fldAddr, hs]
    omega

/-- The place of a mode register of one of the four bridges. -/
theorem modeReg_fldAddr {f : Fld} {b : Nat} (hb : b < 4)
    (hf : f.stride = 0x400 ∧ 0x100000 ≤ f.base ∧ f.base < 0x100100 := by decide) : modeReg (fldAddr f b 0) := by
  obtain ⟨hs, h1, h2⟩ := hf
  simp only [modeReg, bridgeBlock, fldAddr, hs]
  omega

namespace Modes

variable {s t u : State}

protected theorem refl (s : State) : Modes s s := ⟨.refl s, fun _ _ => rfl⟩

protected theorem trans (h : Modes s t) (k : Modes t u) : Modes s u :=
  ⟨h.toCalm.trans k.toCalm, fun a ha => (k.reg a ha).trans (h.reg a ha)⟩

protected theorem frame (h : Modes s t) (k : Frame t u) : Modes s u := h.trans ⟨k.toCalm, fun a ha => k.reg a ha.1⟩

protected theorem each {α : Type} {f : State → α → State} {l : List α} (h : Modes s t)
    (hf : ∀ v x, Modes s v → Modes s (f v x)) : Modes s (t.each l f) := State.each_ind _ f hf l t h

protected theorem wr {f : Fld} {i v : Nat} (h : Modes s t) (hf : modeApart f = true := by decide) : Modes s (t.wr f i v) :=
  ⟨h.toCalm.wr, fun a ha => (State.reg_wr_ne t f i v a (modeApart_addr hf i ha)).trans (h.reg a ha)⟩

protected theorem clear {f : Fld} {i : Nat} (h : Modes s t) (hf : modeApart f = true := by decide) : Modes s (t.clear f i) :=
  h.wr hf

protected theorem setBr {b : Nat} {v : Bridge} (h : Modes s t) : Modes s (t.setBr b v) := ⟨h.toCalm.setBr, h.reg⟩

protected theorem clearGraphRegs {b : Nat} (h : Modes s t) : Modes s (clearGraphRegs b t) :=
  h.clear.clear.clear.clear.clear.clear.clear.clear.clear.clear.clear

protected theorem sealClear {ls : List Nat} {b : Nat} (h : Modes s t) : Modes s (sealClear ls b t) :=
  (h.each fun _ _ h1 => h1.frame (Frame.refl _).sealLeg).clear.clearGraphRegs.setBr

/-- A field of a mode register reads as before. -/
protected theorem rd (h : Modes s t) {f : Fld} {b : Nat} (hb : b < 4)
    (hf : f.stride = 0x400 ∧ 0x100000 ≤ f.base ∧ f.base < 0x100100 := by decide) : t.rd f b = s.rd f b := by
  rw [State.rd_eq, State.rd_eq, h.reg _ (modeReg_fldAddr hb hf)]

end Modes

theorem Frame.modes {s t : State} (h : Frame s t) : Modes s t := (Modes.refl s).frame h

/-! ### A change of mode -/

/-- MODE and STEP written, the time of the change and the current ceiling kept (R27, R33). -/
def modeWritten (b mode step : Nat) (s : State) : State :=
  let s1 := ((s.wr R.BR_STATUS.MODE b mode).wr R.BR_STATUS.STEP b step).raiseBit R.DEV_EVENT.MODE_CHG b
  s1.setBr b { s1.br b with
    modeAt := s1.now, stepAt := s1.now, stepOver := false, failDue := none, ceiling := modeCeiling mode }

section
variable {b : Nat} (m st : Nat) (s : State)

/-- What else a change of mode does is noted elsewhere. -/
theorem changeMode_aside : Aside (modeWritten b m st s) (changeMode b m st s) := (Aside.refl _).noteKon.opClock.logEvent

theorem changeMode_calm : Calm s (changeMode b m st s) :=
  ((Calm.refl s).wr.wr.raiseBit.setBr).trans (changeMode_aside m st s).toCalm

/-- A mode register's field that a change of mode does not write. -/
theorem changeMode_rd {f : Fld} {c : Nat} (hc : c < 4)
    (hf : f.stride = 0x400 ∧ 0x100000 ≤ f.base ∧ f.base < 0x100100 := by decide)
    (hm : apartFld f R.BR_STATUS.MODE = true := by decide) (hs : apartFld f R.BR_STATUS.STEP = true := by decide)
    (he : apartFld f R.DEV_EVENT.MODE_CHG = true := by decide) : (changeMode b m st s).rd f c = s.rd f c := by
  rw [(changeMode_aside m st s).modes.rd hc hf, modeWritten, State.rd_setBr, State.raiseBit_eq, rd_wr_apart _ _ _ _ _ he,
    rd_wr_apart _ _ _ _ _ hs, rd_wr_apart _ _ _ _ _ hm]

theorem changeMode_mode (hb : b < 4) : modeOf (changeMode b m st s) b = m % 8 := by
  rw [modeOf, (changeMode_aside m st s).modes.rd hb, modeWritten, State.rd_setBr, State.raiseBit_eq, rd_wr_apart, rd_wr_apart,
    State.rd_wr_same _ _ _ _ (by decide)]
  rfl

theorem changeMode_step (hb : b < 4) : stepOf (changeMode b m st s) b = st % 8 := by
  rw [stepOf, (changeMode_aside m st s).modes.rd hb, modeWritten, State.rd_setBr, State.raiseBit_eq, rd_wr_apart,
    State.rd_wr_same _ _ _ _ (by decide)]
  rfl

theorem changeMode_mode_ne {c : Nat} (hc : c < 4) (hcb : c ≠ b) : modeOf (changeMode b m st s) c = modeOf s c := by
  rw [modeOf, (changeMode_aside m st s).modes.rd hc, modeWritten, State.rd_setBr, State.raiseBit_eq, rd_wr_apart, rd_wr_apart,
    rd_wr_instance _ _ hcb, modeOf]

theorem modeWritten_br : (modeWritten b m st s).br b = { s.br b with
    modeAt := s.now, stepAt := s.now, stepOver := false, failDue := none, ceiling := modeCeiling m } :=
  State.br_setBr_same _ b _

/-- What a change of mode keeps of the bridge's own state. -/
theorem changeMode_br : BrKeeps { s.br b with ceiling := modeCeiling m } ((changeMode b m st s).br b) := by
  have h := (changeMode_aside (b := b) m st s).br b
  rw [modeWritten_br] at h
  exact ⟨h.placed, h.shut, h.ramp, h.ceiling⟩

end

/-! ### The record of a seal -/

section
variable {b : Nat} (h : SealHow) (s : State)

theorem sealRecord_br (x : Nat) : (sealRecord b h s).br x = (changeMode b 0 0 s).br x := by
  simp only [sealRecord, State.countUp_eq, State.raise_eq, State.raiseBit_eq, State.br_ite, State.br_wr, ite_self]

theorem sealRecord_calm : Calm s (sealRecord b h s) := by
  unfold sealRecord
  extract_lets s6 s7
  have h6 : Calm s s6 := (changeMode_calm 0 0 s).wr.countUp
  have h7 : Calm s s7 := .ite h6.raise h6
  exact .ite h7.raiseBit h7

/-- The record of a seal writes the mode, the reason, the count and the latch of its bridge. -/
theorem sealRecord_rd {f : Fld} {c : Nat} (hr : apartFld f R.BR_REASON.SEAL_REASON = true := by decide)
    (hn : apartFld f R.BR_COUNT.SEALS = true := by decide) (hl : apartFld f R.BR_STATUS.LATCHED = true := by decide)
    (he : apartFld f R.DEV_EVENT.AUTO_SEAL = true := by decide) :
    (sealRecord b h s).rd f c = (changeMode b 0 0 s).rd f c := by
  simp only [sealRecord, State.countUp_eq, State.raise_eq, State.raiseBit_eq, State.rd_ite, rd_wr_apart _ _ _ _ _ hr,
    rd_wr_apart _ _ _ _ _ hn, rd_wr_apart _ _ _ _ _ hl, rd_wr_apart _ _ _ _ _ he, ite_self]

theorem sealRecord_reason (hr : h.reason < 32) : (sealRecord b h s).rd R.BR_REASON.SEAL_REASON b = h.reason := by
  simp (disch := decide) only [sealRecord, State.countUp_eq, State.raise_eq, State.raiseBit_eq, State.rd_ite, rd_wr_apart,
    ite_self, State.rd_wr_same]
  exact Nat.mod_eq_of_lt hr

theorem sealRecord_latched (hb : b < 4) : (sealRecord b h s).rd R.BR_STATUS.LATCHED b =
    if latchingReason h.reason || h.latch then 1 else s.rd R.BR_STATUS.LATCHED b := by
  simp (disch := decide) only [sealRecord, State.countUp_eq, State.raise_eq, State.raiseBit_eq, State.rd_ite, rd_wr_apart,
    ite_self, State.rd_wr_same]
  rw [changeMode_rd _ _ _ hb]
  rfl

theorem sealTell_aside : Aside s (sealTell b h s) :=
  (Aside.endOverdue (.ite (Aside.refl s).endRun.logEvent.endHold (Aside.refl s).endRun.logEvent)).showActs.triggerSource

end

/-! ### What a seal comes to -/

section
variable {b : Nat} (h : SealHow) {s : State}

theorem sealCleared_modes (hb : b < 4) : Modes s (sealCleared b h s) := (sealRelease_frame h s hb).modes.sealClear

/-- The pulses of the bridge's legs are blocked. -/
theorem sealCleared_pulses {n : Nat} (hn : n ∈ legsOf s b) : (sealCleared b h s).rd R.SH_STATUS.PULSES n = 0 := by
  have hlegs : ∀ u : State, (u.each (legsOf s b) fun u n => sealLeg n u).rd R.SH_STATUS.PULSES n = 0 :=
    each_reaches hn (fun u => sealLeg_pulses u n) fun u m => sealLeg_pulses_zero u n m
  simp (disch := decide) only [sealCleared, sealClear, State.rd_setBr, clearGraphRegs, State.clear_eq, rd_wr_apart, hlegs]

theorem sealLeg_bridges (n : Nat) (u : State) : (sealLeg n u).bridges = u.bridges := by
  simp only [sealLeg, State.clear_eq, State.wr_bridges, State.setLeg_bridges]

/-- What the bridge holds once its legs are cleared. -/
theorem sealClear_br (ls : List Nat) (u : State) : (sealClear ls b u).br b = { u.br b with
    due := 0, rampAt := none, inBand := false, holdAt := none, syncOk := false, isoOk := false, ramp := none,
    sillDue := none, acted := 0, actedMask := 0, back := false, strobePer := none, fbPer := false, fbDuty := [],
    sashLoad := false } := by
  have hlegs : (u.each ls fun u n => sealLeg n u).br b = u.br b :=
    State.br_congr (State.each_bridges _ _ _ fun v n => sealLeg_bridges n v) b
  simp only [sealClear, State.br_setBr_same, clearGraphRegs, State.clear_eq, State.br_wr, hlegs]

theorem sealCleared_br (hb : b < 4) : ((sealCleared b h s).br b).placed = none ∧ ((sealCleared b h s).br b).open_ = false ∧
    ((sealCleared b h s).br b).ramp = none := by
  rw [sealCleared, sealClear_br]
  exact ⟨sealRelease_placed h s hb, sealRelease_open h s hb, rfl⟩

/-- A field of a mode register after a seal is as the record leaves it. -/
theorem sealBridge_rd (hm : modeOf s b ≠ 0) {f : Fld} {c : Nat} (hc : c < 4)
    (hf : f.stride = 0x400 ∧ 0x100000 ≤ f.base ∧ f.base < 0x100100 := by decide) :
    (sealBridge b h s).rd f c = (sealRecord b h (sealCleared b h s)).rd f c := by
  rw [sealBridge_eq h hm, (sealTell_aside h _).modes.rd hc hf]

theorem sealBridge_calm (hb : b < 4) : Calm s (sealBridge b h s) := by
  by_cases hm : modeOf s b = 0
  · rw [sealBridge_sealed h hm]
    exact .refl s
  · rw [sealBridge_eq h hm]
    exact ((sealCleared_modes h hb).toCalm.trans (sealRecord_calm h _)).trans (sealTell_aside h _).toCalm

theorem sealBridge_mode (hb : b < 4) : modeOf (sealBridge b h s) b = 0 := by
  by_cases hm : modeOf s b = 0
  · rw [sealBridge_sealed h hm, hm]
  · rw [modeOf, sealBridge_rd h hm hb, sealRecord_rd h]
    exact changeMode_mode 0 0 _ hb

theorem sealBridge_step (hb : b < 4) (hm : modeOf s b ≠ 0) : stepOf (sealBridge b h s) b = 0 := by
  rw [stepOf, sealBridge_rd h hm hb, sealRecord_rd h]
  exact changeMode_step 0 0 _ hb

theorem sealBridge_reason (hb : b < 4) (hm : modeOf s b ≠ 0) (hr : h.reason < 32) :
    (sealBridge b h s).rd R.BR_REASON.SEAL_REASON b = h.reason := by
  rw [sealBridge_rd h hm hb, sealRecord_reason h _ hr]

theorem sealBridge_latched (hb : b < 4) (hm : modeOf s b ≠ 0) : (sealBridge b h s).rd R.BR_STATUS.LATCHED b =
    if latchingReason h.reason || h.latch then 1 else s.rd R.BR_STATUS.LATCHED b := by
  rw [sealBridge_rd h hm hb, sealRecord_latched h _ hb, (sealCleared_modes h hb).rd hb]

theorem sealBridge_mode_ne (hb : b < 4) {c : Nat} (hc : c < 4) (hcb : c ≠ b) : modeOf (sealBridge b h s) c = modeOf s c := by
  by_cases hm : modeOf s b = 0
  · rw [sealBridge_sealed h hm]
  · rw [modeOf, sealBridge_rd h hm hc, sealRecord_rd h, ← modeOf, changeMode_mode_ne 0 0 _ hc hcb, modeOf,
      (sealCleared_modes h hb).rd hc, modeOf]

/-- After a seal the bridge has no placement and no ramp, and its Shutter line is asserted. -/
theorem sealBridge_br (hb : b < 4) (hm : modeOf s b ≠ 0) : ((sealBridge b h s).br b).placed = none ∧
    ((sealBridge b h s).br b).open_ = false ∧ ((sealBridge b h s).br b).ramp = none := by
  obtain ⟨hplaced, hopen, hramp⟩ := sealCleared_br h (s := s) hb
  have hk := changeMode_br (b := b) 0 0 (sealCleared b h s)
  rw [← sealRecord_br h] at hk
  have hk := hk.trans ((sealTell_aside (b := b) h _).br b)
  rw [sealBridge_eq h hm]
  exact ⟨hk.placed hplaced, hk.shut hopen, hk.ramp.trans hramp⟩

theorem sealBridge_pulses (hm : modeOf s b ≠ 0) {n : Nat} (hn : n ∈ legsOf s b) :
    (sealBridge b h s).rd R.SH_STATUS.PULSES n = 0 := by
  have hlt : n < 35 := legsOf_lt hn
  have haddr : powerBlock (fldAddr R.SH_STATUS.PULSES n 0) := by
    simp only [powerBlock, fldAddr, R.SH_STATUS.PULSES]
    omega
  rw [sealBridge_eq h hm, (sealTell_aside h _).rd haddr, sealRecord_rd h, (changeMode_aside 0 0 _).rd haddr]
  simp (disch := decide) only [modeWritten, State.rd_setBr, State.raiseBit_eq, rd_wr_apart, sealCleared_pulses h hn]

end
end Sys2Proof.Machine
end
section
/-! O23: a seal takes effect. -/

namespace Sys2Proof.Machine

open Sys2Proof

/-- Settles O23: a seal in its four parts, of which the record alone writes the registers of the modes. -/
theorem sealTakesEffect : Obligations.SealTakesEffect := by
  intro b h s hb hr
  refine ⟨sealBridge_sealed h, fun hm => ?_⟩
  obtain ⟨hplaced, hopen, hramp⟩ := sealBridge_br h hb hm
  exact ⟨sealBridge_mode h hb, sealBridge_step h hb hm, sealBridge_reason h hb hm hr, sealBridge_latched h hb hm, hopen, hplaced,
    hramp, fun _ hn => sealBridge_pulses h hm hn, fun _ hc hcb => sealBridge_mode_ne h hb hc hcb,
    (sealBridge_calm h hb).now, (sealBridge_calm h hb).pending⟩

end Sys2Proof.Machine
end
section
/-! O27: a step that does not end in its time, and the end of a ramp. -/

namespace Sys2Proof.Machine

open Sys2Proof

variable {b : Nat} {s : State}

/-! ### The time of a step -/

theorem failStep_placed (r : Nat) (hp : (s.br b).placed.isSome = true) :
    failStep b r s = s.setBr b { s.br b with failDue := some r } := if_pos hp

theorem failStep_ends (r : Nat) (hp : (s.br b).placed = none) (he : stepEnds s b = true) : failStep b r s = s := by
  rw [failStep, if_neg (by simp [hp]), if_pos he]

theorem failStep_seals (r : Nat) (hp : (s.br b).placed = none) (he : stepEnds s b = false) :
    failStep b r s = sealFor b r s := by
  rw [failStep, if_neg (by simp [hp]), if_neg (by simp [he])]

theorem stepEnds_contactor (h1 : stepOf s b = 1) : stepEnds s b = konAgrees s b := by simp only [stepEnds, h1]

theorem stepEnds_outOfBand (h3 : stepOf s b = 3 ∨ stepOf s b = 4) (hi : (s.br b).inBand = false) : stepEnds s b = false := by
  rcases h3 with h3 | h3
  · simp only [stepEnds, h3, hi]
  · simp only [stepEnds, h3, hi, Bool.false_and]

theorem stepEnds_sync (h5 : stepOf s b = 5) : stepEnds s b = (s.br b).syncOk := by simp only [stepEnds, h5]

/-- A seal at a time reached: the reason is recorded, and the time is that one where it is still to come. -/
theorem sealBridge_reachTime (h : SealHow) (t : Nat) (hb : b < 4) (hm : modeOf s b ≠ 0) (hr : h.reason < 32) :
    modeOf (sealBridge b h (reachTime t s)) b = 0 ∧
      (sealBridge b h (reachTime t s)).rd R.BR_REASON.SEAL_REASON b = h.reason ∧
      (sealBridge b h (reachTime t s)).now = max s.now t :=
  have hm' : modeOf (reachTime t s) b ≠ 0 := hm
  ⟨sealBridge_mode h hb, sealBridge_reason h hb hm' hr, (sealBridge_calm h hb).now⟩

/-- Where no beat runs and the step does not end, the end of its time seals the bridge. -/
theorem failStep_reachTime (r t : Nat) (hb : b < 4) (hm : modeOf s b ≠ 0) (hr : r < 32) (hp : (s.br b).placed = none)
    (he : stepEnds (reachTime t s) b = false) : modeOf (failStep b r (reachTime t s)) b = 0 ∧
      (failStep b r (reachTime t s)).rd R.BR_REASON.SEAL_REASON b = r ∧ (failStep b r (reachTime t s)).now = max s.now t := by
  rw [failStep_seals r (s := reachTime t s) hp he]
  exact sealBridge_reachTime { reason := r } t hb hm hr

/-! ### The four times of the steps -/

theorem konWaitExpiry_contactor (hb : b < 4) (h1 : stepOf s b = 1) :
    konWaitExpiry b s = failStep b 12 (reachTime (konWaitEnd s b) s) := by
  rw [konWaitExpiry, if_neg (by omega), if_pos h1]

theorem konWaitExpiry_sync (hb : b < 4) (h4 : modeOf s b = 4) (h5 : stepOf s b = 5) :
    konWaitExpiry b s = reachTime (konWaitEnd s b) s := by
  rw [konWaitExpiry, if_neg (by omega), if_neg (by omega), if_pos ⟨h4, h5⟩]

theorem blackstartTimeout_eq {t0 : Nat} (hb : b < 4) (h3 : modeOf s b = 3) (hs : stepOf s b = 3 ∨ stepOf s b = 4)
    (ht : (s.br b).rampAt = some t0) : blackstartTimeout b s =
      failStep b 9 (reachTime (t0 + s.rd R.GF_CFG.RAMP_T b * 10 * tMs + s.rd R.BR_TIMES.BS_TO b * tSec) s) := by
  rw [blackstartTimeout, if_pos ⟨hb, h3, hs⟩, ht]

theorem syncTimeout_eq (hb : b < 4) (h4 : modeOf s b = 4) (h5 : stepOf s b = 5) : syncTimeout b s =
    failStep b 10 (reachTime ((s.br b).stepAt + s.rd R.BR_TIMES.SYNC_TO b * tSec) s) := by
  rw [syncTimeout, if_pos ⟨hb, h4, h5⟩]

/-- A beat boundary at which neither the step has ended nor its end condition holds. -/
theorem settleStep_seals {r : Nat} (hr : (s.br b).failDue = some r) (ho : (s.br b).stepOver = false)
    (he : stepEnds s b = false) : settleStep b s = sealFor b r s := by
  rw [settleStep, ho, he, if_neg (by decide), hr]

/-! ### The strobe -/

/-- A loop that sets legs alone. -/
theorem each_setLeg {α : Type} (l : List α) (n : α → Nat) (v : State → α → Leg) (s : State) :
    s.each l (fun u x => u.setLeg (n x) (v u x)) = { s with legs := (s.each l fun u x => u.setLeg (n x) (v u x)).legs } :=
  State.each_ind (fun t => t = { s with legs := t.legs }) _ (fun u x hu => by rw [hu]; rfl) l s rfl

/-- The state in which a strobe judges the isolation of the motor: the duties have moved on (R35, R202). -/
def strobed (b e : Nat) (s : State) : State :=
  (loadAll b e (takeDuties b s)).setBr b
    { (loadAll b e (takeDuties b s)).br b with isoOk := motorIsolated (loadAll b e (takeDuties b s)) b }

theorem strobed_eq (e : Nat) : ∃ legs bridges, strobed b e s = { s with legs := legs, bridges := bridges } := by
  have h1 : takeDuties b s = { s with legs := (takeDuties b s).legs } := each_setLeg _ _ _ s
  have h2 : ∀ u : State, loadAll b e u = { u with legs := (loadAll b e u).legs, bridges := (loadAll b e u).bridges } := fun u => by
    unfold loadAll
    rw [each_setLeg]
    rfl
  refine ⟨(strobed b e s).legs, (strobed b e s).bridges, ?_⟩
  rw [strobed, h2, h1]
  rfl

theorem strobed_stepAt (e : Nat) : ((strobed b e s).br b).stepAt = (s.br b).stepAt := by
  have h1 : (takeDuties b s).bridges = s.bridges := State.each_bridges _ _ _ fun _ _ => rfl
  have h2 : ∀ u : State, ((loadAll b e u).br b).stepAt = (u.br b).stepAt := fun u => by
    unfold loadAll
    rw [each_setLeg]
    simp only [State.br_mk, State.br_setBr_same]
  rw [strobed, State.br_setBr_same]
  exact (h2 _).trans (congrArg Bridge.stepAt (State.br_congr h1 b))

/-- From KON_WAIT after the entry into SYNC a strobe that does not find the motor isolated seals the bridge. -/
theorem strobe_seals {e : Nat} (h4 : modeOf s b = 4) (h5 : stepOf s b = 5) (hk : konWaitEnd s b ≤ s.now)
    (hi : motorIsolated s b = false) : strobe b e s = sealFor b 12 (strobed b e s) ∧ modeOf (strobed b e s) b = 4 := by
  have hstep := strobed_stepAt (b := b) (s := s) e
  obtain ⟨legs, bridges, hs⟩ := strobed_eq (b := b) (s := s) e
  have hmode : modeOf (strobed b e s) b = 4 := by rw [hs]; exact h4
  have hend : konWaitEnd (strobed b e s) b ≤ (strobed b e s).now := by
    rw [konWaitEnd, hstep, hs]
    exact hk
  have hstep5 : stepOf (strobed b e s) b = 5 := by rw [hs]; exact h5
  have hiso : motorIsolated (strobed b e s) b = false := by rw [hs]; exact hi
  exact ⟨if_pos ⟨hmode, hstep5, hend, hiso⟩, hmode⟩

/-- Settles O27: each time reached, then `failStep`; the ends of the ramps seal by `sealBridge_reachTime`. -/
theorem stepTimeoutsSeal : Obligations.StepTimeoutsSeal := by
  intro b s hb hm
  refine ⟨fun h1 hp hk => ?_, fun h1 hp hk => ?_, fun h1 hp => ?_, fun h4 h5 => ?_, fun e h4 h5 hk hi => ?_,
    fun t0 h3 hs ht => ⟨fun hp hi => ?_, fun hp => ?_⟩, fun h4 h5 hp ho => ?_, fun h4 h5 hp => ?_, fun r hf hr ho he => ?_,
    fun r t0 hramp htr hr => ?_, fun t0 hd => ?_⟩
  · refine ⟨_, rfl, ?_⟩
    rw [konWaitExpiry_contactor hb h1]
    exact failStep_reachTime 12 _ hb hm (by decide) hp ((stepEnds_contactor (s := reachTime _ s) h1).trans hk)
  · change Host.Outcome.next (konWaitExpiry b s) = _
    rw [konWaitExpiry_contactor hb h1,
      failStep_ends 12 (s := reachTime _ s) hp ((stepEnds_contactor (s := reachTime _ s) h1).trans hk)]
    rfl
  · change Host.Outcome.next (konWaitExpiry b s) = _
    rw [konWaitExpiry_contactor hb h1, failStep_placed 12 (s := reachTime _ s) hp]
    rfl
  · exact congrArg Host.Outcome.next (konWaitExpiry_sync hb h4 h5)
  · obtain ⟨hs, hmode⟩ := strobe_seals (e := e) h4 h5 hk hi
    have hm' : modeOf (strobed b e s) b ≠ 0 := by omega
    rw [hs]
    exact ⟨sealBridge_mode _ hb, sealBridge_reason _ hb hm' (by decide)⟩
  · refine ⟨_, rfl, ?_⟩
    rw [blackstartTimeout_eq hb h3 hs ht]
    exact failStep_reachTime 9 _ hb hm (by decide) hp (stepEnds_outOfBand (s := reachTime _ s) hs hi)
  · change Host.Outcome.next (blackstartTimeout b s) = _
    rw [blackstartTimeout_eq hb h3 hs ht, failStep_placed 9 (s := reachTime _ s) hp]
    rfl
  · refine ⟨_, rfl, ?_⟩
    rw [syncTimeout_eq hb h4 h5]
    exact failStep_reachTime 10 _ hb hm (by decide) hp ((stepEnds_sync (s := reachTime _ s) h5).trans ho)
  · change Host.Outcome.next (syncTimeout b s) = _
    rw [syncTimeout_eq hb h4 h5, failStep_placed 10 (s := reachTime _ s) hp]
    rfl
  · rw [settleStep_seals hf ho he]
    exact ⟨sealBridge_mode _ hb, sealBridge_reason _ hb hm hr⟩
  · refine ⟨_, rfl, ?_⟩
    simp only [rampEnd, hramp, htr]
    exact sealBridge_reachTime _ _ hb hm hr
  · refine ⟨_, rfl, ?_⟩
    simp only [ss1SillTimeout, hd]
    exact sealBridge_reachTime _ _ hb hm (show 4 < 32 by decide)

end Sys2Proof.Machine
end
section
/-! SUPPORT. O24 and O25: SET_MODE as the interpreter takes it, its checks in turn, and what a refused one records (R29, R42, R43). -/

namespace Sys2Proof.Machine

open Sys2Proof

section
variable (h : Hdr) (b m style : Nat) (s : State)

theorem exec_setMode : exec (.setMode h b m style) s =
    .next (acceptCmd h 0x0201 (le 1 b ++ le 1 m ++ le 1 style) (setModeBody h b m style) s) := rfl

theorem exec_getMode : exec (.getMode h b) s = .next (acceptCmd h 0x0203 (le 1 b) (getModeBody b) s) := rfl

theorem hostRow_setMode : hostRow (.setMode h b m style) = some (h, 0x0201, le 1 b ++ le 1 m ++ le 1 style) := rfl

theorem hostRow_getMode : hostRow (.getMode h b) = some (h, 0x0203, le 1 b) := rfl

end

/-! ### A refusal with a key -/

/-- An authenticated command that its own checks refuse: VG_ERR and a signed reply. -/
theorem acceptCmd_refusedSigned (c : Instr) (h : Hdr) (op : Nat) (ps : List Byte) (rule : AuthRule) (body : State → Res)
    (k : State → Res) (s : State) (hc : hostRow c = some (h, op, ps)) (hr : cmdAuth c rule s = true)
    (hw : body s = withAuth h op ps rule s k) (st : Nat) (key : Option (List Byte)) (u : State)
    (hb : k (used c s) = ⟨st, [], key, u⟩) (hh : u.host = s.host) :
    acceptCmd h op ps body s = signed c st [] s (refusedBy c st u) := by
  simp only [cmdAuth, hc, cmdReady, Bool.and_eq_true, decide_eq_true_eq] at hr
  have hk : k (authConsume h stDone s) = ⟨st, [], key, u⟩ := by
    simpa only [used, hdrOf, hc] using hb
  have hhost : (recordRefusal h op st u).host = s.host := by
    rw [← hh, recordRefusal]
    split
    · rfl
    · rfl
  obtain ⟨p1, p2, p3⟩ := ready_parts s h op ps hr.1
  simp only [acceptCmd, expireHeld_zero s (takes_held s _ p1), p1, p2, Bool.true_eq_false, Bool.false_eq_true, if_false, p3,
    if_true, hw, withAuth, hr.2, hk, giveReply, hhost, takes_held s _ p1, takes_serving s _ p1, signed, hc, refusedBy]
  rfl

/-! ### What a refused SET_MODE records -/

/-- REFUSED, the count of refusals, the status and the target (R42, R43). -/
def modeRefused (b mode st : Nat) (s : State) : State :=
  (((s.raiseBit R.DEV_EVENT.REFUSED b).countUp R.BR_COUNT.REFUSALS b).wr R.BR_REASON.LAST_REFUSE b st).wr
    R.BR_REASON.REFUSE_TARGET b mode

section
variable {h : Hdr} {b m style st : Nat} {s u : State} {data : List Byte} {key : Option (List Byte)}

theorem modeRefused_bridges : (modeRefused b m st s).bridges = s.bridges := by
  simp only [modeRefused, State.raiseBit_eq, State.countUp_eq, State.wr_bridges]

theorem modeRefused_host : (modeRefused b m st s).host = s.host := by
  simp only [modeRefused, State.raiseBit_eq, State.countUp_eq, State.wr_host]

theorem modeRefused_mode (c : Nat) : modeOf (modeRefused b m st s) c = modeOf s c := by
  simp (disch := decide) only [modeOf, modeRefused, State.raiseBit_eq, State.countUp_eq, rd_wr_apart]

theorem modeRefused_lastRefuse (hst : st < 256) : (modeRefused b m st s).rd R.BR_REASON.LAST_REFUSE b = st := by
  rw [modeRefused, rd_wr_apart, State.rd_wr_same _ _ _ _ (by decide)]
  exact Nat.mod_eq_of_lt hst

theorem recordModeRefusal_taken (hst : st = stDone ∨ st = stAccepted) :
    recordModeRefusal b m ⟨st, data, key, s⟩ = ⟨st, data, key, s⟩ :=
  if_pos (hst.elim .inl fun ha => .inr (.inl ha))

theorem recordModeRefusal_refused (hst : ¬ (st = stDone ∨ st = stAccepted)) (hb : b < 4) (hm : m ≤ 5) :
    recordModeRefusal b m ⟨st, data, key, s⟩ = ⟨st, data, key, modeRefused b m st s⟩ := by
  have hn : ¬ (st = stDone ∨ st = stAccepted ∨ 3 < b ∨ m = 6 ∨ m = 7) := by omega
  simp only [recordModeRefusal, if_neg hn, if_pos hm, modeRefused]

theorem recordModeRefusal_key (r : Res) :
    recordModeRefusal b m { r with key := key } = { recordModeRefusal b m r with key := key } := by
  unfold recordModeRefusal
  split
  · rfl
  · rfl

/-! ### How the command is answered -/

theorem setModeBody_open (hb : b < 4) (hm : m ≤ 1) (hst : style < 2) :
    setModeBody h b m style s = recordModeRefusal b m (setModeChecks h b m style s) := by
  rw [setModeBody, if_neg (by omega), if_neg (by omega), if_neg (by omega)]

theorem setModeBody_auth (hb : b < 4) (hm : 2 ≤ m) (hm4 : m ≤ 4)
    (ha : cmdAuth (.setMode h b m style) .any s = true) : setModeBody h b m style s =
      withAuth h 0x0201 (le 1 b ++ le 1 m ++ le 1 style) .any s
        (fun u => recordModeRefusal b m (setModeChecks h b m style u)) := by
  simp only [cmdAuth, hostRow_setMode, Bool.and_eq_true, decide_eq_true_eq] at ha
  rw [setModeBody, if_neg (by omega), if_neg (by omega), if_pos hm]
  simp only [withAuth, ha.2, if_true, recordModeRefusal_key]

/-- A taken SET_MODE to SEALED or SERVICE that its checks complete. -/
theorem setMode_taken (hb : b < 4) (hm : m ≤ 1) (hsty : style < 2) (hr : cmdReady (.setMode h b m style) s = true)
    (hc : setModeChecks h b m style s = ⟨st, data, none, u⟩) (hst : st = stDone ∨ st = stAccepted) (hu : Calm s u) :
    exec (.setMode h b m style) s = .next (answer (.setMode h b m style) st data u) := by
  have h0 : s.host.heldMask = 0 := ready_held s h 0x0201 _ hr
  rw [exec_setMode, acceptCmd_answer _ h 0x0201 _ _ s (hostRow_setMode h b m style) hr st data u
    (by rw [setModeBody_open hb hm hsty, hc, recordModeRefusal_taken hst]) hst ((hu.held h0).trans h0.symm) hu.serving]

/-- A taken SET_MODE to SEALED or SERVICE that its checks refuse. -/
theorem setMode_refused (hb : b < 4) (hm : m ≤ 1) (hsty : style < 2) (hr : cmdReady (.setMode h b m style) s = true)
    (hc : setModeChecks h b m style s = refuse st s) (hst : ¬ (st = stDone ∨ st = stAccepted)) :
    exec (.setMode h b m style) s =
      .next (answer (.setMode h b m style) st [] (refusedBy (.setMode h b m style) st (modeRefused b m st s))) := by
  rw [exec_setMode, acceptCmd_refused _ h 0x0201 _ _ s (hostRow_setMode h b m style) hr st (modeRefused b m st s)
    (by rw [setModeBody_open hb hm hsty, hc, refuse, recordModeRefusal_refused hst hb (by omega)])
    (by rw [modeRefused_host]) (by rw [modeRefused_host])]

/-- An authenticated SET_MODE to a working mode that its checks complete. -/
theorem setMode_takenSigned (hb : b < 4) (hm : 2 ≤ m) (hm4 : m ≤ 4) (ha : cmdAuth (.setMode h b m style) .any s = true)
    (hc : setModeChecks h b m style (used (.setMode h b m style) s) = ⟨st, data, none, u⟩)
    (hst : st = stDone ∨ st = stAccepted) (hu : Calm s u) :
    exec (.setMode h b m style) s = .next (signed (.setMode h b m style) st data s u) := by
  have hr : ready s h 0x0201 (le 1 b ++ le 1 m ++ le 1 style) = true := by
    simp only [cmdAuth, cmdReady, hostRow_setMode, Bool.and_eq_true] at ha
    exact ha.1
  have h0 : s.host.heldMask = 0 := ready_held s h 0x0201 _ hr
  rw [exec_setMode, acceptCmd_signed _ h 0x0201 _ .any _ _ s (hostRow_setMode h b m style) ha
    (setModeBody_auth hb hm hm4 ha) st data none u (by rw [hc, recordModeRefusal_taken hst]) hst
    ((hu.held h0).trans h0.symm) hu.serving]

/-- An authenticated SET_MODE to a working mode that its checks refuse. -/
theorem setMode_refusedSigned (hb : b < 4) (hm : 2 ≤ m) (hm4 : m ≤ 4) (ha : cmdAuth (.setMode h b m style) .any s = true)
    (hc : setModeChecks h b m style (used (.setMode h b m style) s) = refuse st (used (.setMode h b m style) s))
    (hst : ¬ (st = stDone ∨ st = stAccepted)) : exec (.setMode h b m style) s =
      .next (signed (.setMode h b m style) st [] s
        (refusedBy (.setMode h b m style) st (modeRefused b m st (used (.setMode h b m style) s)))) := by
  rw [exec_setMode, acceptCmd_refusedSigned _ h 0x0201 _ .any _ _ s (hostRow_setMode h b m style) ha
    (setModeBody_auth hb hm hm4 ha) st none (modeRefused b m st (used (.setMode h b m style) s))
    (by rw [hc, refuse, recordModeRefusal_refused hst hb (by omega)]) (by rw [modeRefused_host, used_host])]

/-- A command that begins to run changes the host port alone. -/
theorem beginRun_mode (op seq obj c : Nat) : modeOf (beginRun op seq obj s) c = modeOf s c := rfl

theorem beginRun_step (op seq obj c : Nat) : stepOf (beginRun op seq obj s) c = stepOf s c := rfl

theorem beginRun_br (op seq obj c : Nat) : (beginRun op seq obj s).br c = s.br c := rfl

/-! ### The checks in turn -/

theorem setModeChecks_beat (ht : s.now < (s.br b).refuseTill) : setModeChecks h b m style s = refuse stSafetyRefused s :=
  if_pos ht

theorem setModeChecks_sealed (ht : (s.br b).refuseTill ≤ s.now) (h0 : modeOf s b = 0) :
    setModeChecks h b 0 style s = doneWith (modeReply s b) s := by
  simp [setModeChecks, Nat.not_lt.2 ht, h0]

theorem setModeChecks_seal (ht : (s.br b).refuseTill ≤ s.now) (h0 : modeOf s b ≠ 0) :
    setModeChecks h b 0 style s = setSealed h b style s := by
  simp [setModeChecks, Nat.not_lt.2 ht, Ne.symm h0, tableAdmits]

/-- What checks 5 to 8 ask of a target other than SEALED (R29, R37). -/
structure ModeOpen (b : Nat) (s : State) : Prop where
  beat : (s.br b).refuseTill ≤ s.now
  cfg : cfgOk s b = true
  opt : s.rd R.ID_STATUS.OPT_SRC ≠ 3
  min : s.flag R.ID_STATUS.MIN_SERVICE = false

theorem setModeChecks_wrong (ho : ModeOpen b s) (hm : 1 ≤ m) (hne : modeOf s b ≠ m) (h0 : modeOf s b ≠ 0) :
    setModeChecks h b m style s = refuse stWrongMode s := by
  have ht : tableAdmits (modeOf s b) m = false := by
    simp only [tableAdmits, h0, false_and, decide_false, Bool.or_false, decide_eq_false_iff_not]
    omega
  have hup : m ≠ 0 := by omega
  simp [setModeChecks, Nat.not_lt.2 ho.beat, ho.cfg, ho.opt, ho.min, ht, Ne.symm hne, hup]

theorem setModeChecks_enter (ho : ModeOpen b s) (hm : 1 ≤ m) (hm4 : m ≤ 4) (h0 : modeOf s b = 0)
    (hs : s.flag R.RS_STATUS.SHUTDOWN = false) (hstep : stepOf s b = 0) (hk : kindPermits (kindOf s b) m = true) :
    setModeChecks h b m style s = enterMode h b m s := by
  have hup : m ≠ 0 := by omega
  have hne : m ≠ modeOf s b := by omega
  have ht : tableAdmits (modeOf s b) m = true := by simp [tableAdmits, h0, hm, hm4]
  simp [setModeChecks, Nat.not_lt.2 ho.beat, ho.cfg, ho.opt, ho.min, hs, hne, ht, hk, hstep, hup]

theorem used_mode (c : Instr) (s : State) (hb : b < 4) : modeOf (used c s) b = modeOf s b :=
  used_rd c s _ _ _ (by simp only [fldAddr, R.BR_STATUS.MODE]; omega)

/-- The authentication step leaves what the checks read as it was. -/
theorem ModeOpen.used (ho : ModeOpen b s) (hb : b < 4) (c : Instr) : ModeOpen b (used c s) := by
  have hcfg : cfgOk (Machine.used c s) b = cfgOk s b := by
    rw [cfgOk, State.flag_eq, used_rd c s _ _ _ (by simp only [fldAddr, R.BR_STATUS.CFG_OK]; omega), ← State.flag_eq, ← cfgOk]
  have hopt : (Machine.used c s).rd R.ID_STATUS.OPT_SRC = s.rd R.ID_STATUS.OPT_SRC := used_rd c s _ _ _ (by decide)
  have hmin : (Machine.used c s).flag R.ID_STATUS.MIN_SERVICE = s.flag R.ID_STATUS.MIN_SERVICE := by
    rw [State.flag_eq, State.flag_eq, used_rd c s _ _ _ (by decide)]
  obtain ⟨h1, h2, h3, h4⟩ := ho
  exact ⟨by rw [State.br_congr (used_bridges c s), used_now]; exact h1, hcfg.trans h2, hopt ▸ h3, hmin.trans h4⟩

end
end Sys2Proof.Machine
end
section
/-! O24: SET_MODE to SEALED, SET_MODE refused by the transition table, and GET_MODE. -/

namespace Sys2Proof.Machine

open Sys2Proof

section
variable {b : Nat} {s : State}

/-! ### A ramp -/

theorem noteKon_eq (u : State) : ∃ kons, noteKon u = { u with sill := { u.sill with kons := kons } } :=
  State.each_ind (fun t => ∃ kons, t = { u with sill := { u.sill with kons := kons } }) _
    (fun v k hv => by
      obtain ⟨kons, rfl⟩ := hv
      exact ⟨_, rfl⟩) _ u ⟨u.sill.kons, rfl⟩

/-- A ramp that starts: STEP, the bridge's own state, and what the Sill monitor notes of the contactors. -/
theorem startRamp_eq (k len r : Nat) (l : Bool) : ∃ bridges kons,
    startRamp b k len r l s = { s.wr R.BR_STATUS.STEP b 6 with bridges := bridges, sill := { s.sill with kons := kons } } := by
  obtain ⟨kons, hk⟩ := noteKon_eq ((s.wr R.BR_STATUS.STEP b 6).setBr b
    { s.br b with stepAt := s.now, stepOver := false, failDue := none })
  simp only [startRamp, setStep, hk]
  exact ⟨_, kons, rfl⟩

theorem startRamp_calm (k len r : Nat) (l : Bool) : Calm s (startRamp b k len r l s) := by
  obtain ⟨bridges, kons, hk⟩ := startRamp_eq (b := b) (s := s) k len r l
  rw [hk]
  exact (Calm.refl s).wr.same

theorem startRamp_ramp (k len r : Nat) (l : Bool) : ((startRamp b k len r l s).br b).ramp =
    some ⟨k, if (s.br b).placed.isSome then none else some s.now, len, r, l⟩ := by
  obtain ⟨kons, hk⟩ := noteKon_eq ((s.wr R.BR_STATUS.STEP b 6).setBr b
    { s.br b with stepAt := s.now, stepOver := false, failDue := none })
  simp only [startRamp, setStep, State.br_setBr_same, hk, State.br_mk]
  rfl

theorem startRamp_rd (k len r : Nat) (l : Bool) (f : Fld) (i : Nat) :
    (startRamp b k len r l s).rd f i = (s.wr R.BR_STATUS.STEP b 6).rd f i := by
  obtain ⟨bridges, kons, hk⟩ := startRamp_eq (b := b) (s := s) k len r l
  rw [hk]
  rfl

theorem startRamp_mode (k len r : Nat) (l : Bool) (c : Nat) : modeOf (startRamp b k len r l s) c = modeOf s c := by
  rw [modeOf, startRamp_rd, rd_wr_apart, modeOf]

theorem startRamp_step (k len r : Nat) (l : Bool) : stepOf (startRamp b k len r l s) b = 6 := by
  rw [stepOf, startRamp_rd, State.rd_wr_same _ _ _ _ (by decide)]
  rfl

/-- What a host ramp changes: the host port, the bridges, the contactors' notes, and BR_STATUS. -/
theorem rampStarted_eq (k len r seq : Nat) (l : Bool) : ∃ t, beginRun 0x0201 seq b (startRamp b k len r l s) = t ∧
    t.host = { s.host with running := s.host.running ++ [⟨0x0201, seq, b⟩] } ∧ t.sill = { s.sill with kons := t.sill.kons } ∧
      OnlyRegs { s with host := t.host, bridges := t.bridges, sill := t.sill } t [A.BR_STATUS + 0x400 * b] := by
  obtain ⟨bridges, kons, hk⟩ := startRamp_eq (b := b) (s := s) k len r l
  rw [hk]
  refine ⟨_, rfl, rfl, rfl, rfl, fun a ha => ?_⟩
  refine State.reg_wr_ne s R.BR_STATUS.STEP b 6 a fun he => ha ?_
  rw [he, List.mem_singleton, fldAddr, Nat.zero_mul, Nat.add_zero, Nat.mul_comm]
  rfl

/-! ### A seal that SET_MODE asks for -/

/-- The reply of a SET_MODE that has sealed its bridge: MODE 0 and STEP 0. -/
theorem modeReply_sealed (how : SealHow) (hb : b < 4) (hm : modeOf s b ≠ 0) : modeReply (sealBridge b how s) b = [0, 0] := by
  rw [modeReply, sealBridge_mode how hb, sealBridge_step how hb hm]
  rfl

/-- During a ramp the seal takes the reason of the ramp (R34, R149). -/
theorem setSealed_ramp (h : Hdr) (style : Nat) {r : Ramp} (hb : b < 4) (hm : modeOf s b ≠ 0)
    (hr : (s.br b).ramp = some r) : ∃ how : SealHow,
      setSealed h b style s = ⟨stDone, [0, 0], none, sealBridge b how s⟩ ∧
      how.reason = (if r.kind = 2 then 4 else if r.kind = 1 ∨ r.latch = true then r.reason else 1) ∧
      (r.kind = 1 ∨ r.latch = true → how.latch = true) := by
  have hdone : ∀ how, doneWith (modeReply (sealBridge b how s) b) (sealBridge b how s) =
      ⟨stDone, [0, 0], none, sealBridge b how s⟩ := fun how => by
    rw [modeReply_sealed how hb hm, doneWith]
  simp only [setSealed, hr, hdone]
  by_cases h2 : r.kind = 2
  · simp only [if_pos h2]
    exact ⟨_, rfl, rfl, fun h1 => h1.elim (fun h1 => by omega) id⟩
  · by_cases h1 : r.kind = 1 ∨ r.latch = true
    · simp only [if_neg h2, if_pos h1]
      exact ⟨_, rfl, rfl, fun _ => rfl⟩
    · simp only [if_neg h2, if_neg h1]
      exact ⟨_, rfl, rfl, fun hl => absurd hl h1⟩

theorem setSealed_now (h : Hdr) {style : Nat} (hb : b < 4) (hm : modeOf s b ≠ 0) (hr : (s.br b).ramp = none)
    (hs : style = 0 ∨ stepOf s b ≠ 0 ∨ modeOf s b = 5) : setSealed h b style s =
      ⟨stDone, [0, 0], none, sealBridge b { reason := 1, auto := false } s⟩ := by
  simp only [setSealed, hr, if_pos hs, doneWith, modeReply_sealed _ hb hm]

theorem setSealed_slow (h : Hdr) (hm : modeOf s b ≠ 5) (hr : (s.br b).ramp = none) (hs : stepOf s b = 0) :
    setSealed h b 1 s = ⟨stAccepted, le 1 (modeOf s b) ++ [6], none,
      beginRun 0x0201 h.seq b (startRamp b 0 (s.rd R.BR_TIMES.RAMP_MS b * tMs) 2 false s)⟩ := by
  have hn : ¬ (1 = 0 ∨ stepOf s b ≠ 0 ∨ modeOf s b = 5) := by omega
  simp only [setSealed, hr, if_neg hn, modeReply, startRamp_mode, startRamp_step]
  rfl

end

/-- Settles O24: the branches of `setSealed`, and the transition table on a bridge outside SEALED. -/
theorem setModeSeals : Obligations.SetModeSeals := by
  refine ⟨fun h b s hb hr => ?_, fun h b style s hb hsty hr => ⟨fun ht => ?_, fun r ht hm hramp hreason => ?_,
    fun ht hm hramp hs => ?_, fun ht hm h5 hramp hs h0 => ?_, fun ht hm => ?_⟩,
    fun h b m s hb hm1 hm4 hcfg hopt hmin ht hne hm => ⟨fun h1 hr => ?_, fun h2 ha => ?_⟩⟩
  · rw [exec_getMode, acceptCmd_answer _ h 0x0203 _ _ s (hostRow_getMode h b) hr _ _ s
      (by rw [getModeBody, if_neg (by omega), doneWith]) (.inl rfl) rfl rfl]
    rfl
  · exact ⟨_, setMode_refused hb (by decide) hsty hr (setModeChecks_beat ht) (by decide), modeRefused_bridges,
      modeRefused_mode b⟩
  · obtain ⟨how, hseal, hhow, hlatch⟩ := setSealed_ramp h style hb hm hramp
    refine ⟨_, setMode_taken hb (by decide) hsty hr ((setModeChecks_seal ht hm).trans hseal) (.inl rfl)
      (sealBridge_calm how hb), sealBridge_mode how hb, ?_, fun hk => ?_⟩
    · rw [sealBridge_reason how hb hm (by rw [hhow]; split_ifs <;> omega), hhow]
    · rw [sealBridge_latched how hb hm, hlatch hk, Bool.or_true, if_pos rfl]
  · exact ⟨setMode_taken hb (by decide) hsty hr ((setModeChecks_seal ht hm).trans (setSealed_now h hb hm hramp hs)) (.inl rfl)
      (sealBridge_calm _ hb), sealBridge_mode _ hb⟩
  · subst hs
    obtain ⟨t, ht, hhost, hsill, hregs⟩ :=
      rampStarted_eq (b := b) (s := s) 0 (s.rd R.BR_TIMES.RAMP_MS b * tMs) 2 h.seq false
    have hcalm := (startRamp_calm (b := b) (s := s) 0 (s.rd R.BR_TIMES.RAMP_MS b * tMs) 2 false).trans
      ((Aside.refl _).beginRun (op := 0x0201) (seq := h.seq) (obj := b)).toCalm
    subst ht
    exact ⟨_, setMode_taken hb (by decide) (by decide) hr ((setModeChecks_seal ht hm).trans (setSealed_slow h h5 hramp h0))
      (.inr rfl) hcalm, (beginRun_mode ..).trans (startRamp_mode ..), (beginRun_step ..).trans (startRamp_step ..),
      (congrArg Bridge.ramp (beginRun_br ..)).trans (startRamp_ramp ..), hhost, hsill, hregs⟩
  · rw [setMode_taken hb (by decide) hsty hr (setModeChecks_sealed ht hm) (.inl rfl) (.refl s), modeReply, hm]
  · subst h1
    exact ⟨_, setMode_refused hb (by decide) (by decide) hr
      (setModeChecks_wrong ⟨ht, hcfg, hopt, hmin⟩ (by decide) hne hm) (by decide), modeRefused_mode b, modeRefused_bridges,
      modeRefused_lastRefuse (by decide)⟩
  · have hmode : ∀ c, modeOf (used c s) b = modeOf s b := fun c => used_mode c s hb
    exact ⟨_, setMode_refusedSigned hb h2 hm4 ha (setModeChecks_wrong (ModeOpen.used ⟨ht, hcfg, hopt, hmin⟩ hb _) hm1
      (by rwa [hmode]) (by rwa [hmode])) (by decide), (modeRefused_mode b).trans (hmode _),
      modeRefused_bridges.trans (used_bridges _ s), modeRefused_lastRefuse (by decide)⟩

end Sys2Proof.Machine
end
section
/-! O25: SET_MODE from SEALED enters SERVICE at STEP 0 and a working mode at its first step. -/

namespace Sys2Proof.Machine

open Sys2Proof

/-- After its change of mode a bridge's entry keeps the registers of the modes, and its current ceiling. -/
structure Enters (b : Nat) (s t : State) : Prop extends Modes s t where
  ceiling : (t.br b).ceiling = (s.br b).ceiling

namespace Enters

variable {b : Nat} {s t u : State}

protected theorem refl (s : State) : Enters b s s := ⟨.refl s, rfl⟩

protected theorem trans (h : Enters b s t) (k : Enters b t u) : Enters b s u :=
  ⟨h.toModes.trans k.toModes, k.ceiling.trans h.ceiling⟩

protected theorem ite {c : Prop} [Decidable c] (ht : Enters b s t) (hu : Enters b s u) :
    Enters b s (if c then t else u) := by
  split
  · exact ht
  · exact hu

protected theorem frame (h : Enters b s t) (k : Frame t u) : Enters b s u :=
  h.trans ⟨k.modes, (k.br b).ceiling⟩

/-- A loop whose passes are made for the members of its list. -/
protected theorem eachMem {α : Type} {f : State → α → State} {l : List α} (h : Enters b s t)
    (hf : ∀ v x, x ∈ l → Enters b s v → Enters b s (f v x)) : Enters b s (t.each l f) := by
  induction l generalizing t with
  | nil => exact h
  | cons x l ih => exact ih (hf t x List.mem_cons_self h) fun v y hy => hf v y (List.mem_cons_of_mem x hy)

protected theorem wr {f : Fld} {i v : Nat} (h : Enters b s t) (hf : modeApart f = true := by decide) :
    Enters b s (t.wr f i v) := ⟨h.toModes.wr hf, h.ceiling⟩

protected theorem wr2 {f : Fld} {i j v : Nat} (h : Enters b s t) (hj : j < 16)
    (hf : f.stride = 0x400 ∧ 0x100 ≤ f.base % 0x400 ∧ f.base % 0x400 + 16 * f.stride2 ≤ 0x400 := by decide) :
    Enters b s (t.wr2 f i j v) := by
  obtain ⟨hs, h1, h2⟩ := hf
  have hj2 : j * f.stride2 + f.stride2 ≤ 16 * f.stride2 := by
    rw [← Nat.succ_mul]
    exact Nat.mul_le_mul_right _ hj
  refine ⟨⟨h.toCalm.wr2, fun a ha => (State.reg_wr2_ne t f i j v a ?_).trans (h.reg a ha)⟩, h.ceiling⟩
  obtain ⟨-, ha⟩ := ha
  simp only [fldAddr, hs]
  omega

protected theorem setBr {v : Bridge} (h : Enters b s t) (hv : v.ceiling = (t.br b).ceiling) : Enters b s (t.setBr b v) :=
  ⟨h.toModes.setBr, (congrArg Bridge.ceiling (State.br_setBr_same t b v)).trans (hv.trans h.ceiling)⟩

protected theorem commitPlacement {g : Graph} {a : List Asg} (h : Enters b s t) (hb : b < 4) :
    Enters b s (commitPlacement b g a t) := by
  unfold commitPlacement
  extract_lets idx at_ p s1 _ s2
  have h1 : Enters b s s1 := h.eachMem fun _ _ _ h1 => h1.frame (Frame.refl _).wr.wr
  have h2 : Enters b s s2 := h1.setBr rfl
  exact (h2.wr).frame ((Aside.refl _).showPlacement hb).toFrame

protected theorem placeFailed {code : Nat} (h : Enters b s t) : Enters b s (placeFailed b code t) :=
  h.frame (Frame.refl _).wr.raise

protected theorem enterFallback (h : Enters b s t) : Enters b s (enterFallback b t) := by
  unfold enterFallback
  extract_lets s1 s2 _ s3
  have h1 : Enters b s s1 := h.wr.wr
  have h2 : Enters b s s2 := h1.eachMem fun _ i hi h2 => h2.wr2 (List.mem_range.1 hi)
  have h3 : Enters b s s3 := h2.setBr rfl
  exact .ite h3 (h3.eachMem fun _ _ _ h4 => h4.frame (Frame.refl _).raise)

end Enters

/-! ### The averages of a bridge's inputs -/

theorem endAverage_frame (n err : Nat) (s : State) : Frame s (endAverage n err s) := by
  unfold endAverage
  split
  · exact .refl s
  · exact (Frame.refl s).same.wr.wr.clear.aside (Aside.refl _).endRun

theorem endRun_bridges (op obj r : Nat) (s : State) : (endRun op obj r s).bridges = s.bridges := by
  unfold endRun
  split
  · rfl
  · simp only [State.raise_eq, State.wr_bridges]

theorem endAverage_bridges (n err : Nat) (s : State) : (endAverage n err s).bridges = s.bridges := by
  unfold endAverage
  split
  · rfl
  · simp only [endRun_bridges, State.clear_eq, State.wr_bridges]

section
variable {b : Nat} {s : State}

theorem endAverages_enters : Enters b s (endAverages b s) :=
  (Enters.refl s).eachMem fun _ _ _ h => h.frame (endAverage_frame ..)

theorem endAverages_br (c : Nat) : (endAverages b s).br c = s.br c :=
  State.br_congr (State.each_bridges _ _ _ fun _ _ => endAverage_bridges ..) c

/-! ### The placement -/

theorem showPlacement_bridges : (showPlacement b s).bridges = s.bridges := by
  have hengine : ∀ (p : Placed) (l : List Nat), (s.each l fun v e => showEngine p e v).bridges = s.bridges := fun p l =>
    State.each_bridges _ _ _ fun _ _ => by simp only [showEngine, State.wr_bridges]
  unfold showPlacement
  split
  · rfl
  · simp only [State.wr_bridges, hengine]

/-- The graph of a placement that is committed is placed on its bridge. -/
theorem commitPlacement_placed (g : Graph) (a : List Asg) :
    ((commitPlacement b g a s).br b).placed.map (fun p => p.graph) = some g := by
  simp only [commitPlacement, State.br_congr showPlacement_bridges b, State.br_wr, State.br_setBr_same, Option.map_some]

/-! ### The two entries -/

theorem shutterPasses_frame : Frame s (shutterPasses b s) := by
  refine Frame.wr (Frame.setBr (.refl s) ?_)
  exact ⟨id, id, rfl, rfl⟩

theorem enterService_enters (hb : b < 4) : Enters b (changeMode b 1 0 s) (enterService b s) := by
  unfold enterService
  extract_lets s1
  have hplace : Enters b s1 (match placeGraph s1 b true, loadedGraph s1 b with
      | .ok a, some g => commitPlacement b g a s1
      | .error c, _ => placeFailed b c s1
      | _, _ => s1) := by
    split
    · exact (Enters.refl s1).commitPlacement hb
    · exact (Enters.refl s1).placeFailed
    · exact .refl s1
  exact hplace.enterFallback.frame (Frame.refl _).interlocks

/-- The state of a working mode as its placement is made: what the wait of BUS_CHECK adds keeps it. -/
def workingPlaced (b mode : Nat) (g : Graph) (a : List Asg) (s : State) : State :=
  endAverages b (commitPlacement b g a (changeMode b mode (firstStep mode) s))

theorem drawWait_same (u : State) : ∃ sec, (drawWait u).2 = { u with sec := sec } := by
  unfold drawWait
  split
  · exact ⟨_, rfl⟩
  · exact ⟨u.sec, rfl⟩

/-- The wait that an entry into BUS_CHECK draws keeps the registers, the ceiling and the placement (R26). -/
theorem enterWorking_enters (m : Nat) (g : Graph) (a : List Asg) :
    Enters b (workingPlaced b m g a s) (enterWorking b m g a s) ∧
      ((enterWorking b m g a s).br b).placed = ((workingPlaced b m g a s).br b).placed := by
  unfold enterWorking
  extract_lets s1 w
  obtain ⟨sec, hw⟩ := drawWait_same s1
  have hs : Enters b s1 w.2 := hw ▸ (Enters.refl s1).frame (Frame.refl s1).same
  split
  · have hbr : (w.2.br b).placed = (s1.br b).placed :=
      congrArg Bridge.placed (State.br_congr (by rw [show w.2 = _ from hw]) b)
    exact ⟨hs.setBr rfl, (congrArg Bridge.placed (State.br_setBr_same ..)).trans hbr⟩
  · exact ⟨.refl s1, rfl⟩

theorem workingPlaced_enters (hb : b < 4) (m : Nat) (g : Graph) (a : List Asg) :
    Enters b (changeMode b m (firstStep m) s) (workingPlaced b m g a s) :=
  ((Enters.refl _).commitPlacement hb).trans endAverages_enters

theorem enterWorking_placed (m : Nat) (g : Graph) (a : List Asg) :
    ((enterWorking b m g a s).br b).placed.map (fun p => p.graph) = some g := by
  rw [(enterWorking_enters m g a).2, workingPlaced, endAverages_br, commitPlacement_placed]

/-! ### What an entry comes to -/

theorem Enters.mode {u : State} {m st : Nat} (h : Enters b (changeMode b m st s) u) (hb : b < 4) : modeOf u b = m % 8 := by
  rw [modeOf, h.rd hb, ← modeOf, changeMode_mode m st s hb]

theorem Enters.step {u : State} {m st : Nat} (h : Enters b (changeMode b m st s) u) (hb : b < 4) : stepOf u b = st % 8 := by
  rw [stepOf, h.rd hb, ← stepOf, changeMode_step m st s hb]

theorem Enters.changedCeiling {u : State} {m st : Nat} (h : Enters b (changeMode b m st s) u) :
    (u.br b).ceiling = modeCeiling m := h.ceiling.trans (changeMode_br m st s).ceiling

theorem enterMode_service (h : Hdr) (hb : b < 4) (he : entryOk s b 1 = true) :
    enterMode h b 1 s = ⟨stDone, [1, 0], none, enterService b s⟩ := by
  have hs := enterService_enters (s := s) hb
  have hreply : modeReply (enterService b s) b = [1, 0] := by
    rw [modeReply, hs.mode hb, hs.step hb]
    rfl
  rw [enterMode, he, if_neg (by decide), if_pos rfl]
  exact congrArg (doneWith · (enterService b s)) hreply

theorem enterMode_refused (h : Hdr) (m : Nat) (he : entryOk s b m = false) : enterMode h b m s = refuse stSafetyRefused s :=
  if_pos he

theorem firstStep_lt (m : Nat) : firstStep m < 8 := by
  unfold firstStep
  split
  · decide
  · decide
  · decide
  · decide

theorem enterMode_working (h : Hdr) {m : Nat} {g : Graph} {a : List Asg} (hb : b < 4) (hm : 2 ≤ m) (hm4 : m ≤ 4)
    (he : entryOk s b m = true) (ht : shutterTest s b = true) (hc : checkEleven (shutterPasses b s) b m = .ok (g, a)) :
    enterMode h b m s = ⟨stAccepted, le 1 m ++ le 1 (firstStep m), none,
      beginRun 0x0201 h.seq b (enterWorking b m g a (shutterPasses b s))⟩ := by
  have hs := (workingPlaced_enters (s := shutterPasses b s) hb m g a).trans (enterWorking_enters m g a).1
  have h1 : m ≠ 1 := by omega
  simp only [enterMode, he, ht, hc, h1, modeReply, hs.mode hb, hs.step hb, Nat.mod_eq_of_lt (firstStep_lt m),
    Nat.mod_eq_of_lt (show m < 8 by omega), Bool.true_eq_false, if_false]

theorem used_calm (c : Instr) : Calm s (used c s) :=
  ⟨used_now c s, used_pending c s, by rw [used_host], fun h0 => by rw [used_host, h0]⟩

theorem isRunning_beginRun (op seq obj : Nat) : isRunning (beginRun op seq obj s) op obj = true := by
  simp [isRunning, beginRun]

end

/-- Settles O25: `enterMode` on a SEALED bridge, whose entry keeps the registers that the change of mode wrote. -/
theorem setModeEnters : Obligations.SetModeEnters := by
  intro h b s hb hcfg hopt hmin hm hshut hstep ht
  have ho : ModeOpen b s := ⟨ht, hcfg, hopt, hmin⟩
  have hservice : 1 ≤ kindOf s b → kindOf s b ≤ 3 → kindPermits (kindOf s b) 1 = true := fun h1 h3 => by
    have hk : kindOf s b = 1 ∨ kindOf s b = 2 ∨ kindOf s b = 3 := by omega
    rcases hk with hk | hk | hk
    · rw [hk]; rfl
    · rw [hk]; rfl
    · rw [hk]; rfl
  refine ⟨fun hr h1 h3 he => ?_, fun hr h1 h3 he => ?_, fun m g a hm2 hm4 ha hk he hst hc => ?_⟩
  · have hs := enterService_enters (s := s) hb
    have hcheck := (setModeChecks_enter (h := h) (style := 0) ho (by decide) (by decide) hm hshut hstep (hservice h1 h3)).trans
      (enterMode_service h hb he)
    exact ⟨_, setMode_taken hb (by decide) (by decide) hr hcheck (.inl rfl) ((changeMode_calm 1 0 s).trans hs.toCalm),
      hs.mode hb, hs.step hb, hs.changedCeiling⟩
  · have hcheck := (setModeChecks_enter (h := h) (style := 0) ho (by decide) (by decide) hm hshut hstep (hservice h1 h3)).trans
      (enterMode_refused h 1 he)
    exact ⟨_, setMode_refused hb (by decide) (by decide) hr hcheck (by decide), (modeRefused_mode b).trans hm,
      modeRefused_bridges⟩
  · have hu : ∀ f : Fld, f.stride = 0x400 ∧ f.base < 0x100100 → (used (.setMode h b m 0) s).rd f b = s.rd f b :=
      fun f hf => used_rd _ s _ _ _ (by simp only [fldAddr, hf.1]; omega)
    have hshut' : (used (.setMode h b m 0) s).flag R.RS_STATUS.SHUTDOWN = false := by
      rw [State.flag_eq, used_rd _ s _ _ _ (by decide), ← State.flag_eq, hshut]
    have hcheck := (setModeChecks_enter (h := h) (style := 0) (ho.used hb (.setMode h b m 0)) (by omega) hm4
      (by rw [used_mode _ s hb, hm]) hshut' (by rw [stepOf, hu _ (by decide), ← stepOf, hstep])
      (by rw [kindOf, hu _ (by decide), ← kindOf, hk])).trans (enterMode_working h hb hm2 hm4 he hst hc)
    have hs := (workingPlaced_enters (s := shutterPasses b (used (.setMode h b m 0) s)) hb m g a).trans
      (enterWorking_enters m g a).1
    have hcalm := (((used_calm (.setMode h b m 0)).trans (shutterPasses_frame (b := b)).toCalm).trans
      (changeMode_calm (b := b) m (firstStep m) _)).trans hs.toCalm
    have hceil : modeCeiling m = none := if_neg (by omega)
    refine ⟨_, setMode_takenSigned hb hm2 hm4 ha hcheck (.inr rfl) (hcalm.trans (Aside.refl _).beginRun.toCalm), ?_, ?_,
      isRunning_beginRun .., ?_, ?_⟩
    · rw [beginRun_mode, hs.mode hb, Nat.mod_eq_of_lt (by omega)]
    · rw [beginRun_step, hs.step hb, Nat.mod_eq_of_lt (firstStep_lt m)]
    · rw [beginRun_br, enterWorking_placed]
    · rw [beginRun_br, hs.changedCeiling, hceil]

end Sys2Proof.Machine
end
section
/-! SUPPORT. O19: writes of one register of a bridge: what is stored, what follows, and what check 4 asks. -/

namespace Sys2Proof.Machine

open Sys2Proof

/-! ### The five registers of a bridge whose writes act -/

/-- The bases of the registers of a bridge from whose writes something follows in the bridge block (R21, R41, R142). -/
def actingBases : List Nat := [A.BR_CFG, A.BR_PHASE, A.BR_KON, A.BR_CTRL, A.TR_ENC_CFG]

section
variable {a base b : Nat} {wa plain : Bool} {r : RegDef}

/-- The write of such a register stores its word. -/
theorem storeWord_acting (h : RegRow a base b 0 wa plain r) (hbase : base ∈ actingBases) (w : Word) (s : State) :
    storeWord a w s = s.setReg a (mergeWord r (s.reg a) w) := by
  have hne : ∀ x ∈ actingBases, x ≠ A.BUF_ID ∧ x ≠ A.BUF_CTL ∧ x ≠ A.BUF_DATA ∧ x ≠ A.LG_CFG := by decide
  obtain ⟨h1, h2, h3, h4⟩ := hne base hbase
  simp only [storeWord, h.sig, h.reg, h.base, h1, h2, h3, h4, if_false]

/-- What follows from it is what the bridge block says. -/
theorem actWord_acting (h : RegRow a base b 0 wa plain r) (hbase : base ∈ actingBases) (s0 : State) (w : Word) (s : State) :
    actWord s0 a w s = actBridge s0 base b 0 w s := by
  have hpower : ∀ u, actPower base b w u = u := fun u => by
    simp only [actingBases, List.mem_cons, List.not_mem_nil, or_false] at hbase
    rcases hbase with rfl | rfl | rfl | rfl | rfl <;> rfl
  have hlink : ∀ u, actLink s0 a base b 0 w u = u := fun u => by
    simp only [actingBases, List.mem_cons, List.not_mem_nil, or_false] at hbase
    have hsafe : (if inSafety a then applySafety (recode (blankChannels (noteKon u))) else u) = u :=
      if_neg (by rw [h.safe]; decide)
    rcases hbase with rfl | rfl | rfl | rfl | rfl <;> exact hsafe
  simp only [actWord, h.sig, h.reg, h.base, hpower, hlink]

/-- No other register's value enters the ranges of these registers, but for the encoder that a bridge takes. -/
theorem rangesOk_bridge (h : r.base ∈ [A.BR_CFG, A.BR_PHASE, A.BR_KON, A.BR_CTRL, A.GF_CTRL]) (s s' : State) (i j : Nat)
    (w : Word) : rangesOk s s' r i j w = fieldsOk r w := by
  have hothers : ∀ base ∈ [A.BR_CFG, A.BR_PHASE, A.BR_KON, A.BR_CTRL, A.GF_CTRL],
      (sashOk s s' base i && (fallbackOk s' base i j && (tractionOk s' base i && (driverOk s' base i &&
        (measureOk s' base i && (canCfgOk s' base i w && otherOk s' base i j)))))) = true := by
    intro base hb
    simp only [List.mem_cons, List.not_mem_nil, or_false] at hb
    rcases hb with rfl | rfl | rfl | rfl | rfl <;> rfl
  simp only [rangesOk, Bool.and_assoc, hothers _ h, Bool.and_true]

/-- A register that can be written in every mode passes check 4 by its ranges. -/
theorem checkWord_free (h : RegRow a base b 0 wa plain r) (hbase : base ∈ [A.BR_CTRL, A.GF_CTRL]) (s s' : State) (w : Word)
    (hw : fieldsOk r w = true) : checkWord s s' a w = stDone := by
  have hstate : stateStatus s s' base b 0 w = stDone := by
    simp only [List.mem_cons, List.not_mem_nil, or_false] at hbase
    rcases hbase with rfl | rfl <;> rfl
  have hranges : rangesOk s s' r b 0 w = fieldsOk r w := rangesOk_bridge (by
    rw [h.base]
    exact List.mem_append_right [A.BR_CFG, A.BR_PHASE, A.BR_KON] hbase) s s' b 0 w
  simp only [checkWord, h.sig, h.reg, hranges, hw, if_true, h.base, hstate, h.safe, need, Bool.not_false, Bool.true_or]
  rfl

/-- The configuration of a SEALED bridge passes check 4 by its ranges (R21). -/
theorem checkWord_config (h : RegRow a base b 0 wa plain r) (hbase : base ∈ [A.BR_CFG, A.BR_PHASE, A.BR_KON]) (s s' : State)
    (w : Word) (hw : fieldsOk r w = true) (hm : modeOf s b = 0) : checkWord s s' a w = stDone := by
  have hstate : stateStatus s s' base b 0 w = stDone := by
    have hsealed : ∀ x ∈ [A.BR_CFG, A.BR_PHASE, A.BR_KON], sealedOnly x = true := by decide
    rw [stateStatus, if_pos (hsealed base hbase), hm]
    rfl
  have hranges : rangesOk s s' r b 0 w = fieldsOk r w := rangesOk_bridge (by
    rw [h.base]
    exact List.mem_append_left [A.BR_CTRL, A.GF_CTRL] hbase) s s' b 0 w
  simp only [checkWord, h.sig, h.reg, hranges, hw, if_true, h.base, hstate, h.safe, need, Bool.not_false, Bool.true_or]
  rfl

/-- A write whose range holds a WA field, authenticated and passing check 4, is answered with a signed DONE. -/
theorem writeWin_one_signed (c : Instr) (h : Hdr) (a : Nat) (w : Word) (s : State)
    (hc : hostRow c = some (h, 0x0402, writeParams a [w])) (hr : cmdAuth c .any s = true) (ha : winAddrOk a = true)
    (hwa : holdsWa a = true) (hck : ∀ s', checkWord (used c s) s' a w = stDone)
    (hcalm : Calm (used c s) (actWord (used c s) a w (storeWord a w (used c s)))) :
    writeWin h a [w] s = signed c stDone [] s (actWord (used c s) a w (storeWord a w (used c s))) := by
  have hready : ready s h 0x0402 (writeParams a [w]) = true := by
    simp only [cmdAuth, cmdReady, hc, Bool.and_eq_true] at hr
    exact hr.1
  have h0 := ready_held s h 0x0402 _ hready
  have hbody : writeWinBody h a [w] s = withAuth h 0x0402 (writeParams a [w]) .any s (writeChecked [(a, w)]) := by
    simp only [writeWinBody, List.length_singleton, winShape_one a ha, winFault_one a ha, Bool.true_eq_false, if_false,
      winAddrs_one, List.any_cons, hwa, Bool.true_or, if_true, List.zip_cons_cons, List.zip_nil_left]
  have hdone : writeChecked [(a, w)] (used c s) =
      ⟨stDone, [], none, actWord (used c s) a w (storeWord a w (used c s))⟩ := by
    simp only [writeChecked, firstRefused, hck, if_true, done, doneWith, writeAll, List.foldl_cons, List.foldl_nil]
  exact acceptCmd_signed c h 0x0402 _ .any _ _ s hc hr hbody stDone [] none _ hdone (.inl rfl)
    ((hcalm.held (by rw [used_host, h0])).trans h0.symm) (hcalm.serving.trans (by rw [used_host]))

end

/-! ### What the safety functions and the carriers leave alone -/

namespace Calm

variable {s t : State}

protected theorem foldl {α : Type} {f : State → α → State} {l : List α} (h : Calm s t)
    (hf : ∀ v x, Calm s v → Calm s (f v x)) : Calm s (l.foldl f t) := h.each hf

protected theorem aside {u : State} (h : Calm s t) (k : Aside t u) : Calm s u := h.trans k.toCalm

protected theorem sealBridge {b : Nat} {how : SealHow} (h : Calm s t) (hb : b < 4) : Calm s (sealBridge b how t) :=
  h.trans (sealBridge_calm how hb)

protected theorem startRamp {b k len r : Nat} {l : Bool} (h : Calm s t) : Calm s (startRamp b k len r l t) :=
  h.trans (startRamp_calm k len r l)

protected theorem ss1Start {b : Nat} (h : Calm s t) (hb : b < 4) : Calm s (ss1Start b t) := by
  unfold ss1Start
  split
  · exact .ite (h.sealBridge hb) (.ite h.setBr h)
  · exact .ite h.startRamp.setBr (h.sealBridge hb)

protected theorem safetyBridge {old b : Nat} (h : Calm s t) (hb : b < 4) : Calm s (safetyBridge old b t) :=
  .ite h (.ite (h.sealBridge hb) (.ite (h.sealBridge hb) (.ite (h.ss1Start hb) h)))

/-- A loop whose passes are made for the members of its list. -/
protected theorem eachMem {α : Type} {f : State → α → State} {l : List α} (h : Calm s t)
    (hf : ∀ v x, x ∈ l → Calm s v → Calm s (f v x)) : Calm s (t.each l f) := by
  induction l generalizing t with
  | nil => exact h
  | cons x l ih => exact ih (hf t x List.mem_cons_self h) fun v y hy => hf v y (List.mem_cons_of_mem x hy)

protected theorem applySafety (h : Calm s t) : Calm s (applySafety t) :=
  Calm.aside (h.eachMem fun _ _ hb h1 => h1.safetyBridge (List.mem_range.1 hb)) (Aside.refl _).showActs

protected theorem startCarrier {b per : Nat} (h : Calm s t) : Calm s (startCarrier b per t) := h.same.setBr

protected theorem masterCarriers {u : State} (h : Calm s t) : Calm s (masterCarriers u t) :=
  h.each fun _ _ h1 => .ite (.ite h1.startCarrier h1) h1.setBr

protected theorem legCarrier {n per perF : Nat} (h : Calm s t) : Calm s (legCarrier n per perF t) :=
  .ite h.setLeg (.ite h.setLeg h.setLeg)

protected theorem startCarriers (h : Calm s t) : Calm s (startCarriers t) :=
  h.masterCarriers.foldl fun _ _ h1 => h1.legCarrier

protected theorem checkConfig {b : Nat} (h : Calm s t) : Calm s (checkConfig b t) := h.wr.wr.startCarriers

protected theorem unloadGraph {b : Nat} (h : Calm s t) : Calm s (unloadGraph b t) := h.setBr.wr.wr.wr.wr.wr.wr.wr.wr

protected theorem setReg {a : Nat} {w : Word} (h : Calm s t) : Calm s (t.setReg a w) := h.same

protected theorem bridgeWritten {b : Nat} (h : Calm s t) : Calm s (bridgeWritten b t) :=
  (h.unloadGraph.checkConfig.aside (Aside.refl _).recode).applySafety

end Calm

end Sys2Proof.Machine
end
section
/-! O19: writes of the bridge configuration, FAULT_CLR, RESYNC and the encoder configuration. -/

namespace Sys2Proof.Machine

open Sys2Proof

/-! ### The rows of the register table, by evaluation -/

theorem configRows : ∀ b < 4, ∀ reg < 3,
    regRowOk (A.BR_CFG + 0x400 * b + 4 * reg) (A.BR_CFG + 4 * reg) b 0 true false = true := by decide +kernel

theorem faultRows : ∀ b < 4, regRowOk (A.BR_CTRL + 0x400 * b) A.BR_CTRL b 0 false false = true ∧
    (regAt (A.BR_CTRL + 0x400 * b)).map (fun x => (fieldsOk x.1 1, x.1.fields.all fun f => f.acc == .WS)) =
      some (true, true) := by decide +kernel

theorem resyncRows : ∀ b < 4, regRowOk (A.GF_CTRL + 0x400 * b) A.GF_CTRL b 0 false true = true ∧ ∀ r : Bool,
    (regAt (A.GF_CTRL + 0x400 * b)).map (fun x => (fieldsOk x.1 (word (b2n r)),
      x.1.fields.any fun f => f.lo == 0 && f.width == 1 && f.acc == .RW)) = some (true, true) := by decide +kernel

theorem encoderRows : ∀ b < 4, regRowOk (A.TR_ENC_CFG + 0x400 * b) A.TR_ENC_CFG b 0 false false = true ∧
    (regAt (A.TR_ENC_CFG + 0x400 * b)).map (fun x =>
      (x.1.fields.any fun f => f.lo == 28 && f.width == 2 && f.acc == .RW,
        x.1.fields.any fun f => f.lo == 31 && f.width == 1 && f.acc == .RW)) = some (true, true) := by decide +kernel

/-! ### What a write leaves in a field -/

/-- A register whose fields are all write-1-to-start keeps its word. -/
theorem foldMerge_start (w : Word) (l : List FieldDef) (hl : l.all (fun f => f.acc == .WS) = true) (old : Word) :
    l.foldl (stepMerge w) old = old := by
  induction l with
  | nil => rfl
  | cons f l ih =>
    simp only [List.all_cons, Bool.and_eq_true, beq_iff_eq] at hl
    have hf : stepMerge w old f = old := by simp only [stepMerge, hl.1]
    rw [List.foldl_cons, hf, ih hl.2]

/-- A field that a write sets takes the bits written. -/
theorem mergeWord_field {a i j lo width : Nat} {r : RegDef} (hx : regAt a = some (r, i, j))
    (hf : r.fields.any (fun f => f.lo == lo && f.width == width && f.acc == .RW) = true) (old w : Word) :
    bitsOf (mergeWord r old w).toNat lo width = bitsOf w.toNat lo width := by
  obtain ⟨f, hmem, hf⟩ := List.any_eq_true.1 hf
  simp only [Bool.and_eq_true, beq_iff_eq] at hf
  obtain ⟨⟨rfl, rfl⟩, hacc⟩ := hf
  rw [mergeWord_eq, foldMerge_in w r.fields old (regAt_apart hx) f hmem, hacc]

section
variable {s t : State} {b : Nat}

/-! ### The cause of a latch reads no register but through its fields -/

theorem OnlyRegs.nil_rd (h : OnlyRegs s t []) (f : Fld) (i j : Nat) : t.rd f i j = s.rd f i j := by
  rw [State.rd_eq, State.rd_eq, h.2 _ (List.not_mem_nil)]

theorem OnlyRegs.nil_flag (h : OnlyRegs s t []) (f : Fld) (i j : Nat) : t.flag f i j = s.flag f i j := by
  rw [State.flag_eq, State.flag_eq, h.nil_rd]

theorem OnlyRegs.sig {l : List Nat} (h : OnlyRegs s t l) (i : Nat) : t.sigWord i = s.sigWord i := by
  rw [State.sigWord, State.sigWord, h.board]

theorem OnlyRegs.br {l : List Nat} (h : OnlyRegs s t l) (c : Nat) : t.br c = s.br c := State.br_congr h.bridges c

theorem causeReads_congr (h : OnlyRegs s t []) : causeReads t b = causeReads s b := by
  simp only [causeReads, latchReason, h.nil_rd, loadedGraph, h.br]

theorem wordsSound_congr {l m : List Nat} (h : OnlyRegs s t l) : wordsSound t m = wordsSound s m := by
  simp only [wordsSound, h.sig]

theorem konOut_congr (h : OnlyRegs s t []) (k : Nat) : konOut t k = konOut s k := by
  have hsin : ∀ i, t.sin i = s.sin i := fun i => by rw [h.1]; rfl
  have hreq : ∀ c, requests t c k = requests s c k := fun c => by
    simp only [requests, siteKon, motorKon, motorPol, modeOf, stepOf, h.nil_rd]
  simp only [konOut, h.nil_flag, forcedOff, hsin, hreq]

theorem causePresent_congr (h : OnlyRegs s t []) : causePresent t b = causePresent s b := by
  have hlegs : legsOf t b = legsOf s b := legsOf_congr (h.2 _ List.not_mem_nil) (h.2 _ List.not_mem_nil)
  have hfresh : ∀ g r, freshCause t g r = freshCause s g r := fun g r => by
    simp only [freshCause, State.sig, h.sig]
  have hreads : ∀ k, reads t k = reads s k := fun k => by
    have hsill : t.sill = s.sill := by rw [h.1]
    simp only [reads, hsill, h.nil_rd]
  have hreq : ∀ c k, requests t c k = requests s c k := fun c k => by
    simp only [requests, siteKon, motorKon, motorPol, modeOf, stepOf, h.nil_rd]
  simp only [causePresent, latchReason, h.nil_rd, h.nil_flag, loadedGraph, h.br, hfresh, siteKon, motorKon, hreads,
    konOut_congr h, hreq, imageOk, hlegs, switchesOf]

end

/-! ### The four writes -/

section
variable (h : Hdr) (b : Nat) (s : State)

theorem exec_bridgeConfigWrite (reg : Nat) (w : Word) : exec (.bridgeConfigWrite h b reg w) s =
    .next (writeWin h (A.BR_CFG + 0x400 * b + 4 * reg) [w] s) := rfl

theorem exec_faultClr : exec (.faultClr h b) s = .next (writeWin h (A.BR_CTRL + 0x400 * b) [1] s) := rfl

theorem exec_resyncWrite (r : Bool) :
    exec (.resyncWrite h b r) s = .next (writeWin h (A.GF_CTRL + 0x400 * b) [word (b2n r)] s) := rfl

theorem exec_encoderConfigWrite (w : Word) :
    exec (.encoderConfigWrite h b w) s = .next (writeWin h (A.TR_ENC_CFG + 0x400 * b) [w] s) := rfl

end

section
variable {h : Hdr} {b : Nat} {s : State}

theorem bridgeConfigWrite_signed {reg : Nat} {w : Word} (hb : b < 4) (hreg : reg < 3)
    (ha : cmdAuth (.bridgeConfigWrite h b reg w) .any s = true) (hm : modeOf s b = 0)
    (hf : ∀ r, regAt (A.BR_CFG + 0x400 * b + 4 * reg) = some (r, b, 0) → fieldsOk r w = true) :
    exec (.bridgeConfigWrite h b reg w) s = .next (signed (.bridgeConfigWrite h b reg w) stDone [] s
      (bridgeWritten b (storeWord (A.BR_CFG + 0x400 * b + 4 * reg) w (used (.bridgeConfigWrite h b reg w) s)))) := by
  obtain ⟨r, hrow⟩ := RegRow.of (configRows b hb reg hreg)
  have hbase : A.BR_CFG + 4 * reg ∈ [A.BR_CFG, A.BR_PHASE, A.BR_KON] := by
    have hall : ∀ k < 3, A.BR_CFG + 4 * k ∈ [A.BR_CFG, A.BR_PHASE, A.BR_KON] := by decide
    exact hall reg hreg
  have hact : A.BR_CFG + 4 * reg ∈ actingBases := List.mem_append_left [A.BR_CTRL, A.TR_ENC_CFG] hbase
  have heff : ∀ u, actWord u (A.BR_CFG + 0x400 * b + 4 * reg) w (storeWord (A.BR_CFG + 0x400 * b + 4 * reg) w u) =
      bridgeWritten b (storeWord (A.BR_CFG + 0x400 * b + 4 * reg) w u) := fun u => by
    rw [actWord_acting hrow hact, actBridge, if_pos hbase]
  have hcalm : ∀ u, Calm u (bridgeWritten b (storeWord (A.BR_CFG + 0x400 * b + 4 * reg) w u)) := fun u => by
    rw [storeWord_acting hrow hact]
    exact (Calm.refl u).setReg.bridgeWritten
  rw [exec_bridgeConfigWrite, writeWin_one_signed _ h _ w s rfl ha hrow.addr hrow.wa
    (fun s' => checkWord_config hrow hbase _ s' w (hf r hrow.reg) (by rw [used_mode _ s hb, hm]))
    (by rw [heff]; exact hcalm _), heff]

/-- What FAULT_CLR leaves where the words that judge the cause are sound. -/
theorem faultClr_answered (hb : b < 4) (hr : cmdReady (.faultClr h b) s = true)
    (hw : wordsSound s (causeReads s b) = true) : ∃ u, OnlyRegs s u [] ∧
      exec (.faultClr h b) s = .next (answer (.faultClr h b) stDone [] (clearLatch b u)) := by
  obtain ⟨hrow, hfields⟩ := faultRows b hb
  obtain ⟨r, hrow⟩ := RegRow.of hrow
  simp only [hrow.reg, Option.map_some, Option.some.injEq, Prod.mk.injEq] at hfields
  obtain ⟨hrange, hstart⟩ := hfields
  have hact : A.BR_CTRL ∈ actingBases := by decide
  have hu : OnlyRegs s (storeWord (A.BR_CTRL + 0x400 * b) 1 s) [] := by
    rw [storeWord_acting hrow hact, mergeWord_eq, foldMerge_start 1 _ hstart]
    refine ⟨rfl, fun a _ => ?_⟩
    by_cases ha : a = A.BR_CTRL + 0x400 * b
    · rw [ha, State.reg_setReg_same]
    · exact State.reg_setReg_ne s _ _ ha
  have heff : actWord s (A.BR_CTRL + 0x400 * b) 1 (storeWord (A.BR_CTRL + 0x400 * b) 1 s) =
      clearLatch b (storeWord (A.BR_CTRL + 0x400 * b) 1 s) := by
    rw [actWord_acting hrow hact]
    change faultClear b _ = _
    rw [faultClear, if_pos (by rw [wordsSound_congr hu, causeReads_congr hu, hw])]
  have hhost : (clearLatch b (storeWord (A.BR_CTRL + 0x400 * b) 1 s)).host = s.host := by
    rw [← hu.host, clearLatch]
    split
    · rfl
    · rw [State.clear_eq, State.wr_host]
  have ho : writeOpen (A.BR_CTRL + 0x400 * b) 1 s = true := by
    simp only [writeOpen, hrow.wa, checkWord_free hrow (by decide) _ _ 1 hrange, decide_true, Bool.not_false, Bool.and_self]
  refine ⟨_, hu, ?_⟩
  rw [exec_faultClr, writeWin_one (.faultClr h b) h _ 1 s rfl hr hrow.addr ho (by rw [heff, hhost]) (by rw [heff, hhost]), heff]

theorem clearLatch_onlyRegs (u : State) : OnlyRegs u (clearLatch b u) [A.BR_STATUS + 0x400 * b] := by
  unfold clearLatch
  split
  · exact OnlyRegs.refl u _
  · refine (OnlyRegs.clear u R.BR_STATUS.LATCHED b).mono fun a ha => ?_
    rw [List.mem_singleton] at ha ⊢
    rw [ha, fldAddr, Nat.zero_mul, Nat.add_zero, Nat.mul_comm]
    rfl

theorem clearLatch_latched (u : State) : (clearLatch b u).rd R.BR_STATUS.LATCHED b =
    if causePresent u b = true ∨ u.now < (u.br b).refuseTill then u.rd R.BR_STATUS.LATCHED b else 0 := by
  unfold clearLatch
  split
  · rfl
  · rw [State.clear_eq, State.rd_wr_same _ _ _ _ (by decide)]
    rfl

theorem clearLatch_mode (u : State) (c : Nat) : modeOf (clearLatch b u) c = modeOf u c := by
  unfold clearLatch
  split
  · rfl
  · rw [modeOf, State.clear_eq, rd_wr_apart, modeOf]

theorem resyncWrite_answered (hb : b < 4) (r : Bool) (hr : cmdReady (.resyncWrite h b r) s = true) :
    ∃ t, exec (.resyncWrite h b r) s = .next (answer (.resyncWrite h b r) stDone [] t) ∧
      OnlyRegs s t [A.GF_CTRL + 0x400 * b] ∧ t.flag R.GF_CTRL.RESYNC b = r := by
  obtain ⟨hrow, hfields⟩ := resyncRows b hb
  obtain ⟨d, hrow⟩ := RegRow.of hrow
  have hfields := hfields r
  simp only [hrow.reg, Option.map_some, Option.some.injEq, Prod.mk.injEq] at hfields
  obtain ⟨hrange, hfield⟩ := hfields
  have ho : writeOpen (A.GF_CTRL + 0x400 * b) (word (b2n r)) s = true := by
    simp only [writeOpen, hrow.wa, checkWord_free hrow (by decide) _ _ _ hrange, decide_true, Bool.not_false, Bool.and_self]
  have heff : actWord s (A.GF_CTRL + 0x400 * b) (word (b2n r)) (storeWord (A.GF_CTRL + 0x400 * b) (word (b2n r)) s) =
      s.setReg (A.GF_CTRL + 0x400 * b) (mergeWord d (s.reg (A.GF_CTRL + 0x400 * b)) (word (b2n r))) := by
    rw [actWord_plain _ _ s _ hrow.plain, storeWord_plain _ _ s hrow.plain d b 0 hrow.reg]
  refine ⟨_, ?_, OnlyRegs.setReg s _ (mergeWord d (s.reg (A.GF_CTRL + 0x400 * b)) (word (b2n r))), ?_⟩
  · rw [exec_resyncWrite, writeWin_one (.resyncWrite h b r) h _ _ s rfl hr hrow.addr ho (by rw [heff]; rfl) (by rw [heff]; rfl),
      heff]
  · have haddr : fldAddr R.GF_CTRL.RESYNC b 0 = A.GF_CTRL + 0x400 * b := by
      rw [fldAddr, Nat.zero_mul, Nat.add_zero, Nat.mul_comm]
      rfl
    rw [State.flag_eq, State.rd_eq, haddr, State.reg_setReg_same, fldOf]
    change (bitsOf _ 0 1 != 0) = r
    rw [mergeWord_field hrow.reg hfield]
    cases r
    · rfl
    · rfl

/-! ### The encoder of a bridge -/

theorem encClear_eq (e : Nat) (u : State) : ∃ encs, encClear e u = { u with encs := encs } := ⟨_, rfl⟩

theorem encClear_enc (e : Nat) (u : State) : ((encClear e u).enc e).count = 0 ∧ ((encClear e u).enc e).ref = false := by
  rw [encClear, State.enc_setEnc_same]
  exact ⟨Int.add_right_neg _, rfl⟩

/-- After a write of TR_ENC_CFG the counts of the encoders concerned alone have changed. -/
theorem encoderWritten_eq (s0 u : State) : ∃ encs, encoderWritten s0 b u = { u with encs := encs } := by
  have hclear : ∀ f v : State, ∃ encs,
      (if f.flag R.TR_ENC_CFG.ENC_EN b then encClear (f.rd R.TR_ENC_CFG.ENC_SEL b) v else v) = { v with encs := encs } :=
    fun f v => by
      split
      · exact encClear_eq _ v
      · exact ⟨v.encs, rfl⟩
  obtain ⟨e1, h1⟩ := hclear s0 u
  obtain ⟨e2, h2⟩ := hclear u { u with encs := e1 }
  refine ⟨e2, ?_⟩
  simp only [encoderWritten, h1]
  exact h2

theorem encoderWritten_enc (s0 : State) {u : State} (hu : u.flag R.TR_ENC_CFG.ENC_EN b = true) :
    ((encoderWritten s0 b u).enc (u.rd R.TR_ENC_CFG.ENC_SEL b)).count = 0 ∧
      ((encoderWritten s0 b u).enc (u.rd R.TR_ENC_CFG.ENC_SEL b)).ref = false := by
  simp only [encoderWritten, hu, if_true]
  exact encClear_enc _ _

theorem encoderConfigWrite_answered {w : Word} (hb : b < 4) (hr : cmdReady (.encoderConfigWrite h b w) s = true)
    (ho : writeOpen (A.TR_ENC_CFG + 0x400 * b) w s = true) : ∃ u, OnlyRegs s u [A.TR_ENC_CFG + 0x400 * b] ∧
      u.rd R.TR_ENC_CFG.ENC_SEL b = fldOf R.TR_ENC_CFG.ENC_SEL w ∧ u.rd R.TR_ENC_CFG.ENC_EN b = fldOf R.TR_ENC_CFG.ENC_EN w ∧
      exec (.encoderConfigWrite h b w) s =
        .next (answer (.encoderConfigWrite h b w) stDone [] (encoderWritten s b u)) := by
  obtain ⟨hrow, hfields⟩ := encoderRows b hb
  obtain ⟨r, hrow⟩ := RegRow.of hrow
  simp only [hrow.reg, Option.map_some, Option.some.injEq, Prod.mk.injEq] at hfields
  obtain ⟨hsel, hen⟩ := hfields
  have hact : A.TR_ENC_CFG ∈ actingBases := by decide
  have haddr : ∀ f : Fld, f.base = A.TR_ENC_CFG → f.stride = 0x400 → fldAddr f b 0 = A.TR_ENC_CFG + 0x400 * b :=
    fun f hbase hs => by rw [fldAddr, hbase, hs, Nat.zero_mul, Nat.add_zero, Nat.mul_comm]
  have heff : actWord s (A.TR_ENC_CFG + 0x400 * b) w (storeWord (A.TR_ENC_CFG + 0x400 * b) w s) =
      encoderWritten s b (s.setReg (A.TR_ENC_CFG + 0x400 * b) (mergeWord r (s.reg (A.TR_ENC_CFG + 0x400 * b)) w)) := by
    rw [actWord_acting hrow hact, storeWord_acting hrow hact]
    rfl
  obtain ⟨encs, henc⟩ := encoderWritten_eq (b := b) s
    (s.setReg (A.TR_ENC_CFG + 0x400 * b) (mergeWord r (s.reg (A.TR_ENC_CFG + 0x400 * b)) w))
  refine ⟨_, OnlyRegs.setReg s _ (mergeWord r (s.reg (A.TR_ENC_CFG + 0x400 * b)) w), ?_, ?_, ?_⟩
  · rw [State.rd_eq, haddr _ rfl rfl, State.reg_setReg_same]
    exact mergeWord_field hrow.reg hsel _ w
  · rw [State.rd_eq, haddr _ rfl rfl, State.reg_setReg_same]
    exact mergeWord_field hrow.reg hen _ w
  · rw [exec_encoderConfigWrite, writeWin_one (.encoderConfigWrite h b w) h _ w s rfl hr hrow.addr ho
      (by rw [heff, henc]; rfl) (by rw [heff, henc]; rfl), heff]

end

/-- Settles O19: the four writes, each the word stored and what the bridge block says follows. -/
theorem bridgeRegisterCommands : Obligations.BridgeRegisterCommands := by
  intro h b s hb
  refine ⟨fun reg w hreg ha hm hf => bridgeConfigWrite_signed hb hreg ha hm hf, fun hr hw => ?_,
    fun r hr => resyncWrite_answered hb r hr, fun w hr ho => ?_⟩
  · obtain ⟨u, hu, hexec⟩ := faultClr_answered hb hr hw
    refine ⟨_, hexec, (hu.trans (clearLatch_onlyRegs u)).mono fun a ha => List.mem_cons_of_mem _ ha, ?_, ?_⟩
    · rw [clearLatch_mode, modeOf, hu.nil_rd, modeOf]
    · rw [clearLatch_latched, causePresent_congr hu, hu.nil_rd, hu.br, show u.now = s.now by rw [hu.1]]
  · obtain ⟨u, hu, hsel, hen, hexec⟩ := encoderConfigWrite_answered hb hr ho
    obtain ⟨encs, henc⟩ := encoderWritten_eq (b := b) s u
    refine ⟨_, hexec, ?_, ?_, fun h1 => ?_, ?_, fun a ha => ?_⟩
    · rw [← hsel, henc]
      rfl
    · rw [← hen, henc]
      rfl
    · rw [← hsel]
      exact encoderWritten_enc s (by rw [State.flag_eq, hen, h1]; rfl)
    · rw [henc, hu.1]
    · rw [henc]
      exact hu.2 a (by rwa [List.mem_singleton])

end Sys2Proof.Machine
end
section
/-! SUPPORT. O48: what the operations that a seal is made of leave of the driver dies. `DieKeeps s t`: the states of the dies, their
causes and their fault events stay, a switch that is off or turning off softly stays so, and a soft turn-off goes on. -/

namespace Sys2Proof.Machine

open Sys2Proof

/-- The switch is off, or turning off softly (R238, R239). -/
def switchDown (s : State) (k : Nat) : Prop := s.flag R.DRV_STATUS.GATE k = false ∨ (s.die k).soft = true

/-- The fields in which a die shows its state and the cause and event of its fault (R246). -/
def faultFlds : List Fld := [R.DRV_STATUS.STATE, R.DRV_STATUS.FAULT_CAUSE, R.DRV_EVENT.FAULT_EV]

structure DieKeeps (s t : State) : Prop where
  rd : ∀ g ∈ faultFlds, ∀ k < 48, t.rd g k = s.rd g k
  down : ∀ k < 48, switchDown s k → switchDown t k
  soft : ∀ k, (s.die k).soft = true → (t.die k).soft = true

/-- A field that shares no bit with GATE and the fields of a fault, or lies above the registers of the dies. -/
def dieApart (f : Fld) : Bool :=
  decide (0x480c00 ≤ f.base) || (apartFld R.DRV_STATUS.GATE f && faultFlds.all fun g => apartFld g f)

/-- A field whose first 64 copies lie below the registers of the dies. -/
def dieBelow (f : Fld) : Bool := decide (f.base + 64 * f.stride < 0x480000)

/-- Where the registers of a die lie (R246). -/
theorem dieFld_addr {g : Fld} (hg : g = R.DRV_STATUS.GATE ∨ g ∈ faultFlds) {k : Nat} (hk : k < 48) :
    0x480000 ≤ fldAddr g k 0 ∧ fldAddr g k 0 < 0x480c00 := by
  have hplace : ∀ g ∈ R.DRV_STATUS.GATE :: faultFlds, 0x480000 ≤ g.base ∧ g.base ≤ 0x480034 ∧ g.stride = 0x40 := by decide
  obtain ⟨h1, h2, h3⟩ := hplace g (List.mem_cons.2 hg)
  simp only [fldAddr, h3]
  omega

theorem dieFld_wr {f g : Fld} (hf : dieApart f = true) (hg : g = R.DRV_STATUS.GATE ∨ g ∈ faultFlds) {k : Nat} (hk : k < 48)
    (s : State) (i v : Nat) : (s.wr f i v).rd g k = s.rd g k := by
  simp only [dieApart, Bool.or_eq_true, Bool.and_eq_true, List.all_eq_true, decide_eq_true_eq] at hf
  rcases hf with hf | ⟨hgate, hfault⟩
  · refine State.rd_wr_addr s g f k 0 i v fun he => ?_
    have := (dieFld_addr hg hk).2
    simp only [fldAddr] at he this
    omega
  · rcases hg with rfl | hg
    · exact rd_wr_apart s k 0 i v hgate
    · exact rd_wr_apart s k 0 i v (hfault g hg)

theorem dieFld_wrBelow {f g : Fld} (hf : dieBelow f = true) (hg : g = R.DRV_STATUS.GATE ∨ g ∈ faultFlds) {k : Nat}
    (hk : k < 48) (s : State) {i : Nat} (hi : i < 64) (v : Nat) : (s.wr f i v).rd g k = s.rd g k := by
  refine State.rd_wr_addr s g f k 0 i v fun he => ?_
  have h1 := (dieFld_addr hg hk).1
  have h2 : i * f.stride + f.stride ≤ 64 * f.stride := by
    rw [← Nat.succ_mul]
    exact Nat.mul_le_mul_right _ hi
  simp only [dieBelow, decide_eq_true_eq] at hf
  simp only [fldAddr] at he h1
  omega

theorem switchDown_congr {s t : State} {k : Nat} (hg : t.rd R.DRV_STATUS.GATE k = s.rd R.DRV_STATUS.GATE k)
    (hd : (s.die k).soft = true → (t.die k).soft = true) (h : switchDown s k) : switchDown t k := by
  unfold switchDown at *
  rw [State.flag_eq, hg, ← State.flag_eq]
  exact h.imp_right hd

namespace DieKeeps

variable {s t u : State}

protected theorem refl (s : State) : DieKeeps s s := ⟨fun _ _ _ _ => rfl, fun _ _ => id, fun _ => id⟩

protected theorem trans (h : DieKeeps s t) (k : DieKeeps t u) : DieKeeps s u :=
  ⟨fun g hg j hj => (k.rd g hg j hj).trans (h.rd g hg j hj), fun j hj hd => k.down j hj (h.down j hj hd),
    fun j hj => k.soft j (h.soft j hj)⟩

protected theorem ite {c : Prop} [Decidable c] (ht : DieKeeps s t) (hu : DieKeeps s u) : DieKeeps s (if c then t else u) := by
  split
  · exact ht
  · exact hu

/-- A loop whose passes are made for the members of its list. -/
protected theorem eachMem {α : Type} {f : State → α → State} {l : List α} (h : DieKeeps s t)
    (hf : ∀ v x, x ∈ l → DieKeeps s v → DieKeeps s (f v x)) : DieKeeps s (t.each l f) := by
  induction l generalizing t with
  | nil => exact h
  | cons x l ih => exact ih (hf t x List.mem_cons_self h) fun v y hy => hf v y (List.mem_cons_of_mem x hy)

/-- An operation that keeps the power block and the dies. -/
protected theorem aside (h : DieKeeps s t) (k : Aside t u) : DieKeeps s u := by
  have hdie : ∀ j, u.die j = t.die j := fun j => by
    unfold State.die
    rw [k.dies]
  have hrd : ∀ g, g = R.DRV_STATUS.GATE ∨ g ∈ faultFlds → ∀ j < 48, u.rd g j = t.rd g j := fun g hg j hj =>
    k.rd ⟨by have := dieFld_addr hg hj; omega, by have := dieFld_addr hg hj; omega⟩
  refine h.trans ⟨fun g hg j hj => hrd g (.inr hg) j hj, fun j hj => switchDown_congr (hrd _ (.inl rfl) j hj) ?_, fun j => ?_⟩
  · rw [hdie]
    exact id
  · rw [hdie]
    exact id

/-- Registers change, and those of the dies stay. -/
protected theorem regs (h : DieKeeps s t) (hd : ∀ j, u.die j = t.die j)
    (hrd : ∀ g, g = R.DRV_STATUS.GATE ∨ g ∈ faultFlds → ∀ j < 48, u.rd g j = t.rd g j) : DieKeeps s u := by
  refine h.trans ⟨fun g hg j hj => hrd g (.inr hg) j hj, fun j hj => switchDown_congr (hrd _ (.inl rfl) j hj) ?_, fun j => ?_⟩
  · rw [hd]
    exact id
  · rw [hd]
    exact id

protected theorem wr {f : Fld} {i v : Nat} (h : DieKeeps s t) (hf : dieApart f = true := by decide) : DieKeeps s (t.wr f i v) :=
  h.regs (State.die_wr t f i v) fun _ hg _ hj => dieFld_wr hf hg hj t i v

protected theorem raise {f : Fld} {i : Nat} (h : DieKeeps s t) (hf : dieApart f = true := by decide) :
    DieKeeps s (t.raise f i) := h.wr hf
protected theorem clear {f : Fld} {i : Nat} (h : DieKeeps s t) (hf : dieApart f = true := by decide) :
    DieKeeps s (t.clear f i) := h.wr hf
protected theorem countUp {f : Fld} {i n : Nat} (h : DieKeeps s t) (hf : dieApart f = true := by decide) :
    DieKeeps s (t.countUp f i n) := h.wr hf

protected theorem wrBelow {f : Fld} {i v : Nat} (h : DieKeeps s t) (hi : i < 64) (hf : dieBelow f = true := by decide) :
    DieKeeps s (t.wr f i v) :=
  h.regs (State.die_wr t f i v) fun _ hg _ hj => dieFld_wrBelow hf hg hj t hi v

protected theorem setBr {b : Nat} {v : Bridge} (h : DieKeeps s t) : DieKeeps s (t.setBr b v) :=
  h.regs (fun _ => rfl) fun _ _ _ _ => rfl
protected theorem setLeg {n : Nat} {v : Leg} (h : DieKeeps s t) : DieKeeps s (t.setLeg n v) :=
  h.regs (fun _ => rfl) fun _ _ _ _ => rfl

protected theorem setDie {j : Nat} {v : Die} (h : DieKeeps s t) (hv : (t.die j).soft = true → v.soft = true) :
    DieKeeps s (t.setDie j v) := by
  have hsoft : ∀ k, (t.die k).soft = true → ((t.setDie j v).die k).soft = true := fun k hk => by
    by_cases hj : k = j
    · subst hj
      rw [State.die_setDie_same]
      exact hv hk
    · rw [State.die_setDie_ne t j v hj]
      exact hk
  exact h.trans ⟨fun _ _ _ _ => rfl, fun k _ => switchDown_congr rfl (hsoft k), hsoft⟩

/-- A gate reported off. -/
protected theorem clearGate {j : Nat} (h : DieKeeps s t) : DieKeeps s (t.clear R.DRV_STATUS.GATE j) := by
  have hfault : ∀ g ∈ faultFlds, apartFld g R.DRV_STATUS.GATE = true := by decide
  have hdie : ∀ k, (t.clear R.DRV_STATUS.GATE j).die k = t.die k := fun k => by rw [State.clear_eq, State.die_wr]
  have hsoft : ∀ k, (t.die k).soft = true → ((t.clear R.DRV_STATUS.GATE j).die k).soft = true := fun k hk => by rwa [hdie]
  refine h.trans ⟨fun g hg k _ => rd_wr_apart t k 0 j 0 (hfault g hg), fun k _ hk => ?_, hsoft⟩
  by_cases hj : k = j
  · subst hj
    refine .inl ?_
    rw [State.flag_eq, State.clear_eq, State.rd_wr_same _ _ _ _ (by decide)]
    rfl
  · exact switchDown_congr (rd_wr_instance t 0 hj) (hsoft k) hk

/-! ### Gates and legs -/

protected theorem crossTrip {n : Nat} (h : DieKeeps s t) : DieKeeps s (crossTrip n t) := .ite h.setLeg.raise.countUp h

protected theorem gateFell {k : Nat} (h : DieKeeps s t) : DieKeeps s (gateFell k t) := by
  refine .ite (h.crossTrip.clearGate.clear.setDie ?_) h.clear
  simp only [State.clear_eq, State.die_wr, imp_self]

protected theorem gateOff {k : Nat} (h : DieKeeps s t) : DieKeeps s (gateOff k t) := by
  refine .ite h (.ite (h.setDie ?_) h.gateFell)
  exact fun _ => rfl

protected theorem legOff {n : Nat} (h : DieKeeps s t) : DieKeeps s (legOff n t) := h.gateOff.gateOff

protected theorem armSupply {k : Nat} {on_ : Bool} (h : DieKeeps s t) : DieKeeps s (armSupply k on_ t) := by
  refine h.setDie ?_
  exact id

protected theorem legBlock {n : Nat} (h : DieKeeps s t) : DieKeeps s (legBlock n t) :=
  h.clear.clear.setLeg.legOff.armSupply.armSupply

protected theorem legRelease {n : Nat} (h : DieKeeps s t) : DieKeeps s (legRelease n t) :=
  .ite h h.raise.armSupply.armSupply

protected theorem setPulses {b : Nat} {on_ : Bool} (h : DieKeeps s t) : DieKeeps s (setPulses b on_ t) :=
  .ite (.eachMem h.setBr fun _ _ _ h1 => h1.legRelease) (.eachMem h.setBr fun _ _ _ h1 => h1.legBlock)

protected theorem closeShutter {b : Nat} (h : DieKeeps s t) : DieKeeps s (closeShutter b t) := h.setBr.setPulses

protected theorem sealLeg {n : Nat} (h : DieKeeps s t) (hn : n < 64) : DieKeeps s (sealLeg n t) :=
  h.setLeg.clear.clear.wrBelow hn |>.clear.clear.wrBelow hn |>.clear

/-! ### The seal -/

protected theorem sealRelease {b : Nat} {how : SealHow} (h : DieKeeps s t) (hb : b < 4) : DieKeeps s (sealRelease b how t) := by
  have h0 : DieKeeps s (if how.auto then refuseBeat b t else t) := .ite (h.aside (Aside.refl _).refuseBeat) h
  have h1 := DieKeeps.ite (c := how.pull) (h0.aside ((Aside.refl _).pullBridge (b := b))) h0
  exact h1.closeShutter.aside ((Aside.refl _).swapSettled.swapSettled.freeEngines hb)

protected theorem clearGraphRegs {b : Nat} (h : DieKeeps s t) (hb : b < 64) : DieKeeps s (clearGraphRegs b t) :=
  h.wrBelow hb |>.wrBelow hb |>.wrBelow hb |>.wrBelow hb |>.wrBelow hb |>.wrBelow hb |>.wrBelow hb |>.wrBelow hb
    |>.wrBelow hb |>.wrBelow hb |>.wrBelow hb

protected theorem sealClear {ls : List Nat} {b : Nat} (h : DieKeeps s t) (hb : b < 4) (hl : ∀ n ∈ ls, n < 64) :
    DieKeeps s (sealClear ls b t) :=
  have hb64 : b < 64 := by omega
  ((h.eachMem fun _ n hn h1 => h1.sealLeg (hl n hn)).wrBelow hb64).clearGraphRegs hb64 |>.setBr

protected theorem changeMode {b m st : Nat} (h : DieKeeps s t) (hb : b < 4) : DieKeeps s (changeMode b m st t) :=
  have hb64 : b < 64 := by omega
  DieKeeps.aside (t := modeWritten b m st t) ((h.wrBelow hb64).wrBelow hb64).wr.setBr (changeMode_aside m st t)

protected theorem sealRecord {b : Nat} {how : SealHow} (h : DieKeeps s t) (hb : b < 4) : DieKeeps s (sealRecord b how t) := by
  have hb64 : b < 64 := by omega
  unfold sealRecord
  extract_lets s6 s7
  have h6 : DieKeeps s s6 := ((h.changeMode hb).wrBelow hb64).wrBelow hb64
  have h7 : DieKeeps s s7 := .ite (h6.wrBelow hb64) h6
  exact .ite h7.wr h7

protected theorem sealBridge {b : Nat} {how : SealHow} (h : DieKeeps s t) (hb : b < 4) : DieKeeps s (sealBridge b how t) := by
  by_cases hm : modeOf t b = 0
  · rwa [sealBridge_sealed how hm]
  · rw [sealBridge_eq how hm]
    have hlegs : ∀ n ∈ legsOf t b, n < 64 := fun n hn => by
      have := legsOf_lt hn
      omega
    exact (((h.sealRelease hb).sealClear hb hlegs).sealRecord hb).aside (sealTell_aside how _)

end DieKeeps

end Sys2Proof.Machine
end
section
/-! SUPPORT. O48: how a gate goes off, and what a fault of a die comes to (R228, R238, R239, R245, R249). -/

namespace Sys2Proof.Machine

open Sys2Proof

section
variable {s : State} {k n : Nat}

/-! ### The overlap of the gates -/

theorem crossTrip_none (hg : gatesOverlap s n = false) : crossTrip n s = s := if_neg (by simp [hg])

theorem crossCheck_none (hg : gatesOverlap s n = false) : crossCheck n s = s := if_neg (by simp [hg])

theorem crossTrip_bridges (n : Nat) (s : State) : (crossTrip n s).bridges = s.bridges := by
  simp only [crossTrip, State.countUp_eq, State.raise_eq, State.bridges_ite, State.wr_bridges, State.setLeg_bridges, ite_self]

theorem crossTrip_die (n : Nat) (s : State) (j : Nat) : (crossTrip n s).die j = s.die j := by
  unfold crossTrip
  split
  · rw [State.countUp_eq, State.die_wr, State.raise_eq, State.die_wr, State.die_setLeg]
  · rfl

/-! ### States that differ in the dies too -/

theorem OnlyRegs.setDie {u : State} {l : List Nat} (h : OnlyRegs s u l) (k : Nat) (v : Die) :
    OnlyRegs { s with dies := (u.setDie k v).dies } (u.setDie k v) l := by
  obtain ⟨h1, h2⟩ := h
  refine ⟨?_, h2⟩
  rw [h1]
  rfl

theorem OnlyRegs.dies {u : State} {l : List Nat} (h : OnlyRegs s u l) : OnlyRegs { s with dies := u.dies } u l := by
  obtain ⟨h1, h2⟩ := h
  have hd : u.dies = s.dies := by rw [h1]
  rw [hd]
  exact ⟨h1, h2⟩

/-- Two changes of registers and dies, one after the other. -/
theorem OnlyRegs.diesTrans {t u : State} {l : List Nat} (h : OnlyRegs { s with dies := t.dies } t l)
    (k : OnlyRegs { t with dies := u.dies } u l) : OnlyRegs { s with dies := u.dies } u l := by
  obtain ⟨h1, h2⟩ := h
  obtain ⟨k1, k2⟩ := k
  refine ⟨?_, fun a ha => (k2 a ha).trans (h2 a ha)⟩
  rw [h1] at k1
  exact k1

theorem OnlyRegs.diesSetDie {u : State} {l : List Nat} (h : OnlyRegs { s with dies := u.dies } u l) (k : Nat) (v : Die) :
    OnlyRegs { s with dies := (u.setDie k v).dies } (u.setDie k v) l :=
  h.diesTrans ((OnlyRegs.refl u l).setDie k v)

/-! ### A gate reported off -/

theorem gateFell_gate (k : Nat) (s : State) : (gateFell k s).rd R.DRV_STATUS.GATE k = 0 := by
  unfold gateFell
  split
  · rw [State.rd_setDie, State.clear_eq, State.clear_eq, rd_wr_apart, State.rd_wr_same _ _ _ _ (by decide)]
    rfl
  · next hg =>
    rw [State.clear_eq, rd_wr_apart]
    simpa [State.flag_eq] using hg

theorem gateFell_ocAct (k : Nat) (s : State) : (gateFell k s).rd R.DRV_STATUS.OC_ACT k = 0 := by
  unfold gateFell
  split
  · rw [State.rd_setDie, State.clear_eq, State.rd_wr_same _ _ _ _ (by decide)]
    rfl
  · rw [State.clear_eq, State.rd_wr_same _ _ _ _ (by decide)]
    rfl

/-- A gate that falls changes when it was last off, and nothing else of its die. -/
theorem gateFell_die (k : Nat) (s : State) : ∃ off fell, (gateFell k s).die k = { s.die k with offAt := off, fell := fell } := by
  unfold gateFell
  split
  · refine ⟨some (crossTrip (k / 2) s).now, true, (State.die_setDie_same ..).trans ?_⟩
    rw [crossTrip_die]
  · exact ⟨(s.die k).offAt, (s.die k).fell, by rw [State.clear_eq, State.die_wr]⟩

theorem gateFell_bridges (k : Nat) (s : State) : (gateFell k s).bridges = s.bridges := by
  simp only [gateFell, State.bridges_ite, State.setDie_bridges, State.clear_eq, State.wr_bridges, crossTrip_bridges, ite_self]

/-- Where no overlap ends with it, GATE and OC_ACT alone change. -/
theorem gateFell_only (hg : gatesOverlap s (k / 2) = false) :
    OnlyRegs { s with dies := (gateFell k s).dies } (gateFell k s) [fldAddr R.DRV_STATUS.GATE k 0] := by
  unfold gateFell
  rw [crossTrip_none hg]
  split
  · refine OnlyRegs.setDie (((OnlyRegs.clear s R.DRV_STATUS.GATE k).trans (OnlyRegs.clear _ R.DRV_STATUS.OC_ACT k)).mono
      fun a ha => ?_) k _
    exact (List.mem_append.1 ha).elim id id
  · exact (OnlyRegs.clear s R.DRV_STATUS.OC_ACT k).dies

/-! ### A switch turned off -/

theorem gateOff_down (k : Nat) (s : State) : switchDown (gateOff k s) k := by
  unfold gateOff
  split
  · next h => exact h
  · split
    · exact .inr (congrArg Die.soft (State.die_setDie_same ..))
    · exact .inl (by rw [State.flag_eq, gateFell_gate]; rfl)

theorem gateOff_gate (hsc : scAbove s k = false) (hs : (s.die k).soft = false) :
    (gateOff k s).rd R.DRV_STATUS.GATE k = 0 := by
  unfold gateOff
  split
  · next h =>
    have hg : s.flag R.DRV_STATUS.GATE k = false := by simpa [hs] using h
    simpa [State.flag_eq] using hg
  · rw [hsc, if_neg (by decide), gateFell_gate]

theorem gateOff_bridges (k : Nat) (s : State) : (gateOff k s).bridges = s.bridges := by
  unfold gateOff softTurnOff
  split
  · rfl
  · split
    · rfl
    · exact gateFell_bridges k s

theorem gateOff_only (hg : gatesOverlap s (k / 2) = false) :
    OnlyRegs { s with dies := (gateOff k s).dies } (gateOff k s) [fldAddr R.DRV_STATUS.GATE k 0] := by
  unfold gateOff
  split
  · exact OnlyRegs.refl s _
  · split
    · exact (OnlyRegs.refl s _).setDie k _
    · exact gateFell_only hg

/-- Another field of the die's status stays. -/
theorem gateOff_rd (hg : gatesOverlap s (k / 2) = false) {f : Fld} {i : Nat}
    (h1 : apartFld f R.DRV_STATUS.GATE = true := by decide) (h2 : apartFld f R.DRV_STATUS.OC_ACT = true := by decide) :
    (gateOff k s).rd f i = s.rd f i := by
  unfold gateOff softTurnOff gateFell
  rw [crossTrip_none hg]
  split
  · rfl
  · split
    · rfl
    · split
      · rw [State.rd_setDie, State.clear_eq, State.clear_eq, rd_wr_apart _ _ _ _ _ h2, rd_wr_apart _ _ _ _ _ h1]
      · rw [State.clear_eq, rd_wr_apart _ _ _ _ _ h2]

end

end Sys2Proof.Machine
end
section
/-! SUPPORT. O48: a die in state OK that faults. -/

namespace Sys2Proof.Machine

open Sys2Proof

section
variable {s t u : State} {k n : Nat}

/-! ### The bridge of a leg -/

theorem bridgeOfLeg_lt {b : Nat} (h : bridgeOfLeg s n = some b) : b < 4 := List.mem_range.1 (List.mem_of_find?_eq_some h)

/-- Which bridge a leg belongs to is said in the bridge block. -/
theorem Frame.bridgeOfLeg (h : Frame s t) (n : Nat) : bridgeOfLeg t n = bridgeOfLeg s n := by
  have hone : ∀ b < 4, (cfgOk t b && (legsOf t b).contains n) = (cfgOk s b && (legsOf s b).contains n) := fun b hb => by
    have hcfg : cfgOk t b = cfgOk s b := by rw [cfgOk, cfgOk, State.flag_eq, State.flag_eq, h.modes.rd hb]
    have hlegs : legsOf t b = legsOf s b := by
      refine legsOf_congr (h.reg _ ?_) (h.reg _ ?_)
      · simp only [bridgeBlock, A.BR_CFG]
        omega
      · simp only [bridgeBlock, A.BR_PHASE]
        omega
    rw [hcfg, hlegs]
  exact List.find?_congr fun b hb => hone b (List.mem_range.1 hb)

/-! ### What is recorded of a fault -/

/-- STATE, the cause and the events of a fault, and its time (R245, R249). -/
def dieRecorded (k n : Nat) (s : State) : State :=
  let s1 := causeEvents k n ((s.wr R.DRV_STATUS.STATE k 2).wr R.DRV_STATUS.FAULT_CAUSE k n)
  s1.setDie k { s1.die k with faultAt := s1.now, again := none }

/-- The switches turned off and the fault logged. -/
def dieFaulted (k n : Nat) (s : State) : State := logEvent 0x0031 k (le 1 n) (dieOff k n (dieRecorded k n s))

theorem dieFault_bridge {b : Nat} (h1 : dieState s k = 1) (hb : bridgeOfLeg (dieFaulted k n s) (k / 2) = some b) :
    dieFault k n s = sealFor b 14 (dieFaulted k n s) := by
  rw [dieFault, if_pos h1]
  change (match bridgeOfLeg (dieFaulted k n s) (k / 2) with | some b => _ | none => _) = _
  rw [hb]
  rfl

theorem dieFault_noBridge (h1 : dieState s k = 1) (hb : bridgeOfLeg (dieFaulted k n s) (k / 2) = none) :
    dieFault k n s = dieFaulted k n s := by
  rw [dieFault, if_pos h1]
  change (match bridgeOfLeg (dieFaulted k n s) (k / 2) with | some b => _ | none => _) = _
  rw [hb]
  rfl

/-- The events of a cause raise FAULT_EV and leave the other registers of the dies. -/
theorem causeEvents_rd (k n : Nat) (s : State) {f : Fld} {i : Nat}
    (hf : apartFld f R.DRV_EVENT.FAULT_EV = true ∧ apartFld f R.DRV_EVENT.SC_EV = true ∧
      apartFld f R.DRV_EVENT.UV_EV = true ∧ apartFld f R.DRV_EVENT.LINK_EV = true := by decide) :
    (causeEvents k n s).rd f i = s.rd f i := by
  obtain ⟨h1, h2, h3, h4⟩ := hf
  simp only [causeEvents, State.raise_eq, State.rd_ite, rd_wr_apart _ _ _ _ _ h1, rd_wr_apart _ _ _ _ _ h2,
    rd_wr_apart _ _ _ _ _ h3, rd_wr_apart _ _ _ _ _ h4, ite_self]

theorem causeEvents_faultEv (k n : Nat) (s : State) : (causeEvents k n s).rd R.DRV_EVENT.FAULT_EV k = 1 := by
  have h1 : (s.wr R.DRV_EVENT.FAULT_EV k 1).rd R.DRV_EVENT.FAULT_EV k = 1 := State.rd_wr_same _ _ _ _ (by decide)
  simp (disch := decide) only [causeEvents, State.raise_eq, State.rd_ite, rd_wr_apart, h1, ite_self]

theorem causeEvents_bridges (k n : Nat) (s : State) : (causeEvents k n s).bridges = s.bridges := by
  simp only [causeEvents, State.raise_eq, State.bridges_ite, State.wr_bridges, ite_self]

theorem Frame.causeEvents (h : Frame s t) : Frame s (causeEvents k n t) :=
  .ite h.raise.raise (.ite h.raise.raise (.ite h.raise.raise h.raise))

theorem dieRecorded_frame : Frame s (dieRecorded k n s) := (Frame.refl s).wr.wr.causeEvents.setDie

theorem dieRecorded_bridges : (dieRecorded k n s).bridges = s.bridges := by
  simp only [dieRecorded, State.setDie_bridges, causeEvents_bridges, State.wr_bridges]

theorem dieRecorded_state : dieState (dieRecorded k n s) k = 2 := by
  rw [dieState, dieRecorded, State.rd_setDie, causeEvents_rd, rd_wr_apart, State.rd_wr_same _ _ _ _ (by decide)]
  rfl

theorem dieRecorded_cause (hn : n < 8) : (dieRecorded k n s).rd R.DRV_STATUS.FAULT_CAUSE k = n := by
  rw [dieRecorded, State.rd_setDie, causeEvents_rd, State.rd_wr_same _ _ _ _ (by decide)]
  exact Nat.mod_eq_of_lt hn

theorem dieRecorded_event : (dieRecorded k n s).rd R.DRV_EVENT.FAULT_EV k = 1 := by
  rw [dieRecorded, State.rd_setDie, causeEvents_faultEv]

theorem dieRecorded_gate : (dieRecorded k n s).flag R.DRV_STATUS.GATE k = s.flag R.DRV_STATUS.GATE k := by
  rw [State.flag_eq, dieRecorded, State.rd_setDie, causeEvents_rd, rd_wr_apart, rd_wr_apart, ← State.flag_eq]

/-! ### The switches of a fault -/

theorem Frame.dieOff (h : Frame s t) : Frame s (dieOff k n t) := by
  unfold Machine.dieOff softTurnOff
  exact Frame.gateOff (.ite h (.ite h.setDie h.gateOff))

theorem DieKeeps.dieOff (h : DieKeeps s t) : DieKeeps s (dieOff k n t) := by
  unfold Machine.dieOff softTurnOff
  refine DieKeeps.gateOff (.ite h (.ite (h.setDie ?_) h.gateOff))
  exact fun _ => rfl

theorem dieOff_bridges : (dieOff k n s).bridges = s.bridges := by
  simp only [dieOff, softTurnOff, gateOff_bridges, State.bridges_ite, State.setDie_bridges, ite_self]

/-- The other switch of the leg goes off (R245). -/
theorem dieOff_other : switchDown (dieOff k n s) (4 * (k / 2) + 1 - k) := gateOff_down _ _

/-- So does the switch itself, but for a lost link, where the die does it (R222). -/
theorem dieOff_down (hk : k < 48) (hn : n ≠ 5) : switchDown (dieOff k n s) k := by
  unfold dieOff
  refine (DieKeeps.refl _).gateOff.down k hk ?_
  rw [if_neg hn]
  split
  · exact .inr (congrArg Die.soft (State.die_setDie_same ..))
  · exact gateOff_down k s

/-- A short circuit of a switch that is on turns it off softly (R238). -/
theorem dieOff_soft (hg : s.flag R.DRV_STATUS.GATE k = true) : ((dieOff k 1 s).die k).soft = true := by
  unfold dieOff
  refine (DieKeeps.refl _).gateOff.soft k ?_
  rw [if_neg (by decide)]
  split
  · exact congrArg Die.soft (State.die_setDie_same ..)
  · next hs =>
    have hsoft : (s.die k).soft = true := by simpa [hg] using hs
    exact (DieKeeps.refl s).gateOff.soft k hsoft

theorem logEvent_bridges (code obj : Nat) (data : List Byte) (s : State) : (logEvent code obj data s).bridges = s.bridges := by
  simp only [logEvent, logPut, State.raise_eq, State.countUp_eq, State.bridges_ite, State.wr_bridges, ite_self]

theorem dieFaulted_frame : Frame s (dieFaulted k n s) :=
  (dieRecorded_frame.dieOff).aside (Aside.refl _).logEvent

theorem dieFaulted_keeps : DieKeeps (dieRecorded k n s) (dieFaulted k n s) :=
  (DieKeeps.refl _).dieOff.aside (Aside.refl _).logEvent

theorem dieFaulted_bridges : (dieFaulted k n s).bridges = s.bridges := by
  rw [dieFaulted, logEvent_bridges, dieOff_bridges, dieRecorded_bridges]

theorem logEvent_down {code obj : Nat} {data : List Byte} {j : Nat} (hj : j < 48) (h : switchDown s j) :
    switchDown (logEvent code obj data s) j := ((DieKeeps.refl s).aside (Aside.refl s).logEvent).down j hj h

theorem dieFaulted_other (hk : k < 48) : switchDown (dieFaulted k n s) (4 * (k / 2) + 1 - k) :=
  logEvent_down (by omega) dieOff_other

theorem dieFaulted_down (hk : k < 48) (hn : n ≠ 5) : switchDown (dieFaulted k n s) k := logEvent_down hk (dieOff_down hk hn)

theorem dieFaulted_soft (hg : s.flag R.DRV_STATUS.GATE k = true) : ((dieFaulted k 1 s).die k).soft = true :=
  ((DieKeeps.refl _).aside (Aside.refl _).logEvent).soft k (dieOff_soft (by rwa [dieRecorded_gate]))

/-! ### The fault -/

/-- What follows a fault of a die in state OK keeps what was recorded of it. -/
theorem dieFault_keeps (h1 : dieState s k = 1) : DieKeeps (dieFaulted k n s) (dieFault k n s) := by
  cases hb : bridgeOfLeg (dieFaulted k n s) (k / 2) with
  | none =>
    rw [dieFault_noBridge h1 hb]
    exact .refl _
  | some b =>
    rw [dieFault_bridge h1 hb]
    exact (DieKeeps.refl _).sealBridge (bridgeOfLeg_lt hb)

theorem dieFault_calm (h1 : dieState s k = 1) : Calm s (dieFault k n s) := by
  refine dieFaulted_frame.toCalm.trans (u := dieFault k n s) (t := dieFaulted k n s) ?_
  cases hb : bridgeOfLeg (dieFaulted k n s) (k / 2) with
  | none =>
    rw [dieFault_noBridge h1 hb]
    exact .refl _
  | some b =>
    rw [dieFault_bridge h1 hb]
    exact sealBridge_calm _ (bridgeOfLeg_lt hb)

theorem dieFault_recorded (hk : k < 48) (h1 : dieState s k = 1) (hn : n < 8) : dieState (dieFault k n s) k = 2 ∧
    (dieFault k n s).rd R.DRV_STATUS.FAULT_CAUSE k = n ∧ (dieFault k n s).flag R.DRV_EVENT.FAULT_EV k = true := by
  have hkeeps : DieKeeps (dieRecorded k n s) (dieFault k n s) := dieFaulted_keeps.trans (dieFault_keeps h1)
  refine ⟨?_, ?_, ?_⟩
  · exact (hkeeps.rd R.DRV_STATUS.STATE (by simp [faultFlds]) k hk).trans dieRecorded_state
  · rw [hkeeps.rd R.DRV_STATUS.FAULT_CAUSE (by simp [faultFlds]) k hk, dieRecorded_cause hn]
  · rw [State.flag_eq, hkeeps.rd R.DRV_EVENT.FAULT_EV (by simp [faultFlds]) k hk, dieRecorded_event]
    rfl

/-- The bridge of the leg seals with reason 14, and without one no bridge changes (R245). -/
theorem dieFault_seals (h1 : dieState s k = 1) :
    (∀ b, bridgeOfLeg s (k / 2) = some b → modeOf (dieFault k n s) b = 0 ∧
      (modeOf s b ≠ 0 → (dieFault k n s).rd R.BR_REASON.SEAL_REASON b = 14)) ∧
    (bridgeOfLeg s (k / 2) = none → (dieFault k n s).bridges = s.bridges) := by
  have hframe := dieFaulted_frame (k := k) (n := n) (s := s)
  refine ⟨fun b hb => ?_, fun hb => ?_⟩
  · have hb4 := bridgeOfLeg_lt hb
    rw [dieFault_bridge h1 ((hframe.bridgeOfLeg _).trans hb)]
    refine ⟨sealBridge_mode _ hb4, fun hm => sealBridge_reason _ hb4 ?_ (show 14 < 32 by decide)⟩
    rwa [modeOf, hframe.modes.rd hb4, ← modeOf]
  · rw [dieFault_noBridge h1 ((hframe.bridgeOfLeg _).trans hb), dieFaulted_bridges]

end

end Sys2Proof.Machine
end
section
/-! O48: faults, warnings and supplies of a driver die. -/

namespace Sys2Proof.Machine

open Sys2Proof

/-- What a command leaves as its fault is found: the die OK, and the bridges as they were. -/
structure FaultFrom (s u : State) (k : Nat) : Prop where
  ok : dieState u k = 1
  mode : ∀ b < 4, modeOf u b = modeOf s b
  leg : bridgeOfLeg u (k / 2) = bridgeOfLeg s (k / 2)
  bridges : u.bridges = s.bridges

section
variable {s u v : State} {k n : Nat} {neg : Bool}

theorem FaultFrom.of (h : Frame s u) (hs : dieState u k = 1) (hb : u.bridges = s.bridges) : FaultFrom s u k :=
  ⟨hs, fun _ hb4 => h.modes.rd hb4, h.bridgeOfLeg _, hb⟩

/-- What a fault comes to, as seen from the state before its command. -/
theorem FaultFrom.faulted (h : FaultFrom s u k) (hk : k < 48) (hn : n < 8)
    (hg : n = 1 → u.flag R.DRV_STATUS.GATE k = true) :
    dieState (dieFault k n u) k = 2 ∧ (dieFault k n u).rd R.DRV_STATUS.FAULT_CAUSE k = n ∧
      (dieFault k n u).flag R.DRV_EVENT.FAULT_EV k = true ∧ (n = 1 → ((dieFault k n u).die k).soft = true) ∧
      (n ≠ 5 → switchDown (dieFault k n u) k) ∧ switchDown (dieFault k n u) (4 * (k / 2) + 1 - k) ∧
      (∀ b, bridgeOfLeg s (k / 2) = some b → modeOf (dieFault k n u) b = 0 ∧
        (modeOf s b ≠ 0 → (dieFault k n u).rd R.BR_REASON.SEAL_REASON b = 14)) ∧
      (bridgeOfLeg s (k / 2) = none → (dieFault k n u).bridges = s.bridges) := by
  have hkeeps := dieFault_keeps (n := n) h.ok
  obtain ⟨hstate, hcause, hevent⟩ := dieFault_recorded hk h.ok hn
  obtain ⟨hseal, hnone⟩ := dieFault_seals (n := n) h.ok
  refine ⟨hstate, hcause, hevent, fun h1 => ?_, fun h5 => hkeeps.down k hk (dieFaulted_down hk h5),
    hkeeps.down _ (by omega) (dieFaulted_other hk), fun b hb => ?_, fun hb => (hnone (h.leg.trans hb)).trans h.bridges⟩
  · subst h1
    exact hkeeps.soft k (dieFaulted_soft (hg rfl))
  · obtain ⟨hm, hr⟩ := hseal b (h.leg.trans hb)
    exact ⟨hm, fun h0 => hr (by rwa [h.mode b (bridgeOfLeg_lt hb)])⟩

/-! ### The causes -/

theorem diePresent_of (hk : k < 48) (hs : dieState s k ≠ 0) : diePresent s k = true := by
  simp only [diePresent, hk, hs, decide_true, Bool.and_self, ne_eq, not_false_eq_true]

theorem diePresent_absent (hs : dieState s k = 0) : diePresent s k = false := by
  simp only [diePresent, hs, ne_eq, not_true_eq_false, decide_false, Bool.and_false]

/-- The state in which a short circuit of a switch that is on is found (R237). -/
def shortFound (k : Nat) (s : State) : State :=
  ((reachTime (scEnd s k) s).countUp R.DRV_CNT.SC_CNT k).setDie k { s.die k with scSeen := true, scHigh := true }

theorem shortCircuit_faults (hp : diePresent s k = true) (hg : s.flag R.DRV_STATUS.GATE k = true)
    (hsc : (s.die k).scSeen = false) : shortCircuit k s = dieFault k 1 (shortFound k s) := by
  rw [shortCircuit, if_pos ⟨hp, .inl hg, hsc⟩, if_pos hg]
  rfl

theorem shortFound_from (hs : dieState s k = 1) : FaultFrom s (shortFound k s) k := by
  have hstate : dieState (shortFound k s) k = 1 := by
    rw [dieState, shortFound, State.rd_setDie, State.countUp_eq, rd_wr_apart]
    exact hs
  have h := FaultFrom.of (s := reachTime (scEnd s k) s) (Frame.countUp (.refl _)).setDie hstate rfl
  exact ⟨h.ok, h.mode, h.leg, h.bridges⟩

theorem shortFound_gate (hg : s.flag R.DRV_STATUS.GATE k = true) : (shortFound k s).flag R.DRV_STATUS.GATE k = true := by
  rw [State.flag_eq, shortFound, State.rd_setDie, State.countUp_eq, rd_wr_apart]
  exact hg

/-! ### An undervoltage -/

theorem uvRaise_rd {f : Fld} {i : Nat} (hn : apartFld f R.DRV_STATUS.UV_NEG = true := by decide)
    (hp : apartFld f R.DRV_STATUS.UV_POS = true := by decide) : (s.raise (uvFlag neg) k).rd f i = s.rd f i := by
  cases neg
  · exact rd_wr_apart s i 0 k 1 hp
  · exact rd_wr_apart s i 0 k 1 hn

theorem uvRaise_frame : Frame s (s.raise (uvFlag neg) k) := by
  cases neg
  · exact Frame.raise (.refl s)
  · exact Frame.raise (.refl s)

theorem uvRaise_flag : (s.raise (uvFlag neg) k).rd (uvFlag neg) k = 1 := by
  cases neg
  · exact State.rd_wr_same _ _ _ _ (by decide)
  · exact State.rd_wr_same _ _ _ _ (by decide)

theorem uvRaise_gate (j : Nat) : (s.raise (uvFlag neg) k).flag R.DRV_STATUS.GATE j = s.flag R.DRV_STATUS.GATE j := by
  rw [State.flag_eq, uvRaise_rd, ← State.flag_eq]

theorem uvRaise_state (j : Nat) : dieState (s.raise (uvFlag neg) k) j = dieState s j := uvRaise_rd

theorem uvRaise_leg (m : Nat) : (s.raise (uvFlag neg) k).leg m = s.leg m := by rw [State.raise_eq, State.leg_wr]

theorem uvRaise_die (j : Nat) : (s.raise (uvFlag neg) k).die j = s.die j := by rw [State.raise_eq, State.die_wr]

theorem uvRaise_now : (s.raise (uvFlag neg) k).now = s.now := by rw [State.raise_eq, State.wr_now]

theorem uvRaise_overlap (m : Nat) : gatesOverlap (s.raise (uvFlag neg) k) m = gatesOverlap s m := by
  simp only [gatesOverlap, uvRaise_frame.bridgeOfLeg, uvRaise_gate, uvRaise_leg, uvRaise_die, uvRaise_now]

theorem uvRaise_ptCommands (m : Nat) : ptCommands (s.raise (uvFlag neg) k) m = ptCommands s m := by
  have hframe := uvRaise_frame (s := s) (k := k) (neg := neg)
  have hpth : (s.raise (uvFlag neg) k).pth = s.pth := by rw [State.raise_eq, State.wr_pth]
  unfold ptCommands
  rw [hframe.bridgeOfLeg]
  cases hb : bridgeOfLeg s m with
  | none => rfl
  | some b =>
    have hmode : modeOf (s.raise (uvFlag neg) k) b = modeOf s b := hframe.modes.rd (bridgeOfLeg_lt hb)
    simp (disch := decide) only [hmode, State.flag_eq, uvRaise_rd, hpth]

theorem uvRaise_armed (j : Nat) : supplyArmed (s.raise (uvFlag neg) k) j = supplyArmed s j := by
  simp (disch := decide) only [supplyArmed, lowPulseSeen, uvRaise_ptCommands, uvRaise_leg, uvRaise_now, State.flag_eq,
    uvRaise_rd]

theorem uvRaise_justFaulted (j : Nat) : justFaulted (s.raise (uvFlag neg) k) j = justFaulted s j := by
  simp only [justFaulted, uvRaise_state, uvRaise_die, uvRaise_now]

theorem uvRaise_since (j : Nat) : uvSince (s.raise (uvFlag neg) k) j neg = uvSince s j neg := by
  simp only [uvSince, uvRaise_die]

theorem uvRaise_from (hs : dieState s k = 1) : FaultFrom s (s.raise (uvFlag neg) k) k :=
  .of uvRaise_frame ((uvRaise_state k).trans hs) (by rw [State.raise_eq, State.wr_bridges])

/-- The undervoltage of a supply that is monitored on a die that is there, no fault of this tick (R241). -/
structure UvSeen (s : State) (k : Nat) (neg : Bool) : Prop where
  here : diePresent s k = true
  monitored : neg = true → s.rd R.DRV_SUP.VNEG_UV k ≠ 0
  fresh : justFaulted s k = false

/-- The cause of a supply's undervoltage (R245). -/
def uvCause (neg : Bool) : Nat := if neg then 3 else 2

theorem UvSeen.taken (h : UvSeen s k neg) :
    ¬ (diePresent s k = false ∨ (neg = true ∧ s.rd R.DRV_SUP.VNEG_UV k = 0)) := by
  rintro (hp | ⟨hneg, h0⟩)
  · rw [h.here] at hp
    cases hp
  · exact h.monitored hneg h0

theorem UvSeen.notJustOff (h : UvSeen s k neg) : supplyJustOff (s.raise (uvFlag neg) k) k = false := by
  simp only [supplyJustOff, uvRaise_justFaulted, h.fresh, Bool.false_and]

theorem UvSeen.on (h : UvSeen s k neg) (ha : supplyArmed s k = true) (hg : s.flag R.DRV_STATUS.GATE k = true) :
    supplyUndervoltage k neg s = dieFault k (uvCause neg) (s.raise (uvFlag neg) k) := by
  simp only [supplyUndervoltage, if_neg h.taken, h.notJustOff, uvRaise_armed, ha, uvRaise_gate, hg, Bool.false_eq_true,
    Bool.true_eq_false, if_false, if_true, uvCause]

theorem UvSeen.starts (h : UvSeen s k neg) (ha : supplyArmed s k = true) (hg : s.flag R.DRV_STATUS.GATE k = false)
    (hs : uvSince s k neg = none) :
    supplyUndervoltage k neg s = setUvSince k neg (some s.now) (s.raise (uvFlag neg) k) := by
  simp only [supplyUndervoltage, if_neg h.taken, h.notJustOff, uvRaise_armed, ha, uvRaise_gate, hg, Bool.false_eq_true,
    Bool.true_eq_false, if_false, uvRaise_since, hs, uvRaise_now]

theorem UvSeen.ends {t0 : Nat} (h : UvSeen s k neg) (ha : supplyArmed s k = true)
    (hg : s.flag R.DRV_STATUS.GATE k = false) (hs : uvSince s k neg = some t0) : supplyUndervoltage k neg s =
      dieFault k (uvCause neg) (reachTime (t0 + s.rd R.DRV_SUP.UV_T k * 400) (s.raise (uvFlag neg) k)) := by
  have ht : (s.raise (uvFlag neg) k).rd R.DRV_SUP.UV_T k = s.rd R.DRV_SUP.UV_T k := uvRaise_rd
  simp only [supplyUndervoltage, if_neg h.taken, h.notJustOff, uvRaise_armed, ha, uvRaise_gate, hg, Bool.false_eq_true,
    Bool.true_eq_false, if_false, uvRaise_since, hs, ht, uvCause]

theorem UvSeen.unarmed (h : UvSeen s k neg) (ha : supplyArmed s k = false) (ho : gatesOverlap s (k / 2) = false) :
    supplyUndervoltage k neg s = setUvSince k neg none (if neg then s.raise (uvFlag neg) k
      else gateOff k (s.raise (uvFlag neg) k)) := by
  have hc : crossCheck (k / 2) (s.raise (uvFlag neg) k) = s.raise (uvFlag neg) k :=
    crossCheck_none (by rwa [uvRaise_overlap])
  simp only [supplyUndervoltage, if_neg h.taken, h.notJustOff, uvRaise_armed, ha, hc, Bool.false_eq_true, if_false, if_true]

/-! ### What counts towards UV_T -/

theorem setUvSince_since (t : Option Nat) (s : State) : uvSince (setUvSince k neg t s) k neg = t := by
  cases neg
  · exact congrArg Die.uvPos (State.die_setDie_same ..)
  · exact congrArg Die.uvNeg (State.die_setDie_same ..)

theorem setUvSince_rd (t : Option Nat) (s : State) (f : Fld) (i : Nat) : (setUvSince k neg t s).rd f i = s.rd f i := rfl

theorem setUvSince_state (t : Option Nat) (s : State) : dieState (setUvSince k neg t s) k = dieState s k := rfl

theorem setUvSince_only (t : Option Nat) {l : List Nat} (h : OnlyRegs { s with dies := u.dies } u l) :
    OnlyRegs { s with dies := (setUvSince k neg t u).dies } (setUvSince k neg t u) l := h.diesSetDie k _

theorem setUvSince_down (t : Option Nat) {j : Nat} (h : switchDown s j) : switchDown (setUvSince k neg t s) j := by
  refine switchDown_congr (s := s) (State.rd_setDie ..) (fun hs => ?_) h
  unfold setUvSince
  by_cases hj : j = k
  · subst hj
    rw [State.die_setDie_same]
    split
    · exact hs
    · exact hs
  · rw [State.die_setDie_ne _ _ _ hj]
    exact hs

/-- The registers that an undervoltage without a fault changes: DRV_STATUS alone. -/
theorem uvRaise_only : OnlyRegs s (s.raise (uvFlag neg) k) [fldAddr R.DRV_STATUS.GATE k 0] := by
  cases neg
  · exact OnlyRegs.raise s R.DRV_STATUS.UV_POS k
  · exact OnlyRegs.raise s R.DRV_STATUS.UV_NEG k

theorem switchDown_iff : switchDown s k ↔ s.rd R.DRV_STATUS.GATE k = 0 ∨ (s.die k).soft = true := by
  simp [switchDown, State.flag_eq]

/-- An undervoltage that is no fault: the supply bit, and for an unarmed VPOS the gate (R223, R241). -/
theorem UvSeen.noFault (h : UvSeen s k neg) (ho : gatesOverlap s (k / 2) = false)
    (hoff : supplyArmed s k = false ∨ s.flag R.DRV_STATUS.GATE k = false)
    (hs : supplyArmed s k = false ∨ uvSince s k neg = none) : ∃ t, supplyUndervoltage k neg s = t ∧
      t.rd (uvFlag neg) k = 1 ∧ OnlyRegs { s with dies := t.dies } t [fldAddr R.DRV_STATUS.GATE k 0] ∧
      dieState t k = dieState s k ∧ (neg = false → switchDown t k) ∧
      uvSince t k neg = (if supplyArmed s k then some s.now else none) := by
  have hraise := uvRaise_only (s := s) (k := k) (neg := neg)
  cases ha : supplyArmed s k with
  | true =>
    have hg : s.flag R.DRV_STATUS.GATE k = false := by simpa [ha] using hoff
    rw [if_pos rfl]
    exact ⟨_, h.starts ha hg (by simpa [ha] using hs), (setUvSince_rd ..).trans uvRaise_flag,
      setUvSince_only _ hraise.dies, (setUvSince_state ..).trans (uvRaise_state k),
      fun _ => setUvSince_down _ (.inl ((uvRaise_gate k).trans hg)), setUvSince_since ..⟩
  | false =>
    have ht := h.unarmed ha ho
    cases neg with
    | true =>
      rw [if_pos rfl] at ht
      rw [ht, if_neg (by decide)]
      exact ⟨_, rfl, (setUvSince_rd ..).trans (uvRaise_flag (neg := true)), setUvSince_only _ hraise.dies,
        (setUvSince_state ..).trans (uvRaise_state k), fun hn => absurd hn (by decide), setUvSince_since ..⟩
    | false =>
      rw [if_neg (by decide)] at ht
      rw [ht, if_neg (by decide)]
      have ho' : gatesOverlap (s.raise (uvFlag false) k) (k / 2) = false := by rwa [uvRaise_overlap]
      have hflag : (gateOff k (s.raise (uvFlag false) k)).rd (uvFlag false) k = 1 :=
        (gateOff_rd (f := uvFlag false) ho').trans (uvRaise_flag (neg := false))
      have hstate : dieState (gateOff k (s.raise (uvFlag false) k)) k = dieState s k :=
        (gateOff_rd ho').trans (uvRaise_state k)
      exact ⟨_, rfl, (setUvSince_rd ..).trans hflag, setUvSince_only _ (hraise.dies.diesTrans (gateOff_only ho')),
        (setUvSince_state ..).trans hstate, fun _ => setUvSince_down _ (gateOff_down k _), setUvSince_since ..⟩

end

end Sys2Proof.Machine
end
section
/-! O48: the end of a soft turn-off, the warning, the command timeout and the recovery of a supply; and the obligation. -/

namespace Sys2Proof.Machine

open Sys2Proof

section
variable {s : State} {k : Nat} {neg : Bool}

/-! ### A fault for each cause -/

theorem dieLinkLost_faults (hp : diePresent s k = true) :
    dieLinkLost k s = dieFault k 5 (s.setDie k { s.die k with linkLost := true }) := if_pos hp

theorem dieOverTemperature_faults (hp : diePresent s k = true) :
    dieOverTemperature k s = dieFault k 6 (s.setDie k { s.die k with hotAt := some s.now }) := if_pos hp

theorem stuckGate_faults (hp : diePresent s k = true) (hg : gateDiffers s k = true) :
    stuckGate k s = dieFault k 4 (s.countUp R.DRV_CNT.STUCK_CNT k) := if_pos ⟨hp, .inl hg⟩

theorem setDie_from (v : Die) (hs : dieState s k = 1) : FaultFrom s (s.setDie k v) k :=
  .of (Frame.refl s).setDie hs rfl

theorem stuckCounted_from (hs : dieState s k = 1) : FaultFrom s (s.countUp R.DRV_CNT.STUCK_CNT k) k :=
  .of (Frame.refl s).countUp (by rw [dieState, State.countUp_eq, rd_wr_apart]; exact hs)
    (by rw [State.countUp_eq, State.wr_bridges])

theorem stuckGate_idle (hg : gateDiffers s k = false) (hj : justFaulted s k = false) : stuckGate k s = s :=
  if_neg (by simp [hg, hj])

/-! ### The end of a soft turn-off -/

/-- A leg one of whose switches is off has no overlap. -/
theorem gatesOverlap_off (hg : s.flag R.DRV_STATUS.GATE (4 * (k / 2) + 1 - k) = false) : gatesOverlap s (k / 2) = false := by
  have hpair : 4 * (k / 2) + 1 - k = 2 * (k / 2) ∨ 4 * (k / 2) + 1 - k = 2 * (k / 2) + 1 := by omega
  rcases hpair with hpair | hpair
  · rw [hpair] at hg
    simp only [gatesOverlap, hg, Bool.and_false, Bool.false_and]
  · rw [hpair] at hg
    simp only [gatesOverlap, hg, Bool.and_false, Bool.false_and]

/-- The end of a soft turn-off is due, and noted in the die (R238). -/
def softEnded (k : Nat) (s : State) : State :=
  (reachTime ((s.die k).softAt + s.rd R.DRV_SC.SOFT_T k * 40) s).setDie k
    { s.die k with soft := false, softEnd := some (max s.now ((s.die k).softAt + s.rd R.DRV_SC.SOFT_T k * 40)) }

theorem softTurnOffEnd_eq (hk : k < 48) (hs : (s.die k).soft = true)
    (hg : s.flag R.DRV_STATUS.GATE (4 * (k / 2) + 1 - k) = false) : softTurnOffEnd k s = gateFell k (softEnded k s) := by
  have hc : ∀ t, crossCheck (k / 2) (reachTime t s) = reachTime t s := fun t =>
    crossCheck_none (gatesOverlap_off (s := reachTime t s) hg)
  rw [softTurnOffEnd, if_pos ⟨hk, hs⟩, hc]
  rfl

theorem softEnded_die : (softEnded k s).die k = { s.die k with
    soft := false, softEnd := some (max s.now ((s.die k).softAt + s.rd R.DRV_SC.SOFT_T k * 40)) } := State.die_setDie_same ..

theorem gateFell_now (k : Nat) (s : State) : (gateFell k s).now = s.now := ((Frame.refl s).gateFell (k := k)).now

/-! ### Warning, timeout and recovery -/

/-- The overcurrent warning shown, and noted for the on-interval (R240). -/
def warned (k : Nat) (s : State) : State :=
  let s1 := reachTime ((s.die k).onAt + s.rd R.DRV_SC.SC_BLANK k * 4 + s.rd R.DRV_OC.OC_FILT k * 4) s
  (s1.raise R.DRV_STATUS.OC_ACT k).setDie k { s1.die k with ocSeen := true }

theorem warned_ocAct : (warned k s).rd R.DRV_STATUS.OC_ACT k = 1 := by
  rw [warned, State.rd_setDie, State.raise_eq, State.rd_wr_same _ _ _ _ (by decide)]
  rfl

theorem warned_count : (warned k s).rd R.DRV_CNT.OC_CNT k = s.rd R.DRV_CNT.OC_CNT k := by
  rw [warned, State.rd_setDie, State.raise_eq, rd_wr_apart]
  rfl

theorem warned_state : dieState (warned k s) k = dieState s k := by
  rw [dieState, warned, State.rd_setDie, State.raise_eq, rd_wr_apart]
  rfl

theorem warned_now : (warned k s).now =
    max s.now ((s.die k).onAt + s.rd R.DRV_SC.SC_BLANK k * 4 + s.rd R.DRV_OC.OC_FILT k * 4) := by
  rw [warned, State.setDie_now, State.raise_eq, State.wr_now]
  rfl

theorem warned_bridges : (warned k s).bridges = s.bridges := by
  rw [warned, State.setDie_bridges, State.raise_eq, State.wr_bridges]
  rfl

theorem overcurrentWarning_eq (hp : diePresent s k = true) (hg : s.flag R.DRV_STATUS.GATE k = true)
    (ho : s.flag R.DRV_STATUS.OC_ACT k = false) : overcurrentWarning k s =
      if (s.die k).ocSeen then warned k s else (warned k s).countUp R.DRV_CNT.OC_CNT k := by
  rw [overcurrentWarning, if_neg (by simp [hp, hg, ho])]
  rfl

/-- A switch that is on warns, and counts the warning once in its on-interval (R237, R240). -/
theorem overcurrentWarning_shown (hp : diePresent s k = true) (hg : s.flag R.DRV_STATUS.GATE k = true)
    (ho : s.flag R.DRV_STATUS.OC_ACT k = false) : ∃ t, overcurrentWarning k s = t ∧ t.rd R.DRV_STATUS.OC_ACT k = 1 ∧
      t.now = max s.now ((s.die k).onAt + s.rd R.DRV_SC.SC_BLANK k * 4 + s.rd R.DRV_OC.OC_FILT k * 4) ∧
      t.rd R.DRV_CNT.OC_CNT k = (if (s.die k).ocSeen then s.rd R.DRV_CNT.OC_CNT k
        else min (2 ^ R.DRV_CNT.OC_CNT.width - 1) (s.rd R.DRV_CNT.OC_CNT k + 1)) ∧
      dieState t k = dieState s k ∧ t.bridges = s.bridges := by
  rw [overcurrentWarning_eq hp hg ho]
  cases (s.die k).ocSeen with
  | true => exact ⟨_, if_pos rfl, warned_ocAct, warned_now, warned_count.trans (if_pos rfl).symm, warned_state, warned_bridges⟩
  | false =>
    refine ⟨_, if_neg (by decide), ?_, ?_, ?_, ?_, ?_⟩
    · rw [State.countUp_eq, rd_wr_apart, warned_ocAct]
    · rw [State.countUp_eq, State.wr_now, warned_now]
    · rw [State.countUp_eq, State.rd_wr_same _ _ _ _ (by decide), warned_count, if_neg (by decide)]
      exact Nat.mod_eq_of_lt (lt_of_le_of_lt (Nat.min_le_left _ _) (by decide))
    · rw [dieState, State.countUp_eq, rd_wr_apart]
      exact warned_state
    · rw [State.countUp_eq, State.wr_bridges, warned_bridges]

theorem overcurrentWarning_idle (h : s.flag R.DRV_STATUS.GATE k = false ∨ s.flag R.DRV_STATUS.OC_ACT k = true) :
    overcurrentWarning k s = s := if_pos (.inr h)

theorem dieCommandTimeout_eq (hp : diePresent s k = true) (ho : gatesOverlap s (k / 2) = false) :
    dieCommandTimeout k s = gateOff k s := by
  rw [dieCommandTimeout, if_pos hp, crossCheck_none ho]

theorem zoneSupplyRecovery_eq (hp : diePresent s k = true) :
    zoneSupplyRecovery k neg s = setUvSince k neg none (s.clear (uvFlag neg) k) := if_pos hp

theorem uvClear_flag : (s.clear (uvFlag neg) k).rd (uvFlag neg) k = 0 := by
  cases neg
  · exact State.rd_wr_same _ _ _ _ (by decide)
  · exact State.rd_wr_same _ _ _ _ (by decide)

theorem uvClear_state : dieState (s.clear (uvFlag neg) k) k = dieState s k := by
  cases neg
  · exact rd_wr_apart s k 0 k 0
  · exact rd_wr_apart s k 0 k 0

theorem uvClear_only : OnlyRegs s (s.clear (uvFlag neg) k) [fldAddr R.DRV_STATUS.GATE k 0] := by
  cases neg
  · exact OnlyRegs.clear s R.DRV_STATUS.UV_POS k
  · exact OnlyRegs.clear s R.DRV_STATUS.UV_NEG k

/-! ### A die that is not there -/

theorem absent_idle (hs : dieState s k = 0) : shortCircuit k s = s ∧ dieLinkLost k s = s ∧ dieOverTemperature k s = s ∧
    stuckGate k s = s ∧ (∀ neg, supplyUndervoltage k neg s = s) ∧ overcurrentWarning k s = s ∧ dieCommandTimeout k s = s ∧
    ∀ neg, zoneSupplyRecovery k neg s = s := by
  have hp := diePresent_absent hs
  have hn : ¬ diePresent s k = true := by simp [hp]
  exact ⟨if_neg fun h => hn h.1, if_neg hn, if_neg hn, if_neg fun h => hn h.1, fun _ => if_pos (.inl hp), if_pos (.inl hp),
    if_neg hn, fun _ => if_neg hn⟩

end

end Sys2Proof.Machine
end
section
/-! O48: the obligation. -/

namespace Sys2Proof.Machine

open Sys2Proof

/-- Settles O48: each cause reaches `dieFault` on a state that `FaultFrom` describes; the other commands change DRV_STATUS alone. -/
theorem dieFaults : Obligations.DieFaults := by
  intro k s hk
  refine ⟨fun c n hs hc => ?_, fun hg hj => congrArg Host.Outcome.next (stuckGate_idle hg hj), fun hsoft hg => ?_,
    fun hp => ⟨fun hg ho => ?_, fun h => congrArg Host.Outcome.next (overcurrentWarning_idle h), fun ho => ?_,
      fun neg hv hj ho hoff => ⟨fun hs => ?_, fun t0 ha hs h1 => ?_⟩, fun neg => ?_⟩, fun hs c hc => ?_⟩
  · have hp := diePresent_of hk (show dieState s k ≠ 0 by omega)
    have hfresh : justFaulted s k = false := by simp [justFaulted, hs]
    rcases hc with ⟨rfl, rfl, hg, hsc⟩ | hc | ⟨rfl, rfl, hg⟩ | ⟨rfl, rfl, ha, hg⟩ | ⟨rfl, rfl, ha, hg, hv⟩
    · exact ⟨_, congrArg Host.Outcome.next (shortCircuit_faults hp hg hsc),
        (shortFound_from hs).faulted hk (by decide) fun _ => shortFound_gate hg⟩
    · simp only [List.mem_cons, Prod.mk.injEq, List.not_mem_nil, or_false] at hc
      rcases hc with ⟨rfl, rfl⟩ | ⟨rfl, rfl⟩
      · exact ⟨_, congrArg Host.Outcome.next (dieLinkLost_faults hp),
          (setDie_from _ hs).faulted hk (by decide) fun h1 => absurd h1 (by decide)⟩
      · exact ⟨_, congrArg Host.Outcome.next (dieOverTemperature_faults hp),
          (setDie_from _ hs).faulted hk (by decide) fun h1 => absurd h1 (by decide)⟩
    · exact ⟨_, congrArg Host.Outcome.next (stuckGate_faults hp hg),
        (stuckCounted_from hs).faulted hk (by decide) fun h1 => absurd h1 (by decide)⟩
    · have hu : UvSeen s k false := ⟨hp, fun h => absurd h (by decide), hfresh⟩
      exact ⟨_, congrArg Host.Outcome.next (hu.on ha hg),
        (uvRaise_from hs).faulted hk (n := 2) (by decide) fun h1 => absurd h1 (by decide)⟩
    · have hu : UvSeen s k true := ⟨hp, fun _ => hv, hfresh⟩
      exact ⟨_, congrArg Host.Outcome.next (hu.on ha hg),
        (uvRaise_from hs).faulted hk (n := 3) (by decide) fun h1 => absurd h1 (by decide)⟩
  · obtain ⟨off, fell, hdie⟩ := gateFell_die k (softEnded k s)
    rw [softEnded_die] at hdie
    refine ⟨_, congrArg Host.Outcome.next (softTurnOffEnd_eq hk hsoft hg), by rw [hdie], gateFell_gate .., gateFell_ocAct ..,
      gateFell_now .., ?_, gateFell_bridges ..⟩
    rw [hdie, gateFell_now]
    rfl
  · obtain ⟨t, ht, hact, hnow, hcnt, hstate, hbr⟩ := overcurrentWarning_shown hp hg ho
    exact ⟨t, congrArg Host.Outcome.next ht, hact, hnow, hcnt, hstate, hbr⟩
  · exact ⟨_, congrArg Host.Outcome.next (dieCommandTimeout_eq hp ho), switchDown_iff.1 (gateOff_down k s), gateOff_gate,
      gateOff_only ho, gateOff_rd ho⟩
  · have hu : UvSeen s k neg := ⟨hp, hv, hj⟩
    obtain ⟨t, ht, hflag, honly, hstate, hdown, hsince⟩ := hu.noFault ho hoff hs
    exact ⟨t, congrArg Host.Outcome.next ht, hflag, honly, hstate, fun hn => switchDown_iff.1 (hdown hn), hsince⟩
  · have hu : UvSeen s k neg := ⟨hp, hv, hj⟩
    have hg : s.flag R.DRV_STATUS.GATE k = false := by simpa [ha] using hoff
    have h2 : dieState (reachTime (t0 + s.rd R.DRV_SUP.UV_T k * 400) (s.raise (uvFlag neg) k)) k = 1 :=
      (uvRaise_state k).trans h1
    have hcause : uvCause neg < 8 := by cases neg <;> decide
    obtain ⟨hstate, hc, -⟩ := dieFault_recorded hk h2 hcause
    exact ⟨_, congrArg Host.Outcome.next (hu.ends ha hg hs), hstate, hc, (dieFault_calm h2).now⟩
  · exact ⟨_, congrArg Host.Outcome.next (zoneSupplyRecovery_eq hp), setUvSince_since .., (setUvSince_rd ..).trans uvClear_flag,
      setUvSince_only _ uvClear_only.dies, (setUvSince_state ..).trans uvClear_state⟩
  · obtain ⟨h1, h2, h3, h4, h5, h6, h7, h8⟩ := absent_idle hs
    simp only [List.mem_cons, List.not_mem_nil, or_false] at hc
    rcases hc with rfl | rfl | rfl | rfl | rfl | rfl | rfl | rfl | rfl
    · exact congrArg Host.Outcome.next h1
    · exact congrArg Host.Outcome.next h2
    · exact congrArg Host.Outcome.next h3
    · exact congrArg Host.Outcome.next h4
    · exact congrArg Host.Outcome.next (h5 false)
    · exact congrArg Host.Outcome.next (h5 true)
    · exact congrArg Host.Outcome.next h6
    · exact congrArg Host.Outcome.next h7
    · exact congrArg Host.Outcome.next (h8 false)

end Sys2Proof.Machine
end
section
/-! O5: the signal board in the register window (R56, R80). -/

namespace Sys2Proof.Machine

open Sys2Proof

/-! ### The addresses of the signals -/

/-- A register found at an address stands in the table, and the address is that of one of its instances. -/
theorem regFind_addr {a : Nat} {l : List RegDef} {r : RegDef} {i j : Nat} (h : regFind a l = some (r, i, j)) :
    r ∈ l ∧ i < r.count ∧ j < r.count2 ∧ a = r.base + i * r.stride + j * r.stride2 := by
  induction l with
  | nil => cases h
  | cons x t ih =>
    rw [regFind] at h
    by_cases hb : x.base ≤ a
    · rw [if_pos hb] at h
      dsimp only at h
      have hi : (if x.count ≤ 1 then 0 else (a - x.base) / x.stride) * x.stride ≤ a - x.base := by
        split
        · omega
        · exact Nat.div_mul_le_self _ _
      generalize (if x.count ≤ 1 then 0 else (a - x.base) / x.stride) = i' at h hi
      generalize (if x.count2 ≤ 1 then 0 else (a - x.base - i' * x.stride) / x.stride2) = j' at h
      split at h
      · next hc =>
        obtain ⟨rfl, rfl, rfl⟩ : x = r ∧ i' = i ∧ j' = j := by simpa using h
        exact ⟨List.mem_cons_self, hc.1, hc.2.1, by omega⟩
      · exact (ih h).imp_left (List.mem_cons_of_mem _)
    · rw [if_neg hb] at h
      exact (ih h).imp_left (List.mem_cons_of_mem _)

set_option maxRecDepth 4000 in
theorem regTable_offBoard : regTable.all (fun r => decide (
    r.base + (r.count - 1) * r.stride + (r.count2 - 1) * r.stride2 < 0x200000 ∨ 0x204000 ≤ r.base)) = true := by decide +kernel

/-- No register of the tables lies in the window of the signals (R7, R80). -/
theorem regAt_board {a : Nat} (h1 : 0x200000 ≤ a) (h2 : a < 0x204000) : regAt a = none := by
  cases hx : regAt a with
  | none => rfl
  | some x =>
    obtain ⟨r, i, j⟩ := x
    obtain ⟨hr, hi, hj, ha⟩ := regFind_addr hx
    have hoff := of_decide_eq_true (List.all_eq_true.1 regTable_offBoard r hr)
    have hi : i * r.stride ≤ (r.count - 1) * r.stride := Nat.mul_le_mul_right _ (by omega)
    have hj : j * r.stride2 ≤ (r.count2 - 1) * r.stride2 := Nat.mul_le_mul_right _ (by omega)
    omega

theorem winSignal_board {n : Nat} (hn : n < 4096) : winSignal (0x200000 + 4 * n) = some n := by
  rw [winSignal, if_pos (by omega), Nat.add_sub_cancel_left, Nat.mul_div_cancel_left _ (by decide)]

theorem regAt_signal {n : Nat} (hn : n < 4096) : regAt (0x200000 + 4 * n) = none := regAt_board (by omega) (by omega)

/-- The addresses of the signals from `i` on. -/
theorem winAddrs_board (i n : Nat) : winAddrs (0x200000 + 4 * i) n = (List.range n).map (fun k => 0x200000 + 4 * (i + k)) := by
  refine List.map_congr_left fun k _ => ?_
  omega

section
variable {i n : Nat}

theorem winShapeOk_board (h0 : 0 < n) (h1 : n ≤ 256) (hi : i + n ≤ 4096) : winShapeOk (0x200000 + 4 * i) n = true := by
  simp only [winShapeOk, Bool.and_eq_true, decide_eq_true_eq]
  omega

theorem winFault_board (hi : i + n ≤ 4096) : winFault (0x200000 + 4 * i) n = none := by
  rw [winFault, winAddrs_board, List.find?_eq_none]
  intro a ha
  obtain ⟨k, hk, rfl⟩ := List.mem_map.1 ha
  have hk : k < n := List.mem_range.1 hk
  simp only [winAddrOk, Bool.not_eq_true', Bool.not_eq_false, Bool.and_eq_true, decide_eq_true_eq]
  omega

theorem winSignals_board (hi : i + n ≤ 4096) :
    (winAddrs (0x200000 + 4 * i) n).filterMap winSignal = (List.range n).map (fun k => i + k) := by
  rw [winAddrs_board, List.filterMap_map, List.filterMap_congr (g := some ∘ fun k => i + k), List.filterMap_eq_map]
  intro k hk
  have hk : k < n := List.mem_range.1 hk
  exact winSignal_board (by omega)

theorem holdsWa_board (hi : i + n ≤ 4096) : (winAddrs (0x200000 + 4 * i) n).any holdsWa = false := by
  rw [winAddrs_board, List.any_eq_false]
  intro a ha
  obtain ⟨k, hk, rfl⟩ := List.mem_map.1 ha
  have hk : k < n := List.mem_range.1 hk
  rw [holdsWa, regAt_signal (by omega)]
  decide

end

/-! ### A read -/

/-- A read of signals returns their words and changes nothing (R80). -/
theorem readRegs_board {i n : Nat} (s : State) (hi : i + n ≤ 4096) : readRegs (winAddrs (0x200000 + 4 * i) n) s =
    ((List.range n).flatMap (fun k => le 4 (s.sigWord (i + k)).toNat), s) := by
  have hplain : ∀ a ∈ winAddrs (0x200000 + 4 * i) n, plainRead a = true := fun a ha => by
    rw [winAddrs_board] at ha
    obtain ⟨k, hk, rfl⟩ := List.mem_map.1 ha
    have hk : k < n := List.mem_range.1 hk
    rw [plainRead, winSignal_board (by omega)]
  have hview : ∀ k ∈ List.range n, le 4 (viewReg s (0x200000 + 4 * (i + k))).toNat = le 4 (s.sigWord (i + k)).toNat :=
    fun k hk => by
      have hk : k < n := List.mem_range.1 hk
      rw [viewReg, winSignal_board (by omega)]
  rw [readRegs_plain _ s hplain, winAddrs_board, List.flatMap_map, List.flatMap_congr hview]

theorem readWinBody_unsound {addr n : Nat} {s : State} (hs : winShapeOk addr n = true) (hf : winFault addr n = none)
    (hw : wordsSound s ((winAddrs addr n).filterMap winSignal) = false) :
    readWinBody addr n s = refuse stInternal (storeError .signalBoard s) := by
  simp only [readWinBody, hs, hf, hw, Bool.true_eq_false, Bool.false_eq_true, if_false]

/-! ### What the host port keeps through a reset -/

namespace Calm

variable {s t : State}

protected theorem setSlot {n : Nat} {img : Option (List Byte)} {ok : Bool} (h : Calm s t) : Calm s (setSlot n img ok t) :=
  .ite h.same.wr h.same.wr

protected theorem endRun {op obj result : Nat} (h : Calm s t) : Calm s (endRun op obj result t) :=
  h.trans (Aside.refl t).endRun.toCalm

protected theorem resetTraction (h : Calm s t) : Calm s (resetTraction t) :=
  (h.each fun _ _ h1 => h1.same).each fun _ _ h1 => h1.same

protected theorem restartAges (h : Calm s t) : Calm s (restartAges t) := .same (h.each fun _ _ h1 => h1.same)

/-- What Level 2 returns leaves the host port as it is (R399). -/
protected theorem controlParts (h : Calm s t) : Calm s (controlParts t) := by
  unfold controlParts
  extract_lets u1 u2 _ _ _ _ _ u3
  have h1 : Calm s u1 := Calm.resetTraction h.same
  have h2 : Calm s u2 := by
    unfold u2
    split
    · exact h1.setSlot
    · exact h1
  have h3 : Calm s u3 := (h2.same.each (fun _ _ h4 => h4.setBr)).each fun _ _ h4 => h4.same
  exact h3.wr.wr

protected theorem endControlRuns (h : Calm s t) : Calm s (endControlRuns t) := by
  unfold endControlRuns
  extract_lets u1
  have h1 : Calm s u1 := h.each fun v n h2 => h2.trans (endAverage_frame n 7 v).toCalm
  exact .endRun (.ite h1.endRun h1)

end Calm

section
variable (s : State)

/-- What Levels 0 and 1 return leaves no reply held back. -/
theorem systemParts_held (l n : Nat) : (systemParts l n s).host.heldMask = 0 := by
  unfold systemParts
  extract_lets t u1 _ _ _ _ _ _ u2
  exact (Calm.each (f := fun s b => s.setBr b { modeAt := t }) (.refl u2) fun _ _ h => h.setBr).held rfl

/-- A reset holds no reply back. -/
theorem levelReset_held (l n : Nat) (h0 : s.host.heldMask = 0) : (levelReset l n s).host.heldMask = 0 := by
  have hseal : Calm s (s.each (List.range 4) fun s b => sealBridge b { reason := 0, pull := false } s) :=
    (Calm.refl s).eachMem fun _ _ hb h => h.sealBridge (List.mem_range.1 hb)
  unfold levelReset
  extract_lets u1 u2 u3 u4
  have h1 : Calm s u1 := hseal.each fun _ _ h => h.same
  have h2 : Calm s u2 := .ite h1.endControlRuns h1
  have h3 : Calm s u3 := h2.same
  have h4 : (if l = 2 then controlParts u3 else systemParts l n u3).host.heldMask = 0 := by
    split
    · exact h3.controlParts.held h0
    · exact systemParts_held u3 l n
  exact Calm.held (.same (.wr (Calm.refl _).restartAges)) h4

theorem takeReset_held (n l : Nat) (h0 : s.host.heldMask = 0) : (takeReset n l s).host.heldMask = 0 := by
  unfold takeReset
  split
  · exact levelReset_held s l n h0
  · split
    · rfl
    · exact h0

theorem recordSource_calm (n l : Nat) : Calm s (recordSource n l s) := by
  unfold recordSource
  extract_lets u1 u2
  have h1 : Calm s u1 := (Calm.refl s).raiseBit
  have h2 : Calm s u2 := by
    unfold u2
    split
    · exact h1.countUp
    · exact h1.countUp
    · exact h1.countUp
    · exact h1.countUp
    · exact h1
  exact h2.same

theorem assertSource_held (n l : Nat) (h0 : s.host.heldMask = 0) : (assertSource n l s).host.heldMask = 0 := by
  unfold assertSource
  split
  · exact h0
  · refine (recordSource_calm _ n l).held ?_
    split
    · exact h0
    · exact takeReset_held s n l h0

/-- An uncorrectable error holds no reply back (R56, R402). -/
theorem storeError_held (x : CriticalStore) (h0 : s.host.heldMask = 0) : (storeError x s).host.heldMask = 0 := by
  have h1 := assertSource_held s (storeSource x) (actLevel s (storeSource x)) h0
  unfold storeError
  split
  · exact h1
  · exact h1

end

/-- A READ_WIN that meets a word of odd parity ends with INTERNAL where its reset leaves the port serving (R56). -/
theorem readWin_unsound {h : Hdr} {addr n : Nat} {s : State} (hr : cmdReady (.readWin h addr n) s = true)
    (hs : winShapeOk addr n = true) (hf : winFault addr n = none)
    (hw : wordsSound s ((winAddrs addr n).filterMap winSignal) = false)
    (hserve : (storeError .signalBoard s).host.serving = true) : exec (.readWin h addr n) s =
      .next (answer (.readWin h addr n) stInternal []
        (refusedBy (.readWin h addr n) stInternal (storeError .signalBoard s))) := by
  have h0 : s.host.heldMask = 0 := ready_held s h 0x0401 _ hr
  rw [exec_readWin, readWin, acceptCmd_refused (.readWin h addr n) h 0x0401 _ _ s rfl hr stInternal _
    (readWinBody_unsound hs hf hw) ((storeError_held s _ h0).trans h0.symm)
    (hserve.trans (ready_serving s h 0x0401 _ hr).symm)]

/-! ### The word of a signal -/

/-- A signal just written reads back its value and its number (R51, R52). -/
theorem sigOf_word {v q : Nat} (hv : v < 65536) (hq : q < 256) :
    sigOf (Sig.word ⟨v, q, 0, false, false⟩) = ⟨v, q, 0, false, false⟩ := by
  have hw : ∀ p, p < 2 → (BitVec.ofNat 32 (v + 65536 * q + 2147483648 * p)).toNat = v + 65536 * q + 2147483648 * p :=
    fun p hp => by
      rw [BitVec.toNat_ofNat]
      exact Nat.mod_eq_of_lt (by omega)
  have hlow : Sig.low ⟨v, q, 0, false, false⟩ = v + 65536 * q := by
    simp only [Sig.low, b2n, Nat.mod_eq_of_lt hv, Nat.mod_eq_of_lt hq]
    rfl
  have hp : popCount 31 (v + 65536 * q) % 2 < 2 := Nat.mod_lt _ (by decide)
  rw [sigOf, Sig.word, hlow, hw _ hp]
  generalize popCount 31 (v + 65536 * q) % 2 = p at hp
  simp only [bitsOf, bitAt, Nat.shiftRight_eq_div_pow, Nat.testBit_eq_decide_div_mod_eq, Sig.mk.injEq, decide_eq_false_iff_not]
  omega

section
variable (s : State)

@[simp] theorem sigWord_setSig_same (i : Nat) (g : Sig) : (s.setSig i g).sigWord i = g.word := by
  simp only [State.sigWord, State.setSig, sget_sput_same]

theorem sigWord_setSig_ne {i j : Nat} (g : Sig) (hj : j ≠ i) : (s.setSig i g).sigWord j = s.sigWord j := by
  simp only [State.sigWord, State.setSig, sget_sput_ne _ _ _ hj]

@[simp] theorem agedAt_stamp_same (i : Nat) : (s.stamp i).agedAt i = s.now := by
  simp only [State.agedAt, State.stamp, sget_sput_same]

theorem agedAt_stamp_ne {i j : Nat} (hj : j ≠ i) : (s.stamp i).agedAt j = s.agedAt j := by
  simp only [State.agedAt, State.stamp, sget_sput_ne _ _ _ hj]

/-! ### A write of a host signal -/

/-- The fields of a signal that its writer has written without SAT and TAINT (R52, R80). -/
theorem sig_storeSignal_same (i : Nat) (w : Word) :
    (storeSignal i w s).sig i = ⟨w.toNat % 65536, ((s.sig i).seq + 1) % 256, 0, false, false⟩ := by
  have h : (storeSignal i w s).sigWord i =
      Sig.word ⟨w.toNat % 65536 % 65536, ((s.sig i).seq + 1) % 256, 0, false, false⟩ := sigWord_setSig_same s i _
  rw [State.sig, h, Nat.mod_mod, sigOf_word (Nat.mod_lt _ (by decide)) (Nat.mod_lt _ (by decide))]

theorem sigWord_storeSignal_ne {i j : Nat} (w : Word) (hj : j ≠ i) : (storeSignal i w s).sigWord j = s.sigWord j :=
  sigWord_setSig_ne s _ hj

theorem agedAt_storeSignal_same (i : Nat) (w : Word) : (storeSignal i w s).agedAt i = s.now := agedAt_stamp_same _ i

theorem agedAt_storeSignal_ne {i j : Nat} (w : Word) (hj : j ≠ i) : (storeSignal i w s).agedAt j = s.agedAt j :=
  agedAt_stamp_ne _ hj

end

/-- The values `vs` written to the signals from `i` on (R80). -/
def storeSignals : Nat → List Word → State → State
  | _, [], s => s
  | i, w :: vs, s => storeSignals (i + 1) vs (storeSignal i w s)

/-- The board and the ages alone change. -/
theorem storeSignals_eq (i : Nat) (vs : List Word) (s : State) :
    storeSignals i vs s = { s with board := (storeSignals i vs s).board, aged := (storeSignals i vs s).aged } := by
  induction vs generalizing i s with
  | nil => rfl
  | cons w vs ih =>
    rw [storeSignals, ih]
    rfl

/-- A signal outside the range stays, and so does its age. -/
theorem storeSignals_outside {i n : Nat} {vs : List Word} (s : State) (hn : n < i ∨ i + vs.length ≤ n) :
    (storeSignals i vs s).sigWord n = s.sigWord n ∧ (storeSignals i vs s).agedAt n = s.agedAt n := by
  induction vs generalizing i s with
  | nil => exact ⟨rfl, rfl⟩
  | cons w vs ih =>
    rw [List.length_cons] at hn
    obtain ⟨h1, h2⟩ := ih (i := i + 1) (storeSignal i w s) (by omega)
    exact ⟨h1.trans (sigWord_storeSignal_ne s w (by omega)), h2.trans (agedAt_storeSignal_ne s w (by omega))⟩

/-- A signal within the range is written once. -/
theorem storeSignals_inside {i k : Nat} {vs : List Word} (s : State) (hk : k < vs.length) :
    (storeSignals i vs s).agedAt (i + k) = s.now ∧ (storeSignals i vs s).sig (i + k) =
      ⟨(vs.getD k 0).toNat % 65536, ((s.sig (i + k)).seq + 1) % 256, 0, false, false⟩ := by
  induction vs generalizing i k s with
  | nil => cases hk
  | cons w vs ih =>
    cases k with
    | zero =>
      obtain ⟨h1, h2⟩ := storeSignals_outside (i := i + 1) (n := i) (vs := vs) (storeSignal i w s) (.inl (by omega))
      refine ⟨h2.trans (agedAt_storeSignal_same s i w), ?_⟩
      rw [State.sig, Nat.add_zero, storeSignals, h1]
      exact sig_storeSignal_same s i w
    | succ k =>
      obtain ⟨h1, h2⟩ := ih (i := i + 1) (k := k) (storeSignal i w s) (by simpa using hk)
      rw [Nat.add_right_comm] at h1 h2
      refine ⟨h1, h2.trans ?_⟩
      rw [State.sig, sigWord_storeSignal_ne s w (by omega)]
      rfl

/-! ### A range of signals -/

theorem winAddrs_succ (a n : Nat) : winAddrs a (n + 1) = a :: winAddrs (a + 4) n := by
  simp only [winAddrs, List.range_succ_eq_map, List.map_cons, List.map_map, Nat.mul_zero, Nat.add_zero, List.cons.injEq,
    true_and]
  exact List.map_congr_left fun k _ => by simp only [Function.comp, Nat.succ_eq_add_one]; omega

/-- The registers and values of a write of the signals from `i` on. -/
def boardWrites (i : Nat) (vs : List Word) : List (Nat × Word) := (winAddrs (0x200000 + 4 * i) vs.length).zip vs

theorem boardWrites_eq (i : Nat) (vs : List Word) : (winAddrs (0x200000 + 4 * i) vs.length).zip vs = boardWrites i vs := rfl

theorem boardWrites_cons (i : Nat) (w : Word) (vs : List Word) :
    boardWrites i (w :: vs) = (0x200000 + 4 * i, w) :: boardWrites (i + 1) vs := by
  rw [boardWrites, List.length_cons, winAddrs_succ, List.zip_cons_cons, boardWrites, Nat.mul_succ, Nat.add_assoc]

section
variable {i : Nat} {vs : List Word}

/-- A range of signals is stored signal by signal. -/
theorem foldl_storeWord_board (s : State) (hi : i + vs.length ≤ 4096) :
    (boardWrites i vs).foldl (fun t e => storeWord e.1 e.2 t) s = storeSignals i vs s := by
  induction vs generalizing i s with
  | nil => rfl
  | cons w vs ih =>
    rw [List.length_cons] at hi
    have hstore : storeWord (0x200000 + 4 * i) w s = storeSignal i w s := by rw [storeWord, winSignal_board (by omega)]
    rw [boardWrites_cons, List.foldl_cons, hstore, ih _ (by omega), storeSignals]

/-- Nothing follows from a write of signals but their values. -/
theorem foldl_actWord_board (s0 s : State) (hi : i + vs.length ≤ 4096) :
    (boardWrites i vs).foldl (fun t e => actWord s0 e.1 e.2 t) s = s := by
  induction vs generalizing i s with
  | nil => rfl
  | cons w vs ih =>
    rw [List.length_cons] at hi
    have hact : actWord s0 (0x200000 + 4 * i) w s = s := by rw [actWord, winSignal_board (by omega)]
    rw [boardWrites_cons, List.foldl_cons, hact, ih _ (by omega)]

/-- Check 4 of a signal: it is a host signal (R80). -/
theorem checkWord_signal {n : Nat} (hn : n < 4096) (s s' : State) (w : Word) : checkWord s s' (0x200000 + 4 * n) w =
    if 0x140 ≤ n ∧ n ≤ 0x1BF then stDone else stBadParam := by
  rw [checkWord, winSignal_board hn]
  simp only [need, decide_eq_true_eq]

theorem firstRefused_host (s s' : State) (hlo : 0x140 ≤ i) (hhi : i + vs.length ≤ 0x1C0) :
    firstRefused s s' (boardWrites i vs) = none := by
  induction vs generalizing i with
  | nil => rfl
  | cons w vs ih =>
    rw [List.length_cons] at hhi
    have hhost : 0x140 ≤ i ∧ i ≤ 0x1BF := by omega
    rw [boardWrites_cons, firstRefused, checkWord_signal (by omega), if_pos hhost, if_pos rfl]
    exact ih (by omega) (by omega)

/-- A range that covers a signal other than a host signal is refused at one of its words. -/
theorem firstRefused_other (s s' : State) (hi : i + vs.length ≤ 4096) {k : Nat} (hk : k < vs.length)
    (ho : ¬ (0x140 ≤ i + k ∧ i + k ≤ 0x1BF)) : ∃ a, firstRefused s s' (boardWrites i vs) = some (a, stBadParam) := by
  induction vs generalizing i k with
  | nil => cases hk
  | cons w vs ih =>
    rw [List.length_cons] at hi hk
    rw [boardWrites_cons, firstRefused, checkWord_signal (by omega)]
    by_cases hhost : 0x140 ≤ i ∧ i ≤ 0x1BF
    · rw [if_pos hhost, if_pos rfl]
      have hk0 : k ≠ 0 := by
        rintro rfl
        exact ho hhost
      exact ih (i := i + 1) (k := k - 1) (by omega) (by omega) (by omega)
    · rw [if_neg hhost, if_neg (by decide)]
      exact ⟨_, rfl⟩

variable {h : Hdr} {s : State}

/-- A taken write of host signals alone writes them. -/
theorem writeWin_host {c : Instr} (hc : hostRow c = some (h, 0x0402, writeParams (0x200000 + 4 * i) vs))
    (hr : cmdReady c s = true) (hne : vs ≠ []) (hlo : 0x140 ≤ i) (hhi : i + vs.length ≤ 0x1C0) :
    writeWin h (0x200000 + 4 * i) vs s = answer c stDone [] (storeSignals i vs s) := by
  have hi : i + vs.length ≤ 4096 := by omega
  have h0 : 0 < vs.length := List.length_pos_iff.2 hne
  have hbody : writeWinBody h (0x200000 + 4 * i) vs s = ⟨stDone, [], none, storeSignals i vs s⟩ := by
    have hall : writeAll (boardWrites i vs) s = storeSignals i vs s := by
      rw [writeAll, foldl_storeWord_board s hi, foldl_actWord_board _ _ hi]
    simp only [writeWinBody, winShapeOk_board h0 (by omega) hi, winFault_board hi, holdsWa_board hi, Bool.true_eq_false,
      Bool.false_eq_true, if_false, boardWrites_eq, writeChecked, firstRefused_host _ _ hlo hhi, hall, done, doneWith]
  have hhost : (storeSignals i vs s).host = s.host := by rw [storeSignals_eq]
  exact acceptCmd_answer c h 0x0402 _ _ s hc hr stDone [] _ hbody (.inl rfl) (by rw [hhost]) (by rw [hhost])

/-- A taken WRITE_WIN of signals that covers one other than a host signal is refused. -/
theorem writeWin_other (hr : cmdReady (.writeWin h (0x200000 + 4 * i) vs) s = true) (h1 : vs.length ≤ 256)
    (hi : i + vs.length ≤ 4096) {k : Nat} (hk : k < vs.length) (ho : ¬ (0x140 ≤ i + k ∧ i + k ≤ 0x1BF)) :
    ∃ a, exec (.writeWin h (0x200000 + 4 * i) vs) s = .next (answer (.writeWin h (0x200000 + 4 * i) vs) stBadParam []
      (refusedBy (.writeWin h (0x200000 + 4 * i) vs) stBadParam (s.wr R.VG_ERR_ADDR.ADDR 0 a))) := by
  obtain ⟨a, ha⟩ := firstRefused_other s ((boardWrites i vs).foldl (fun t e => storeWord e.1 e.2 t) s) hi hk ho
  exact ⟨a, writeWin_refused hr (writeWinBody_firstRefused (winShapeOk_board (by omega) h1 hi) (winFault_board hi)
    (holdsWa_board hi) ha) (State.wr_host s _ _ _)⟩

end

/-- Settles O5: the words read one by one, the reset of a word of odd parity, and a write judged signal by signal. -/
theorem signalWindowReadsAndWrites : Obligations.SignalWindowReadsAndWrites := by
  intro h i s
  refine ⟨fun n hr h0 h1 hi => ⟨fun hw => ?_, fun hw hserve => ?_⟩, fun vs hr hne h1 hi => ⟨fun hlo hhi => ?_, fun ho => ?_⟩⟩
  · rw [← winSignals_board hi] at hw
    exact readWin_done hr (winShapeOk_board h0 h1 hi) (winFault_board hi) hw (readRegs_board s hi) rfl
  · rw [← winSignals_board hi] at hw
    exact readWin_unsound hr (winShapeOk_board h0 h1 hi) (winFault_board hi) hw hserve
  · exact ⟨_, congrArg Host.Outcome.next (writeWin_host rfl hr hne hlo hhi), storeSignals_eq i vs s,
      fun n hn => storeSignals_outside s hn, fun k hk => storeSignals_inside s hk⟩
  · have h0 : 0 < vs.length := List.length_pos_iff.2 hne
    have hother : ∃ k < vs.length, ¬ (0x140 ≤ i + k ∧ i + k ≤ 0x1BF) := by
      rcases ho with ho | ho
      · exact ⟨0, h0, by omega⟩
      · exact ⟨vs.length - 1, by omega, by omega⟩
    obtain ⟨k, hk, hout⟩ := hother
    obtain ⟨a, ha⟩ := writeWin_other hr h1 hi hk hout
    exact ⟨_, ha, OnlyRegs.wr s R.VG_ERR_ADDR.ADDR 0 a⟩

end Sys2Proof.Machine
end
section
/-! O29: GRAPH_BEGIN and GRAPH_DATA fill the staging buffer (R71, R72). -/

namespace Sys2Proof.Machine

open Sys2Proof

/-- What GRAPH_BEGIN leaves: the declared length, an empty buffer, STATE 1 and FILL 0. -/
def stagingBegun (n : Nat) (s : State) : State :=
  (State.wr { s with graphs := { s.graphs with declared := n, staged := [] } } R.GR_STAGE.STATE 0 1).wr R.GR_FILL.FILL 0 0

/-- What GRAPH_DATA leaves: the data appended and counted by FILL. -/
def stagingFilled (d : List Byte) (s : State) : State :=
  State.wr { s with graphs := { s.graphs with staged := s.graphs.staged ++ d } } R.GR_FILL.FILL 0
    (s.graphs.staged.length + d.length)

section
variable (n : Nat) (d : List Byte) (s : State)

theorem stagingBegun_state : stageState (stagingBegun n s) = 1 := by
  rw [stageState, stagingBegun, rd_wr_apart, State.rd_wr_same _ _ _ _ (by decide)]
  rfl

theorem stagingBegun_fill : (stagingBegun n s).rd R.GR_FILL.FILL = 0 := by
  rw [stagingBegun, State.rd_wr_same _ _ _ _ (by decide), Nat.zero_mod]

theorem stagingBegun_onlyRegs :
    OnlyRegs { s with graphs := (stagingBegun n s).graphs } (stagingBegun n s) [A.GR_STAGE, A.GR_FILL] :=
  (OnlyRegs.wr _ R.GR_STAGE.STATE 0 1).trans (OnlyRegs.wr _ R.GR_FILL.FILL 0 0)

theorem stagingFilled_state : stageState (stagingFilled d s) = stageState s := by
  rw [stageState, stagingFilled, rd_wr_apart]
  rfl

theorem stagingFilled_fill (hw : s.graphs.staged.length + d.length < 2 ^ R.GR_FILL.FILL.width) :
    (stagingFilled d s).rd R.GR_FILL.FILL = s.graphs.staged.length + d.length := by
  rw [stagingFilled, State.rd_wr_same _ _ _ _ (by decide), Nat.mod_eq_of_lt hw]

theorem stagingFilled_onlyRegs : OnlyRegs { s with graphs := (stagingFilled d s).graphs } (stagingFilled d s) [A.GR_FILL] :=
  OnlyRegs.wr _ R.GR_FILL.FILL 0 _

end

section
variable {n o : Nat} {d : List Byte} {s : State}

theorem graphBeginBody_done (h1 : 216 ≤ n) (h2 : n ≤ 524288) (h5 : stageState s ≠ 5) :
    graphBeginBody n s = ⟨stDone, [], none, stagingBegun n s⟩ := by
  rw [graphBeginBody, if_neg (by omega), if_neg h5]
  rfl

theorem graphDataBody_done (h1 : stageState s = 1) (ho : o = s.graphs.staged.length)
    (hd : o + d.length ≤ s.graphs.declared) : graphDataBody o d s = ⟨stDone, [], none,
      if o + d.length = s.graphs.declared then (stagingFilled d s).wr R.GR_STAGE.STATE 0 2 else stagingFilled d s⟩ := by
  subst ho
  rw [graphDataBody, h1, if_neg (by decide), if_neg (by decide), if_neg (by omega)]
  rfl

theorem graphDataBody_offset (h1 : stageState s = 1) (ho : o ≠ s.graphs.staged.length) :
    graphDataBody o d s = refuse stBadParam s := by
  rw [graphDataBody, h1, if_neg (by decide), if_neg (by decide), if_pos (.inl ho)]

end

/-- Settles O29: each body in its branch, answered. -/
theorem graphStaging : Obligations.GraphStaging := by
  intro h s
  refine ⟨fun n hr h1 h2 h5 => ?_, fun o d hr h1 ho hd hw => ?_, fun o d hr h1 ho => ?_⟩
  · exact ⟨stagingBegun n s, congrArg Host.Outcome.next (acceptCmd_answer (.graphBegin h n) h 0x0301 _ _ s rfl hr stDone []
      _ (graphBeginBody_done h1 h2 h5) (.inl rfl) rfl rfl), rfl, stagingBegun_state n s, stagingBegun_fill n s,
      stagingBegun_onlyRegs n s⟩
  · have hbody := graphDataBody_done h1 ho hd
    subst ho
    have hfill := stagingFilled_fill d s hw
    by_cases hfull : s.graphs.staged.length + d.length = s.graphs.declared
    · rw [if_pos hfull] at hbody ⊢
      refine ⟨_, congrArg Host.Outcome.next (acceptCmd_answer (.graphData h _ d) h 0x0302 _ _ s rfl hr stDone [] _ hbody
        (.inl rfl) rfl rfl), rfl, ?_, ?_, ?_⟩
      · rw [rd_wr_apart, hfill]
      · rw [stageState, State.rd_wr_same _ _ _ _ (by decide)]
        rfl
      · exact ((stagingFilled_onlyRegs d s).trans (OnlyRegs.wr _ R.GR_STAGE.STATE 0 2)).mono (by decide)
    · rw [if_neg hfull] at hbody ⊢
      exact ⟨_, congrArg Host.Outcome.next (acceptCmd_answer (.graphData h _ d) h 0x0302 _ _ s rfl hr stDone [] _ hbody
        (.inl rfl) rfl rfl), rfl, hfill, (stagingFilled_state d s).trans h1, (stagingFilled_onlyRegs d s).mono (by decide)⟩
  · exact congrArg Host.Outcome.next (acceptCmd_refused (.graphData h o d) h 0x0302 _ _ s rfl hr stBadParam s
      (graphDataBody_offset h1 ho) rfl rfl)

end Sys2Proof.Machine
end
section
/-! O59, O60 and O32: three statements that fail, each with the state that refutes it. -/

namespace Sys2Proof.Machine

open Sys2Proof

/-! ### A sample that meets a word of odd parity -/

/-- Stream 0 samples signal 0x140, whose word has odd parity, and the fuse map gives the signal board's source Level 1 in
place of its default Level 2 (R402, R403). -/
def oddSample : State :=
  { board := [(0x140, 1)],
    bg := { streams := [(0, { set := true, period := 1, sigs := [0x140], on_ := true })] },
    rst := { owed := none, map := [(1, 3 * 2 ^ 21)] } }

/-- A reset of Level 1 ends the streams: the sample leaves a stream that does not run. -/
theorem oddSample_stops : actLevel oddSample 17 = 1 ∧ (stream (tlmSample 0 oddSample) 0).on_ = false := by decide +kernel

/-- Refutes O59: a sample that meets a word of odd parity asserts reset source 17, and where the fuse map makes that a reset of
Level 0 or 1 the stream is gone and nothing counts (R402, R460), while the clause on the instant and the count is stated
of sound and unsound words alike. `oddSample` is such a state. -/
theorem not_telemetryStreams : ¬ Obligations.TelemetryStreams := by
  intro hall
  obtain ⟨-, -, -, hsample⟩ := hall ⟨false, 0, none⟩ oddSample
  obtain ⟨-, hcounts, -⟩ := hsample 0 (by decide)
  obtain ⟨t, hexec, -, hstream⟩ := hcounts (by decide +kernel) (by decide +kernel)
  have ht : tlmSample 0 oddSample = t := Host.Outcome.next.inj hexec
  have hon : (stream t 0).on_ = true := by
    rw [hstream]
    decide +kernel
  rw [← ht, oddSample_stops.2] at hon
  cases hon

/-! ### A flush into an overfull ring -/

/-- One entry waits for a ring of the event log whose `used` is a sector more than the ring holds. -/
def overfullLog : State :=
  { log := { buf := [⟨0, 0, 1, 0, 0, []⟩], flash := List.replicate 129 ⟨0, 0, 1, 0, 0, []⟩ },
    bg := { rings := [(2, ⟨0, 4194304 + 4096⟩)] },
    rst := { owed := none } }

/-- Room for the entry takes two erases, which drop all 129 entries. -/
theorem overfullLog_flushed : (eventLogFlush true overfullLog).log.flash.length = 1 := by decide +kernel

/-- Refutes O60: its last clause bounds the erased bytes of the event log's ring from above alone, so that it speaks of a ring
whose count of bytes runs past its size too; there a flush erases two sectors and drops 256 entries, not 128.
`overfullLog` is such a state. -/
theorem not_backgroundFinds : ¬ Obligations.BackgroundFinds := by
  intro hall
  obtain ⟨-, -, -, -, -, hflush⟩ := hall
  obtain ⟨-, -, -, hfull⟩ := hflush overfullLog
  obtain ⟨t, hexec, -, hflash⟩ := hfull ⟨0, 0, 1, 0, 0, []⟩ (by decide +kernel) (by decide +kernel) rfl (by decide +kernel)
    (by decide +kernel) (by decide +kernel)
  have ht : eventLogFlush true overfullLog = t := Host.Outcome.next.inj hexec
  have hlen : t.log.flash.length = 2 := by
    rw [hflash]
    rfl
  rw [← ht, overfullLog_flushed] at hlen
  cases hlen

/-! ### A verification that finds a copy that differs -/

section
variable {s : State}

/-- What is found of an ACTIVE engine is held by its bridge. -/
theorem engineBad_active {e i cause : Nat} {st : Bool} (h1 : s.rd R.EN_STATUS.STATE e = 1) :
    ∃ bridges, engineBad e i st cause s = { s with bridges := bridges } := by
  unfold engineBad
  extract_lets b
  split
  · exact ⟨_, rfl⟩
  · rw [if_pos h1]
    exact ⟨_, rfl⟩

theorem findErrors_bridges (b : Nat) : ∃ bridges, findErrors b s = { s with bridges := bridges } := by
  unfold findErrors
  split
  · exact ⟨_, rfl⟩
  · refine State.each_ind (fun u => ∃ bridges, u = { s with bridges := bridges }) _ (fun u e hu => ?_) _ _ ⟨_, rfl⟩
    obtain ⟨bridges, rfl⟩ := hu
    split
    · exact ⟨_, rfl⟩
    · exact ⟨_, rfl⟩

/-- A verification that finds one engine's copy in difference, and image RAM sound, changes the bridges alone (R77). -/
theorem verifyGraph_bridges {b e : Nat} {r : RamGraph} {p : Placed} (hr : (s.br b).ram = some r) (hi : imageOk s b = true)
    (hp : (s.br b).placed = some p) (hd : ramDiffers r = false) (hb : badEngines p r = [e])
    (h1 : s.rd R.EN_STATUS.STATE e = 1) : ∃ bridges, (verifyGraph b s).2 = { s with bridges := bridges } := by
  have hstep : (verifyGraph b s).2 = findErrors b (engineBad e 0xFFFF false 4 s) := by
    simp only [verifyGraph, hr, hi, hp, hd, hb, Bool.true_eq_false, Bool.false_eq_true, if_false, State.each, List.foldl_cons,
      List.foldl_nil]
  obtain ⟨bridges, hbad⟩ := engineBad_active (e := e) (i := 0xFFFF) (cause := 4) (st := false) h1
  obtain ⟨found, hfound⟩ := findErrors_bridges (s := { s with bridges := bridges }) b
  exact ⟨found, by rw [hstep, hbad, hfound]⟩

theorem exec_graphVerify (h : Hdr) (b : Nat) :
    exec (.graphVerify h b) s = .next (acceptCmd h 0x0309 (le 1 b) (graphVerifyBody b) s) := rfl

theorem answer_regs (c : Instr) (st : Nat) (data : List Byte) (t : State) : (answer c st data t).regs = t.regs := by
  unfold answer
  split
  · exact sendReply_regs _ _ _ t
  · rfl

/-- So does the command: whatever state its answer is given in, the registers are those from before. -/
theorem graphVerify_regs {h : Hdr} {b e st : Nat} {data : List Byte} {r : RamGraph} {p : Placed} {t : State}
    (hready : cmdReady (.graphVerify h b) s = true) (hlt : b < 4) (hr : (s.br b).ram = some r) (hi : imageOk s b = true)
    (hp : (s.br b).placed = some p) (hd : ramDiffers r = false) (hb : badEngines p r = [e])
    (h1 : s.rd R.EN_STATUS.STATE e = 1) (hexec : exec (.graphVerify h b) s = .next (answer (.graphVerify h b) st data t)) :
    t.regs = s.regs := by
  obtain ⟨bridges, hverify⟩ := verifyGraph_bridges hr hi hp hd hb h1
  have hbody : graphVerifyBody b s = ⟨stDone, le 1 (verifyGraph b s).1, none, { s with bridges := bridges }⟩ := by
    rw [graphVerifyBody, if_neg (by omega), hi, if_neg (by decide), hverify, doneWith]
  rw [exec_graphVerify, acceptCmd_answer (.graphVerify h b) h 0x0309 _ _ s rfl hready stDone _ _ hbody (.inl rfl) rfl rfl] at hexec
  have hregs := congrArg State.regs (Host.Outcome.next.inj hexec)
  rw [answer_regs, answer_regs] at hregs
  exact hregs.symm

end

/-- A placed graph of one block, on engine 1, whose copy there has changed unseen. -/
def changedCopy : Placed :=
  { graph := { parseGraph [] with blocks := [⟨0, 0, 0, 0, 0, 0, 0, 0, 0, 0, 0, [], []⟩] },
    engines := [1], phases := [0], states := [[]], lastRun := [none], differs := [(0, 1)] }

/-- Image RAM that agrees with its digest. -/
def soundRam : RamGraph := { bytes := [], gdig := graphDigest [], sdig := [] }

/-- Bridge 0 with that graph and that image RAM, engine 1 ACTIVE for it, and the interpreter serving. -/
def verifying : State :=
  let s : State := { bridges := [(0, { ram := some soundRam, placed := some changedCopy })], host := { serving := true } }
  ((s.raise R.RS_STATUS.START_DONE).raise R.BR_STATUS.IMAGE_OK).wr R.EN_STATUS.STATE 1 1

theorem soundRam_agrees : ramDiffers soundRam = false := by simp [ramDiffers, soundRam]

/-- Refutes O32: a difference in an engine's copy counts as an uncorrectable memory error of that engine (R77), and the last
clause says so of ECC_UNC; but the model's verification goes by `engineBad`, which names the engine for evacuation and leaves
the count to `engineError`. In `verifying` the count stays 0. -/
theorem not_graphSwapAndVerify : ¬ Obligations.GraphSwapAndVerify := by
  intro hall
  obtain ⟨-, -, -, -, hplaced⟩ := hall 0 verifying (by decide)
  have hready : cmdReady (.graphVerify ⟨false, 0, none⟩ 0) verifying = true := by decide +kernel
  have hram : (verifying.br 0).ram = some soundRam := rfl
  have hplace : (verifying.br 0).placed = some changedCopy := rfl
  have hok : imageOk verifying 0 = true := by decide +kernel
  have hbad : badEngines changedCopy soundRam = [1] := by decide +kernel
  have hactive : verifying.rd R.EN_STATUS.STATE 1 = 1 := by decide +kernel
  obtain ⟨-, hnamed⟩ := hplaced ⟨false, 0, none⟩ soundRam changedCopy hready hok hram hplace soundRam_agrees rfl
  obtain ⟨t, hexec, -, -, hcount, -⟩ := hnamed 1 hbad hactive (by decide +kernel)
  have hregs := graphVerify_regs hready (by decide) hram hok hplace soundRam_agrees hbad hactive hexec
  rw [State.rd_eq, State.reg_congr hregs, ← State.rd_eq] at hcount
  exact absurd hcount (by decide +kernel)

end Sys2Proof.Machine
end
section
/-! O22: writes of host signals, of the safety block, of the Vangat CAN registers and of a capture unit, and RETRAIN
(R80, R288, R333, R377, R448). -/

namespace Sys2Proof.Machine

open Sys2Proof

/-! ### A command that leaves the host port as it is -/

section
variable {c : Instr} {h : Hdr} {op st : Nat} {ps data : List Byte} {s u : State} {body k : State → Res}

/-- A command that passes its authentication step has been taken. -/
theorem cmdAuth_ready {rule : AuthRule} (hc : hostRow c = some (h, op, ps)) (hr : cmdAuth c rule s = true) :
    ready s h op ps = true := by
  simp only [cmdAuth, cmdReady, hc, Bool.and_eq_true] at hr
  exact hr.1

theorem acceptCmd_calm (hc : hostRow c = some (h, op, ps)) (hr : cmdReady c s = true) (hb : body s = ⟨st, data, none, u⟩)
    (hst : st = stDone ∨ st = stAccepted) (hu : Calm s u) : acceptCmd h op ps body s = answer c st data u := by
  have hready : ready s h op ps = true := by simpa only [cmdReady, hc] using hr
  have h0 := ready_held s h op ps hready
  exact acceptCmd_answer c h op ps body s hc hr st data u hb hst ((hu.held h0).trans h0.symm) hu.serving

theorem acceptCmd_calmSigned {key : Option (List Byte)} (hc : hostRow c = some (h, op, ps)) (hr : cmdAuth c .any s = true)
    (hw : body s = withAuth h op ps .any s k) (hb : k (used c s) = ⟨st, data, key, u⟩)
    (hst : st = stDone ∨ st = stAccepted) (hu : Calm (used c s) u) : acceptCmd h op ps body s = signed c st data s u := by
  have h0 := ready_held s h op ps (cmdAuth_ready hc hr)
  have hs := (used_calm c).trans hu
  exact acceptCmd_signed c h op ps .any body k s hc hr hw st data key u hb hst ((hs.held h0).trans h0.symm) hs.serving

end

/-! ### The safety block -/

set_option maxRecDepth 4000 in
theorem regTable_belowSafety : regTable.all (fun r => decide (0x800000 ≤ r.base ∨
    r.base + (r.count - 1) * r.stride + (r.count2 - 1) * r.stride2 < 0x800000)) = true := by decide +kernel

section
variable {a : Nat} {w : Word}

/-- A WA field stands in a register of the tables. -/
theorem holdsWa_reg (h : holdsWa a = true) : ∃ r i j, regAt a = some (r, i, j) := by
  unfold holdsWa at h
  cases hx : regAt a with
  | none => simp [hx] at h
  | some x => exact ⟨x.1, x.2.1, x.2.2, rfl⟩

/-- A register at an address of the safety block is one of the safety block (R7). -/
theorem regAt_safety {r : RegDef} {i j : Nat} (hs : inSafety a = true) (hx : regAt a = some (r, i, j)) :
    0x800000 ≤ r.base ∧ r.base < 0x900000 := by
  have ha : 0x800000 ≤ a ∧ a < 0x900000 ∧ a ≠ A.SF_EVENT := of_decide_eq_true hs
  obtain ⟨hr, hi, hj, hadr⟩ := regFind_addr hx
  have hlow := of_decide_eq_true (List.all_eq_true.1 regTable_belowSafety r hr)
  have hi : i * r.stride ≤ (r.count - 1) * r.stride := Nat.mul_le_mul_right _ (by omega)
  have hj : j * r.stride2 ≤ (r.count2 - 1) * r.stride2 := Nat.mul_le_mul_right _ (by omega)
  omega

theorem winSignal_safety (hs : inSafety a = true) : winSignal a = none := by
  have ha : 0x800000 ≤ a ∧ a < 0x900000 ∧ a ≠ A.SF_EVENT := of_decide_eq_true hs
  exact if_neg (by omega)

/-- The bases of the registers that act outside the safety block, or are not stored as they are written. -/
def otherActing : List Nat := [A.BR_CFG, A.BR_PHASE, A.BR_KON, A.BR_CTRL, A.TR_ENC_CFG, A.FB_PER, A.FB_DUTY, A.CN_STEER,
  A.SH_CARRIER, A.SH_CTRL, A.DRV_LOUVRE, A.DRV_CTRL, A.DRV_SUP, A.IL_CFG, A.CV_CFG, A.TW_CTRL, A.TD_CFG, A.VG_CAN_CFG,
  A.VG_CAN_CMD_ID, A.VG_CAN_RSP_ID, A.CF_NBT, A.CF_CTRL, A.MO_SEL, A.MO_STAT, A.DL_CTRL, A.BUF_ID, A.BUF_CTL, A.BUF_DATA,
  A.LG_CFG]

theorem safety_notOther {base : Nat} (h1 : 0x800000 ≤ base) (h2 : base < 0x900000) : base ∉ otherActing := by
  have hout : ∀ x ∈ otherActing, ¬ (0x800000 ≤ x ∧ x < 0x900000) := by decide
  exact fun hmem => hout base hmem ⟨h1, h2⟩

/-- A safety register is stored in its own word. -/
theorem storeWord_safety {r : RegDef} {i j : Nat} (hs : inSafety a = true) (hx : regAt a = some (r, i, j)) (s : State) :
    storeWord a w s = s.setReg a (mergeWord r (s.reg a) w) := by
  have hbase := safety_notOther (regAt_safety hs hx).1 (regAt_safety hs hx).2
  simp only [otherActing, List.mem_cons, List.not_mem_nil, or_false, not_or] at hbase
  simp [storeWord, winSignal_safety hs, hx, hbase]

/-- What follows from its write: the readbacks and the blanking, the code, and the functions (R369, R374, R376). -/
theorem actWord_safety {r : RegDef} {i j : Nat} (hs : inSafety a = true) (hx : regAt a = some (r, i, j)) (s0 s : State) :
    actWord s0 a w s = applySafety (recode (blankChannels (noteKon s))) := by
  have hbase := safety_notOther (regAt_safety hs hx).1 (regAt_safety hs hx).2
  simp only [otherActing, List.mem_cons, List.not_mem_nil, or_false, not_or] at hbase
  simp [actWord, winSignal_safety hs, hx, actLink, actPower, actBridge, hbase, hs]

theorem Calm.safetyWritten {s t : State} (h : Calm s t) : Calm s (applySafety (recode (blankChannels (noteKon t)))) := by
  have hkon : Calm s (noteKon t) := h.aside (Aside.refl t).noteKon
  have hblank : Calm s (blankChannels (noteKon t)) := hkon.each fun _ _ h1 => h1.same
  exact (hblank.aside (Aside.refl _).recode).applySafety

end

/-! ### An authenticated write of one register -/

/-- The same as `writeWin_one_signed`, with check 4 asked of the stored value alone. -/
theorem writeWin_stored_signed (c : Instr) (h : Hdr) (a : Nat) (w : Word) (s : State)
    (hc : hostRow c = some (h, 0x0402, writeParams a [w])) (hr : cmdAuth c .any s = true) (ha : winAddrOk a = true)
    (hwa : holdsWa a = true) (hck : checkWord (used c s) (storeWord a w (used c s)) a w = stDone)
    (hcalm : Calm (used c s) (actWord (used c s) a w (storeWord a w (used c s)))) :
    writeWin h a [w] s = signed c stDone [] s (actWord (used c s) a w (storeWord a w (used c s))) := by
  have hbody : writeWinBody h a [w] s = withAuth h 0x0402 (writeParams a [w]) .any s (writeChecked [(a, w)]) := by
    simp only [writeWinBody, List.length_singleton, winShape_one a ha, winFault_one a ha, Bool.true_eq_false, if_false,
      winAddrs_one, List.any_cons, hwa, Bool.true_or, if_true, List.zip_cons_cons, List.zip_nil_left]
  have hdone : writeChecked [(a, w)] (used c s) =
      ⟨stDone, [], none, actWord (used c s) a w (storeWord a w (used c s))⟩ := by
    simp only [writeChecked, firstRefused, List.foldl_cons, List.foldl_nil, hck, if_true, done, doneWith, writeAll]
  exact acceptCmd_calmSigned hc hr hbody hdone (.inl rfl) hcalm

/-! ### The Vangat CAN registers -/

/-- `t` is `s` but for TLM_STATUS and the background activity. -/
def StreamsOnly (s t : State) : Prop := t = { s with regs := t.regs, bg := t.bg } ∧ ∀ a, a ≠ A.TLM_STATUS → t.reg a = s.reg a

namespace StreamsOnly

variable {s t : State}

protected theorem refl (s : State) : StreamsOnly s s := ⟨rfl, fun _ _ => rfl⟩

theorem wr {f : Fld} {v : Nat} (h : StreamsOnly s t) (hf : fldAddr f 0 0 = A.TLM_STATUS) : StreamsOnly s (t.wr f 0 v) := by
  obtain ⟨h1, h2⟩ := h
  refine ⟨by rw [h1]; rfl, fun a ha => ?_⟩
  rw [State.reg_wr_ne t f 0 v a (by rwa [hf]), h2 a ha]

theorem putBit {f : Fld} {k : Nat} {v : Bool} (h : StreamsOnly s t) (hf : fldAddr f 0 0 = A.TLM_STATUS) :
    StreamsOnly s (t.putBit f k v) := by
  unfold State.putBit
  split
  · exact h.wr hf
  · exact h.wr hf

theorem setStream {k : Nat} {x : Stream} (h : StreamsOnly s t) : StreamsOnly s (setStream k x t) := by
  have hbg : StreamsOnly s { t with bg := { t.bg with streams := sput (fun _ => ({} : Stream)) t.bg.streams k x } } :=
    ⟨by rw [h.1], h.2⟩
  exact (hbg.putBit rfl).putBit rfl

/-- The CAN streams stop, and nothing else (R460). -/
theorem stopCanStreams (s : State) : StreamsOnly s (stopCanStreams s) := by
  unfold Machine.stopCanStreams
  split
  · exact .refl s
  · refine State.each_ind _ _ (fun t k h => ?_) _ s (.refl s)
    split
    · exact h.setStream
    · exact h

end StreamsOnly

theorem vangatRows : ∀ reg < 3,
    regRowOk (A.VG_CAN_CFG + 4 * reg) (A.VG_CAN_CFG + 4 * reg) 0 0 true false = true := by decide +kernel

section
variable {reg : Nat} {w : Word} {r : RegDef}

theorem storeWord_vangat (hreg : reg < 3) (h : RegRow (A.VG_CAN_CFG + 4 * reg) (A.VG_CAN_CFG + 4 * reg) 0 0 true false r)
    (s : State) : storeWord (A.VG_CAN_CFG + 4 * reg) w s =
      s.setReg (A.VG_CAN_CFG + 4 * reg) (mergeWord r (s.reg (A.VG_CAN_CFG + 4 * reg)) w) := by
  have hne : ∀ k < 3, A.VG_CAN_CFG + 4 * k ≠ A.BUF_ID ∧ A.VG_CAN_CFG + 4 * k ≠ A.BUF_CTL ∧
      A.VG_CAN_CFG + 4 * k ≠ A.BUF_DATA ∧ A.VG_CAN_CFG + 4 * k ≠ A.LG_CFG := by decide
  obtain ⟨h1, h2, h3, h4⟩ := hne reg hreg
  simp only [storeWord, h.sig, h.reg, h.base, h1, h2, h3, h4, if_false]

theorem actWord_vangat (hreg : reg < 3) (h : RegRow (A.VG_CAN_CFG + 4 * reg) (A.VG_CAN_CFG + 4 * reg) 0 0 true false r)
    (s0 s : State) : actWord s0 (A.VG_CAN_CFG + 4 * reg) w s = vangatWritten s0 (A.VG_CAN_CFG + 4 * reg) s := by
  have hk : reg = 0 ∨ reg = 1 ∨ reg = 2 := by omega
  simp only [actWord, h.sig, h.reg, h.base]
  rcases hk with rfl | rfl | rfl
  · rfl
  · rfl
  · rfl

theorem vangatWritten_calm (s0 : State) (a : Nat) (s : State) : Calm s (vangatWritten s0 a s) := by
  unfold vangatWritten
  split
  · exact .refl s
  · rw [(StreamsOnly.stopCanStreams (dropSegments s)).1]
    exact ⟨rfl, rfl, rfl, id⟩

/-- The packet in reception goes where the register changed (R333). -/
theorem vangatWritten_host (s0 : State) (a : Nat) (s : State) :
    (vangatWritten s0 a s).host = if s0.reg a = s.reg a then s.host else { s.host with seg := none } := by
  unfold vangatWritten
  split
  · rfl
  · rw [(StreamsOnly.stopCanStreams (dropSegments s)).1]
    rfl

theorem vangatWritten_reg (s0 : State) {a : Nat} (s : State) (ha : a ≠ A.TLM_STATUS) :
    (vangatWritten s0 a s).reg a = s.reg a := by
  unfold vangatWritten
  split
  · rfl
  · exact (StreamsOnly.stopCanStreams (dropSegments s)).2 a ha

end

/-! ### RETRAIN -/

theorem retrainRow : regRowOk A.DL_CTRL A.DL_CTRL 0 0 false false = true ∧
    (regAt A.DL_CTRL).map (fun x => (fieldsOk x.1 1, x.1.fields.all fun f => f.acc == .WS)) = some (true, true) := by
  decide +kernel

theorem retrainAddr : winAddrOk A.DL_CTRL = true := by decide

/-- The output as a training begins: the symbols that have begun stay, and the rest is discarded (R448, R450). -/
def begunClk (s : State) : Clk := { s.clk with
  training := some {}, retrain := false, out := s.clk.out.filter (fun o => decide (o.sched ≤ fineNow s 0)) }

/-- The symbols that wait are counted as dropped, and nothing else. -/
theorem dropSymbols_onlyRegs {α : Type} (l : List α) (s : State) :
    OnlyRegs s (s.each l (fun t _ => dropSymbol t)) [fldAddr R.DL_CNT.DROPPED 0 0] := by
  refine State.each_ind (fun t => OnlyRegs s t [fldAddr R.DL_CNT.DROPPED 0 0]) _ (fun t _ ht => ?_) l s (.refl s _)
  rw [dropSymbol, State.countUp_eq]
  exact (ht.trans (.wr t _ _ _)).mono fun a ha => by simpa using ha

/-- A training that begins on a linked hop (R448). -/
theorem beginTraining_linked {s : State} (hl : linkOn s = true) :
    ∃ regs, beginTraining s = ({ s with regs := regs, clk := begunClk s } : State).wr R.DL_STATUS.OUT_STATE 0 1 := by
  obtain ⟨regs, hdrop⟩ : ∃ regs, s.each (s.clk.out.filter (fun o => !decide (o.sched ≤ fineNow s 0)))
      (fun t _ => dropSymbol t) = { s with regs := regs } := ⟨_, (dropSymbols_onlyRegs _ s).1⟩
  exact ⟨regs, by simp only [beginTraining, hl, if_true, begunClk, hdrop]⟩

/-- The same where at most registers have been written before. -/
theorem beginTraining_written {s u : State} {l : List Nat} (hu : OnlyRegs s u l) (hl : linkOn s = true) :
    beginTraining u = { s with regs := (beginTraining u).regs, clk := begunClk s } ∧
      (beginTraining u).rd R.DL_STATUS.OUT_STATE = 1 := by
  obtain ⟨r1, rfl⟩ : ∃ r1, u = { s with regs := r1 } := ⟨_, hu.1⟩
  obtain ⟨r2, hbegin⟩ := beginTraining_linked (s := { s with regs := r1 }) hl
  rw [hbegin]
  exact ⟨(OnlyRegs.wr _ _ _ _).1, State.rd_wr_same _ _ _ _ (by decide)⟩

section
variable {s : State}

/-- The register keeps its word: its field only starts the training. -/
theorem storeWord_retrain : OnlyRegs s (storeWord A.DL_CTRL 1 s) [] := by
  obtain ⟨hrow, hfields⟩ := retrainRow
  obtain ⟨r, hrow⟩ := RegRow.of hrow
  simp only [hrow.reg, Option.map_some, Option.some.injEq, Prod.mk.injEq] at hfields
  have hstore : storeWord A.DL_CTRL 1 s = s.setReg A.DL_CTRL (mergeWord r (s.reg A.DL_CTRL) 1) := by
    have hne : A.DL_CTRL ≠ A.BUF_ID ∧ A.DL_CTRL ≠ A.BUF_CTL ∧ A.DL_CTRL ≠ A.BUF_DATA ∧ A.DL_CTRL ≠ A.LG_CFG := by decide
    obtain ⟨h1, h2, h3, h4⟩ := hne
    simp only [storeWord, hrow.sig, hrow.reg, hrow.base, h1, h2, h3, h4, if_false]
  rw [hstore, mergeWord_eq, foldMerge_start 1 _ hfields.2]
  refine ⟨(OnlyRegs.setReg s _ _).1, fun a _ => ?_⟩
  by_cases ha : a = A.DL_CTRL
  · rw [ha, State.reg_setReg_same]
  · exact State.reg_setReg_ne s _ _ ha

theorem actWord_retrain (s0 : State) (ht : s.clk.training = none) : actWord s0 A.DL_CTRL 1 s = beginTraining s := by
  obtain ⟨r, hrow⟩ := RegRow.of retrainRow.1
  simp only [actWord, hrow.sig, hrow.reg, hrow.base]
  change (if wf 1 R.DL_CTRL.RETRAIN = 1 ∧ s.clk.training = none then beginTraining s else s) = _
  rw [if_pos ⟨by decide, ht⟩]

theorem writeOpen_retrain : writeOpen A.DL_CTRL 1 s = true := by
  obtain ⟨hrow, hfields⟩ := retrainRow
  obtain ⟨r, hrow⟩ := RegRow.of hrow
  simp only [hrow.reg, Option.map_some, Option.some.injEq, Prod.mk.injEq] at hfields
  have hcheck : ∀ t, checkWord s t A.DL_CTRL 1 = stDone := fun t => by
    have hranges : rangesOk s t r 0 0 1 = fieldsOk r 1 := by
      simp only [rangesOk, Bool.and_assoc, hrow.base]
      exact Bool.and_true _
    simp only [checkWord, hrow.sig, hrow.reg, hranges, hfields.1, if_true, hrow.safe, need, Bool.not_false, Bool.true_or,
      hrow.base]
    rfl
  simp only [writeOpen, hrow.wa, hcheck, decide_true, Bool.not_false, Bool.and_self]

end

/-! ### The statement -/

theorem plainWrite_reg {a : Nat} (h : plainWrite a = true) : ∃ r i j, regAt a = some (r, i, j) := by
  unfold plainWrite at h
  cases h1 : winSignal a with
  | some n => simp [h1] at h
  | none =>
    cases h2 : regAt a with
    | none => simp [h1, h2] at h
    | some x => exact ⟨x.1, x.2.1, x.2.2, rfl⟩

section
variable {h : Hdr} {s : State}

theorem vangatConfigWrite_answered {reg : Nat} {w : Word} (hreg : reg < 3)
    (hr : cmdAuth (.vangatCanConfigWrite h reg w) .any s = true)
    (hck : checkWord (used (.vangatCanConfigWrite h reg w) s)
      (storeWord (A.VG_CAN_CFG + 4 * reg) w (used (.vangatCanConfigWrite h reg w) s)) (A.VG_CAN_CFG + 4 * reg) w = stDone) :
    ∃ t, exec (.vangatCanConfigWrite h reg w) s = .next (signed (.vangatCanConfigWrite h reg w) stDone [] s t) ∧
      t.reg (A.VG_CAN_CFG + 4 * reg) = (storeWord (A.VG_CAN_CFG + 4 * reg) w s).reg (A.VG_CAN_CFG + 4 * reg) ∧
      t.host = if s.reg (A.VG_CAN_CFG + 4 * reg) = t.reg (A.VG_CAN_CFG + 4 * reg) then s.host
        else { s.host with seg := none } := by
  obtain ⟨r, hrow⟩ := RegRow.of (vangatRows reg hreg)
  have hused := used_reg (.vangatCanConfigWrite h reg w) s (A.VG_CAN_CFG + 4 * reg) (by simp only [A.VG_CAN_CFG]; omega)
  have hstored : (storeWord (A.VG_CAN_CFG + 4 * reg) w (used (.vangatCanConfigWrite h reg w) s)).reg (A.VG_CAN_CFG + 4 * reg) =
      (storeWord (A.VG_CAN_CFG + 4 * reg) w s).reg (A.VG_CAN_CFG + 4 * reg) := by
    rw [storeWord_vangat hreg hrow, storeWord_vangat hreg hrow, State.reg_setReg_same, State.reg_setReg_same, hused]
  have hhost : (storeWord (A.VG_CAN_CFG + 4 * reg) w (used (.vangatCanConfigWrite h reg w) s)).host = s.host := by
    rw [storeWord_vangat hreg hrow]
    exact used_host _ s
  have hcalm : ∀ u, Calm u (actWord u (A.VG_CAN_CFG + 4 * reg) w (storeWord (A.VG_CAN_CFG + 4 * reg) w u)) := fun u => by
    rw [actWord_vangat hreg hrow, storeWord_vangat hreg hrow]
    exact (Calm.refl u).setReg.trans (vangatWritten_calm ..)
  have hne : A.VG_CAN_CFG + 4 * reg ≠ A.TLM_STATUS := by simp only [A.VG_CAN_CFG, A.TLM_STATUS]; omega
  refine ⟨_, congrArg Host.Outcome.next (writeWin_stored_signed (.vangatCanConfigWrite h reg w) h _ w s rfl hr hrow.addr
    hrow.wa hck (hcalm _)), ?_⟩
  rw [actWord_vangat hreg hrow, vangatWritten_host, vangatWritten_reg _ _ hne, hstored, hused, hhost]
  exact ⟨rfl, rfl⟩

theorem captureConfigWrite_answered {u o : Nat} {w : Word} (hu : u < 8) (ho : o ∈ [0, 4, 8, 12, 16, 20, 24])
    (hr : cmdReady (.captureConfigWrite h u o [w]) s = true) (hp : plainWrite (A.CAP_CFG + 0x100 * u + o) = true)
    (hopen : writeOpen (A.CAP_CFG + 0x100 * u + o) w s = true) : exec (.captureConfigWrite h u o [w]) s =
      .next (answer (.captureConfigWrite h u o [w]) stDone [] (storeWord (A.CAP_CFG + 0x100 * u + o) w s)) ∧
    OnlyRegs s (storeWord (A.CAP_CFG + 0x100 * u + o) w s) [A.CAP_CFG + 0x100 * u + o] := by
  obtain ⟨r, i, j, hx⟩ := plainWrite_reg hp
  have ho4 : o % 4 = 0 ∧ o ≤ 24 := by
    simp only [List.mem_cons, List.not_mem_nil, or_false] at ho
    omega
  have ha : winAddrOk (A.CAP_CFG + 0x100 * u + o) = true := by
    rw [winAddrOk, Bool.and_eq_true, decide_eq_true_eq, decide_eq_true_eq, A.CAP_CFG]
    omega
  have honly : OnlyRegs s (storeWord (A.CAP_CFG + 0x100 * u + o) w s) [A.CAP_CFG + 0x100 * u + o] := by
    rw [storeWord_plain _ w s hp r i j hx]
    exact OnlyRegs.setReg s _ _
  have hact : actWord s (A.CAP_CFG + 0x100 * u + o) w (storeWord (A.CAP_CFG + 0x100 * u + o) w s) =
      storeWord (A.CAP_CFG + 0x100 * u + o) w s := actWord_plain _ w s _ hp
  have hwrite := writeWin_one (.captureConfigWrite h u o [w]) h _ w s rfl hr ha hopen (by rw [hact, honly.host])
    (by rw [hact, honly.host])
  rw [hact] at hwrite
  exact ⟨congrArg Host.Outcome.next hwrite, honly⟩

theorem retrain_answered (hr : cmdReady (.retrain h) s = true) (hl : linkOn s = true) (ht : s.clk.training = none) :
    exec (.retrain h) s = .next (answer (.retrain h) stDone [] (beginTraining (storeWord A.DL_CTRL 1 s))) := by
  have hu := storeWord_retrain (s := s)
  have hact : actWord s A.DL_CTRL 1 (storeWord A.DL_CTRL 1 s) = beginTraining (storeWord A.DL_CTRL 1 s) := by
    refine actWord_retrain s ?_
    rw [hu.1]
    exact ht
  have hhost : (beginTraining (storeWord A.DL_CTRL 1 s)).host = s.host := by rw [(beginTraining_written hu hl).1]
  have hwrite := writeWin_one (.retrain h) h A.DL_CTRL 1 s rfl hr retrainAddr writeOpen_retrain (by rw [hact, hhost])
    (by rw [hact, hhost])
  rw [hact] at hwrite
  exact congrArg Host.Outcome.next hwrite

end

/-- Settles O22: each is a write of one register or range, and differs in what follows from it. -/
theorem otherRegisterCommands : Obligations.OtherRegisterCommands := by
  intro h s
  refine ⟨fun i vs hr hlo hhi hne => ?_, fun a w hr hs hwa ha hck => ?_, fun reg w hreg hr hck => ?_,
    fun u o w hu ho hr hp hopen => ?_, fun hr hl ht => ?_⟩
  · exact ⟨_, congrArg Host.Outcome.next (writeWin_host rfl hr hne hlo hhi), fun k hk => (storeSignals_inside s hk).2,
      fun n hn => (storeSignals_outside s hn).1, storeSignals_eq i vs s⟩
  · obtain ⟨r, i, j, hx⟩ := holdsWa_reg hwa
    have hcalm : ∀ u, Calm u (actWord u a w (storeWord a w u)) := fun u => by
      rw [actWord_safety hs hx, storeWord_safety hs hx]
      exact (Calm.refl u).setReg.safetyWritten
    rw [← actWord_safety hs hx]
    exact congrArg Host.Outcome.next (writeWin_stored_signed (.safetyConfigWrite h a [w]) h a w s rfl hr ha hwa hck (hcalm _))
  · obtain ⟨t, hexec, hreg', hhost⟩ := vangatConfigWrite_answered hreg hr hck
    exact ⟨t, hexec, hreg', fun hch => hhost.trans (if_neg (Ne.symm hch)), fun hch => hhost.trans (if_pos hch.symm)⟩
  · obtain ⟨hexec, honly⟩ := captureConfigWrite_answered hu ho hr hp hopen
    exact ⟨_, hexec, honly, rfl⟩
  · obtain ⟨hbegun, hout⟩ := beginTraining_written storeWord_retrain hl
    refine ⟨_, retrain_answered hr hl ht, ?_, hout, ?_⟩
    · rw [hbegun, begunClk]
    · rw [hbegun]

end Sys2Proof.Machine
end
section
/-! O31: the image store: GRAPH_STORE and its end, GRAPH_START, GRAPH_UNLOAD and GRAPH_INFO (R71, R72, R78, R416, R457). -/

namespace Sys2Proof.Machine

open Sys2Proof

/-! ### What the log and the end of a run keep -/

/-- The registers of the staging buffer and of the image store (R78). -/
def stagingBlock (a : Nat) : Prop := A.GR_STAGE ≤ a ∧ a ≤ A.GR_STORE

/-- The staging buffer, the image store and their registers stay, and every bridge. -/
structure StoreKept (s t : State) : Prop where
  graphs : t.graphs = s.graphs
  bridges : t.bridges = s.bridges
  reg : ∀ a, stagingBlock a → t.reg a = s.reg a

/-- A single register outside the block. -/
def offStaging (f : Fld) : Bool := decide (f.stride = 0) && decide (f.base < A.GR_STAGE ∨ A.GR_STORE < f.base)

namespace StoreKept

variable {s t u : State}

protected theorem refl (s : State) : StoreKept s s := ⟨rfl, rfl, fun _ _ => rfl⟩

protected theorem trans (h : StoreKept s t) (k : StoreKept t u) : StoreKept s u :=
  ⟨k.graphs.trans h.graphs, k.bridges.trans h.bridges, fun a ha => (k.reg a ha).trans (h.reg a ha)⟩

protected theorem ite {c : Prop} [Decidable c] (ht : StoreKept s t) (hu : StoreKept s u) : StoreKept s (if c then t else u) := by
  split
  · exact ht
  · exact hu

theorem rd (h : StoreKept s t) {f : Fld} (hf : stagingBlock (fldAddr f 0 0)) : t.rd f = s.rd f := by
  rw [State.rd_eq, State.rd_eq, h.reg _ hf]

protected theorem wr {f : Fld} {v : Nat} (h : StoreKept s t) (hf : offStaging f = true := by decide) :
    StoreKept s (t.wr f 0 v) := by
  refine ⟨h.graphs, h.bridges, fun a ha => (State.reg_wr_ne t f 0 v a ?_).trans (h.reg a ha)⟩
  simp only [offStaging, Bool.and_eq_true, decide_eq_true_eq] at hf
  obtain ⟨h1, h2⟩ := ha
  simp only [fldAddr]
  omega

protected theorem log {l : EvLog} (h : StoreKept s t) : StoreKept s { t with log := l } := ⟨h.graphs, h.bridges, h.reg⟩

protected theorem bg {x : Background} (h : StoreKept s t) : StoreKept s { t with bg := x } := ⟨h.graphs, h.bridges, h.reg⟩

protected theorem host {x : HostPort} (h : StoreKept s t) : StoreKept s { t with host := x } := ⟨h.graphs, h.bridges, h.reg⟩

protected theorem logEvent {code obj : Nat} {data : List Byte} (h : StoreKept s t) : StoreKept s (logEvent code obj data t) :=
  .ite h.log.log.wr.wr (.ite h.log.log h.log.log.log.log)

protected theorem countErase {area sector : Nat} (h : StoreKept s t) : StoreKept s (countErase area sector t) :=
  .ite h.bg.wr.logEvent h.bg

protected theorem endRun {op obj result : Nat} (h : StoreKept s t) : StoreKept s (endRun op obj result t) := by
  unfold endRun
  split
  · exact h
  · exact h.host.wr.wr.wr.wr

end StoreKept

/-! ### A failed check recorded -/

/-- Each write of GR_STAGE lies in its one register. -/
theorem setStageErr_onlyRegs (code dir rcd : Nat) (s : State) : OnlyRegs s (setStageErr code dir rcd s) [A.GR_STAGE] :=
  (((OnlyRegs.wr s R.GR_STAGE.GRAPH_ERR 0 code).trans (OnlyRegs.wr _ R.GR_STAGE.GRAPH 0 dir)).trans
    (OnlyRegs.wr _ R.GR_STAGE.REC 0 rcd)).mono (by decide)

theorem recordRefusal_graphs (h : Hdr) (op st : Nat) (s : State) : (recordRefusal h op st s).graphs = s.graphs := by
  unfold recordRefusal
  split
  · rfl
  · simp only [recordError, State.wr_graphs]

theorem recordRefusal_bridges (h : Hdr) (op st : Nat) (s : State) : (recordRefusal h op st s).bridges = s.bridges := by
  unfold recordRefusal
  split
  · rfl
  · simp only [recordError, State.wr_bridges]

/-! ### The store begins -/

/-- What an admitted GRAPH_STORE leaves (R71, R72). -/
def storeBegun (n : Nat) (s : State) : State :=
  let s1 := flashBegin 5 (setStageErr 0 0 0xFFF s)
  State.wr { s1 with graphs := { s1.graphs with storing := some (n, stageState s) } } R.GR_STAGE.STATE 0 5

section
variable {h : Hdr} {n : Nat} {s : State}

theorem graphStoreChecks_begun (hn : n < 2) (hr : stageReady s = true) (he : imageErr s s.graphs.staged = none) :
    graphStoreChecks h n s = ⟨stAccepted, [], none, beginRun 0x0305 h.seq 0 (storeBegun n s)⟩ := by
  rw [graphStoreChecks, if_neg (by omega), hr, if_neg (by decide), he]
  rfl

theorem graphStoreChecks_failed {e : GErr} (hn : n < 2) (hr : stageReady s = true)
    (he : imageErr s s.graphs.staged = some e) : graphStoreChecks h n s = ⟨e.status, [], none, recordStage e s⟩ := by
  rw [graphStoreChecks, if_neg (by omega), hr, if_neg (by decide), he]

theorem storeBegun_calm : Calm s (storeBegun n s) := by
  obtain ⟨x, y, hflash⟩ := flashBegin_eq 5 (setStageErr 0 0 0xFFF s)
  have hstage : Calm s (setStageErr 0 0 0xFFF s) := (Calm.refl s).wr.wr.wr
  have hbegun : Calm s (flashBegin 5 (setStageErr 0 0 0xFFF s)) := by
    rw [hflash]
    exact hstage.same
  exact hbegun.same.wr

theorem storeBegun_graphs : (storeBegun n s).graphs = { s.graphs with storing := some (n, stageState s) } := by
  obtain ⟨x, y, hflash⟩ := flashBegin_eq 5 (setStageErr 0 0 0xFFF s)
  rw [storeBegun, hflash, (setStageErr_onlyRegs 0 0 0xFFF s).1]
  rfl

theorem beginRun_stageState (op seq obj : Nat) (s : State) : stageState (beginRun op seq obj s) = stageState s := rfl

theorem beginRun_graphs (op seq obj : Nat) (s : State) : (beginRun op seq obj s).graphs = s.graphs := rfl

theorem storeBegun_state : stageState (storeBegun n s) = 5 := State.rd_wr_same _ _ _ _ (by decide)

theorem used_stageState (c : Instr) : stageState (used c s) = stageState s := used_rd c s _ _ _ (by decide)

theorem used_stageReady (c : Instr) : stageReady (used c s) = stageReady s := by
  rw [stageReady, used_stageState, ← stageReady]

theorem exec_graphStore : exec (.graphStore h n) s = .next (acceptCmd h 0x0305 (le 1 n) (graphStoreBody h n) s) := rfl

theorem exec_graphStoreDone (ok : Bool) : exec (.graphStoreDone ok) s = .next (graphStoreDone ok s) := rfl

end

/-! ### The store ends -/

section
variable {n before : Nat} {s : State} (ok : Bool)

theorem slotImage_congr {t : State} (h : t.graphs = s.graphs) (k : Nat) : slotImage t k = slotImage s k := by
  rw [slotImage, slotImage, h]

/-- SLOTn_OK of a slot. -/
def slotOkFld (n : Nat) : Fld := if n = 0 then R.GR_STORE.SLOT0_OK else R.GR_STORE.SLOT1_OK

theorem setSlot_slots (img : Option (List Byte)) (hn : n < 2) : slotImage (setSlot n img ok s) n = img ∧
    slotImage (setSlot n img ok s) (1 - n) = slotImage s (1 - n) ∧
    (setSlot n img ok s).rd (slotOkFld n) = b2n ok ∧ (setSlot n img ok s).graphs.storing = s.graphs.storing ∧
    (setSlot n img ok s).bridges = s.bridges := by
  have hok : b2n ok < 2 := by cases ok <;> decide
  have hn : n = 0 ∨ n = 1 := by omega
  rcases hn with rfl | rfl
  · exact ⟨rfl, rfl, (State.rd_wr_same _ _ _ _ (by decide)).trans (Nat.mod_eq_of_lt hok), rfl, rfl⟩
  · exact ⟨rfl, rfl, (State.rd_wr_same _ _ _ _ (by decide)).trans (Nat.mod_eq_of_lt hok), rfl, rfl⟩

/-- The slot of a store that has ended, before STATE returns and the command completes. -/
def slotStored (n : Nat) (ok : Bool) (s : State) : State :=
  setSlot n (if ok then some s.graphs.staged else none) ok
    (countErase 5 n { s with graphs := { s.graphs with storing := none } })

theorem graphStoreDone_ended (hs : s.graphs.storing = some (n, before)) (hf : flashNow s = some 5) :
    ∃ u, StoreKept (slotStored n ok s) u ∧
      graphStoreDone ok s = endRun 0x0305 0 (if ok then 1 else 2) (u.wr R.GR_STAGE.STATE 0 before) := by
  simp only [graphStoreDone, hs, hf, ne_eq, not_true_eq_false, if_false]
  exact ⟨_, .ite (StoreKept.refl _).logEvent (.refl _), rfl⟩

theorem slotOkFld_staging (n : Nat) : stagingBlock (fldAddr (slotOkFld n) 0 0) := by
  unfold slotOkFld
  split
  · constructor <;> decide
  · constructor <;> decide

/-- STATE and SLOTn_OK stand in different registers. -/
theorem slotOkFld_apart (n v : Nat) (s : State) : (s.wr R.GR_STAGE.STATE 0 v).rd (slotOkFld n) = s.rd (slotOkFld n) := by
  unfold slotOkFld
  split
  · exact rd_wr_apart ..
  · exact rd_wr_apart ..

/-- What a store leaves when it ends (R71). -/
theorem graphStoreDone_slots (hs : s.graphs.storing = some (n, before)) (hf : flashNow s = some 5) (hn : n < 2)
    (hbefore : before < 8) : (graphStoreDone ok s).graphs.storing = none ∧ stageState (graphStoreDone ok s) = before ∧
      slotImage (graphStoreDone ok s) n = (if ok then some s.graphs.staged else none) ∧
      slotImage (graphStoreDone ok s) (1 - n) = slotImage s (1 - n) ∧
      (graphStoreDone ok s).rd (slotOkFld n) = b2n ok ∧ (graphStoreDone ok s).bridges = s.bridges := by
  obtain ⟨u, hkept, hdone⟩ := graphStoreDone_ended ok hs hf
  have hend : StoreKept (u.wr R.GR_STAGE.STATE 0 before) (graphStoreDone ok s) := hdone ▸ (StoreKept.refl _).endRun
  have herase : StoreKept { s with graphs := { s.graphs with storing := none } }
    (countErase 5 n { s with graphs := { s.graphs with storing := none } }) := (StoreKept.refl _).countErase
  obtain ⟨hslot, hother, hok, hstoring, hbridges⟩ := setSlot_slots (s := countErase 5 n
    { s with graphs := { s.graphs with storing := none } }) ok (if ok then some s.graphs.staged else none) hn
  have hgraphs : (graphStoreDone ok s).graphs = (slotStored n ok s).graphs := hend.graphs.trans hkept.graphs
  refine ⟨?_, ?_, ?_, ?_, ?_, ?_⟩
  · rw [hgraphs]
    exact hstoring.trans (by rw [herase.graphs])
  · rw [stageState, hend.rd (by constructor <;> decide), State.rd_wr_same _ _ _ _ (by decide)]
    exact Nat.mod_eq_of_lt hbefore
  · rw [slotImage_congr hgraphs]
    exact hslot
  · rw [slotImage_congr hgraphs]
    exact hother.trans (slotImage_congr (s := { s with graphs := { s.graphs with storing := none } }) herase.graphs (1 - n))
  · rw [hend.rd (slotOkFld_staging n), slotOkFld_apart, hkept.rd (slotOkFld_staging n)]
    exact hok
  · rw [hend.bridges, State.wr_bridges, hkept.bridges]
    exact hbridges.trans herase.bridges

end

/-! ### The start slot -/

section
variable {h : Hdr} {n b : Nat} {s : State}

/-- The valid copy and the retained image take the start slot (R416). -/
def startSlotTaken (n : Nat) (s : State) : State :=
  let s1 := match chosenCopy s with
    | some k =>
      let t := setCopy k (withStartSlot n (s.optCopy k)) s
      { t with rst := { t.rst with rewrite := some (k, t.now + tMs) } }
    | none => s
  State.wr { s1 with rst := { s1.rst with retained := s1.rst.retained.map (withStartSlot n) } } R.GR_STORE.START_SLOT 0 n

theorem graphStartChecks_done (hn : n ≤ 2) (hopt : s.rd R.ID_STATUS.OPT_SRC ≠ 3) (hrun : s.rst.optRun = none) :
    graphStartChecks n s = ⟨stDone, [], none, startSlotTaken n s⟩ := by
  rw [graphStartChecks, if_neg (by omega), if_neg hopt, hrun, if_neg (by decide)]
  rfl

theorem startSlotTaken_eq : ∃ rst, startSlotTaken n s = State.wr { s with rst := rst } R.GR_STORE.START_SLOT 0 n ∧
    rst.retained = s.rst.retained.map (withStartSlot n) ∧
    ∀ k, chosenCopy s = some k → State.optCopy { s with rst := rst } k = withStartSlot n (s.optCopy k) := by
  cases hk : chosenCopy s with
  | none => exact ⟨_, by rw [startSlotTaken, hk], rfl, fun k hk => by cases hk⟩
  | some k =>
    refine ⟨_, by rw [startSlotTaken, hk]; rfl, ?_, ?_⟩
    · by_cases h0 : k = 0
      · simp [setCopy, h0]
      · simp [setCopy, h0]
    · rintro _ ⟨⟩
      by_cases h0 : k = 0
      · simp [setCopy, State.optCopy, h0]
      · simp [setCopy, State.optCopy, h0]

/-! ### GRAPH_UNLOAD and GRAPH_INFO -/

theorem unloadGraph_br : ((unloadGraph b s).br b).ram = none := by
  simp only [unloadGraph, State.br_wr, State.br_setBr_same]

theorem unloadGraph_other {c : Nat} (hc : c ≠ b) : (unloadGraph b s).br c = s.br c ∧
    (unloadGraph b s).rd R.BR_STATUS.IMAGE_OK c = s.rd R.BR_STATUS.IMAGE_OK c := by
  refine ⟨by simp only [unloadGraph, State.br_wr, State.br_setBr_ne s b _ hc], ?_⟩
  simp (disch := decide) only [unloadGraph, rd_wr_apart]
  rw [rd_wr_instance _ _ hc]
  rfl

theorem unloadGraph_regs : (unloadGraph b s).rd R.BR_STATUS.IMAGE_OK b = 0 ∧ (unloadGraph b s).rd R.GR_ID.IMAGE_ID b = 0 ∧
    modeOf (unloadGraph b s) b = modeOf s b := by
  refine ⟨?_, ?_, ?_⟩
  · simp (disch := decide) only [unloadGraph, rd_wr_apart]
    exact State.rd_wr_same _ _ _ _ (by decide)
  · simp (disch := decide) only [unloadGraph, rd_wr_apart]
    exact State.rd_wr_same _ _ _ _ (by decide)
  · simp (disch := decide) only [unloadGraph, modeOf, rd_wr_apart]
    rfl

theorem graphUnloadBody_done (hb : b < 4) (hm : modeOf s b = 0) :
    graphUnloadBody b s = ⟨stDone, [], none, unloadGraph b s⟩ := by
  rw [graphUnloadBody, if_neg (by omega), hm, if_neg (by decide)]
  rfl

theorem graphInfoBody_loaded {r : RamGraph} (hb : b < 4) (hram : (s.br b).ram = some r) (hok : imageOk s b = true) :
    graphInfoBody b s = ⟨stDone, le 4 (s.rd R.GR_ID.IMAGE_ID b) ++ padTo 32 r.gdig ++ padTo 32 r.sdig, none, s⟩ := by
  rw [graphInfoBody, if_neg (by omega), hram, hok]
  rfl

theorem graphInfoBody_empty (hb : b < 4) (hno : (s.br b).ram = none ∨ imageOk s b = false) :
    graphInfoBody b s = ⟨stDone, List.replicate 68 0, none, s⟩ := by
  rw [graphInfoBody, if_neg (by omega)]
  cases hram : (s.br b).ram with
  | none => rfl
  | some r =>
    have hok : imageOk s b = false := hno.resolve_left (by simp [hram])
    simp only [hok]
    rfl

end

/-! ### The statement -/

section
variable {h : Hdr} {n : Nat} {s : State}

/-- A store that has begun: its reply, STATE and the run. -/
theorem graphStore_begun (ha : cmdAuth (.graphStore h n) .any s = true) (hn : n < 2) (hr : stageReady s = true)
    (he : imageErr (used (.graphStore h n) s) s.graphs.staged = none) :
    exec (.graphStore h n) s = .next (signed (.graphStore h n) stAccepted [] s
      (beginRun 0x0305 h.seq 0 (storeBegun n (used (.graphStore h n) s)))) :=
  congrArg Host.Outcome.next (acceptCmd_calmSigned (k := graphStoreChecks h n) rfl ha rfl
    (graphStoreChecks_begun hn ((used_stageReady _).trans hr) (by rw [used_graphs, he])) (.inr rfl)
    (storeBegun_calm.aside (Aside.refl _).beginRun))

theorem graphStore_failed {e : GErr} (ha : cmdAuth (.graphStore h n) .any s = true) (hn : n < 2) (hr : stageReady s = true)
    (he : imageErr (used (.graphStore h n) s) s.graphs.staged = some e) :
    exec (.graphStore h n) s = .next (signed (.graphStore h n) e.status [] s
      (refusedBy (.graphStore h n) e.status (recordStage e (used (.graphStore h n) s)))) :=
  congrArg Host.Outcome.next (acceptCmd_refusedSigned (.graphStore h n) h 0x0305 (le 1 n) .any _ (graphStoreChecks h n) s rfl ha
    rfl e.status none _ (graphStoreChecks_failed hn ((used_stageReady _).trans hr) (by rw [used_graphs, he]))
    (by rw [recordStage, (setStageErr_onlyRegs ..).host, used_host]))

theorem graphStart_done (ha : cmdAuth (.graphStart h n) .any s = true) (hn : n ≤ 2)
    (hopt : s.rd R.ID_STATUS.OPT_SRC ≠ 3) (hrun : s.rst.optRun = none) :
    exec (.graphStart h n) s = .next (signed (.graphStart h n) stDone [] s (startSlotTaken n (used (.graphStart h n) s))) := by
  have hcalm : Calm (used (.graphStart h n) s) (startSlotTaken n (used (.graphStart h n) s)) := by
    obtain ⟨rst, hs, -, -⟩ := startSlotTaken_eq (n := n) (s := used (.graphStart h n) s)
    rw [hs]
    exact (Calm.refl _).same.wr
  exact congrArg Host.Outcome.next (acceptCmd_calmSigned (k := graphStartChecks n) rfl ha rfl
    (graphStartChecks_done hn (by rwa [used_rd _ s _ _ _ (by decide)]) (by rw [used_rst, hrun])) (.inl rfl) hcalm)

end

/-- Settles O31: the parts of the store, each with what the log and the end of a run keep of it. -/
theorem graphStoreAndUnload : Obligations.GraphStoreAndUnload := by
  intro h s
  refine ⟨fun n ha hn hr => ⟨fun he => ?_, fun e he => ?_⟩, fun ok hf => ?_, fun n st ok hs hf hn hst => ?_,
    fun n ha hn hopt hrun => ?_, fun b hr hb hm => ?_, fun b hr hb => ⟨fun r hram hok => ?_, fun hno => ?_⟩⟩
  · refine ⟨_, graphStore_begun ha hn hr he, (beginRun_stageState ..).trans storeBegun_state, ?_, isRunning_beginRun ..⟩
    rw [beginRun_graphs, storeBegun_graphs, used_graphs, used_stageState]
  · refine ⟨_, graphStore_failed ha hn hr he, ?_⟩
    exact ((recordRefusal_graphs ..).trans (by rw [recordStage, (setStageErr_onlyRegs ..).1])).trans (used_graphs _ s)
  · rw [exec_graphStoreDone, graphStoreDone]
    cases s.graphs.storing with
    | none => rfl
    | some x => simp only [ne_eq, hf, not_false_eq_true, if_true]
  · exact ⟨_, exec_graphStoreDone ok, graphStoreDone_slots ok hs hf hn hst⟩
  · obtain ⟨rst, hs, hret, hcopy⟩ := startSlotTaken_eq (n := n) (s := used (.graphStart h n) s)
    have hchosen : chosenCopy (used (.graphStart h n) s) = chosenCopy s := by rw [chosenCopy, chosenCopy, used_rst]
    refine ⟨_, graphStart_done ha hn hopt hrun, ?_⟩
    rw [hs]
    refine ⟨?_, ?_, fun k hk => ?_, used_bridges _ s, used_graphs _ s⟩
    · rw [State.rd_wr_same _ _ _ _ (by decide)]
      exact Nat.mod_eq_of_lt (show n < 4 by omega)
    · exact hret.trans (by rw [used_rst])
    · refine (hcopy k (hchosen.trans hk)).trans ?_
      rw [State.optCopy, State.optCopy, used_rst]
  · obtain ⟨hok, hid, hmode⟩ := unloadGraph_regs (b := b) (s := s)
    exact ⟨_, congrArg Host.Outcome.next (acceptCmd_calm rfl hr (graphUnloadBody_done hb hm) (.inl rfl)
      (Calm.refl s).unloadGraph), unloadGraph_br, hok, hid, hmode.trans hm, fun c _ hc => unloadGraph_other hc⟩
  · exact congrArg Host.Outcome.next (acceptCmd_calm rfl hr (graphInfoBody_loaded hb hram hok) (.inl rfl) (.refl s))
  · exact congrArg Host.Outcome.next (acceptCmd_calm rfl hr (graphInfoBody_empty hb hno) (.inl rfl) (.refl s))

end Sys2Proof.Machine
end
section
/-! O30: GRAPH_CHECK and GRAPH_LOAD, in full and in swap style (R69, R71 to R74). -/

namespace Sys2Proof.Machine

open Sys2Proof

/-! ### A loop that reaches a property -/

/-- A property that one pass of a loop sets and the others keep, on states of an invariant that every pass keeps. -/
theorem foldl_reaches {σ α : Type} {p q : σ → Prop} {f : σ → α → σ} {l : List α} {x : α} (hx : x ∈ l)
    (hq : ∀ v, ∀ y ∈ l, q v → q (f v y)) (hset : ∀ v, q v → p (f v x)) (hkeep : ∀ v, ∀ y ∈ l, q v → p v → p (f v y))
    {s : σ} (hs : q s) : p (l.foldl f s) := by
  have hrest : ∀ (m : List α) (v : σ), (∀ y ∈ m, y ∈ l) → q v → p v → p (m.foldl f v) := by
    intro m
    induction m with
    | nil => exact fun v _ _ hp => hp
    | cons y m ih =>
      intro v hm hv hp
      have hy := hm y List.mem_cons_self
      exact ih (f v y) (fun z hz => hm z (List.mem_cons_of_mem y hz)) (hq v y hy hv) (hkeep v y hy hv hp)
  obtain ⟨l1, l2, rfl⟩ := List.append_of_mem hx
  rw [List.foldl_append, List.foldl_cons]
  have hq1 : q (l1.foldl f s) := List.foldlRecOn l1 f hs fun v hv y hy => hq v y (List.mem_append_left _ hy) hv
  have hq2 := hq _ x hx hq1
  exact hrest l2 _ (fun y hy => List.mem_append_right l1 (List.mem_cons_of_mem x hy)) hq2 (hset _ hq1)

/-! ### GRAPH_CHECK -/

section
variable {h : Hdr} {s : State}

theorem graphCheckBody_passed (hr : stageReady s = true)
    (he : (imageErr s s.graphs.staged <|> selErr s (sections s.graphs.staged) false) = none) :
    graphCheckBody s = ⟨stDone, [], none, (setStageErr 0 0 0xFFF s).wr R.GR_STAGE.STATE 0 3⟩ := by
  rw [graphCheckBody, hr, if_neg (by decide), he]
  rfl

theorem graphCheckBody_failed {e : GErr} (hr : stageReady s = true)
    (he : (imageErr s s.graphs.staged <|> selErr s (sections s.graphs.staged) false) = some e) :
    graphCheckBody s = ⟨e.status, [], none, (recordStage e s).wr R.GR_STAGE.STATE 0 4⟩ := by
  rw [graphCheckBody, hr, if_neg (by decide), he]

/-- The code is recorded beside STATE, in one register. -/
theorem stageChecked (code dir rcd n : Nat) (s : State) (hn : n < 8) :
    stageState ((setStageErr code dir rcd s).wr R.GR_STAGE.STATE 0 n) = n ∧
      ((setStageErr code dir rcd s).wr R.GR_STAGE.STATE 0 n).rd R.GR_STAGE.GRAPH_ERR = code % 2 ^ R.GR_STAGE.GRAPH_ERR.width ∧
      OnlyRegs s ((setStageErr code dir rcd s).wr R.GR_STAGE.STATE 0 n) [A.GR_STAGE] := by
  refine ⟨(State.rd_wr_same _ _ _ _ (by decide)).trans (Nat.mod_eq_of_lt hn), ?_,
    ((setStageErr_onlyRegs code dir rcd s).trans (OnlyRegs.wr _ R.GR_STAGE.STATE 0 n)).mono (by decide)⟩
  rw [setStageErr, rd_wr_apart, rd_wr_apart, rd_wr_apart, State.rd_wr_same _ _ _ _ (by decide)]

/-! ### A section in image RAM -/

/-- A section as image RAM holds it, with its two digests (R68, R73). -/
def ramOf (x : Sect) : RamGraph := ⟨x.bytes, graphDigest x.bytes, structDigest x.bytes, false⟩

/-- Bridge `b` has a graph of the list loaded. -/
def Loaded (l : List Sect) (b : Nat) (s : State) : Prop :=
  s.rd R.BR_STATUS.IMAGE_OK b = 1 ∧ ∃ y ∈ l, y.g.bridge = b ∧ (s.br b).ram = some (ramOf y)

section
variable (id source : Nat) (x : Sect) (s : State)

theorem describeGraph_br (b c : Nat) (r : RamGraph) : (describeGraph b id source r s).br c = s.br c := by
  simp only [describeGraph, State.br_wr]

theorem describeGraph_imageOk (b : Nat) (r : RamGraph) : (describeGraph b id source r s).rd R.BR_STATUS.IMAGE_OK b = 1 := by
  simp (disch := decide) only [describeGraph, rd_wr_apart]
  exact State.rd_wr_same _ _ _ _ (by decide)

theorem describeGraph_imageOk_other {b c : Nat} (r : RamGraph) (hc : c ≠ b) :
    (describeGraph b id source r s).rd R.BR_STATUS.IMAGE_OK c = s.rd R.BR_STATUS.IMAGE_OK c := by
  simp (disch := decide) only [describeGraph, rd_wr_apart]
  exact rd_wr_instance _ _ hc

theorem describeGraph_mode (b c : Nat) (r : RamGraph) : modeOf (describeGraph b id source r s) c = modeOf s c := by
  simp (disch := decide) only [describeGraph, modeOf, rd_wr_apart]

theorem installGraph_br : (installGraph id source x s).br x.g.bridge = { s.br x.g.bridge with ram := some (ramOf x) } := by
  rw [installGraph, describeGraph_br, State.br_setBr_same]
  rfl

theorem installGraph_br_other {c : Nat} (hc : c ≠ x.g.bridge) : (installGraph id source x s).br c = s.br c := by
  rw [installGraph, describeGraph_br, State.br_setBr_ne s _ _ hc]

theorem installGraph_mode (c : Nat) : modeOf (installGraph id source x s) c = modeOf s c := by
  rw [installGraph, describeGraph_mode]
  rfl

theorem installGraph_placed (c : Nat) : ((installGraph id source x s).br c).placed = (s.br c).placed := by
  by_cases hc : c = x.g.bridge
  · rw [hc, installGraph_br]
  · rw [installGraph_br_other _ _ _ _ hc]

theorem installGraph_host : (installGraph id source x s).host = s.host := by
  simp only [installGraph, describeGraph, State.wr_host, State.setBr_host]

end

theorem Calm.installGraph {t : State} {id source : Nat} {x : Sect} (h : Calm s t) : Calm s (installGraph id source x t) :=
  h.setBr.wr.wr.wr.wr.wr.wr.wr.wr.wr.wr

section
variable {l : List Sect} {b : Nat}

theorem Loaded.installed {id source : Nat} {y : Sect} (hy : y ∈ l) (hb : y.g.bridge = b) :
    Loaded l b (installGraph id source y s) := by
  subst hb
  exact ⟨describeGraph_imageOk .., y, hy, rfl, congrArg Bridge.ram (installGraph_br ..)⟩

/-- One more graph loaded: of this bridge it takes the place of the one before, of another it changes nothing here. -/
theorem Loaded.installGraph {id source : Nat} {y : Sect} (hy : y ∈ l) (h : Loaded l b s) :
    Loaded l b (installGraph id source y s) := by
  by_cases hb : y.g.bridge = b
  · exact .installed hy hb
  · obtain ⟨hok, z, hz, hzb, hram⟩ := h
    refine ⟨?_, z, hz, hzb, (congrArg Bridge.ram (installGraph_br_other id source y s (Ne.symm hb))).trans hram⟩
    exact (describeGraph_imageOk_other _ _ _ _ (Ne.symm hb)).trans hok

/-- What keeps the bridges and the registers of the modes keeps a loaded graph. -/
theorem Loaded.modes {t : State} (hb : b < 4) (h : Loaded l b s) (hm : Modes s t) (hbr : t.bridges = s.bridges) :
    Loaded l b t := by
  obtain ⟨hok, y, hy, hyb, hram⟩ := h
  exact ⟨(hm.rd hb).trans hok, y, hy, hyb, (congrArg Bridge.ram (State.br_congr hbr b)).trans hram⟩

end

/-! ### A swap -/

section
variable {id b : Nat} {l : List Sect} {x : Sect} {p : Placed}

/-- A bridge with no graph placed counts the swap at once (R74). -/
theorem swapGraph_unplaced (hp : (s.br x.g.bridge).placed = none) : swapGraph id x s =
    logEvent 0x0050 (2 ^ x.g.bridge) (le 4 id) ((installGraph id 1 x s).countUp R.GR_EVENTS.SWAPS x.g.bridge) := by
  rw [swapGraph, installGraph_placed, hp]

theorem swapGraph_unplaced_modes (hp : (s.br x.g.bridge).placed = none) :
    Modes (installGraph id 1 x s) (swapGraph id x s) := by
  rw [swapGraph_unplaced hp]
  exact (Modes.refl _).wr.frame (Aside.refl _).logEvent.toFrame

theorem swapGraph_unplaced_bridges (hp : (s.br x.g.bridge).placed = none) :
    (swapGraph id x s).bridges = (installGraph id 1 x s).bridges := by
  rw [swapGraph_unplaced hp, logEvent_bridges, State.countUp_eq, State.wr_bridges]

/-- The switch of a placed bridge waits for its input point. -/
structure SwapWaits (l : List Sect) (b : Nat) (p : Placed) (t : State) : Prop where
  held : bitAt t.host.heldMask b = true
  graph : ∃ x ∈ l, x.g.bridge = b ∧ (t.br b).placed = some { p with swap := some x.g } ∧ (t.br b).ram = some (ramOf x)

/-- Bridge `b` stays in its mode with the placement `p`, which may have a swap waiting, and the host port serves. -/
structure SwapTakes (b m : Nat) (p : Placed) (t : State) : Prop where
  serving : t.host.serving = true
  mode : modeOf t b = m
  placed : ∃ w, (t.br b).placed = some { p with swap := w }

theorem holdReply_br (k due : Nat) (s : State) (c : Nat) : (holdReply k due s).br c = s.br c := rfl

theorem holdReply_mode (k due : Nat) (s : State) (c : Nat) : modeOf (holdReply k due s) c = modeOf s c := rfl

theorem holdReply_host (k due : Nat) (s : State) : (holdReply k due s).host.heldMask = s.host.heldMask ||| 2 ^ k ∧
    (holdReply k due s).host.serving = s.host.serving := ⟨rfl, rfl⟩

/-- The bridge of a section with the graph loaded and the swap waiting (R74). -/
def swapStaged (id : Nat) (x : Sect) (p : Placed) (s : State) : State :=
  (installGraph id 1 x s).setBr x.g.bridge
    { (installGraph id 1 x s).br x.g.bridge with placed := some { p with swap := some x.g } }

theorem setBr_mode (b : Nat) (v : Bridge) (s : State) (c : Nat) : modeOf (s.setBr b v) c = modeOf s c := rfl

theorem swapStaged_mode (id : Nat) (x : Sect) (p : Placed) (s : State) (c : Nat) :
    modeOf (swapStaged id x p s) c = modeOf s c := by
  rw [swapStaged, setBr_mode, installGraph_mode]

/-- What waited before is no part of it. -/
theorem swapStaged_swap (id : Nat) (x : Sect) (p : Placed) (w : Option Graph) (s : State) :
    swapStaged id x { p with swap := w } s = swapStaged id x p s := rfl

theorem swapStaged_host (id : Nat) (x : Sect) (p : Placed) (s : State) : (swapStaged id x p s).host = s.host := by
  rw [swapStaged, State.setBr_host, installGraph_host]

theorem swapGraph_held (hp : (s.br x.g.bridge).placed = some p) : swapGraph id x s = holdReply x.g.bridge
    ((swapStaged id x p s).now + 80 * 400000 + 12000 +
      p.graph.beatHalf * presentPer (swapStaged id x p s) x.g.bridge / 2) (swapStaged id x p s) := by
  simp only [swapGraph, installGraph_placed, hp, swapStaged]

/-- One graph loaded in swap style onto a bridge with a graph placed. -/
theorem swapGraph_placed {m : Nat} (hx : x ∈ l) (hb : x.g.bridge = b) (h : SwapTakes b m p s) :
    SwapTakes b m p (swapGraph id x s) ∧ SwapWaits l b p (swapGraph id x s) := by
  subst hb
  obtain ⟨hserve, hmode, w, hp⟩ := h
  obtain ⟨due, hswap⟩ : ∃ due, swapGraph id x s = holdReply x.g.bridge due (swapStaged id x p s) :=
    ⟨_, by rw [swapGraph_held hp, swapStaged_swap]⟩
  have hbr : (swapGraph id x s).br x.g.bridge =
      { (installGraph id 1 x s).br x.g.bridge with placed := some { p with swap := some x.g } } := by
    rw [hswap, holdReply_br, swapStaged, State.br_setBr_same]
  have hhost : (swapGraph id x s).host.heldMask = s.host.heldMask ||| 2 ^ x.g.bridge ∧
      (swapGraph id x s).host.serving = s.host.serving := by
    have hheld := holdReply_host x.g.bridge due (swapStaged id x p s)
    rwa [← hswap, swapStaged_host] at hheld
  refine ⟨⟨hhost.2.trans hserve, ?_, some x.g, congrArg Bridge.placed hbr⟩, ⟨?_, x, hx, rfl, congrArg Bridge.placed hbr, ?_⟩⟩
  · rw [hswap, holdReply_mode]
    exact (swapStaged_mode ..).trans hmode
  · rw [hhost.1, bitAt, Nat.testBit_or, Nat.testBit_two_pow_self, Bool.or_true]
  · rw [hbr]
    exact congrArg Bridge.ram (installGraph_br ..)

end

/-! ### GRAPH_LOAD after its checks -/

/-- The sections that a mask selects. -/
def selected (mask : Nat) (img : List Byte) : List Sect := (sections img).filter (fun x => bitAt mask x.g.bridge)

/-- The checks of a load over the selected sections. -/
def loadErr (mask style : Nat) (s : State) (img : List Byte) : Option GErr :=
  imageErr s img <|> selErr s (selected mask img) (style == 1)

section
variable {mask style b : Nat} {img : List Byte}

theorem mem_selected {x : Sect} : x ∈ selected mask img ↔ x ∈ sections img ∧ bitAt mask x.g.bridge = true := List.mem_filter

theorem mem_maskBits {n : Nat} : b ∈ maskBits n mask ↔ b < n ∧ bitAt mask b = true := by
  rw [maskBits, List.mem_filter, List.mem_range]

/-- A bit of a mask of four bridges names one of them. -/
theorem bridge_lt (hm : mask < 16) (hb : bitAt mask b = true) : b < 4 := by
  by_contra hn
  have hlow : mask.testBit b = false :=
    Nat.testBit_lt_two_pow (hm.trans_le (Nat.pow_le_pow_right (n := 2) (by decide) (show 4 ≤ b by omega)))
  rw [bitAt, hlow] at hb
  cases hb

/-- Every bridge of the mask has a section that the mask selects. -/
theorem covered_selected (hall : (maskBits 4 mask).all (fun b => (sections img).any (fun x => x.g.bridge = b)) = true) :
    (maskBits 4 mask).all (fun b => (selected mask img).any (fun x => x.g.bridge = b)) = true := by
  simp only [List.all_eq_true, List.any_eq_true, decide_eq_true_eq] at hall ⊢
  intro b hb
  obtain ⟨x, hx, rfl⟩ := hall b hb
  exact ⟨x, mem_selected.2 ⟨hx, (mem_maskBits.1 hb).2⟩, rfl⟩

/-- What a failed load records changes registers alone. -/
theorem recordLoad_regs (e : GErr) (l : List Nat) (s : State) : ∃ regs, recordLoad e l s = { s with regs := regs } := by
  unfold recordLoad
  refine List.foldlRecOn (motive := fun t => ∃ regs, t = { s with regs := regs }) _ _ ⟨_, (setStageErr_onlyRegs ..).1⟩ ?_
  rintro t ⟨regs, rfl⟩ b -
  unfold setBridgeErr
  split
  · exact ⟨_, rfl⟩
  · exact ⟨regs, rfl⟩

variable (h0 : 0 < mask) (h16 : mask < 16) (hr : stageReady s = true)
include h0 h16 hr

theorem graphLoadChecks_failed {e : GErr} (hs : style < 2) (he : loadErr mask style s s.graphs.staged = some e) :
    graphLoadChecks mask style s = ⟨e.status, [], none, recordLoad e (maskBits 4 mask) s⟩ := by
  have hn : ¬ (mask = 0 ∨ 16 ≤ mask ∨ 1 < style) := by omega
  simp only [graphLoadChecks, if_neg hn, hr, Bool.true_eq_false, if_false]
  simp only [loadErr, selected] at he
  rw [he]

theorem graphLoadChecks_full (he : loadErr mask 0 s s.graphs.staged = none)
    (hall : (maskBits 4 mask).all (fun b => (selected mask s.graphs.staged).any (fun x => x.g.bridge = b)) = true)
    (hm : (maskBits 4 mask).all (fun b => decide (modeOf s b = 0)) = true) : graphLoadChecks mask 0 s =
      ⟨stDone, [], none, logEvent 0x0050 mask (le 4 (leAt s.graphs.staged 0x10 4)) ((selected mask s.graphs.staged).foldl
        (fun t x => installGraph (leAt s.graphs.staged 0x10 4) 1 x t) (setStageErr 0 0 0xFFF s))⟩ := by
  have hn : ¬ (mask = 0 ∨ 16 ≤ mask ∨ 1 < 0) := by omega
  simp only [graphLoadChecks, if_neg hn, hr, Bool.true_eq_false, if_false]
  simp only [loadErr, selected] at he hall
  rw [he]
  simp only [hall, hm, Bool.not_true, Bool.false_eq_true, if_false, if_true]
  rfl

theorem graphLoadChecks_swap (he : loadErr mask 1 s s.graphs.staged = none)
    (hall : (maskBits 4 mask).all (fun b => (selected mask s.graphs.staged).any (fun x => x.g.bridge = b)) = true)
    (hm : (maskBits 4 mask).all (swapMode s) = true) : graphLoadChecks mask 1 s =
      ⟨stDone, [], none, (selected mask s.graphs.staged).foldl
        (fun t x => swapGraph (leAt s.graphs.staged 0x10 4) x t) (setStageErr 0 0 0xFFF s)⟩ := by
  have hn : ¬ (mask = 0 ∨ 16 ≤ mask ∨ 1 < 1) := by omega
  simp only [graphLoadChecks, if_neg hn, hr, Bool.true_eq_false, if_false]
  simp only [loadErr, selected] at he hall
  rw [he]
  simp only [hall, hm, Bool.not_true, Bool.false_eq_true, if_false, one_ne_zero]
  rfl

end

/-! ### What the loops over the sections leave -/

section
variable {mask id b : Nat} {img : List Byte}

theorem installs_calm : Calm s ((selected mask img).foldl (fun t x => installGraph id 1 x t) s) :=
  (Calm.refl s).foldl fun _ _ h1 => h1.installGraph

theorem installs_loaded {x : Sect} (hx : x ∈ selected mask img) :
    Loaded (selected mask img) x.g.bridge ((selected mask img).foldl (fun t x => installGraph id 1 x t) s) :=
  foldl_reaches (q := fun _ => True) hx (fun _ _ _ _ => trivial) (fun _ _ => .installed hx rfl)
    (fun _ _ hy _ hl => hl.installGraph hy) trivial

/-- No bridge of the mask has a graph placed, and the host port stays as it is in `s`. -/
structure NonePlaced (mask : Nat) (s t : State) : Prop extends Calm s t where
  none : ∀ b, bitAt mask b = true → (t.br b).placed = .none

theorem NonePlaced.swapGraph {t : State} {x : Sect} (hx : x ∈ selected mask img) (h : NonePlaced mask s t) :
    NonePlaced mask s (swapGraph id x t) := by
  have hp := h.none _ (mem_selected.1 hx).2
  refine ⟨h.toCalm.installGraph.trans (swapGraph_unplaced_modes hp).toCalm, fun b hb => ?_⟩
  rw [State.br_congr (swapGraph_unplaced_bridges hp), installGraph_placed, h.none b hb]

theorem swaps_calm (hn : ∀ b, bitAt mask b = true → (s.br b).placed = none) :
    Calm s ((selected mask img).foldl (fun t x => swapGraph id x t) s) :=
  (List.foldlRecOn (motive := NonePlaced mask s) _ _ ⟨.refl s, hn⟩ fun _ hv _ hx => hv.swapGraph hx).toCalm

theorem swaps_loaded {x : Sect} (h16 : mask < 16) (hx : x ∈ selected mask img)
    (hn : ∀ b, bitAt mask b = true → (s.br b).placed = none) :
    Loaded (selected mask img) x.g.bridge ((selected mask img).foldl (fun t x => swapGraph id x t) s) := by
  have hb : x.g.bridge < 4 := bridge_lt h16 (mem_selected.1 hx).2
  have hstep : ∀ v, ∀ y ∈ selected mask img, NonePlaced mask s v → Loaded (selected mask img) x.g.bridge (installGraph id 1 y v) →
      Loaded (selected mask img) x.g.bridge (swapGraph id y v) := fun v y hy hv hl => by
    have hp := hv.none _ (mem_selected.1 hy).2
    exact hl.modes hb (swapGraph_unplaced_modes hp) (swapGraph_unplaced_bridges hp)
  exact foldl_reaches (q := NonePlaced mask s) hx (fun _ _ hy hv => hv.swapGraph hy)
    (fun v hv => hstep v x hx hv (.installed hx rfl)) (fun v y hy hv hl => hstep v y hy hv (hl.installGraph hy))
    ⟨.refl s, hn⟩

/-- The sections of one bridge with a graph placed, of which the last waits. -/
theorem swaps_wait {m : Nat} {p : Placed} {x : Sect} (hx : x ∈ selected (2 ^ b) img) (ht : SwapTakes b m p s) :
    SwapTakes b m p ((selected (2 ^ b) img).foldl (fun t x => swapGraph id x t) s) ∧
      SwapWaits (selected (2 ^ b) img) b p ((selected (2 ^ b) img).foldl (fun t x => swapGraph id x t) s) := by
  have hbridge : ∀ y ∈ selected (2 ^ b) img, y.g.bridge = b := fun y hy => by
    have hbit := (mem_selected.1 hy).2
    rw [bitAt, Nat.testBit_two_pow, decide_eq_true_eq] at hbit
    exact hbit.symm
  have hstep : ∀ v, ∀ y ∈ selected (2 ^ b) img, SwapTakes b m p v →
      SwapTakes b m p (swapGraph id y v) ∧ SwapWaits (selected (2 ^ b) img) b p (swapGraph id y v) := fun v y hy hv =>
    swapGraph_placed hy (hbridge y hy) hv
  exact ⟨List.foldlRecOn _ _ ht fun v hv y hy => (hstep v y hy hv).1,
    foldl_reaches hx (fun v y hy hv => (hstep v y hy hv).1) (fun v hv => (hstep v x hx hv).2)
      (fun v y hy hv _ => (hstep v y hy hv).2) ht⟩

end

end

/-! ### A reply held back -/

/-- An authenticated command that leaves its reply to wait: the reply is stored. -/
theorem acceptCmd_heldSigned {c : Instr} {h : Hdr} {op : Nat} {ps : List Byte} {body k : State → Res} {s u : State}
    {key : Option (List Byte)} (hc : hostRow c = some (h, op, ps)) (hr : cmdAuth c .any s = true)
    (hw : body s = withAuth h op ps .any s k) (hb : k (used c s) = ⟨stDone, [], key, u⟩) (hh : u.host.heldMask ≠ 0)
    (hs : u.host.serving = true) : ∃ r, acceptCmd h op ps body s = { u with host := { u.host with held := some r } } := by
  simp only [cmdAuth, hc, cmdReady, Bool.and_eq_true, decide_eq_true_eq] at hr
  have hk : k (authConsume h stDone s) = ⟨stDone, [], key, u⟩ := by
    simpa only [used, hdrOf, hc] using hb
  obtain ⟨p1, p2, p3⟩ := ready_parts s h op ps hr.1
  refine ⟨⟨h.can, op, packetBytes (commandPacket h op ps), replyBytes h op ⟨stDone, [], some (authKey h s), u⟩ false,
    replyBytes h op ⟨stInternal, [], some (authKey h s), u⟩ false, u.now⟩, ?_⟩
  simp only [acceptCmd, expireHeld_zero s (takes_held s _ p1), p1, p2, Bool.true_eq_false, if_false, p3, if_true, hw,
    withAuth, hr.2, hk, giveReply, recordRefusal, true_or, hs, hh]
  rfl

/-! ### The statement -/

section
variable {h : Hdr} {mask style b : Nat} {s : State}

theorem used_swapMode (c : Instr) (hb : b < 4) : swapMode (used c s) b = swapMode s b := by
  have hstep : stepOf (used c s) b = stepOf s b :=
    used_rd c s _ _ _ (by simp only [fldAddr, R.BR_STATUS.STEP]; omega)
  simp only [swapMode, used_mode c s hb, hstep]

theorem setStageErr_calm (code dir rcd : Nat) : Calm s (setStageErr code dir rcd s) := (Calm.refl s).wr.wr.wr

theorem exec_graphLoad : exec (.graphLoad h mask style) s =
    .next (acceptCmd h 0x0304 (le 1 mask ++ le 1 style) (graphLoadBody h mask style) s) := rfl

/-- A load whose checks fail leaves every bridge. -/
theorem graphLoad_failed {e : GErr} (ha : cmdAuth (.graphLoad h mask style) .any s = true) (hr : stageReady s = true)
    (h0 : 0 < mask) (h16 : mask < 16) (hs : style < 2)
    (he : loadErr mask style (used (.graphLoad h mask style) s) s.graphs.staged = some e) :
    ∃ t, exec (.graphLoad h mask style) s = .next (signed (.graphLoad h mask style) e.status [] s t) ∧ t.bridges = s.bridges := by
  have himg := used_graphs (.graphLoad h mask style) s
  have hready := (used_stageReady (s := s) (.graphLoad h mask style)).trans hr
  obtain ⟨regs, hrec⟩ := recordLoad_regs e (maskBits 4 mask) (used (.graphLoad h mask style) s)
  have hbody := graphLoadChecks_failed (style := style) h0 h16 hready hs (by rw [himg]; exact he)
  refine ⟨_, congrArg Host.Outcome.next (acceptCmd_refusedSigned (.graphLoad h mask style) h 0x0304 _ .any _
    (graphLoadChecks mask style) s rfl ha rfl e.status none _ hbody (by rw [hrec]; exact used_host _ s)), ?_⟩
  refine (recordRefusal_bridges ..).trans ?_
  rw [hrec]
  exact used_bridges _ s

/-- A load in full style, its checks passed and every bridge of its mask SEALED. -/
theorem graphLoad_full (ha : cmdAuth (.graphLoad h mask 0) .any s = true) (hr : stageReady s = true) (h0 : 0 < mask)
    (h16 : mask < 16) (he : loadErr mask 0 (used (.graphLoad h mask 0) s) s.graphs.staged = none)
    (hall : (maskBits 4 mask).all (fun b => (sections s.graphs.staged).any (fun x => x.g.bridge = b)) = true)
    (hm : ∀ b, bitAt mask b = true → modeOf s b = 0) :
    ∃ t, exec (.graphLoad h mask 0) s = .next (signed (.graphLoad h mask 0) stDone [] s t) ∧
      ∀ x ∈ selected mask s.graphs.staged, Loaded (selected mask s.graphs.staged) x.g.bridge t := by
  have himg := used_graphs (.graphLoad h mask 0) s
  have hmode : (maskBits 4 mask).all (fun b => decide (modeOf (used (.graphLoad h mask 0) s) b = 0)) = true := by
    simp only [List.all_eq_true, decide_eq_true_eq]
    intro b hb
    obtain ⟨hb4, hbit⟩ := mem_maskBits.1 hb
    rw [used_mode _ s hb4, hm b hbit]
  have hbody := graphLoadChecks_full h0 h16 ((used_stageReady _).trans hr) (by rw [himg]; exact he)
    (by rw [himg]; exact covered_selected hall) hmode
  rw [himg] at hbody
  refine ⟨_, congrArg Host.Outcome.next (acceptCmd_calmSigned (k := graphLoadChecks mask 0) rfl ha rfl hbody (.inl rfl)
    (((setStageErr_calm ..).trans installs_calm).aside (Aside.refl _).logEvent)), fun x hx => ?_⟩
  exact (installs_loaded hx).modes (bridge_lt h16 (mem_selected.1 hx).2) (Aside.refl _).logEvent.toFrame.modes (logEvent_bridges ..)

section
variable (ha : cmdAuth (.graphLoad h mask 1) .any s = true) (hr : stageReady s = true) (h0 : 0 < mask) (h16 : mask < 16)
  (he : loadErr mask 1 (used (.graphLoad h mask 1) s) s.graphs.staged = none)
  (hall : (maskBits 4 mask).all (fun b => (sections s.graphs.staged).any (fun x => x.g.bridge = b)) = true)
  (hm : ∀ b, bitAt mask b = true → swapMode s b = true)
include hr h0 h16 he hall hm

/-- A load in swap style that every bridge of its mask takes. -/
theorem graphLoadChecks_taken : graphLoadChecks mask 1 (used (.graphLoad h mask 1) s) = ⟨stDone, [], none,
    (selected mask s.graphs.staged).foldl (fun t x => swapGraph (leAt s.graphs.staged 0x10 4) x t)
      (setStageErr 0 0 0xFFF (used (.graphLoad h mask 1) s))⟩ := by
  have himg := used_graphs (.graphLoad h mask 1) s
  have hswap : (maskBits 4 mask).all (swapMode (used (.graphLoad h mask 1) s)) = true := by
    simp only [List.all_eq_true]
    intro b hb
    obtain ⟨hb4, hbit⟩ := mem_maskBits.1 hb
    rw [used_swapMode _ hb4, hm b hbit]
  have hbody := graphLoadChecks_swap h0 h16 ((used_stageReady (.graphLoad h mask 1)).trans hr) (by rw [himg]; exact he)
    (by rw [himg]; exact covered_selected hall) hswap
  rwa [himg] at hbody

include ha

theorem graphLoad_swapped (hn : ∀ b, bitAt mask b = true → (s.br b).placed = none) :
    ∃ t, exec (.graphLoad h mask 1) s = .next (signed (.graphLoad h mask 1) stDone [] s t) ∧
      ∀ x ∈ selected mask s.graphs.staged, Loaded (selected mask s.graphs.staged) x.g.bridge t := by
  have hnone : ∀ b, bitAt mask b = true →
      ((setStageErr 0 0 0xFFF (used (.graphLoad h mask 1) s)).br b).placed = none := fun b hb => by
    rw [State.br_congr ((setStageErr_onlyRegs ..).bridges.trans (used_bridges _ s)), hn b hb]
  exact ⟨_, congrArg Host.Outcome.next (acceptCmd_calmSigned (k := graphLoadChecks mask 1) rfl ha rfl
    (graphLoadChecks_taken hr h0 h16 he hall hm) (.inl rfl) ((setStageErr_calm ..).trans (swaps_calm hnone))),
    fun x hx => swaps_loaded h16 hx hnone⟩

end

/-- A load in swap style of one bridge with a graph placed holds its reply back. -/
theorem graphLoad_held {p : Placed} (ha : cmdAuth (.graphLoad h (2 ^ b) 1) .any s = true) (hr : stageReady s = true)
    (hb : b < 4) (he : loadErr (2 ^ b) 1 (used (.graphLoad h (2 ^ b) 1) s) s.graphs.staged = none)
    (hall : (maskBits 4 (2 ^ b)).all (fun b => (sections s.graphs.staged).any (fun x => x.g.bridge = b)) = true)
    (hm : swapMode s b = true) (hp : (s.br b).placed = some p) :
    ∃ u r, exec (.graphLoad h (2 ^ b) 1) s = .next { u with host := { u.host with held := some r } } ∧
      SwapTakes b (modeOf s b) p u ∧ SwapWaits (selected (2 ^ b) s.graphs.staged) b p u := by
  have h16 : 2 ^ b < 16 := Nat.pow_lt_pow_right (show 1 < 2 by decide) hb
  have hone : ∀ c, bitAt (2 ^ b) c = true → c = b := fun c hc => by
    rw [bitAt, Nat.testBit_two_pow, decide_eq_true_eq] at hc
    exact hc.symm
  have hbody := graphLoadChecks_taken (h := h) hr (Nat.two_pow_pos b) h16 he hall (fun c hc => by rw [hone c hc, hm])
  obtain ⟨x, hx⟩ : ∃ x, x ∈ selected (2 ^ b) s.graphs.staged := by
    have hcover := List.all_eq_true.1 (covered_selected hall) b (mem_maskBits.2 ⟨hb, Nat.testBit_two_pow_self⟩)
    obtain ⟨x, hx, -⟩ := List.any_eq_true.1 hcover
    exact ⟨x, hx⟩
  have hserve : s.host.serving = true := ready_serving s h 0x0304 _ (cmdAuth_ready rfl ha)
  have hstart : SwapTakes b (modeOf s b) p (setStageErr 0 0 0xFFF (used (.graphLoad h (2 ^ b) 1) s)) := by
    have honly := setStageErr_onlyRegs 0 0 0xFFF (used (.graphLoad h (2 ^ b) 1) s)
    refine ⟨?_, ?_, p.swap, ?_⟩
    · rw [honly.host, used_host, hserve]
    · rw [← used_mode (.graphLoad h (2 ^ b) 1) s hb, modeOf, setStageErr, rd_wr_apart, rd_wr_apart, rd_wr_apart, modeOf]
    · rw [honly.br, State.br_congr (used_bridges _ s), hp]
  obtain ⟨htakes, hwaits⟩ := swaps_wait (id := leAt s.graphs.staged 0x10 4) hx hstart
  have hmask : ∀ m, bitAt m b = true → m ≠ 0 := by
    rintro m hm rfl
    rw [bitAt, Nat.zero_testBit] at hm
    cases hm
  obtain ⟨r, hexec⟩ := acceptCmd_heldSigned (k := graphLoadChecks (2 ^ b) 1) (s := s) (body := graphLoadBody h (2 ^ b) 1)
    rfl ha rfl hbody (hmask _ hwaits.held) htakes.serving
  exact ⟨_, r, congrArg Host.Outcome.next hexec, htakes, hwaits⟩

end

/-- Settles O30: the checks decide the branch, and the loops over the selected sections leave the graphs. -/
theorem graphChecksAndLoads : Obligations.GraphChecksAndLoads := by
  refine ⟨fun h s hr hready => ⟨fun he => ?_, fun e he _ _ => ?_⟩,
    fun h mask style s u ha hr h0 h16 hsty hu => ⟨fun e he => ?_, fun he hall => ⟨?_, ?_, ?_⟩⟩⟩
  · obtain ⟨hstate, herr, honly⟩ := stageChecked 0 0 0xFFF 3 s (by decide)
    exact ⟨_, congrArg Host.Outcome.next (acceptCmd_calm rfl hr (graphCheckBody_passed hready he) (.inl rfl)
      (setStageErr_calm ..).wr), hstate, herr, honly⟩
  · obtain ⟨hstate, herr, honly⟩ := stageChecked e.code e.dir e.rcd 4 s (by decide)
    exact ⟨_, congrArg Host.Outcome.next (acceptCmd_refused (.graphCheck h) h 0x0303 [] _ s rfl hr e.status _
      (graphCheckBody_failed hready he) (by rw [recordStage, honly.host]) (by rw [recordStage, honly.host])), hstate, herr, honly⟩
  · subst hu
    exact graphLoad_failed ha hr h0 h16 hsty he
  · rintro rfl hm
    subst hu
    obtain ⟨t, hexec, hloaded⟩ := graphLoad_full ha hr h0 h16 he hall hm
    refine ⟨t, hexec, fun x hx hbit => ?_⟩
    obtain ⟨hok, y, hy, hyb, hram⟩ := hloaded x (mem_selected.2 ⟨hx, hbit⟩)
    exact ⟨hok, y, (mem_selected.1 hy).1, hyb, hram⟩
  · rintro rfl hm
    subst hu
    obtain ⟨t, hexec, hloaded⟩ := graphLoad_swapped ha hr h0 h16 he hall (fun b hb => (hm b hb).1) (fun b hb => (hm b hb).2)
    refine ⟨t, hexec, fun x hx hbit => ?_⟩
    obtain ⟨hok, y, hy, hyb, hram⟩ := hloaded x (mem_selected.2 ⟨hx, hbit⟩)
    exact ⟨hok, y, (mem_selected.1 hy).1, hyb, hram⟩
  · rintro b p rfl hb rfl hm hp
    subst hu
    obtain ⟨v, r, hexec, htakes, hwaits⟩ := graphLoad_held ha hr hb he hall hm hp
    obtain ⟨x, hx, hxb, hplaced, hram⟩ := hwaits.graph
    exact ⟨_, hexec, hwaits.held, rfl, htakes.mode, x, (mem_selected.1 hx).1, hxb, hplaced, hram⟩

end Sys2Proof.Machine
end

section
/-! SUPPORT. O28: what an edge of an encoder or of a pulse input does, one equation for each way it is taken (R142 to R147). -/

namespace Sys2Proof.Machine

open Sys2Proof

/-! ### The count of an encoder interface (R143, R144) -/

section
variable {now lv : Nat} {a c dir : Bool} {x : Enc}

theorem encFast_of_last {c0 : Int} {t0 : Nat} (hl : x.last = some (c0, t0)) : encFast now x = decide (now < t0 + 20) := by
  rw [encFast, hl]

theorem encFast_eq_false (h : ∀ c0 t0, x.last = some (c0, t0) → t0 + 20 ≤ now) : encFast now x = false := by
  rcases hl : x.last with - | ⟨c0, t0⟩
  · rw [encFast, hl]
  · rw [encFast_of_last hl, decide_eq_false (Nat.not_lt.2 (h c0 t0 hl))]

/-- An edge of one input alone, the last accepted edge not of the other input in this tick. -/
theorem encCount_single (hac : (a && c) = false) (hn : encTogether now a x = none) : encCount now lv a c dir x =
    ({ x with
        count := x.count + (if encUp lv a != dir then 1 else -1)
        last := some (x.count + (if encUp lv a != dir then 1 else -1), now)
        prev := some (a, if encUp lv a != dir then 1 else -1)
        fresh := true, rate := x.rate || encFast now x }, encFast now x) := by
  rw [encCount, hac, if_neg Bool.false_ne_true, hn]

/-- An edge of one input in the tick of the last edge of the other, whose step is taken back. -/
theorem encCount_together {d : Int} (hac : (a && c) = false) (hd : encTogether now a x = some d) : encCount now lv a c dir x =
    ({ x with
        count := x.count - d, last := some (x.count - d, now), prev := none, illegal := true, fresh := true }, false) := by
  rw [encCount, hac, if_neg Bool.false_ne_true, hd]

theorem encCount_both : encCount now lv true true dir x =
    ({ x with illegal := true, last := some (x.count, now), prev := none, fresh := true, rate := x.rate || encFast now x },
      encFast now x) := rfl

end

/-! ### The index (R146) -/

section
variable {s : State} {b : Nat} {x : Enc}

theorem encIndex_counts : (encIndex s b x).index = (x.index + 1) % 65536 ∧ (encIndex s b x).ref = true := by
  unfold encIndex
  extract_lets x1 m r
  split
  · exact ⟨rfl, rfl⟩
  · split
    · exact ⟨rfl, rfl⟩
    · split
      · exact ⟨rfl, rfl⟩
      · exact ⟨rfl, rfl⟩

theorem encIndex_count_unused (hz : s.rd R.TR_ENC_OFS.Z_MODE b = 0) : (encIndex s b x).count = x.count := by
  rw [encIndex, if_pos hz]

theorem encIndex_count_first (hz : s.rd R.TR_ENC_OFS.Z_MODE b ≠ 0) (hr : x.ref = false) : (encIndex s b x).count = 0 := by
  rw [encIndex, if_neg hz, hr, if_pos (by rfl)]
  exact Int.add_right_neg _

end

/-! ### An accepted edge of A or B in the state -/

/-- The interface after accepted edges of A or B, with the errors they make counted for its owner (R144). -/
def encEdged (e b : Nat) (r : Enc × Bool) (illegal : Bool) (s : State) : State :=
  let t := if r.2 then (s.setEnc e r.1).countUp R.TR_ENC_CNT.RATE_ERR b else s.setEnc e r.1
  if illegal then t.countUp R.TR_ENC_CNT.ILLEGAL b else t

section
variable (e b : Nat) (x : Enc) (r : Enc × Bool) (i : Bool) (s : State)

theorem encEdged_enc : (encEdged e b r i s).enc e = r.1 := by
  simp only [encEdged, State.countUp_eq, State.enc_ite, State.enc_wr, State.enc_setEnc_same, ite_self]

theorem encEdged_frame : encEdged e b r i s = { s with encs := (encEdged e b r i s).encs, regs := (encEdged e b r i s).regs } := by
  obtain ⟨x, f⟩ := r
  cases f
  · cases i
    · rfl
    · rfl
  · cases i
    · rfl
    · rfl

theorem encEdged_regs_fast : (encEdged e b (x, true) false s).regs = (s.countUp R.TR_ENC_CNT.RATE_ERR b).regs := rfl

theorem encEdged_regs_slow : (encEdged e b (x, false) false s).regs = s.regs := rfl

/-- The two error counts share a register, and a rate error leaves the other one as it is. -/
theorem encEdged_illegal : (encEdged e b r true s).rd R.TR_ENC_CNT.ILLEGAL b =
    (s.countUp R.TR_ENC_CNT.ILLEGAL b).rd R.TR_ENC_CNT.ILLEGAL b := by
  have hbits : R.TR_ENC_CNT.ILLEGAL.lo + R.TR_ENC_CNT.ILLEGAL.width ≤ 32 := by decide
  have hkeep : (if r.2 then (s.setEnc e r.1).countUp R.TR_ENC_CNT.RATE_ERR b else s.setEnc e r.1).rd R.TR_ENC_CNT.ILLEGAL b =
      s.rd R.TR_ENC_CNT.ILLEGAL b := by
    split
    · rw [State.countUp_eq, rd_wr_apart, State.rd_setEnc]
    · rw [State.rd_setEnc]
  simp only [encEdged, if_true, State.countUp_eq _ R.TR_ENC_CNT.ILLEGAL, State.rd_wr_same _ _ _ _ hbits, hkeep]

end

/-! ### ENCODER_EDGE -/

section
variable {s : State} {e b lv st : Nat}

theorem encoderEdge_unowned (he : e < 4) (ho : encOwner s e = none) :
    encoderEdge e lv st s = s.setEnc e { s.enc e with lvl := lv % 8 } := by
  rw [encoderEdge, ho]
  exact if_pos he

section
variable (ho : encOwner s e = some b)
include ho

theorem encoderEdge_unchanged (hl : lv % 8 = (s.enc e).lvl) : encoderEdge e lv st s = s := by
  rw [encoderEdge, ho]
  exact if_pos (Nat.xor_eq_zero_iff.2 hl)

theorem encoderEdge_lost (hl : lv % 8 ≠ (s.enc e).lvl) (hst : st < s.rd R.TR_ENC_CFG.FILT b) :
    encoderEdge e lv st s = (s.setEnc e { s.enc e with lost := true }).countUp R.TR_ENC_CNT.LOST b := by
  rw [encoderEdge, ho]
  exact (if_neg (mt Nat.xor_eq_zero_iff.1 hl)).trans (if_pos hst)

variable (hst : s.rd R.TR_ENC_CFG.FILT b ≤ st)
include hst

/-- A stable change of A (`a`), of B (`c`) or of both, with Z as it was. -/
theorem encoderEdge_accepted {a c : Bool} (ha : bitAt (lv % 8 ^^^ (s.enc e).lvl) 0 = a)
    (hc : bitAt (lv % 8 ^^^ (s.enc e).lvl) 1 = c) (hz : bitAt (lv % 8 ^^^ (s.enc e).lvl) 2 = false) (hac : (a || c) = true) :
    encoderEdge e lv st s = encEdged e b
      (encCount s.now (lv % 8) a c (s.flag R.TR_ENC_OFS.DIR b) { s.enc e with lvl := lv % 8 })
      (a && c || (encTogether s.now a (s.enc e)).isSome) s := by
  have hdiff : lv % 8 ^^^ (s.enc e).lvl ≠ 0 := fun h0 => by
    rw [h0, bitAt, Nat.zero_testBit] at ha hc
    rw [← ha, ← hc] at hac
    cases hac
  simp only [encoderEdge, ho, if_neg hdiff, if_neg (Nat.not_lt.2 hst), ha, hc, hz, hac, if_true, Bool.false_and, Bool.true_and,
    Bool.false_eq_true, if_false]
  rfl

/-- A stable rise of Z alone. -/
theorem encoderEdge_index (hx : lv % 8 ^^^ (s.enc e).lvl = 4) (hz : bitAt lv 2 = true) :
    encoderEdge e lv st s = s.setEnc e (encIndex s b { s.enc e with lvl := lv % 8 }) := by
  have hz8 : bitAt (lv % 8) 2 = true := by
    rw [bitAt, show 8 = 2 ^ 3 from rfl, Nat.testBit_mod_two_pow]
    exact hz
  have h0 : bitAt 4 0 = false := rfl
  have h1 : bitAt 4 1 = false := rfl
  have h2 : bitAt 4 2 = true := rfl
  have h4 : ¬ 4 = 0 := by decide
  simp only [encoderEdge, ho, if_neg (Nat.not_lt.2 hst), hx, h0, h1, h2, hz8, if_neg h4, Bool.or_self, Bool.and_self, Bool.false_and,
    Bool.false_eq_true, if_false, if_true]

end

end

/-! ### PULSE_INPUT_EDGE -/

section
variable {s : State} {p c st : Nat} {hi : Bool}

theorem pulseInputEdge_unowned (hp : p < 4) (ho : pulseOwner s p = none) :
    pulseInputEdge p hi st s = s.setPul p { s.pul p with lvl := hi, rise := none, fall := none } := by
  rw [pulseInputEdge, ho]
  exact if_pos hp

variable (ho : pulseOwner s p = some c)
include ho

theorem pulseInputEdge_unchanged (hl : (s.pul p).lvl = hi) : pulseInputEdge p hi st s = s := by
  rw [pulseInputEdge, ho]
  exact if_pos hl

theorem pulseInputEdge_lost (hl : (s.pul p).lvl ≠ hi) (hst : st < s.rd R.TR_PULSE_CFG.FILT c) :
    pulseInputEdge p hi st s = s.countUp R.TR_ENC_CNT.LOST c := by
  rw [pulseInputEdge, ho]
  exact (if_neg hl).trans (if_pos hst)

theorem pulseInputEdge_rise {r f : Nat} (hl : (s.pul p).lvl = false) (hst : s.rd R.TR_PULSE_CFG.FILT c ≤ st)
    (hr : (s.pul p).rise = some r) (hf : (s.pul p).fall = some f) (hrf : r ≤ f) :
    pulseInputEdge p true st s = s.setPul p ⟨true, some s.now, some f, some (s.now - r, f - r)⟩ := by
  simp only [pulseInputEdge, ho, hl, hr, hf, if_neg Bool.false_ne_true, if_neg (Nat.not_lt.2 hst), if_pos hrf, if_true]

theorem pulseInputEdge_fall (hl : (s.pul p).lvl = true) (hst : s.rd R.TR_PULSE_CFG.FILT c ≤ st) :
    pulseInputEdge p false st s = s.setPul p { s.pul p with lvl := false, fall := some s.now } := by
  simp only [pulseInputEdge, ho, hl, if_neg (Ne.symm Bool.false_ne_true), if_neg (Nat.not_lt.2 hst), if_neg Bool.false_ne_true]

end

/-! ### An edge of one input alone -/

section
variable {s : State} {e b lv st : Nat} {a : Bool} (ho : encOwner s e = some b) (hst : s.rd R.TR_ENC_CFG.FILT b ≤ st)
  (ha : bitAt (lv % 8 ^^^ (s.enc e).lvl) 0 = a) (hc : bitAt (lv % 8 ^^^ (s.enc e).lvl) 1 = !a)
  (hz : bitAt (lv % 8 ^^^ (s.enc e).lvl) 2 = false)
include ho hst ha hc hz

/-- A count in the way its direction says, and a rate error where the last edge is near. -/
theorem encoderEdge_single (hn : encTogether s.now a (s.enc e) = none) :
    ∃ t, exec (.encoderEdge e lv st) s = .next t ∧ (t.enc e).lvl = lv % 8 ∧
      (t.enc e).count = (s.enc e).count + (if encUp (lv % 8) a != s.flag R.TR_ENC_OFS.DIR b then 1 else -1) ∧
      (t.enc e).last = some ((t.enc e).count, s.now) ∧ t = { s with encs := t.encs, regs := t.regs } ∧
      (∀ c0 t0, (s.enc e).last = some (c0, t0) → s.now < t0 + 20 →
        (t.enc e).rate = true ∧ t.regs = (s.countUp R.TR_ENC_CNT.RATE_ERR b).regs) ∧
      ((∀ c0 t0, (s.enc e).last = some (c0, t0) → t0 + 20 ≤ s.now) → t.regs = s.regs) := by
  have hedge := encoderEdge_accepted ho hst ha hc hz a.or_not_self
  have hn' : encTogether s.now a { s.enc e with lvl := lv % 8 } = none := hn
  rw [a.and_not_self, hn, encCount_single a.and_not_self hn'] at hedge
  refine ⟨_, congrArg Host.Outcome.next hedge, ?_, ?_, ?_, encEdged_frame .., fun c0 t0 hl hnear => ?_, fun hfar => ?_⟩
  · rw [encEdged_enc]
  · rw [encEdged_enc]
  · rw [encEdged_enc]
  · have hfast : encFast s.now { s.enc e with lvl := lv % 8 } = true := (encFast_of_last hl).trans (decide_eq_true hnear)
    rw [encEdged_enc, hfast]
    exact ⟨Bool.or_true _, encEdged_regs_fast ..⟩
  · have hslow : encFast s.now { s.enc e with lvl := lv % 8 } = false := encFast_eq_false hfar
    rw [hslow]
    exact encEdged_regs_slow ..

/-- An illegal transition with the edge of the other input in the same tick. -/
theorem encoderEdge_together {d : Int} (hd : encTogether s.now a (s.enc e) = some d) :
    exec (.encoderEdge e lv st) s = .next ((s.setEnc e { s.enc e with
      lvl := lv % 8, count := (s.enc e).count - d, last := some ((s.enc e).count - d, s.now), prev := none,
      illegal := true, fresh := true }).countUp R.TR_ENC_CNT.ILLEGAL b) := by
  have hedge := encoderEdge_accepted ho hst ha hc hz a.or_not_self
  have hd' : encTogether s.now a { s.enc e with lvl := lv % 8 } = some d := hd
  rw [a.and_not_self, hd, encCount_together a.and_not_self hd'] at hedge
  exact congrArg Host.Outcome.next hedge

end

/-- Settles O28: each way an edge is taken has its equation. -/
theorem tractionEdgesCounted : Obligations.TractionEdgesCounted := by
  refine ⟨fun e b s _ ho => ⟨?_, ?_, ?_, ?_, ?_⟩, ?_, fun p s => ⟨?_, fun c _ ho => ⟨?_, ?_, ?_, ?_⟩⟩⟩
  · intro lv st hl
    exact congrArg Host.Outcome.next (encoderEdge_unchanged ho hl)
  · intro lv st hl hst
    exact congrArg Host.Outcome.next (encoderEdge_lost ho hl hst)
  · intro lv st hst hac hz
    have hc := Bool.eq_not.2 hac.symm
    exact ⟨encoderEdge_single ho hst rfl hc hz, fun d => encoderEdge_together ho hst rfl hc hz⟩
  · intro lv st hst ha hc hz
    have hedge := encoderEdge_accepted ho hst ha hc hz rfl
    refine ⟨_, congrArg Host.Outcome.next hedge, ?_, ?_, ?_, ?_, encEdged_illegal .., encEdged_frame ..⟩
    all_goals rw [encEdged_enc, encCount_both]
  · intro lv st hst hx hz
    have hedge := encoderEdge_index ho hst hx hz
    obtain ⟨hindex, href⟩ := encIndex_counts (s := s) (b := b) (x := { s.enc e with lvl := lv % 8 })
    refine ⟨_, congrArg Host.Outcome.next hedge, ?_⟩
    rw [State.enc_setEnc_same]
    exact ⟨hindex, href, encIndex_count_unused, fun hmode href0 => encIndex_count_first hmode href0⟩
  · intro e lv st s he ho
    exact congrArg Host.Outcome.next (encoderEdge_unowned he ho)
  · intro hi st hp ho
    exact congrArg Host.Outcome.next (pulseInputEdge_unowned hp ho)
  · intro hi st hl
    exact congrArg Host.Outcome.next (pulseInputEdge_unchanged ho hl)
  · intro hi st hl hst
    exact congrArg Host.Outcome.next (pulseInputEdge_lost ho hl hst)
  · intro st r f hl hst hr hf hrf
    exact congrArg Host.Outcome.next (pulseInputEdge_rise ho hl hst hr hf hrf)
  · intro st hl hst
    exact congrArg Host.Outcome.next (pulseInputEdge_fall ho hl hst)

end Sys2Proof.Machine
end
section
/-! SUPPORT. O41, O42 and O44: what the log, the flash rings, the replies and the end of a run leave of the Grove, of Canopy and of
the ledger. -/

namespace Sys2Proof.Machine

open Sys2Proof

/-- The registers of the engines, of Canopy and of the ledger (R7, R189). -/
def groveBlock (a : Nat) : Prop := 0x300000 ≤ a ∧ a < 0x400000

/-- The time, the bridges, Canopy and the ledger stay, and their registers. -/
structure GroveKept (s t : State) : Prop where
  now : t.now = s.now
  bridges : t.bridges = s.bridges
  canopy : t.canopy = s.canopy
  ledger : t.ledger = s.ledger
  reg : ∀ a, groveBlock a → t.reg a = s.reg a

/-- A field that lies above the block in every copy, or a single one below it. -/
def offGrove (f : Fld) : Bool :=
  decide (0x400000 ≤ f.base) || (decide (f.base < 0x300000) && decide (f.stride = 0 ∧ f.stride2 = 0))

theorem offGrove_addr {f : Fld} (hf : offGrove f = true) (i j : Nat) {a : Nat} (ha : groveBlock a) : a ≠ fldAddr f i j := by
  obtain ⟨h1, h2⟩ := ha
  simp only [offGrove, Bool.or_eq_true, Bool.and_eq_true, decide_eq_true_eq] at hf
  simp only [fldAddr]
  rcases hf with hf | ⟨hf, hs, hs2⟩
  · omega
  · rw [hs, hs2]; omega

namespace GroveKept

variable {s t u : State}

protected theorem refl (s : State) : GroveKept s s := ⟨rfl, rfl, rfl, rfl, fun _ _ => rfl⟩

protected theorem ite {c : Prop} [Decidable c] (ht : GroveKept s t) (hu : GroveKept s u) : GroveKept s (if c then t else u) := by
  split
  · exact ht
  · exact hu

protected theorem each {α : Type} {f : State → α → State} {l : List α} (h : GroveKept s t)
    (hf : ∀ v x, GroveKept s v → GroveKept s (f v x)) : GroveKept s (t.each l f) := State.each_ind _ f hf l t h

/-- A field of the block reads as before. -/
theorem rd (h : GroveKept s t) {f : Fld} {i j : Nat} (ha : groveBlock (fldAddr f i j)) : t.rd f i j = s.rd f i j := by
  rw [State.rd_eq, State.rd_eq, h.reg _ ha]

theorem entry (h : GroveKept s t) (k : Nat) : t.entry k = s.entry k :=
  State.entry_congr (congrArg Ledger.entries h.ledger) k

section
variable {board : List (Nat × Word)} {aged : List (Nat × Nat)} {host : HostPort} {sec : Sec} {graphs : GraphStore}
  {legs : List (Nat × Leg)} {dies : List (Nat × Die)} {convs : List (Nat × Conv)}
  {pairs : List (Nat × Pair)} {cal : Cal} {encs : List (Nat × Enc)} {pulses : List (Nat × Pulse)} {pth : Nat}
  {capture : Capture} {log : EvLog} {clk : Clk} {bg : Background} {rst : ResetCtl}
  {sill : Sill} {cans : List (Nat × CanCtl)} {latched : List (Nat × Word)} {freeCtr : Nat}

/-- An update of other parts of the state. -/
theorem same (h : GroveKept s t) : GroveKept s ⟨t.pending, t.now, t.regs, board, aged, host, sec, graphs, t.bridges, legs, dies,
    convs, pairs, cal, encs, pulses, pth, t.canopy, t.ledger, capture, log, clk, bg, rst, sill, cans, latched, freeCtr⟩ :=
  ⟨h.now, h.bridges, h.canopy, h.ledger, h.reg⟩

end

protected theorem wr {f : Fld} {i v : Nat} (h : GroveKept s t) (hf : offGrove f = true := by decide) : GroveKept s (t.wr f i v) :=
  ⟨h.now, h.bridges, h.canopy, h.ledger,
    fun a ha => (State.reg_wr_ne t f i v a (offGrove_addr hf i 0 ha)).trans (h.reg a ha)⟩

protected theorem wr2 {f : Fld} {i j v : Nat} (h : GroveKept s t) (hf : offGrove f = true := by decide) :
    GroveKept s (t.wr2 f i j v) :=
  ⟨h.now, h.bridges, h.canopy, h.ledger,
    fun a ha => (State.reg_wr2_ne t f i j v a (offGrove_addr hf i j ha)).trans (h.reg a ha)⟩

/-! ### The log, the rings and the flash -/

protected theorem logPut {code obj : Nat} {data : List Byte} (h : GroveKept s t) : GroveKept s (logPut code obj data t) := h.same

protected theorem logEvent {code obj : Nat} {data : List Byte} (h : GroveKept s t) : GroveKept s (logEvent code obj data t) :=
  .ite h.same.same.wr.wr (.ite h.same.logPut h.same.logPut.same.logPut)

protected theorem countErase {area sector : Nat} (h : GroveKept s t) : GroveKept s (countErase area sector t) :=
  .ite h.same.wr.logEvent h.same

protected theorem eraseSector {area : Nat} (h : GroveKept s t) : GroveKept s (eraseSector area t) :=
  .ite (h.same (bg := _)).countErase.same h.same.countErase

protected theorem ringWrite {area : Nat} (h : GroveKept s t) : GroveKept s (ringWrite area t) :=
  (h.each fun _ _ h1 => .ite h1.eraseSector h1 : GroveKept s (makeRoom area t)).same

protected theorem flashBegin {k : Nat} (h : GroveKept s t) : GroveKept s (flashBegin k t) := by
  obtain ⟨a, b, he⟩ := flashBegin_eq k t
  rw [he]
  exact h.same

/-! ### The host port -/

protected theorem setTransport {can : Bool} {x : Transport} (h : GroveKept s t) : GroveKept s (t.setTransport can x) := h.same

protected theorem sendReply {can : Bool} {cmd reply : List Byte} (h : GroveKept s t) : GroveKept s (sendReply can cmd reply t) :=
  h.setTransport.setTransport

protected theorem sendHeld {r : Held} {reply : List Byte} (h : GroveKept s t) : GroveKept s (sendHeld r reply t) :=
  h.same.sendReply.setTransport

protected theorem recordError {can : Bool} {op status : Nat} (h : GroveKept s t) : GroveKept s (recordError can op status t) :=
  h.wr.wr.wr

protected theorem recordRefusal {hd : Hdr} {op status : Nat} (h : GroveKept s t) : GroveKept s (recordRefusal hd op status t) :=
  .ite h h.recordError

protected theorem expireHeld (h : GroveKept s t) : GroveKept s (expireHeld t) := by
  unfold expireHeld
  split
  · exact .ite h.sendHeld.recordError h
  · exact h

protected theorem swapSettled {b : Nat} (h : GroveKept s t) : GroveKept s (swapSettled b t) := by
  unfold swapSettled
  extract_lets u1
  have h1 : GroveKept s u1 := h.expireHeld
  refine .ite ?_ h1
  split
  · exact h1.sendHeld
  · exact h1.same

protected theorem beginRun {op seq obj : Nat} (h : GroveKept s t) : GroveKept s (beginRun op seq obj t) := h.same

protected theorem endRun {op obj result : Nat} (h : GroveKept s t) : GroveKept s (endRun op obj result t) := by
  unfold endRun
  split
  · exact h
  · exact h.same.wr.wr.wr.wr

/-! ### A COUNTER_RESYNC that waits for the flash -/

protected theorem writeResync {slot value : Nat} (h : GroveKept s t) : GroveKept s (writeResync slot value t) :=
  (h.same.wr2 : GroveKept s (applyCheckpoint [(slot, value)] t)).wr2

protected theorem settleResync (h : GroveKept s t) : GroveKept s (settleResync t) := by
  unfold settleResync
  split
  · exact h.same.writeResync.ringWrite.swapSettled
  · exact h

end GroveKept

end Sys2Proof.Machine
end
section
/-! SUPPORT. O41 and O42: writes of ledger entries, and what a checkpoint that begins leaves (R177, R180, R181). -/

namespace Sys2Proof.Machine

open Sys2Proof

section
variable {s : State}

/-! ### Writes of entries -/

theorem entry_setEntry (k j : Nat) (v : Entry) (s : State) : (s.setEntry k v).entry j = if j = k then v else s.entry j :=
  sget_sput _ _ j k v

/-- A loop that sets entries alone. -/
theorem each_setEntry (v : State → Nat → Entry) (l : List Nat) (s : State) :
    ∃ entries, s.each l (fun u k => u.setEntry k (v u k)) = { s with ledger := { s.ledger with entries := entries } } := by
  induction l generalizing s with
  | nil => exact ⟨s.ledger.entries, rfl⟩
  | cons k l ih =>
    obtain ⟨entries, he⟩ := ih (s.setEntry k (v s k))
    exact ⟨entries, he⟩

/-- Each entry of a list without repetitions is set once, from the entry that stood there. -/
theorem each_setEntry_entry {v : State → Nat → Entry} {w : Nat → Entry → Entry} {p : State → Prop} (hs : p s)
    (hkeep : ∀ u k e, p u → p (u.setEntry k e)) (hv : ∀ u k, p u → v u k = w k (u.entry k)) {l : List Nat} (hl : l.Nodup)
    (j : Nat) : (s.each l (fun u k => u.setEntry k (v u k))).entry j = if j ∈ l then w j (s.entry j) else s.entry j := by
  induction l generalizing s with
  | nil => rfl
  | cons k l ih =>
    obtain ⟨hk, hl⟩ := List.nodup_cons.1 hl
    refine (ih (hkeep s k _ hs) hl).trans ?_
    rw [entry_setEntry]
    by_cases hj : j = k
    · subst hj
      simp [hk, hv s j hs]
    · simp [hj]

/-! ### A checkpoint begins -/

/-- An entry with the RATE that a checkpoint gives it (R180). -/
def withRate (s : State) (k : Nat) (e : Entry) : Entry := { e with rate := rateOf s k e }

/-- The generation of the next checkpoint (R181). -/
def checkpointGen (s : State) : Nat :=
  (match (validCopies s).head? with | some c => c.gen + 1 | none => s.rd R.CN_GEN.GEN + 1) % 2 ^ 32

/-- The copy of ledger RAM is taken, with the history of this checkpoint put before the others (R180, R181). -/
def checkpointCopied (cause : Nat) (s : State) : State :=
  ({ s with ledger := { s.ledger with
      hist := (((List.range 48).map fun k => (k, (s.entry k).damage, (s.entry k).ontime)) :: s.ledger.hist).take 16
      run := some ⟨checkpointGen s, cause, s.ledger.entries, s.ledger.nf, true⟩ } } : State).wr R.CN_LEDGER.CP_BUSY 0 1

theorem beginCheckpoint_rated (cause : Nat) (s : State) : beginCheckpoint cause s = checkpointCopied cause
    ((flashBegin 3 s).each (List.range 48) fun u k => u.setEntry k (withRate u k (u.entry k))) := rfl

/-- A checkpoint that begins copies the entries, whose RATE alone has changed, and the tables. -/
theorem beginCheckpoint_eq (cause : Nat) (s : State) : ∃ bg entries hist, beginCheckpoint cause s =
    ({ s with bg := bg, ledger := { s.ledger with
        entries := entries, hist := hist, run := some ⟨checkpointGen s, cause, entries, s.ledger.nf, true⟩ } }).wr
      R.CN_LEDGER.CP_BUSY 0 1 ∧
    ∀ j, sget (fun _ => ({} : Entry)) entries j =
      if j < 48 then withRate s j (s.entry j) else s.entry j := by
  obtain ⟨x, y, hflash⟩ := flashBegin_eq 3 s
  obtain ⟨entries, hset⟩ := each_setEntry (fun u k => withRate u k (u.entry k)) (List.range 48) (flashBegin 3 s)
  have hentry := fun j => each_setEntry_entry (s := flashBegin 3 s) (v := fun u k => withRate u k (u.entry k))
    (w := withRate s) (p := fun u => u.ledger.hist = s.ledger.hist) (by rw [hflash]) (fun _ _ _ hu => hu)
    (fun u k hu => by simp only [withRate, rateOf, oldestOf, hu]) (List.nodup_range (n := 48)) j
  rw [hset] at hentry
  simp only [List.mem_range] at hentry
  have hcopied := (beginCheckpoint_rated cause s).trans (congrArg (checkpointCopied cause) hset)
  rw [hflash] at hentry hcopied
  exact ⟨_, entries, _, hcopied, hentry⟩

theorem checkpointGen_copy {c : Checkpoint} {l : List Checkpoint} (h : validCopies s = c :: l) :
    checkpointGen s = (c.gen + 1) % 2 ^ 32 := by
  rw [checkpointGen, h]
  rfl

/-- A checkpoint begins: what it copies, and what it leaves of the ledger. -/
theorem beginCheckpoint_ledger (cause : Nat) (s : State) : ∃ c, (beginCheckpoint cause s).ledger.run = some c ∧
    c.gen = checkpointGen s ∧ c.cause = cause ∧ c.entries = (beginCheckpoint cause s).ledger.entries ∧ c.nf = s.ledger.nf ∧
    (beginCheckpoint cause s).ledger = { s.ledger with
      entries := c.entries, hist := (beginCheckpoint cause s).ledger.hist, run := some c } := by
  obtain ⟨bg, entries, hist, he, -⟩ := beginCheckpoint_eq cause s
  rw [he]
  exact ⟨_, rfl, rfl, rfl, rfl, rfl, rfl⟩

theorem beginCheckpoint_entry (cause : Nat) (s : State) (j : Nat) : (beginCheckpoint cause s).entry j =
    if j < 48 then withRate s j (s.entry j) else s.entry j := by
  obtain ⟨bg, entries, hist, he, hentry⟩ := beginCheckpoint_eq cause s
  rw [he, State.entry_wr]
  exact hentry j

theorem beginCheckpoint_busy (cause : Nat) (s : State) : (beginCheckpoint cause s).rd R.CN_LEDGER.CP_BUSY = 1 := by
  obtain ⟨bg, entries, hist, he, -⟩ := beginCheckpoint_eq cause s
  rw [he, State.rd_wr_same _ _ _ _ (by decide)]
  rfl

theorem beginCheckpoint_now (cause : Nat) (s : State) : (beginCheckpoint cause s).now = s.now := by
  obtain ⟨bg, entries, hist, he, -⟩ := beginCheckpoint_eq cause s
  rw [he, State.wr_now]

theorem beginCheckpoint_calm (cause : Nat) (s : State) : Calm s (beginCheckpoint cause s) := by
  obtain ⟨bg, entries, hist, he, -⟩ := beginCheckpoint_eq cause s
  rw [he]
  exact (Calm.refl s).same.wr

/-- A checkpoint on demand begins at once, or waits for the one being written. -/
theorem demandCheckpoint_idle {cause : Nat} (h : s.ledger.run = none) : demandCheckpoint cause s = beginCheckpoint cause s := by
  rw [demandCheckpoint, h]
  exact if_neg Bool.false_ne_true

theorem demandCheckpoint_waits {cause : Nat} (h : s.ledger.run ≠ none) :
    demandCheckpoint cause s = { s with ledger := { s.ledger with next := s.ledger.next ++ [cause] } } := by
  rw [demandCheckpoint, if_pos (Option.isSome_iff_ne_none.2 h)]

theorem demandCheckpoint_calm (cause : Nat) (s : State) : Calm s (demandCheckpoint cause s) :=
  .ite (Calm.refl s).same (beginCheckpoint_calm cause s)

/-- It leaves every entry but for its RATE, and every table. -/
theorem demandCheckpoint_keeps (cause : Nat) (s : State) : (demandCheckpoint cause s).ledger.nf = s.ledger.nf ∧
    ∀ k, ((demandCheckpoint cause s).entry k).count = (s.entry k).count := by
  by_cases h : s.ledger.run = none
  · obtain ⟨c, -, -, -, -, -, hledger⟩ := beginCheckpoint_ledger cause s
    rw [demandCheckpoint_idle h]
    refine ⟨by rw [hledger], fun k => ?_⟩
    rw [beginCheckpoint_entry]
    split
    · rfl
    · rfl
  · rw [demandCheckpoint_waits h]
    exact ⟨rfl, fun _ => rfl⟩

end

end Sys2Proof.Machine
end
section
/-! O41: LEDGER_READ, LEDGER_NF, LEDGER_NF_READ, LEDGER_SAVE and LEDGER_RESET (R177, R181, R184, R188, R322). -/

namespace Sys2Proof.Machine

open Sys2Proof

/-! ### The bytes of an entry -/

theorem le_length (k n : Nat) : (le k n).length = k := by
  induction k generalizing n with
  | zero => rfl
  | succ k ih => rw [le, List.length_cons, ih]

theorem entryBytes_length (e : Entry) : (entryBytes e).length = 544 := by
  simp [entryBytes, le_length, List.length_flatMap]

section
variable {h : Hdr} {s t : State}

/-! ### LEDGER_READ and LEDGER_NF_READ -/

theorem ledgerRead_answered {k : Nat} (hr : cmdReady (.ledgerRead h k) s = true) (hk : k < 48) :
    exec (.ledgerRead h k) s = .next (answer (.ledgerRead h k) stDone (entryBytes (s.entry k)) s) :=
  congrArg Host.Outcome.next
    (acceptCmd_calm (c := .ledgerRead h k) rfl hr (if_neg (by omega)) (.inl rfl) (Calm.refl s))

theorem ledgerNfRead_answered {n : Nat} (hr : cmdReady (.ledgerNfRead h n) s = true) (hn : n < 4) :
    exec (.ledgerNfRead h n) s = .next (answer (.ledgerNfRead h n) stDone
      ((List.range 128).flatMap (fun k => le 4 (nfAt s n k))) s) :=
  congrArg Host.Outcome.next
    (acceptCmd_calm (c := .ledgerNfRead h n) rfl hr (if_neg (by omega)) (.inl rfl) (Calm.refl s))

/-! ### LEDGER_NF -/

/-- The tables with table `n` replaced. -/
def nfReplaced (n : Nat) (ws : List Word) (nf : List (Nat × Nat)) : List (Nat × Nat) :=
  (List.range 128).foldl (fun m k => sput (fun _ => 0) m (128 * n + k) ((ws.getD k 0).toNat)) nf

section
variable {α : Type} [DecidableEq α] (d : Nat → α) (key : Nat → Nat) (v : Nat → α)

/-- A loop of writes at keys of which `j` is none. -/
theorem sget_foldl_sput_ne {j : Nat} (l : List Nat) (hj : ∀ k ∈ l, j ≠ key k) (m : List (Nat × α)) :
    sget d (l.foldl (fun m k => sput d m (key k) (v k)) m) j = sget d m j := by
  induction l generalizing m with
  | nil => rfl
  | cons k l ih =>
    rw [List.foldl_cons, ih fun i hi => hj i (List.mem_cons_of_mem k hi),
      sget_sput_ne d m (v k) (hj k List.mem_cons_self)]

/-- A loop of writes at keys of which each is written once. -/
theorem sget_foldl_sput_key {l : List Nat} (hl : l.Nodup) (hkey : Function.Injective key) {j : Nat} (hj : j ∈ l)
    (m : List (Nat × α)) : sget d (l.foldl (fun m k => sput d m (key k) (v k)) m) (key j) = v j := by
  obtain ⟨l1, l2, rfl⟩ := List.append_of_mem hj
  have hl2 : ∀ k ∈ l2, key j ≠ key k := fun k hk he =>
    (List.nodup_cons.1 (List.nodup_append.1 hl).2.1).1 (hkey he ▸ hk)
  rw [List.foldl_append, List.foldl_cons, sget_foldl_sput_ne d key v l2 hl2, sget_sput_same]

end

theorem nfReplaced_same (n : Nat) (ws : List Word) (nf : List (Nat × Nat)) {k : Nat} (hk : k < 128) :
    sget (fun _ => 0) (nfReplaced n ws nf) (128 * n + k) = (ws.getD k 0).toNat :=
  sget_foldl_sput_key (fun _ => 0) (fun k => 128 * n + k) (fun k => (ws.getD k 0).toNat) List.nodup_range
    (fun _ _ he => Nat.add_left_cancel he) (List.mem_range.2 hk) nf

theorem nfReplaced_other {n m : Nat} (ws : List Word) (nf : List (Nat × Nat)) {k : Nat} (hm : m ≠ n) (hk : k < 128) :
    sget (fun _ => 0) (nfReplaced n ws nf) (128 * m + k) = sget (fun _ => 0) nf (128 * m + k) := by
  refine sget_foldl_sput_ne (fun _ => 0) (fun k => 128 * n + k) (fun k => (ws.getD k 0).toNat) _ (fun i hi => ?_) nf
  rw [List.mem_range] at hi
  omega

/-- What an admitted LEDGER_NF leaves: the table, a checkpoint of cause 4 and its entry in the log (R181, R459). -/
def nfWritten (h : Hdr) (n : Nat) (ws : List Word) (s : State) : State :=
  let t := demandCheckpoint 4 { s with ledger := { s.ledger with nf := nfReplaced n ws s.ledger.nf } }
  beginRun 0x0C02 h.seq 0
    (logEvent 0x0052 0 (le 1 4 ++ le 4 (match t.ledger.run with | some c => c.gen | none => 0)) t)

theorem ledgerNfChecks_busy {n : Nat} (ws : List Word) (hn : n < 4) (hb : isRunning s 0x0C02 0 = true) :
    ledgerNfChecks h n ws s = ⟨stBusy, [], none, s⟩ := by
  rw [ledgerNfChecks, if_neg (by omega), if_pos hb]
  rfl

theorem ledgerNfChecks_accepted {n : Nat} (ws : List Word) (hn : n < 4) (hb : isRunning s 0x0C02 0 = false) :
    ledgerNfChecks h n ws s = ⟨stAccepted, [], none, nfWritten h n ws s⟩ := by
  rw [ledgerNfChecks, if_neg (by omega), hb, if_neg Bool.false_ne_true]
  rfl

/-- The ledger after it is that of the checkpoint demanded. -/
theorem nfWritten_ledger (h : Hdr) (n : Nat) (ws : List Word) (s : State) : (nfWritten h n ws s).ledger =
    (demandCheckpoint 4 { s with ledger := { s.ledger with nf := nfReplaced n ws s.ledger.nf } }).ledger :=
  (GroveKept.refl _).logEvent.beginRun.ledger

theorem nfWritten_calm (h : Hdr) (n : Nat) (ws : List Word) (s : State) : Calm s (nfWritten h n ws s) :=
  ((Calm.refl s).same.trans (demandCheckpoint_calm 4 _)).aside (Aside.refl _).logEvent.beginRun

/-- The tables and the counts after it. -/
theorem nfWritten_tables (h : Hdr) (n : Nat) (ws : List Word) (s : State) :
    (nfWritten h n ws s).ledger.nf = nfReplaced n ws s.ledger.nf ∧
      ∀ k, ((nfWritten h n ws s).entry k).count = (s.entry k).count := by
  obtain ⟨hnf, hcount⟩ := demandCheckpoint_keeps 4 { s with ledger := { s.ledger with nf := nfReplaced n ws s.ledger.nf } }
  refine ⟨by rw [nfWritten_ledger, hnf], fun k => ?_⟩
  rw [State.entry_congr (congrArg Ledger.entries (nfWritten_ledger h n ws s)), hcount]
  rfl

/-- The checkpoint that follows it, at once or in its turn. -/
theorem nfWritten_checkpoint (h : Hdr) (n : Nat) (ws : List Word) (s : State) :
    (s.ledger.run = none → ∃ c, (nfWritten h n ws s).ledger.run = some c ∧ c.cause = 4 ∧
      c.nf = (nfWritten h n ws s).ledger.nf ∧ c.entries = (nfWritten h n ws s).ledger.entries) ∧
    (s.ledger.run ≠ none → (nfWritten h n ws s).ledger.run = s.ledger.run ∧
      (nfWritten h n ws s).ledger.next = s.ledger.next ++ [4]) := by
  rw [nfWritten_ledger]
  refine ⟨fun hr => ?_, fun hr => ?_⟩
  · rw [demandCheckpoint_idle (by exact hr)]
    obtain ⟨c, hrun, -, hcause, hentries, hnf, hledger⟩ :=
      beginCheckpoint_ledger 4 { s with ledger := { s.ledger with nf := nfReplaced n ws s.ledger.nf } }
    exact ⟨c, hrun, hcause, by rw [hnf, hledger], hentries⟩
  · rw [demandCheckpoint_waits (by exact hr)]
    exact ⟨rfl, rfl⟩

theorem used_isRunning (c : Instr) (op obj : Nat) : isRunning (used c s) op obj = isRunning s op obj := by
  rw [isRunning, used_host, isRunning]

section
variable {n : Nat} {ws : List Word}

theorem ledgerNf_busy (ha : cmdAuth (.ledgerNf h n ws) .any s = true) (hn : n < 4) (hb : isRunning s 0x0C02 0 = true) :
    ∃ t, exec (.ledgerNf h n ws) s = .next (signed (.ledgerNf h n ws) stBusy [] s t) ∧ t.ledger = s.ledger := by
  refine ⟨_, congrArg Host.Outcome.next (acceptCmd_refusedSigned (.ledgerNf h n ws) h 0x0C02 _ .any _ _ s rfl ha rfl stBusy none
    (used (.ledgerNf h n ws) s) (ledgerNfChecks_busy ws hn (by rwa [used_isRunning])) (used_host _ s)), ?_⟩
  exact (GroveKept.refl _).recordRefusal.ledger.trans (used_ledger _ s)

theorem ledgerNf_accepted (ha : cmdAuth (.ledgerNf h n ws) .any s = true) (hn : n < 4) (hb : isRunning s 0x0C02 0 = false) :
    exec (.ledgerNf h n ws) s = .next (signed (.ledgerNf h n ws) stAccepted [] s
      (nfWritten h n ws (used (.ledgerNf h n ws) s))) :=
  congrArg Host.Outcome.next (acceptCmd_calmSigned (c := .ledgerNf h n ws) rfl ha rfl
    (ledgerNfChecks_accepted ws hn (by rwa [used_isRunning])) (.inr rfl) (nfWritten_calm h n ws _))

end

/-! ### LEDGER_SAVE -/

theorem ledgerSave_accepted (hr : cmdReady (.ledgerSave h) s = true) (hb : isRunning s 0x0C04 0 = false)
    (hc : s.ledger.cpAt.any (fun t => decide (s.now < t + 24000000000)) = false) : exec (.ledgerSave h) s =
      .next (answer (.ledgerSave h) stAccepted [] (beginRun 0x0C04 h.seq 0 (demandCheckpoint 2 s))) := by
  have hbody : ledgerSaveBody h s = ⟨stAccepted, [], none, beginRun 0x0C04 h.seq 0 (demandCheckpoint 2 s)⟩ :=
    if_neg (not_or.2 ⟨by rw [hb]; decide, fun h => Bool.false_ne_true (hc.symm.trans h)⟩)
  exact congrArg Host.Outcome.next (acceptCmd_calm (c := .ledgerSave h) rfl hr hbody (.inr rfl)
    ((demandCheckpoint_calm 2 s).aside (Aside.refl _).beginRun))

theorem ledgerSave_busy (hr : cmdReady (.ledgerSave h) s = true)
    (hb : isRunning s 0x0C04 0 = true ∨ s.ledger.cpAt.any (fun t => decide (s.now < t + 24000000000)) = true) :
    exec (.ledgerSave h) s = .next (answer (.ledgerSave h) stBusy [] (refusedBy (.ledgerSave h) stBusy s)) :=
  congrArg Host.Outcome.next
    (acceptCmd_refused (.ledgerSave h) h 0x0C04 _ _ s rfl hr stBusy s (if_pos hb) rfl rfl)

/-! ### LEDGER_RESET -/

/-- The entries of a mask at zero but for NF_SEL, and no history of them (R184). -/
def entriesReset (m : Nat) (s : State) : State :=
  let t := s.each (maskBits 48 m) (fun s k => s.setEntry k { nfSel := (s.entry k).nfSel })
  { t with ledger := { t.ledger with hist := t.ledger.hist.map (fun l => l.filter (fun e => !bitAt m e.1)) } }

theorem entriesReset_entry (m k : Nat) (s : State) : (entriesReset m s).entry k =
    if k < 48 ∧ bitAt m k = true then { nfSel := (s.entry k).nfSel } else s.entry k := by
  refine (each_setEntry_entry (s := s) (v := fun u k => { nfSel := (u.entry k).nfSel }) (w := fun _ e => { nfSel := e.nfSel })
    (p := fun _ => True) trivial (fun _ _ _ _ => trivial) (fun _ _ _ => rfl) (l := maskBits 48 m) (List.nodup_range.filter _) k).trans ?_
  simp only [mem_maskBits]

/-- A switch whose history is dropped has no oldest values. -/
theorem entriesReset_oldest {m k : Nat} (hk : bitAt m k = true) (s : State) : oldestOf (entriesReset m s) k = none := by
  refine List.findSome?_eq_none_iff.2 fun l hl => ?_
  obtain ⟨l, -, rfl⟩ := List.mem_map.1 (List.mem_reverse.1 hl)
  rw [Option.map_eq_none_iff, List.find?_eq_none]
  intro e he heq
  obtain rfl : e.1 = k := of_decide_eq_true heq
  simp [hk] at he

theorem entriesReset_ledger (m : Nat) (s : State) : ∃ entries hist,
    entriesReset m s = { s with ledger := { s.ledger with entries := entries, hist := hist } } := by
  obtain ⟨entries, he⟩ := each_setEntry (fun u k => { nfSel := (u.entry k).nfSel }) (maskBits 48 m) s
  simp only [entriesReset, he]
  exact ⟨_, _, rfl⟩

/-- What an admitted LEDGER_RESET leaves (R184, R459). -/
def ledgerCleared (m : Nat) (s : State) : State :=
  let t := beginCheckpoint 3 (entriesReset m s)
  logEvent 0x0052 0 (le 1 3 ++ le 4 (match t.ledger.run with | some c => c.gen | none => 0)) t

theorem ledgerResetChecks_done {m : Nat} (hr : s.ledger.run = none)
    (hm : ∀ k b, k < 48 → bitAt m k = true → bridgeOfLeg s (k / 2) = some b → modeOf s b = 0) :
    ledgerResetChecks m s = ⟨stDone, [], none, ledgerCleared m s⟩ := by
  have hfree : ¬ (maskBits 48 m).any (fun k => match bridgeOfLeg s (k / 2) with
      | some b => decide (modeOf s b ≠ 0) | none => false) = true := by
    rw [List.any_eq_true]
    rintro ⟨k, hk, hb⟩
    obtain ⟨hk, hbit⟩ := mem_maskBits.1 hk
    cases hleg : bridgeOfLeg s (k / 2) with
    | none => simp [hleg] at hb
    | some b => simp [hleg, hm k b hk hbit hleg] at hb
  have hidle : ¬ s.ledger.run.isSome = true := by rw [hr]; exact Bool.false_ne_true
  exact (if_neg hfree).trans (if_neg hidle)

theorem ledgerCleared_kept (m : Nat) (s : State) : GroveKept (beginCheckpoint 3 (entriesReset m s)) (ledgerCleared m s) :=
  (GroveKept.refl _).logEvent

theorem ledgerCleared_calm (m : Nat) (s : State) : Calm s (ledgerCleared m s) := by
  obtain ⟨entries, hist, he⟩ := entriesReset_ledger m s
  have hreset : Calm s (entriesReset m s) := he ▸ (Calm.refl s).same
  exact (hreset.trans (beginCheckpoint_calm 3 _)).aside (Aside.refl _).logEvent

/-- A masked entry is zero but for NF_SEL, RATE too, since its history is gone. -/
theorem ledgerCleared_masked {m k : Nat} (hk : k < 48) (hbit : bitAt m k = true) (s : State) :
    (ledgerCleared m s).entry k = { nfSel := (s.entry k).nfSel } := by
  rw [(ledgerCleared_kept m s).entry, beginCheckpoint_entry, if_pos hk, withRate, rateOf, entriesReset_oldest hbit,
    entriesReset_entry, if_pos ⟨hk, hbit⟩]

theorem ledgerCleared_other {m k : Nat} (hk : k < 48) (hbit : bitAt m k = false) (s : State) :
    { (ledgerCleared m s).entry k with rate := (s.entry k).rate } = s.entry k := by
  rw [(ledgerCleared_kept m s).entry, beginCheckpoint_entry, if_pos hk, withRate, entriesReset_entry,
    if_neg (by simp [hbit])]

theorem used_frame (c : Instr) : Frame s (used c s) where
  toCalm := used_calm c
  reg a ha := used_reg c s a (by unfold bridgeBlock at ha; omega)
  br b := (State.br_congr (used_bridges c s) b).symm ▸ BrKeeps.refl _

theorem ledgerReset_done {m : Nat} (ha : cmdAuth (.ledgerReset h m) .any s = true) (hr : s.ledger.run = none)
    (hm : ∀ k b, k < 48 → bitAt m k = true → bridgeOfLeg s (k / 2) = some b → modeOf s b = 0) :
    exec (.ledgerReset h m) s = .next (signed (.ledgerReset h m) stDone [] s
      (ledgerCleared m (used (.ledgerReset h m) s))) := by
  have hchecks : ledgerResetChecks m (used (.ledgerReset h m) s) = ⟨stDone, [], none, _⟩ :=
    ledgerResetChecks_done (by rw [used_ledger, hr]) fun k b hk hbit hleg => by
      rw [(used_frame _).bridgeOfLeg] at hleg
      rw [used_mode _ s (List.mem_range.1 (List.mem_of_find?_eq_some hleg)), hm k b hk hbit hleg]
  exact congrArg Host.Outcome.next (acceptCmd_calmSigned (c := .ledgerReset h m) rfl ha rfl hchecks (.inl rfl)
    (ledgerCleared_calm m _))

end

/-- Settles O41: each command in its branch, with the checkpoint that follows it. -/
theorem ledgerCommands : Obligations.LedgerCommands := by
  refine ⟨fun h k s hr hk => ⟨ledgerRead_answered hr hk, entryBytes_length _⟩, fun h n s hr hn => ledgerNfRead_answered hr hn,
    fun h n ws s ha hn => ⟨ledgerNf_busy ha hn, fun hb => ?_⟩,
    fun h s hr => ⟨fun hb hc => ⟨_, ledgerSave_accepted hr hb hc, isRunning_beginRun .., fun hrun => ?_, fun hrun => ?_⟩,
      ledgerSave_busy hr⟩, fun h m s ha hrun hm => ?_⟩
  · obtain ⟨hnf, hcount⟩ := nfWritten_tables h n ws (used (.ledgerNf h n ws) s)
    obtain ⟨hidle, hwaits⟩ := nfWritten_checkpoint h n ws (used (.ledgerNf h n ws) s)
    simp only [used_ledger] at hnf hidle hwaits
    refine ⟨_, ledgerNf_accepted ha hn hb, isRunning_beginRun .., fun k hk => ?_, fun m k hm hk => ?_, fun k => ?_, hidle, hwaits⟩
    · rw [nfAt, hnf, nfReplaced_same n ws _ hk]
    · rw [nfAt, hnf, nfReplaced_other ws _ hm hk, nfAt]
    · rw [hcount, State.entry_congr (congrArg Ledger.entries (used_ledger _ s))]
  · obtain ⟨c, hc, -, hcause, hentries, -⟩ := beginCheckpoint_ledger 2 s
    rw [demandCheckpoint_idle hrun]
    exact ⟨⟨c, hc, hcause, hentries⟩,
      ((GroveKept.refl _).beginRun.rd (by constructor <;> decide)).trans (beginCheckpoint_busy 2 s)⟩
  · rw [demandCheckpoint_waits hrun]
    exact ⟨rfl, rfl⟩
  · have hkept := ledgerCleared_kept m (used (.ledgerReset h m) s)
    have hentry := fun k => State.entry_congr (congrArg Ledger.entries (used_ledger (.ledgerReset h m) s)) k
    obtain ⟨c, hc, -, hcause, hentries, -⟩ := beginCheckpoint_ledger 3 (entriesReset m (used (.ledgerReset h m) s))
    refine ⟨_, ledgerReset_done ha hrun hm, fun k hk hbit => ?_, fun k hk hbit => ?_, ⟨c, ?_, hcause, ?_⟩, ?_⟩
    · rw [ledgerCleared_masked hk hbit, hentry]
    · rw [← hentry, ledgerCleared_other hk hbit]
    · rw [hkept.ledger, hc]
    · rw [hkept.ledger, hentries]
    · rw [hkept.rd (by constructor <;> decide), beginCheckpoint_busy]

end Sys2Proof.Machine
end
section
/-! O42: ledger passes and checkpoints (R178, R179, R181, R186). -/

namespace Sys2Proof.Machine

open Sys2Proof

section
variable {s t u : State}

/-- A loop of passes that each leave the state as it is. -/
theorem each_fixed {α : Type} {f : State → α → State} {l : List α} (h : ∀ x ∈ l, f s x = s) : s.each l f = s := by
  induction l with
  | nil => rfl
  | cons x l ih =>
    have hx : f s x = s := h x List.mem_cons_self
    refine (congrArg (fun v => v.each l f) hx).trans (ih fun y hy => h y (List.mem_cons_of_mem x hy))

/-! ### A pass -/

/-- The registers, the signals, the time and Canopy stay: a pull writes the ledger and the ONTIME of its bridge (R178). -/
structure Pulled (s t : State) : Prop where
  regs : t.regs = s.regs
  board : t.board = s.board
  now : t.now = s.now
  canopy : t.canopy = s.canopy

namespace Pulled

protected theorem refl (s : State) : Pulled s s := ⟨rfl, rfl, rfl, rfl⟩

protected theorem each {α : Type} {f : State → α → State} {l : List α} (h : Pulled s t)
    (hf : ∀ v x, Pulled s v → Pulled s (f v x)) : Pulled s (t.each l f) := State.each_ind _ f hf l t h

protected theorem setEntry {k : Nat} {e : Entry} (h : Pulled s t) : Pulled s (t.setEntry k e) := ⟨h.regs, h.board, h.now, h.canopy⟩

protected theorem setBr {b : Nat} {x : Bridge} (h : Pulled s t) : Pulled s (t.setBr b x) := ⟨h.regs, h.board, h.now, h.canopy⟩

protected theorem pullBlock {g : Graph} {states : List (List Nat)} {i : Nat} (h : Pulled s t) :
    Pulled s (pullBlock g states i t) := by
  unfold pullBlock
  extract_lets
  split
  · exact h.setEntry
  · split
    · exact h.setEntry
    · exact h

protected theorem pullBridge {b : Nat} (h : Pulled s t) : Pulled s (pullBridge b t) := by
  unfold pullBridge
  split
  · exact h
  · exact (((h.each fun _ _ h1 => h1.pullBlock).each fun _ _ h1 => h1.setEntry).setBr).each fun _ _ h1 => h1.setEntry

end Pulled

/-- Entry `k` has the DAMAGE of R179 and CYCLES the saturated sum of its counts (R177). -/
def Recomputed (k : Nat) (s : State) : Prop :=
  (s.entry k).damage = damageOf s (s.entry k) ∧
    (s.entry k).cycles = min 0xFFFFFFFF (((List.range 128).map (s.entry k).countAt).foldl (· + ·) 0)

/-- An entry that stands for no switch yet counts nothing, so no table gives it damage. -/
theorem damageOf_default (s : State) : damageOf s {} = 0 := by
  have hsum : ∀ l : List Nat, l.foldl (fun (q : Rat) k =>
      if nfAt s 0 k = 0 then q else q + ((({} : Entry).countAt k : Nat) : Rat) / (nfAt s 0 k : Rat)) 0 = 0 := by
    intro l
    induction l with
    | nil => rfl
    | cons k l ih => simp [Entry.countAt]
  have hround : roundHalfUp 0 = 0 := by decide +kernel
  simp [damageOf, hsum, hround]

/-- The damage of an entry is said by its counts and its table. -/
theorem damageOf_congr {e f : Entry} (hnf : t.ledger.nf = s.ledger.nf) (hcount : f.count = e.count) (hsel : f.nfSel = e.nfSel) :
    damageOf t f = damageOf s e := by
  have hat : nfAt t = nfAt s := by
    funext i k
    rw [nfAt, hnf, nfAt]
  have hcountAt : f.countAt = e.countAt := by
    funext k
    rw [Entry.countAt, hcount, Entry.countAt]
  rw [damageOf, damageOf, hat, hcountAt, hsel]

theorem recomputeEntry_recomputed (k : Nat) (s : State) : Recomputed k (s.setEntry k (recomputeEntry s (s.entry k))) := by
  unfold Recomputed
  rw [State.entry_setEntry_same]
  exact ⟨(damageOf_congr rfl rfl rfl).symm, rfl⟩

/-- A pass over the entries held recomputes one entry and keeps the others recomputed. -/
theorem recomputePass_keeps {k : Nat} (j : Nat) (h : Recomputed k u) : Recomputed k (u.setEntry j (recomputeEntry u (u.entry j))) := by
  by_cases hj : k = j
  · subst hj
    exact recomputeEntry_recomputed k u
  · unfold Recomputed
    rw [State.entry_setEntry_ne u j _ hj]
    exact h

/-- A recomputation of every entry held leaves every entry recomputed: one not held is zero. -/
theorem recomputePass_recomputed (k : Nat) (s : State) :
    Recomputed k (s.each (s.ledger.entries.map (·.1)) fun u j => u.setEntry j (recomputeEntry u (u.entry j))) := by
  by_cases hk : k ∈ s.ledger.entries.map (·.1)
  · exact each_reaches hk (recomputeEntry_recomputed k) (fun _ j h => recomputePass_keeps j h) s
  · refine State.each_ind _ _ (fun _ j h => recomputePass_keeps j h) _ s ?_
    have hzero : s.entry k = {} :=
      sget_of_forall_ne _ _ _ fun e he heq => hk (List.mem_map.2 ⟨e, he, heq⟩)
    unfold Recomputed
    rw [hzero, damageOf_default]
    exact ⟨rfl, by decide +kernel⟩

/-- What only a pull changes of an entry. -/
def pullWords (e : Entry) : List (Nat × Nat) × Nat × Nat × Nat := (e.count, e.energy, e.ontime, e.peak)

theorem recomputePass_pullWords (k : Nat) (l : List Nat) (s : State) :
    pullWords ((s.each l fun u j => u.setEntry j (recomputeEntry u (u.entry j))).entry k) = pullWords (s.entry k) := by
  refine State.each_keep (fun u => pullWords (u.entry k)) _ (fun u j => ?_) l s
  rw [entry_setEntry]
  split
  · next h => rw [h]; rfl
  · rfl

/-! ### Current steering -/

theorem steerPhase_eq (b : Nat) (ls : List Nat) (s : State) : ∃ x, steerPhase b ls s = { s with canopy := x } :=
  State.each_ind (fun u => ∃ x, u = { s with canopy := x }) _
    (fun u y ⟨_, he⟩ => ⟨(setShare y.1 y.2.toNat u).canopy,
      congrArg (fun v => { v with canopy := (setShare y.1 y.2.toNat u).canopy }) he⟩)
    _ s ⟨s.canopy, rfl⟩

/-- The shares are all that current steering writes. -/
theorem steerAll_eq (s : State) : ∃ x, steerAll s = { s with canopy := x } := by
  refine State.each_ind (fun u => ∃ x, u = { s with canopy := x }) _ (fun u b hu => ?_) _ s ⟨s.canopy, rfl⟩
  split
  · refine State.each_ind (fun u => ∃ x, u = { s with canopy := x }) _ (fun u p ⟨x, hu⟩ => ?_) _ u hu
    obtain ⟨y, hy⟩ := steerPhase_eq b (phaseLegs u b p) u
    exact ⟨y, hy.trans (congrArg (fun v => { v with canopy := y }) hu)⟩
  · exact hu

theorem steerAll_off (h : ∀ b, b < 4 → s.flag R.CN_STEER.STEER_EN b = false) : steerAll s = s :=
  each_fixed fun b hb => if_neg (by rw [h b (List.mem_range.1 hb)]; exact Bool.false_ne_true)

/-! ### The pass as a whole -/

/-- The state of a pass once its bridges are pulled and its entries recomputed (R178, R179). -/
def passRecomputed (s : State) : State :=
  let t := s.each (List.range 4) fun u b => pullBridge b u
  t.each (t.ledger.entries.map (·.1)) fun u k => u.setEntry k (recomputeEntry u (u.entry k))

theorem ledgerPass_eq (h : systemUp s = true) : ledgerPass s = steerAll (passRecomputed s) :=
  if_neg (by rw [h]; decide)

theorem passRecomputed_pulled (s : State) : Pulled s (passRecomputed s) :=
  ((Pulled.refl s).each fun _ _ h => h.pullBridge).each fun _ _ h => h.setEntry

theorem pullBridge_unplaced {b : Nat} (h : (s.br b).placed = none) : pullBridge b s = s := by
  unfold pullBridge
  rw [h]

/-- With no graph placed there is nothing to pull. -/
theorem passRecomputed_unplaced (h : ∀ b, b < 4 → (s.br b).placed = none) (k : Nat) :
    pullWords ((passRecomputed s).entry k) = pullWords (s.entry k) := by
  have hpull : (s.each (List.range 4) fun u b => pullBridge b u) = s :=
    each_fixed fun b hb => pullBridge_unplaced (h b (List.mem_range.1 hb))
  rw [passRecomputed, hpull]
  exact recomputePass_pullWords k _ s

/-! ### The periodic checkpoint -/

theorem exec_ledgerCheckpoint : exec .ledgerCheckpoint s = .next (ledgerCheckpoint s) := rfl

theorem ledgerCheckpoint_begins (hup : systemUp s = true) (hr : s.ledger.run = none) :
    ledgerCheckpoint s = beginCheckpoint 0 (reachTime (s.ledger.cpFrom + 600 * tSec) s) :=
  if_neg (by rw [hr, hup]; decide)

theorem ledgerCheckpoint_waits (h : systemUp s = false ∨ s.ledger.run ≠ none) : ledgerCheckpoint s = s :=
  if_pos (h.symm.imp_left Option.isSome_iff_ne_none.2)

/-! ### The end of a checkpoint -/

/-- The record is written: no checkpoint runs, a COUNTER_RESYNC that waited is written, and CP_BUSY falls (R181, R390, R457). -/
def checkpointReleased (s : State) : State :=
  (settleResync (ringWrite 0 { s with ledger := { s.ledger with run := none } })).clear R.CN_LEDGER.CP_BUSY

/-- The copy stands with its generation, or CP_FAIL sets (R181, R183). -/
def checkpointResult (ok : Bool) (c : Checkpoint) (s : State) : State :=
  if ok then { s with ledger := { s.ledger with copies := (c :: validCopies s).take 2, cpAt := some s.now, cpFrom := s.now } }
      |>.wr R.CN_GEN.GEN 0 c.gen
  else logEvent 0x0052 0 (le 1 c.cause ++ le 4 c.gen) (s.raise R.CN_EVENT.CP_FAIL)

/-- The command of the checkpoint ends with it. -/
def checkpointEnded (ok : Bool) (c : Checkpoint) (s : State) : State :=
  endRun (causeOp c.cause) 0 (if ok then 1 else 2) (checkpointResult ok c (checkpointReleased s))

/-- The next checkpoint that waits begins. -/
def nextCheckpoint (s : State) : State :=
  match s.ledger.next with
  | cause :: rest => beginCheckpoint cause { s with ledger := { s.ledger with next := rest } }
  | [] => s

theorem ledgerCheckpointDone_ends {c : Checkpoint} (ok : Bool) (hr : s.ledger.run = some c) (hf : flashNow s = some 3) :
    ledgerCheckpointDone ok s = nextCheckpoint (checkpointEnded ok c s) := by
  unfold ledgerCheckpointDone
  rw [hr]
  exact if_neg (not_not_intro hf)

/-- A write that waits for the flash does not end (R457). -/
theorem ledgerCheckpointDone_waits (ok : Bool) (h : s.ledger.run = none ∨ flashNow s ≠ some 3) : ledgerCheckpointDone ok s = s := by
  unfold ledgerCheckpointDone
  split
  · rfl
  · next c hc => exact if_pos (h.resolve_left (by rw [hc]; exact Option.some_ne_none c))

theorem checkpointReleased_ledger (s : State) : (checkpointReleased s).ledger = { s.ledger with run := none } := by
  rw [checkpointReleased, State.clear_eq, State.wr_ledger, (GroveKept.refl _).ringWrite.settleResync.ledger]

theorem checkpointReleased_now (s : State) : (checkpointReleased s).now = s.now := by
  rw [checkpointReleased, State.clear_eq, State.wr_now, (GroveKept.refl _).ringWrite.settleResync.now]

theorem checkpointReleased_busy (s : State) : (checkpointReleased s).rd R.CN_LEDGER.CP_BUSY = 0 := by
  rw [checkpointReleased, State.clear_eq, State.rd_wr_same _ _ _ _ (by decide), Nat.zero_mod]

theorem checkpointReleased_copies (s : State) : validCopies (checkpointReleased s) = validCopies s := by
  rw [validCopies, validCopies, checkpointReleased_ledger]

variable (c : Checkpoint)

theorem checkpointEnded_kept (ok : Bool) (s : State) :
    GroveKept (checkpointResult ok c (checkpointReleased s)) (checkpointEnded ok c s) := (GroveKept.refl _).endRun

theorem checkpointEnded_written (s : State) : (checkpointEnded true c s).ledger =
    { s.ledger with run := none, copies := (c :: validCopies s).take 2, cpAt := some s.now, cpFrom := s.now } := by
  rw [(checkpointEnded_kept c true s).ledger, checkpointResult, if_pos rfl, State.wr_ledger]
  simp only [checkpointReleased_ledger, checkpointReleased_now, checkpointReleased_copies]

theorem checkpointEnded_failed (s : State) : (checkpointEnded false c s).ledger = { s.ledger with run := none } := by
  rw [(checkpointEnded_kept c false s).ledger, checkpointResult, if_neg Bool.false_ne_true, (GroveKept.refl _).logEvent.ledger,
    State.raise_eq, State.wr_ledger, checkpointReleased_ledger]

theorem checkpointEnded_gen (s : State) : (checkpointEnded true c s).rd R.CN_GEN.GEN = c.gen % 2 ^ R.CN_GEN.GEN.width := by
  rw [(checkpointEnded_kept c true s).rd (by constructor <;> decide), checkpointResult, if_pos rfl,
    State.rd_wr_same _ _ _ _ (by decide)]

theorem checkpointEnded_fail (s : State) : (checkpointEnded false c s).flag R.CN_EVENT.CP_FAIL = true := by
  rw [State.flag_eq, (checkpointEnded_kept c false s).rd (by constructor <;> decide), checkpointResult,
    if_neg Bool.false_ne_true, (GroveKept.refl _).logEvent.rd (by constructor <;> decide), State.raise_eq,
    State.rd_wr_same _ _ _ _ (by decide)]
  rfl

theorem checkpointEnded_busy (ok : Bool) (s : State) : (checkpointEnded ok c s).rd R.CN_LEDGER.CP_BUSY = 0 := by
  rw [(checkpointEnded_kept c ok s).rd (by constructor <;> decide), checkpointResult]
  split
  · rw [rd_wr_apart, State.rd_mk, checkpointReleased_busy]
  · rw [(GroveKept.refl _).logEvent.rd (by constructor <;> decide), State.raise_eq, rd_wr_apart,
      checkpointReleased_busy]

/-- What both results leave of the checkpoints: none runs, those that wait still wait. -/
theorem checkpointEnded_ledger (ok : Bool) (s : State) : (checkpointEnded ok c s).ledger.run = none ∧
    (checkpointEnded ok c s).ledger.next = s.ledger.next ∧
    (checkpointEnded ok c s).ledger.copies = if ok then (c :: validCopies s).take 2 else s.ledger.copies := by
  cases ok with
  | false =>
    rw [checkpointEnded_failed]
    exact ⟨rfl, rfl, rfl⟩
  | true =>
    rw [checkpointEnded_written]
    exact ⟨rfl, rfl, rfl⟩

theorem nextCheckpoint_none (h : s.ledger.next = []) : nextCheckpoint s = s := by
  unfold nextCheckpoint
  rw [h]

theorem nextCheckpoint_begins {n : Nat} {l : List Nat} (h : s.ledger.next = n :: l) :
    nextCheckpoint s = beginCheckpoint n { s with ledger := { s.ledger with next := l } } := by
  unfold nextCheckpoint
  rw [h]

end

/-- Settles O42: a pass by its pulls, its recomputation and current steering; a checkpoint by its begin and its end. -/
theorem ledgerPassesAndCheckpoints : Obligations.LedgerPassesAndCheckpoints := by
  refine ⟨fun s hup => ?_, fun s => ⟨fun hup hr => ?_, fun h => congrArg Host.Outcome.next (ledgerCheckpoint_waits h)⟩,
    fun ok s h => congrArg Host.Outcome.next (ledgerCheckpointDone_waits ok h), fun c s hr hf => ⟨fun hn => ?_, fun ok n l hn => ?_⟩⟩
  · obtain ⟨x, hx⟩ := steerAll_eq (passRecomputed s)
    obtain ⟨hregs, hboard, hnow, hcanopy⟩ := passRecomputed_pulled s
    refine ⟨ledgerPass s, rfl, ?_⟩
    rw [ledgerPass_eq hup]
    refine ⟨?_, ?_, ?_, fun k => ?_, fun hplaced k => ?_, fun hoff => ?_⟩
    · rw [hx]; exact hregs
    · rw [hx]; exact hboard
    · rw [hx]; exact hnow
    · rw [hx]; exact recomputePass_recomputed k _
    · rw [hx]
      have hwords := passRecomputed_unplaced hplaced k
      simp only [pullWords, Prod.mk.injEq] at hwords
      exact hwords
    · rw [steerAll_off fun b hb => ?_, hcanopy]
      rw [State.flag_eq, State.rd_eq, State.reg_congr hregs, ← State.rd_eq, ← State.flag_eq, hoff b hb]
  · obtain ⟨c, hrun, hgen, hcause, hentries, hnf, hledger⟩ := beginCheckpoint_ledger 0 (reachTime (s.ledger.cpFrom + 600 * tSec) s)
    refine ⟨_, c, exec_ledgerCheckpoint, ?_⟩
    rw [ledgerCheckpoint_begins hup hr]
    refine ⟨beginCheckpoint_now _ _, hrun, hcause, hentries, hnf, fun d l hd => hgen.trans (checkpointGen_copy hd),
      beginCheckpoint_busy _ _, by rw [hledger]; rfl⟩
  · have hend : ∀ ok, exec (.ledgerCheckpointDone ok) s = .next (checkpointEnded ok c s) := fun ok => by
      obtain ⟨-, hnext, -⟩ := checkpointEnded_ledger c ok s
      exact congrArg Host.Outcome.next ((ledgerCheckpointDone_ends ok hr hf).trans (nextCheckpoint_none (hnext.trans hn)))
    have hok := checkpointEnded_written c s
    have hfail := checkpointEnded_failed c s
    exact ⟨⟨_, hend true, by rw [hok], checkpointEnded_gen c s, by rw [hok], checkpointEnded_busy c true s, by rw [hok], by rw [hok]⟩,
      ⟨_, hend false, by rw [hfail], checkpointEnded_fail c s, by rw [hfail], checkpointEnded_busy c false s, by rw [hfail]⟩⟩
  · obtain ⟨hrun, hnext, hcopies⟩ := checkpointEnded_ledger c ok s
    obtain ⟨d, hd, -, hcause, -, -, hledger⟩ := beginCheckpoint_ledger n
      { checkpointEnded ok c s with ledger := { (checkpointEnded ok c s).ledger with next := l } }
    refine ⟨_, d, congrArg Host.Outcome.next ((ledgerCheckpointDone_ends ok hr hf).trans
      (nextCheckpoint_begins (hnext.trans hn))), hd, hcause, by rw [hledger], by rw [hledger]; exact hcopies, beginCheckpoint_busy _ _⟩

end Sys2Proof.Machine
end
section
/-! SUPPORT. O44: which fields of the engines and which parts of a placement the operations of Canopy leave (R153, R157, R169, R174). -/

namespace Sys2Proof.Machine

open Sys2Proof

/-! ### Fields of the sixteen engines and of Canopy -/

/-- A field of each engine (R189). -/
def engineFld (f : Fld) : Bool := decide (0x300000 ≤ f.base ∧ f.base < 0x300200 ∧ f.stride = 0x200 ∧ f.stride2 = 0)

/-- A field above the blocks of the sixteen engines. -/
def canopyFld (f : Fld) : Bool := decide (0x380000 ≤ f.base)

section
variable {s t u : State} {f g : Fld} {e i j k v : Nat}

theorem fldAddr_engine (hf : engineFld f = true) (he : e < 16) : fldAddr f e j < 0x302000 := by
  have hf := of_decide_eq_true hf
  obtain ⟨-, hbase, hstride, hstride2⟩ := hf
  rw [fldAddr, hstride, hstride2]
  omega

theorem fldAddr_canopy (hf : canopyFld f = true) : 0x380000 ≤ fldAddr f i j := by
  have hf := of_decide_eq_true hf
  rw [fldAddr]
  omega

/-- A write of Canopy leaves the engines. -/
theorem rd_wr_canopy (he : e < 16) (hf : engineFld f = true := by decide) (hg : canopyFld g = true := by decide) :
    (s.wr g k v).rd f e = s.rd f e := by
  have h1 := fldAddr_engine (j := 0) hf he
  have h2 := fldAddr_canopy (i := k) (j := 0) hg
  exact State.rd_wr_addr _ _ _ _ _ _ _ (by omega)

/-- A write of an engine leaves Canopy. -/
theorem rd_wr_engine (hk : k < 16) (hf : canopyFld f = true := by decide) (hg : engineFld g = true := by decide) :
    (s.wr g k v).rd f i j = s.rd f i j := by
  have h1 := fldAddr_engine (j := 0) hg hk
  have h2 := fldAddr_canopy (i := i) (j := j) hf
  exact State.rd_wr_addr _ _ _ _ _ _ _ (by omega)

/-- A write of one engine leaves the others. -/
theorem rd_wr_other_engine (he : e ≠ k) (hf : engineFld f = true := by decide) (hg : engineFld g = true := by decide) :
    (s.wr g k v).rd f e = s.rd f e := by
  have hf := of_decide_eq_true hf
  have hg := of_decide_eq_true hg
  obtain ⟨hf1, hf2, hf3, hf4⟩ := hf
  obtain ⟨hg1, hg2, hg3, hg4⟩ := hg
  refine State.rd_wr_addr _ _ _ _ _ _ _ ?_
  rw [fldAddr, fldAddr, hf3, hf4, hg3, hg4]
  omega

/-- A field of the blocks of the engines and of Canopy lies in the Grove. -/
theorem fldAddr_engine_grove (hf : engineFld f = true) (he : e < 16) : groveBlock (fldAddr f e 0) := by
  have h1 := fldAddr_engine (j := 0) hf he
  have hf := of_decide_eq_true hf
  refine ⟨?_, by omega⟩
  rw [fldAddr]
  omega

/-- What a saturating counter shows once it has counted. -/
theorem rd_countUp_same (n : Nat) (h : f.lo + f.width ≤ 32) :
    (s.countUp f i n).rd f i = min (2 ^ f.width - 1) (s.rd f i + n) := by
  rw [State.countUp_eq, State.rd_wr_same _ _ _ _ h]
  have hpos := Nat.two_pow_pos f.width
  exact Nat.mod_eq_of_lt (by omega)

/-! ### What a placement shows -/

/-- A field of an engine that is neither its load nor its footprint. -/
def unshown (f : Fld) : Bool :=
  engineFld f && apartFld f R.EN_STATUS.NBLK && apartFld f R.EN_LOAD.PEAK_PM && apartFld f R.EN_LOAD.FOOT_KIB

theorem unshown_parts (h : unshown f = true) : engineFld f = true ∧ apartFld f R.EN_STATUS.NBLK = true ∧
    apartFld f R.EN_LOAD.PEAK_PM = true ∧ apartFld f R.EN_LOAD.FOOT_KIB = true := by
  simpa only [unshown, Bool.and_eq_true, and_assoc] using h

theorem unshown_engineFld (h : unshown f = true) : engineFld f = true := by
  obtain ⟨hf, -, -, -⟩ := unshown_parts h
  exact hf

/-- The loads shown: the bridges and Canopy stay, and the other fields of every engine. -/
structure Shown (s t : State) : Prop where
  bridges : t.bridges = s.bridges
  canopy : t.canopy = s.canopy
  rd : ∀ f e, unshown f = true → e < 16 → t.rd f e = s.rd f e

namespace Shown

protected theorem refl (s : State) : Shown s s := ⟨rfl, rfl, fun _ _ _ _ => rfl⟩

protected theorem eachMem {α : Type} {f : State → α → State} {l : List α} (h : Shown s t)
    (hf : ∀ v, ∀ x ∈ l, Shown s v → Shown s (f v x)) : Shown s (t.each l f) := by
  induction l generalizing t with
  | nil => exact h
  | cons x l ih => exact ih (hf t x List.mem_cons_self h) fun v y hy => hf v y (List.mem_cons_of_mem x hy)

protected theorem wr (h : Shown s t) (hg : canopyFld g = true := by decide) : Shown s (t.wr g k v) :=
  ⟨h.bridges, h.canopy, fun f e hf he => (rd_wr_canopy he (unshown_engineFld hf) hg).trans (h.rd f e hf he)⟩

/-- A field that `unshown` leaves out. -/
protected theorem wrLoad (h : Shown s t) (hg : ∀ f, unshown f = true → apartFld f g = true) : Shown s (t.wr g k v) :=
  ⟨h.bridges, h.canopy, fun f e hf he => (rd_wr_apart _ _ _ _ _ (hg f hf)).trans (h.rd f e hf he)⟩

protected theorem showEngine {p : Placed} (h : Shown s t) : Shown s (showEngine p k t) := by
  have hnblk : ∀ f, unshown f = true → apartFld f R.EN_STATUS.NBLK = true := fun _ hf => by
    obtain ⟨-, hnblk, -, -⟩ := unshown_parts hf
    exact hnblk
  have hpeak : ∀ f, unshown f = true → apartFld f R.EN_LOAD.PEAK_PM = true := fun _ hf => by
    obtain ⟨-, -, hpeak, -⟩ := unshown_parts hf
    exact hpeak
  have hfoot : ∀ f, unshown f = true → apartFld f R.EN_LOAD.FOOT_KIB = true := fun _ hf => by
    obtain ⟨-, -, -, hfoot⟩ := unshown_parts hf
    exact hfoot
  unfold Machine.showEngine
  exact ((h.wrLoad hnblk).wrLoad hpeak).wrLoad hfoot

protected theorem showPlacement {b : Nat} (h : Shown s t) : Shown s (showPlacement b t) := by
  unfold showPlacement
  split
  · exact h
  · exact (h.eachMem fun _ _ _ h1 => h1.showEngine).wr.wr.wr.wr

end Shown

/-! ### What an operation on other engines leaves of one engine -/

/-- The engines of the blocks of bridge `b`, where a graph is placed. -/
def placedEngines (s : State) (b : Nat) : Option (List Nat) := (s.br b).placed.map (·.engines)

/-- Engine `e` stays but for its load, and Canopy, and every block on its engine. -/
structure EngineKept (e : Nat) (s t : State) : Prop where
  canopy : t.canopy = s.canopy
  placed : ∀ b, placedEngines t b = placedEngines s b
  rd : ∀ f, unshown f = true → t.rd f e = s.rd f e

theorem Shown.engineKept (h : Shown s t) (he : e < 16) : EngineKept e s t :=
  ⟨h.canopy, fun b => by rw [placedEngines, State.br_congr h.bridges, placedEngines], fun f hf => h.rd f e hf he⟩

namespace EngineKept

protected theorem refl (e : Nat) (s : State) : EngineKept e s s := ⟨rfl, fun _ => rfl, fun _ _ => rfl⟩

protected theorem trans (h : EngineKept e s t) (h1 : EngineKept e t u) : EngineKept e s u :=
  ⟨h1.canopy.trans h.canopy, fun b => (h1.placed b).trans (h.placed b), fun f hf => (h1.rd f hf).trans (h.rd f hf)⟩

protected theorem wrCanopy (h : EngineKept e s t) (he : e < 16) (hg : canopyFld g = true := by decide) :
    EngineKept e s (t.wr g i v) :=
  ⟨h.canopy, h.placed, fun f hf => (rd_wr_canopy he (unshown_engineFld hf) hg).trans (h.rd f hf)⟩

protected theorem wrEngine (h : EngineKept e s t) (hk : e ≠ k) (hg : engineFld g = true := by decide) :
    EngineKept e s (t.wr g k v) :=
  ⟨h.canopy, h.placed, fun f hf => (rd_wr_other_engine hk (unshown_engineFld hf) hg).trans (h.rd f hf)⟩

/-- A placement with its blocks on the same engines. -/
protected theorem setPlaced {b : Nat} {p q : Placed} (h : EngineKept e s t) (hp : (t.br b).placed = some p)
    (hq : q.engines = p.engines) : EngineKept e s (t.setBr b { t.br b with placed := some q }) := by
  refine ⟨h.canopy, fun c => Eq.trans ?_ (h.placed c), h.rd⟩
  by_cases hc : c = b
  · subst hc
    rw [placedEngines, State.br_setBr_same, placedEngines, hp, Option.map_some, Option.map_some, hq]
  · rw [placedEngines, State.br_setBr_ne _ _ _ hc, placedEngines]

protected theorem idleEngine (h : EngineKept e s t) (hk : e ≠ k) : EngineKept e s (idleEngine k t) :=
  ((((h.wrEngine hk).wrEngine hk).wrEngine hk).wrEngine hk).wrEngine hk

protected theorem makeFallow (h : EngineKept e s t) (hk : e ≠ k) (he : e < 16) : EngineKept e s (makeFallow k t) :=
  (((h.idleEngine hk).wrEngine hk).wrCanopy he).wrCanopy he

protected theorem noFallow (h : EngineKept e s t) (he : e < 16) : EngineKept e s (noFallow t) := by
  unfold noFallow
  split
  · exact h
  · exact (h.wrCanopy he).wrCanopy he

protected theorem squeezeBridge {b : Nat} (he : e < 16) (hu : squeezeBridge b s = some u) : EngineKept e s u := by
  unfold squeezeBridge at hu
  split at hu
  · cases hu
  · next p hp =>
    extract_lets own g1 at hu
    split at hu
    · cases hu
    · split at hu
      · cases hu
        refine .trans ?_ ((Shown.refl _).showPlacement.engineKept he)
        exact (EngineKept.refl e s).setPlaced hp rfl
      · cases hu

/-- No operation of R174 takes an engine that is not IDLE, and none moves a block. -/
protected theorem recoverFallow (he : e < 16) (hs : s.rd R.EN_STATUS.STATE e ≠ 0) : EngineKept e s (recoverFallow s) := by
  unfold recoverFallow
  split
  · next k l hk =>
    have hidle : s.rd R.EN_STATUS.STATE k = 0 :=
      of_decide_eq_true (List.mem_filter.1 (show k ∈ enginesIn s 0 from hk ▸ List.mem_cons_self)).2
    exact (EngineKept.refl e s).makeFallow (fun h => hs (h ▸ hidle)) he
  · refine .noFallow ?_ he
    cases hu : (List.range 4).findSome? (fun b => squeezeBridge b s) with
    | none => exact EngineKept.refl e s
    | some u =>
      obtain ⟨b, -, hb⟩ := List.exists_of_findSome?_eq_some hu
      exact EngineKept.squeezeBridge he hb

end EngineKept

/-! ### An engine that fails, and one that becomes the fallow engine -/

theorem failEngine_bridges (e cause : Nat) (s : State) : (failEngine e cause s).bridges = s.bridges := by
  rw [failEngine, (GroveKept.refl _).logEvent.bridges]
  simp only [State.raise_eq, State.clearBit_eq, idleEngine, State.wr_bridges]

theorem failEngine_canopy (e cause : Nat) (s : State) : (failEngine e cause s).canopy = s.canopy := by
  rw [failEngine, (GroveKept.refl _).logEvent.canopy]
  simp only [State.raise_eq, State.clearBit_eq, idleEngine, State.wr_canopy]

theorem makeFallow_bridges (e : Nat) (s : State) : (makeFallow e s).bridges = s.bridges := by
  simp only [makeFallow, idleEngine, State.clear_eq, State.wr_bridges]

variable (he : e < 16) (cause : Nat)
include he

theorem failEngine_state : (failEngine e cause s).rd R.EN_STATUS.STATE e = 5 := by
  rw [failEngine, (GroveKept.refl _).logEvent.rd (fldAddr_engine_grove (by decide) he), State.raise_eq, State.clearBit_eq,
    rd_wr_canopy he, rd_wr_canopy he, rd_wr_apart, State.rd_wr_same _ _ _ _ (by decide)]
  rfl

theorem failEngine_cause : (failEngine e cause s).rd R.EN_STATUS.FAIL_CAUSE e = cause % 16 := by
  rw [failEngine, (GroveKept.refl _).logEvent.rd (fldAddr_engine_grove (by decide) he), State.raise_eq, State.clearBit_eq,
    rd_wr_canopy he, rd_wr_canopy he, State.rd_wr_same _ _ _ _ (by decide)]
  rfl

theorem failEngine_bistFail : (failEngine e cause s).rd R.EN_COUNT.BIST_FAIL e = s.rd R.EN_COUNT.BIST_FAIL e := by
  rw [failEngine, (GroveKept.refl _).logEvent.rd (fldAddr_engine_grove (by decide) he), State.raise_eq, State.clearBit_eq,
    rd_wr_canopy he, rd_wr_canopy he, idleEngine]
  simp (disch := decide) only [rd_wr_apart]

theorem makeFallow_state : (makeFallow e s).rd R.EN_STATUS.STATE e = 2 := by
  rw [makeFallow, State.clear_eq, rd_wr_canopy he, rd_wr_canopy he, State.rd_wr_same _ _ _ _ (by decide)]
  rfl

omit he

theorem makeFallow_fallow (he : e < 16) : (makeFallow e s).rd R.CN_STATUS.FALLOW = e := by
  rw [makeFallow, State.clear_eq, rd_wr_apart, State.rd_wr_same _ _ _ _ (by decide)]
  exact Nat.mod_eq_of_lt he

end

end Sys2Proof.Machine
end
section
/-! O44: rotation steps, the ends of self-tests and uncorrectable errors (R165, R169 to R174, R419, R462). -/

namespace Sys2Proof.Machine

open Sys2Proof

section
variable {s t u : State} {e f r : Nat} {p : Placed}

/-! ### Rotation steps -/

theorem exec_rotationStep : exec .rotationStep s = .next (rotationStep s) := rfl

/-- The rotation step waits, or no longer does (R169). -/
def stepWaits (w : Bool) (s : State) : State := { s with canopy := { s.canopy with rotWait := w } }

theorem rotationStep_without (h : s.flag R.CN_STATUS.NO_FALLOW = true ∨ controlUp s = false) : rotationStep s = s :=
  if_pos (h.imp_right .inr)

theorem rotationStep_takes (hn : s.flag R.CN_STATUS.NO_FALLOW = false) (hup : controlUp s = true) (hf : hasFallow s = true) :
    rotationStep s = takeStep (stepWaits true s) :=
  if_neg (by rw [hn, hup, hf]; decide)

theorem takeStep_waits (h : fallowReady s = false) : takeStep s = s :=
  if_neg (by rw [h, Bool.and_false]; exact Bool.false_ne_true)

theorem takeStep_none (h : s.canopy.rotWait = false) : takeStep s = s :=
  if_neg (by rw [h, Bool.false_and]; exact Bool.false_ne_true)

theorem takeStep_rotates (hw : s.canopy.rotWait = true) (h : fallowReady s = true) : takeStep s = rotate s :=
  if_pos (by rw [hw, h]; rfl)

/-- A fallow engine that is ready is one of the sixteen, and there is one. -/
theorem fallowReady_iff : fallowReady s = true ↔ s.flag R.CN_STATUS.NO_FALLOW = false ∧
    s.rd R.EN_STATUS.STATE (s.rd R.CN_STATUS.FALLOW) = 3 ∧ claimed s (s.rd R.CN_STATUS.FALLOW) = false := by
  simp [fallowReady, and_assoc]

theorem hasFallow_of_ready (h : fallowReady s = true) : hasFallow s = true := by
  obtain ⟨-, hstate, -⟩ := fallowReady_iff.1 h
  have hmem : s.rd R.CN_STATUS.FALLOW ∈ enginesIn s 3 :=
    List.mem_filter.2 ⟨List.mem_range.2 (State.rd_lt s R.CN_STATUS.FALLOW 0 0), decide_eq_true hstate⟩
  rw [hasFallow, bne_iff_ne]
  exact List.ne_nil_of_mem (List.mem_append_left _ (List.mem_append_right _ hmem))

/-- A rotation step with its fallow engine ready is taken at once. -/
theorem rotationStep_rotates (hup : controlUp s = true) (h : fallowReady s = true) :
    rotationStep s = rotate (stepWaits true s) := by
  rw [rotationStep_takes (fallowReady_iff.1 h).1 hup (hasFallow_of_ready h)]
  exact takeStep_rotates rfl h

/-- The next engine is another one. -/
theorem rotationEngine_ne (h : rotationEngine s f = some e) : e ≠ f := by
  obtain ⟨k, hk, rfl⟩ := List.mem_map.1 (List.mem_of_find?_eq_some h)
  rw [List.mem_range] at hk
  omega

/-- An IDLE engine takes the place of the fallow one (R169). -/
theorem rotate_idle (hf : s.rd R.CN_STATUS.FALLOW = f) (he : rotationEngine s f = some e) (h0 : s.rd R.EN_STATUS.STATE e = 0) :
    rotate s = makeFallow e ((stepWaits false s).wr R.EN_STATUS.STATE f 0) := by
  subst hf
  simp only [rotate, he]
  exact if_pos h0

/-- The blocks of engine `e` to be moved to engine `f` (R169). -/
def engineMoves (p : Placed) (e f : Nat) : List (Nat × Nat × Nat) :=
  ((List.range p.engines.length).filter (fun i => p.engines.getD i 99 = e)).map (fun i => (i, e, f))

/-- The fallow engine as the target of the hinges of bridge `b` from engine `e` (R169). -/
def rotateTo (b e f : Nat) (p : Placed) (s : State) : State :=
  let s1 := ((stepWaits false s).wr R.EN_STATUS.STATE f 4).wr R.EN_STATUS.OWNER f b
  s1.setBr b { s1.br b with placed := some { p with hinge := some ⟨e, some f, engineMoves p e f, [], []⟩ } }

/-- The hinges of an ACTIVE engine's bridge begin, unless one of it still runs. -/
theorem rotate_active (hf : s.rd R.CN_STATUS.FALLOW = f) (he : rotationEngine s f = some e) (h1 : s.rd R.EN_STATUS.STATE e = 1)
    (hp : (s.br (s.rd R.EN_STATUS.OWNER e)).placed = some p) : rotate s =
      if p.hinge.isSome then s
      else showPlacement (s.rd R.EN_STATUS.OWNER e) (rotateTo (s.rd R.EN_STATUS.OWNER e) e f p s) := by
  subst hf
  simp only [rotate, he]
  refine (if_neg (by rw [h1]; decide)).trans ?_
  rw [hp]
  rfl

/-- A step taken waits no more where no hinge runs. -/
theorem rotate_taken (h : ∀ c p, c < 4 → (s.br c).placed = some p → p.hinge = none) : (rotate s).canopy.rotWait = false := by
  unfold rotate
  extract_lets f s0
  split
  · rfl
  · next e _ =>
    split
    · rfl
    · extract_lets b
      split
      · rfl
      · next p hp =>
        split
        · next hh =>
          rw [h b p (State.rd_lt s R.EN_STATUS.OWNER e 0) hp] at hh
          cases hh
        · rw [(Shown.refl _).showPlacement.canopy]
          rfl

theorem rotateTo_state (b : Nat) (hne : e ≠ f) (s : State) :
    (rotateTo b e f p s).rd R.EN_STATUS.STATE f = 4 ∧ (rotateTo b e f p s).rd R.EN_STATUS.STATE e = s.rd R.EN_STATUS.STATE e ∧
      (rotateTo b e f p s).rd R.EN_STATUS.OWNER f = b % 4 := by
  refine ⟨?_, ?_, ?_⟩
  · rw [rotateTo, State.rd_setBr, rd_wr_apart, State.rd_wr_same _ _ _ _ (by decide)]
    rfl
  · rw [rotateTo, State.rd_setBr, rd_wr_other_engine hne, rd_wr_other_engine hne]
    rfl
  · rw [rotateTo, State.rd_setBr, State.rd_wr_same _ _ _ _ (by decide)]
    rfl

/-! ### The end of a self-test -/

theorem exec_bistDone : exec (.bistDone e r) s = .next (bistDone e r s) := rfl

theorem bistDone_ignored (ht : (s.eng e).testing = false) (h : s.rd R.EN_STATUS.STATE e ≠ 2 ∨ claimed s e = true) :
    bistDone e r s = s :=
  (if_neg (by rw [ht]; simp)).trans (if_pos (.inr h))

/-- A test that ends by BIST_DONE of a FALLOW_TEST engine that no evacuation has taken. -/
structure TestEnds (e : Nat) (s : State) : Prop where
  engine : e < 16
  late : (s.eng e).testing = false
  state : s.rd R.EN_STATUS.STATE e = 2
  free : claimed s e = false

/-- The engine has passed (R169). -/
def bistPassed (e : Nat) (s : State) : State :=
  ((s.setEng e { s.eng e with passAt := s.now, lastOk := true }).wr R.EN_STATUS.STATE e 3).countUp R.EN_BIST.BIST_RUNS e

/-- The engine has failed (R170). -/
def bistFailed (e : Nat) (s : State) : State := (s.setEng e { s.eng e with lastOk := false }).countUp R.EN_COUNT.BIST_FAIL e

/-- The cause of a failed self-test: its lowest bit (R170). -/
def bistCause (r : Nat) : Nat := if bitAt r 0 then 1 else 2

theorem claimed_congr (h : t.bridges = s.bridges) (f : Nat) : claimed t f = claimed s f := by
  simp only [claimed, State.br_congr h]

theorem bistPassed_regs (e : Nat) (s : State) : (bistPassed e s).rd R.EN_STATUS.STATE e = 3 ∧ ((bistPassed e s).eng e).passAt = s.now ∧
    (bistPassed e s).rd R.EN_BIST.BIST_RUNS e = min (2 ^ R.EN_BIST.BIST_RUNS.width - 1) (s.rd R.EN_BIST.BIST_RUNS e + 1) := by
  refine ⟨?_, ?_, ?_⟩
  · rw [bistPassed, State.countUp_eq, rd_wr_apart, State.rd_wr_same _ _ _ _ (by decide)]
    rfl
  · rw [bistPassed, State.countUp_eq, State.eng_wr, State.eng_wr, State.eng_setEng_same]
  · rw [bistPassed, rd_countUp_same _ (by decide), rd_wr_apart, State.rd_setEng]

theorem bistPassed_bridges (e : Nat) (s : State) : (bistPassed e s).bridges = s.bridges := by
  rw [bistPassed, State.countUp_eq, State.wr_bridges, State.wr_bridges, State.setEng_bridges]

theorem bistPassed_rotWait (e : Nat) (s : State) : (bistPassed e s).canopy.rotWait = s.canopy.rotWait := by
  rw [bistPassed, State.countUp_eq, State.wr_canopy, State.wr_canopy]
  rfl

namespace TestEnds

variable (h : TestEnds e s)
include h

theorem done (r : Nat) : bistDone e r s =
    if r = 0 then takeStep (bistPassed e s) else recoverFallow (failEngine e (bistCause r) (bistFailed e s)) := by
  obtain ⟨he, hlate, hstate, hfree⟩ := h
  exact (if_neg (by rw [hlate]; simp)).trans (if_neg (by rw [hstate, hfree]; simp; omega))

/-- It is then the fallow engine that a waiting step wants. -/
theorem passed_ready (hf : s.rd R.CN_STATUS.FALLOW = e) (hn : s.flag R.CN_STATUS.NO_FALLOW = false) :
    fallowReady (bistPassed e s) = true := by
  have hfallow : (bistPassed e s).rd R.CN_STATUS.FALLOW = e := by
    rw [bistPassed, State.countUp_eq, rd_wr_engine h.engine, rd_wr_engine h.engine, State.rd_setEng, hf]
  have hflag : (bistPassed e s).flag R.CN_STATUS.NO_FALLOW = false := by
    rw [State.flag_eq, bistPassed, State.countUp_eq, rd_wr_engine h.engine, rd_wr_engine h.engine, State.rd_setEng, ← State.flag_eq, hn]
  rw [fallowReady_iff, hfallow]
  exact ⟨hflag, (bistPassed_regs e s).1, (claimed_congr (bistPassed_bridges e s) e).trans h.free⟩

theorem failed_regs (r : Nat) :
    let t := recoverFallow (failEngine e (bistCause r) (bistFailed e s))
    t.rd R.EN_STATUS.STATE e = 5 ∧ t.rd R.EN_STATUS.FAIL_CAUSE e = bistCause r ∧ (t.eng e).lastOk = false ∧
      t.rd R.EN_COUNT.BIST_FAIL e = min (2 ^ R.EN_COUNT.BIST_FAIL.width - 1) (s.rd R.EN_COUNT.BIST_FAIL e + 1) := by
  intro t
  have hstate := failEngine_state (s := bistFailed e s) h.engine (bistCause r)
  have hkept : EngineKept e (failEngine e (bistCause r) (bistFailed e s)) t :=
    EngineKept.recoverFallow h.engine (by rw [hstate]; decide)
  refine ⟨?_, ?_, ?_, ?_⟩
  · rw [hkept.rd _ (by decide), hstate]
  · rw [hkept.rd _ (by decide), failEngine_cause h.engine, bistCause]
    split
    · rfl
    · rfl
  · have hcanopy : t.canopy = (bistFailed e s).canopy := hkept.canopy.trans (failEngine_canopy ..)
    have heng : t.eng e = (bistFailed e s).eng e := by rw [State.eng, hcanopy, State.eng]
    rw [heng, bistFailed, State.countUp_eq, State.eng_wr, State.eng_setEng_same]
  · rw [hkept.rd _ (by decide), failEngine_bistFail h.engine, bistFailed, rd_countUp_same _ (by decide), State.rd_setEng]

end TestEnds

theorem bistCause_eq (h : r < 4) (h0 : 0 < r) : bistCause r = if r = 2 then 2 else 1 := by
  interval_cases r
  · rfl
  · rfl
  · rfl

/-- A test that a warm start began has passed (R419). -/
def latePassed (e : Nat) (s : State) : State :=
  (((s.setEng e { s.eng e with passAt := s.now, lastOk := true, testing := false }).wr R.EN_STATUS.STATE e 0).wr
    R.EN_STATUS.FAIL_CAUSE e 0).raiseBit R.CN_STATUS.IN_SERVICE e

theorem bistDone_late (he : e < 16) (ht : (s.eng e).testing = true) (hn : s.flag R.CN_STATUS.NO_FALLOW = false) :
    bistDone e 0 s = latePassed e s := by
  have hflag : (latePassed e s).flag R.CN_STATUS.NO_FALLOW = false := by
    rw [State.flag_eq, latePassed, State.raiseBit_eq, rd_wr_apart, rd_wr_engine he, rd_wr_engine he, State.rd_setEng,
      ← State.flag_eq, hn]
  refine (if_pos ⟨by omega, ht⟩).trans ?_
  rw [lateTestDone, if_pos rfl]
  exact if_neg fun h => Bool.false_ne_true (hflag.symm.trans h)

theorem latePassed_regs (he : e < 16) (s : State) : (latePassed e s).rd R.EN_STATUS.STATE e = 0 ∧
    (latePassed e s).rd R.EN_STATUS.FAIL_CAUSE e = 0 ∧ bitAt ((latePassed e s).rd R.CN_STATUS.IN_SERVICE) e = true ∧
    ((latePassed e s).eng e).passAt = s.now ∧ ((latePassed e s).eng e).testing = false := by
  refine ⟨?_, ?_, ?_, ?_, ?_⟩
  · rw [latePassed, State.raiseBit_eq, rd_wr_canopy he, rd_wr_apart, State.rd_wr_same _ _ _ _ (by decide)]
    rfl
  · rw [latePassed, State.raiseBit_eq, rd_wr_canopy he, State.rd_wr_same _ _ _ _ (by decide)]
    rfl
  · rw [latePassed, State.raiseBit_eq, State.rd_wr_same _ _ _ _ (by decide), bitAt, Nat.testBit_mod_two_pow, Nat.testBit_or,
      Nat.testBit_two_pow_self, Bool.or_true, Bool.and_true]
    exact decide_eq_true he
  · rw [latePassed, State.raiseBit_eq, State.eng_wr, State.eng_wr, State.eng_wr, State.eng_setEng_same]
  · rw [latePassed, State.raiseBit_eq, State.eng_wr, State.eng_wr, State.eng_wr, State.eng_setEng_same]

/-! ### An uncorrectable error -/

variable {st : Bool}

theorem exec_engineError (he : e < 16) :
    exec (.engineUncorrectableError e ⟨r, st⟩) s = .next (engineError e r st s) :=
  congrArg Host.Outcome.next (if_neg (by omega))

/-- The word has been found in this beat (R172, R462). -/
def wordFound (p : Placed) (e r : Nat) (st : Bool) : Bool :=
  decide (r ≠ 0xFFFF) && p.evacs.any (fun v => decide (v.engine = e ∧ v.record = r ∧ v.state_ = st ∧ v.cause = 3))

theorem engineError_eq (hp : (s.br (s.rd R.EN_STATUS.OWNER e)).placed = some p) : engineError e r st s =
    if wordFound p e r st then s else engineBad e r st 3 (s.countUp R.EN_COUNT.ECC_UNC e) := by
  unfold engineError
  rw [hp]
  rfl

theorem wordFound_true (hr : r ≠ 0xFFFF) (h : ∃ v ∈ p.evacs, v.engine = e ∧ v.record = r ∧ v.state_ = st ∧ v.cause = 3) :
    wordFound p e r st = true := by
  obtain ⟨v, hv, hw⟩ := h
  rw [wordFound, Bool.and_eq_true, decide_eq_true_eq]
  exact ⟨hr, List.any_eq_true.2 ⟨v, hv, decide_eq_true hw⟩⟩

theorem wordFound_false (h : r = 0xFFFF ∨ ∀ v ∈ p.evacs, v.engine = e → v.record ≠ r) : wordFound p e r st = false := by
  rw [wordFound, Bool.and_eq_false_iff]
  rcases h with rfl | h
  · exact .inl rfl
  · refine .inr (List.any_eq_false.2 fun v hv hw => ?_)
    obtain ⟨heng, hrec, -⟩ := of_decide_eq_true hw
    exact h v hv heng hrec

/-- The error as the state counts it. -/
def errorCounted (e : Nat) (s : State) : State := s.countUp R.EN_COUNT.ECC_UNC e

theorem errorCounted_rd {g : Fld} (hg : apartFld g R.EN_COUNT.ECC_UNC = true := by decide) : (errorCounted e s).rd g e = s.rd g e := by
  rw [errorCounted, State.countUp_eq, rd_wr_apart _ _ _ _ _ hg]

theorem errorCounted_count : (errorCounted e s).rd R.EN_COUNT.ECC_UNC e =
    min (2 ^ R.EN_COUNT.ECC_UNC.width - 1) (s.rd R.EN_COUNT.ECC_UNC e + 1) := rd_countUp_same 1 (by decide)

/-- An ACTIVE engine is marked for evacuation (R172). -/
theorem engineBad_marks (hp : (s.br (s.rd R.EN_STATUS.OWNER e)).placed = some p) (h1 : s.rd R.EN_STATUS.STATE e = 1) :
    engineBad e r st 3 s = s.setBr (s.rd R.EN_STATUS.OWNER e) { s.br (s.rd R.EN_STATUS.OWNER e) with
      placed := some { p with evacs := p.evacs ++ [⟨e, r, st, false, 3, none⟩] } } := by
  unfold engineBad
  extract_lets b
  rw [show (s.br b).placed = some p from hp]
  exact if_pos h1

/-- The states once a TARGET engine has failed: a block that ran on it alone takes its initial state (R168). -/
def targetStates (e r : Nat) (st : Bool) (p : Placed) (s : State) : Placed :=
  if st ∧ p.engines.getD r 99 = e then { p with states := p.states.set r (placeState s p.graph r) } else p

/-- The hinge of a TARGET engine is abandoned and the engine FAILED (R168). -/
theorem engineBad_target {g : Hinge} (hp : (s.br (s.rd R.EN_STATUS.OWNER e)).placed = some p) (h4 : s.rd R.EN_STATUS.STATE e = 4)
    (hg : p.hinge = some g) (ht : g.tgt = some e) : engineBad e r st 3 s =
      recoverFallow (showPlacement (s.rd R.EN_STATUS.OWNER e) (failEngine e 3
        (backToSource (s.rd R.EN_STATUS.OWNER e) (targetStates e r st p s) g s))) := by
  unfold engineBad
  extract_lets b
  rw [show (s.br b).placed = some p from hp]
  refine (if_neg (by rw [h4]; decide)).trans ((if_pos h4).trans ?_)
  split
  · next h hh =>
    obtain rfl := Option.some.inj (hg.symm.trans hh)
    exact if_pos ht
  · next hh =>
    rw [hg] at hh
    cases hh

/-- The engine that every block returns to (R165). -/
def sourceOf (p : Placed) (g : Hinge) (i : Nat) : Nat :=
  match g.moves.find? (fun m => m.1 = i) with
  | some m => m.2.1
  | none => p.engines.getD i 0

theorem backToSource_placed (b : Nat) (p : Placed) (g : Hinge) (s : State) :
    placedEngines (backToSource b p g s) b = some ((List.range p.engines.length).map (sourceOf p g)) := by
  rw [placedEngines, backToSource, State.br_setBr_same]
  rfl

theorem targetStates_engines (e r : Nat) (st : Bool) (p : Placed) (s : State) : (targetStates e r st p s).engines = p.engines := by
  rw [targetStates]
  split
  · rfl
  · rfl

theorem targetStates_source (e r : Nat) (st : Bool) (p : Placed) (s : State) (g : Hinge) (i : Nat) :
    sourceOf (targetStates e r st p s) g i = sourceOf p g i := by
  rw [sourceOf, targetStates_engines, sourceOf]

/-- What a failed TARGET leaves: itself FAILED, and every block on its source. -/
theorem targetFails {g : Hinge} (b : Nat) (he : e < 16) (s : State) :
    let t := recoverFallow (showPlacement b (failEngine e 3 (backToSource b p g s)))
    t.rd R.EN_STATUS.STATE e = 5 ∧ t.rd R.EN_STATUS.FAIL_CAUSE e = 3 ∧
      placedEngines t b = some ((List.range p.engines.length).map (sourceOf p g)) := by
  intro t
  have hshown : EngineKept e (failEngine e 3 (backToSource b p g s)) (showPlacement b (failEngine e 3 (backToSource b p g s))) :=
    (Shown.refl _).showPlacement.engineKept he
  have hstate := failEngine_state (s := backToSource b p g s) he 3
  have hkept := hshown.trans (EngineKept.recoverFallow he (by rw [hshown.rd _ (by decide), hstate]; decide))
  refine ⟨?_, ?_, ?_⟩
  · rw [hkept.rd _ (by decide), hstate]
  · rw [hkept.rd _ (by decide), failEngine_cause he]
  · rw [hkept.placed, placedEngines, State.br_congr (failEngine_bridges ..), ← placedEngines, backToSource_placed]

theorem errorCounted_br (b : Nat) : (errorCounted e s).br b = s.br b := State.br_wr ..

/-- An error of an ACTIVE engine, not found in this beat: it is counted, and the engine is marked for evacuation. -/
theorem engineError_active (he : e < 16) (hp : (s.br (s.rd R.EN_STATUS.OWNER e)).placed = some p)
    (hr : r = 0xFFFF ∨ ∀ v ∈ p.evacs, v.engine = e → v.record ≠ r) (h1 : s.rd R.EN_STATUS.STATE e = 1) :
    ∃ t, exec (.engineUncorrectableError e ⟨r, st⟩) s = .next t ∧ t.rd R.EN_STATUS.STATE e = 1 ∧
      (t.br (s.rd R.EN_STATUS.OWNER e)).placed = some { p with evacs := p.evacs ++ [⟨e, r, st, false, 3, none⟩] } ∧
      t.rd R.EN_COUNT.ECC_UNC e = min (2 ^ R.EN_COUNT.ECC_UNC.width - 1) (s.rd R.EN_COUNT.ECC_UNC e + 1) := by
  have howner : (errorCounted e s).rd R.EN_STATUS.OWNER e = s.rd R.EN_STATUS.OWNER e := errorCounted_rd
  have hbad := engineBad_marks (s := errorCounted e s) (r := r) (st := st) (p := p) (by rw [howner, errorCounted_br, hp])
    (by rw [errorCounted_rd, h1])
  refine ⟨_, exec_engineError he, ?_⟩
  rw [engineError_eq hp, wordFound_false hr, if_neg Bool.false_ne_true, ← errorCounted, hbad, howner]
  refine ⟨?_, ?_, ?_⟩
  · rw [State.rd_setBr, errorCounted_rd, h1]
  · rw [State.br_setBr_same]
  · rw [State.rd_setBr, errorCounted_count]

/-- One of a TARGET engine: the engine is FAILED and its hinge abandoned, with every block on its source. -/
theorem engineError_target {g : Hinge} (he : e < 16) (hp : (s.br (s.rd R.EN_STATUS.OWNER e)).placed = some p)
    (hr : r = 0xFFFF ∨ ∀ v ∈ p.evacs, v.engine = e → v.record ≠ r) (h4 : s.rd R.EN_STATUS.STATE e = 4)
    (hg : p.hinge = some g) (ht : g.tgt = some e) :
    ∃ t q, exec (.engineUncorrectableError e ⟨r, st⟩) s = .next t ∧ t.rd R.EN_STATUS.STATE e = 5 ∧
      t.rd R.EN_STATUS.FAIL_CAUSE e = 3 ∧ (t.br (s.rd R.EN_STATUS.OWNER e)).placed = some q ∧
      q.engines = (List.range p.engines.length).map (sourceOf p g) := by
  have howner : (errorCounted e s).rd R.EN_STATUS.OWNER e = s.rd R.EN_STATUS.OWNER e := errorCounted_rd
  have hbad := engineBad_target (s := errorCounted e s) (r := r) (st := st) (p := p) (by rw [howner, errorCounted_br, hp])
    (by rw [errorCounted_rd, h4]) hg ht
  obtain ⟨hstate, hcause, hplaced⟩ := targetFails (p := targetStates e r st p (errorCounted e s)) (g := g)
    (s.rd R.EN_STATUS.OWNER e) he (errorCounted e s)
  obtain ⟨q, hq, hengines⟩ := Option.map_eq_some_iff.1 hplaced
  rw [howner] at hbad
  refine ⟨_, q, exec_engineError he, ?_⟩
  rw [engineError_eq hp, wordFound_false hr, if_neg Bool.false_ne_true, ← errorCounted, hbad]
  refine ⟨hstate, hcause, hq, ?_⟩
  rw [hengines, targetStates_engines]
  exact List.map_congr_left fun i _ => targetStates_source ..

/-! ### Rotation steps as the interpreter takes them -/

/-- An IDLE engine and the fallow one exchange roles. -/
theorem rotationStep_idle (hup : controlUp s = true) (hf : s.rd R.CN_STATUS.FALLOW = f) (hlt : f < 16) (hr : fallowReady s = true)
    (he : rotationEngine s f = some e) (h0 : s.rd R.EN_STATUS.STATE e = 0) :
    (rotationStep s).rd R.EN_STATUS.STATE e = 2 ∧ (rotationStep s).rd R.EN_STATUS.STATE f = 0 ∧
      (rotationStep s).rd R.CN_STATUS.FALLOW = e ∧ (rotationStep s).bridges = s.bridges ∧
      (rotationStep s).canopy.rotWait = false := by
  have hne := rotationEngine_ne he
  have he16 := rotationEngine_lt he
  have hkept := (EngineKept.refl f ((stepWaits false (stepWaits true s)).wr R.EN_STATUS.STATE f 0)).makeFallow hne.symm hlt
  rw [rotationStep_rotates hup hr, rotate_idle (s := stepWaits true s) hf he h0]
  refine ⟨makeFallow_state he16, ?_, makeFallow_fallow he16, ?_, ?_⟩
  · rw [hkept.rd _ (by decide), State.rd_wr_same _ _ _ _ (by decide), Nat.zero_mod]
  · rw [makeFallow_bridges, State.wr_bridges]
    rfl
  · rw [hkept.canopy, State.wr_canopy]
    rfl

/-- The fallow engine becomes the target of an ACTIVE one. -/
theorem rotationStep_active (hup : controlUp s = true) (hf : s.rd R.CN_STATUS.FALLOW = f) (hlt : f < 16) (hr : fallowReady s = true)
    (he : rotationEngine s f = some e) (h1 : s.rd R.EN_STATUS.STATE e = 1)
    (hp : (s.br (s.rd R.EN_STATUS.OWNER e)).placed = some p) (hh : p.hinge = none) :
    (rotationStep s).rd R.EN_STATUS.STATE f = 4 ∧ (rotationStep s).rd R.EN_STATUS.STATE e = 1 ∧
      (rotationStep s).rd R.EN_STATUS.OWNER f = s.rd R.EN_STATUS.OWNER e ∧
      ((rotationStep s).br (s.rd R.EN_STATUS.OWNER e)).placed =
        some { p with hinge := some ⟨e, some f, engineMoves p e f, [], []⟩ } := by
  have hne := rotationEngine_ne he
  obtain ⟨hstate, hsource, howner⟩ := rotateTo_state (p := p) (s.rd R.EN_STATUS.OWNER e) hne (stepWaits true s)
  have hshown := (Shown.refl (rotateTo (s.rd R.EN_STATUS.OWNER e) e f p (stepWaits true s))).showPlacement
    (b := s.rd R.EN_STATUS.OWNER e)
  have hstep : rotationStep s = showPlacement (s.rd R.EN_STATUS.OWNER e)
      (rotateTo (s.rd R.EN_STATUS.OWNER e) e f p (stepWaits true s)) := by
    rw [rotationStep_rotates hup hr, rotate_active (s := stepWaits true s) hf he h1 hp,
      if_neg (by rw [hh]; exact Bool.false_ne_true)]
    rfl
  rw [hstep, hshown.rd _ _ (by decide) hlt, hshown.rd _ _ (by decide) (rotationEngine_lt he), hshown.rd _ _ (by decide) hlt,
    State.br_congr hshown.bridges]
  refine ⟨hstate, hsource.trans h1, ?_, ?_⟩
  · exact howner.trans (Nat.mod_eq_of_lt (State.rd_lt s R.EN_STATUS.OWNER e 0))
  · rw [rotateTo, State.br_setBr_same]

/-- It waits while a hinge of that engine's bridge still runs. -/
theorem rotationStep_hinge (hup : controlUp s = true) (hf : s.rd R.CN_STATUS.FALLOW = f) (hr : fallowReady s = true)
    (he : rotationEngine s f = some e) (h1 : s.rd R.EN_STATUS.STATE e = 1)
    (hp : (s.br (s.rd R.EN_STATUS.OWNER e)).placed = some p) (hh : p.hinge.isSome = true) : rotationStep s = stepWaits true s := by
  rw [rotationStep_rotates hup hr, rotate_active (s := stepWaits true s) hf he h1 hp, if_pos hh]

end

/-- Settles O44: each operation as what it makes of its engine, with what the recovery of a fallow engine leaves of it. -/
theorem enginesRotateAndFail : Obligations.EnginesRotateAndFail := by
  refine ⟨fun s => ⟨fun h => ?_, fun hn hup hh hr => ?_⟩,
    fun e f s hup hf hlt hr he => ⟨fun h0 => ?_, fun p h1 hp => ⟨fun hh => ?_, fun hh => ?_⟩⟩,
    fun e s he => ⟨fun ht h r => ?_, fun ht h2 hc => ⟨fun hw => ?_, fun hw hf hn hh => ?_, fun r h0 h4 => ?_⟩, fun ht hn => ?_⟩,
    fun e r st p s he hp => ⟨fun hr hv => ?_, fun hr => ⟨fun h1 => ?_, fun g h4 hg ht => ?_⟩⟩⟩
  · rw [exec_rotationStep, rotationStep_without h]
  · rw [exec_rotationStep, rotationStep_takes hn hup hh, takeStep_waits (by exact hr), stepWaits]
  · exact ⟨_, exec_rotationStep, rotationStep_idle hup hf hlt hr he h0⟩
  · rw [exec_rotationStep, rotationStep_hinge hup hf hr he h1 hp hh, stepWaits]
  · exact ⟨_, exec_rotationStep, rotationStep_active hup hf hlt hr he h1 hp hh⟩
  · rw [exec_bistDone, bistDone_ignored ht h]
  · have h : TestEnds e s := ⟨he, ht, h2, hc⟩
    refine ⟨_, exec_bistDone, ?_⟩
    rw [h.done, if_pos rfl, takeStep_none ((bistPassed_rotWait e s).trans hw)]
    exact bistPassed_regs e s
  · have h : TestEnds e s := ⟨he, ht, h2, hc⟩
    refine ⟨_, exec_bistDone, ?_⟩
    rw [h.done, if_pos rfl, takeStep_rotates ((bistPassed_rotWait e s).trans hw) (h.passed_ready hf hn)]
    refine rotate_taken fun c p hc hp => hh c p hc ?_
    rwa [State.br_congr (bistPassed_bridges e s)] at hp
  · have h : TestEnds e s := ⟨he, ht, h2, hc⟩
    refine ⟨_, exec_bistDone, ?_⟩
    rw [h.done, if_neg (by omega), ← bistCause_eq h4 h0]
    exact h.failed_regs r
  · refine ⟨_, exec_bistDone, ?_⟩
    rw [bistDone_late he ht hn]
    exact latePassed_regs he s
  · rw [exec_engineError he, engineError_eq hp, if_pos (wordFound_true hr hv)]
  · exact engineError_active he hp hr h1
  · obtain ⟨t, q, hexec, hstate, hcause, hq, hengines⟩ := engineError_target (r := r) (st := st) he hp hr h4 hg ht
    refine ⟨t, q, hexec, hstate, hcause, hq, fun i j k hi hm => ?_⟩
    rw [hengines, List.getD_eq_getElem?_getD, List.getElem?_map, List.getElem?_range hi]
    simp [sourceOf, hm]

end Sys2Proof.Machine
end
section
/-! O40: CANOPY_MAP, CANOPY_WHERE, CANOPY_HOLD and SASH_LOAD (R171, R188, R196, R209). -/

namespace Sys2Proof.Machine

open Sys2Proof

section
variable {h : Hdr} {b i sec : Nat} {p : Placed} {s t u : State}

/-! ### CANOPY_MAP and CANOPY_WHERE -/

theorem canopyMap_answered (hb : b < 4) (hp : (s.br b).placed = some p) (hr : cmdReady (.canopyMap h b) s = true) :
    exec (.canopyMap h b) s = .next (answer (.canopyMap h b) stDone ((List.range p.engines.length).map (fun i =>
      if 1 ≤ hingeCount p i then 0xFF else BitVec.ofNat 8 (p.engines.getD i 0))) s) := by
  have hbody : canopyMapBody b s = ⟨stDone, (List.range p.engines.length).map (fun i =>
      if 1 ≤ hingeCount p i then 0xFF else BitVec.ofNat 8 (p.engines.getD i 0)), none, s⟩ := by
    rw [canopyMapBody, if_neg (by omega), hp]
    rfl
  exact congrArg Host.Outcome.next (acceptCmd_calm (c := .canopyMap h b) rfl hr hbody (.inl rfl) (Calm.refl s))

theorem canopyWhere_answered (hb : b < 4) (hp : (s.br b).placed = some p) (hr : cmdReady (.canopyWhere h b i) s = true)
    (hi : i < p.graph.blocks.length) : exec (.canopyWhere h b i) s = .next (answer (.canopyWhere h b i) stDone
      (le 1 (p.engines.getD i 0) ++ le 1 (if 1 ≤ hingeCount p i then (hingeTo p i).getD 0xFF else 0xFF) ++
        le 1 (p.phases.getD i 0)) s) := by
  have hbody : canopyWhereBody b i s = ⟨stDone, le 1 (p.engines.getD i 0) ++
      le 1 (if 1 ≤ hingeCount p i then (hingeTo p i).getD 0xFF else 0xFF) ++ le 1 (p.phases.getD i 0), none, s⟩ := by
    rw [canopyWhereBody, if_neg (by omega), hp]
    exact if_neg (by omega)
  exact congrArg Host.Outcome.next (acceptCmd_calm (c := .canopyWhere h b i) rfl hr hbody (.inl rfl) (Calm.refl s))

theorem canopyMap_refused (hb : b < 4) (hp : (s.br b).placed = none) (hr : cmdReady (.canopyMap h b) s = true) :
    exec (.canopyMap h b) s = .next (answer (.canopyMap h b) stWrongMode [] (refusedBy (.canopyMap h b) stWrongMode s)) := by
  have hbody : canopyMapBody b s = refuse stWrongMode s := by rw [canopyMapBody, if_neg (by omega), hp]
  exact congrArg Host.Outcome.next (acceptCmd_refused (.canopyMap h b) h 0x0B01 _ _ s rfl hr stWrongMode s hbody rfl rfl)

theorem canopyWhere_refused (hb : b < 4) (hp : (s.br b).placed = none) (hr : cmdReady (.canopyWhere h b i) s = true) :
    exec (.canopyWhere h b i) s =
      .next (answer (.canopyWhere h b i) stWrongMode [] (refusedBy (.canopyWhere h b i) stWrongMode s)) := by
  have hbody : canopyWhereBody b i s = refuse stWrongMode s := by rw [canopyWhereBody, if_neg (by omega), hp]
  exact congrArg Host.Outcome.next (acceptCmd_refused (.canopyWhere h b i) h 0x0B02 _ _ s rfl hr stWrongMode s hbody rfl rfl)

/-! ### A hold of a bridge -/

theorem exec_canopyHoldExpiry : exec .canopyHoldExpiry s = .next (canopyHoldExpiry s) := rfl

theorem heldBridge_iff : heldBridge s b = true ↔ s.flag R.CN_STATUS.HOLD_ACT = true ∧ s.rd R.CN_STATUS.HOLD_BR = b := by
  rw [heldBridge, Bool.and_eq_true, decide_eq_true_eq]

theorem heldBridge_off (ha : s.flag R.CN_STATUS.HOLD_ACT = false) : heldBridge s b = false := by rw [heldBridge, ha, Bool.false_and]

/-- A running hold that ends is the last one of its bridge. -/
theorem endHold_last (hh : heldBridge s b = true) : (endHold s).canopy.lastHold.head? = some (b, s.now) := by
  obtain ⟨hact, rfl⟩ := heldBridge_iff.1 hh
  rw [endHold, if_pos hact]
  rfl

/-- No hold runs after its end. -/
theorem endHold_off (s : State) : (endHold s).flag R.CN_STATUS.HOLD_ACT = false := by
  rw [endHold]
  split
  · rw [State.flag_eq, State.clear_eq, State.rd_wr_same _ _ _ _ (by decide)]
    rfl
  · next ha => exact Bool.eq_false_iff.2 ha

theorem endHold_only (s : State) : OnlyRegs { s with canopy := (endHold s).canopy } (endHold s) [A.CN_STATUS] := by
  rw [endHold]
  split
  · exact OnlyRegs.clear _ R.CN_STATUS.HOLD_ACT 0
  · exact OnlyRegs.refl s _

theorem endHold_now (s : State) : (endHold s).now = s.now := by rw [(endHold_only s).1]

/-- The end of a hold is no business of the host port. -/
theorem endHold_calm (s : State) : Calm s (endHold s) := .ite (Calm.refl s).same.wr (Calm.refl s)

/-- The running hold ended and the end of the next one set. -/
def holdSet (sec : Nat) (s : State) : State :=
  { endHold s with canopy := { (endHold s).canopy with holdEnd := (endHold s).now + sec * tSec } }

/-- A hold for bridge `b` from now on (R171). -/
def holdBegun (b sec : Nat) (s : State) : State := ((holdSet sec s).raise R.CN_STATUS.HOLD_ACT).wr R.CN_STATUS.HOLD_BR 0 b

theorem holdBegun_canopy : (holdBegun b sec s).canopy = (holdSet sec s).canopy := by
  rw [holdBegun, State.raise_eq, State.wr_canopy, State.wr_canopy]

theorem OnlyRegs.setCanopy {l : List Nat} (hu : OnlyRegs { s with canopy := u.canopy } u l) (x : Canopy) :
    OnlyRegs { s with canopy := x } { u with canopy := x } l := ⟨congrArg (fun v => { v with canopy := x }) hu.1, hu.2⟩

theorem holdBegun_held (hb : b < 4) : heldBridge (holdBegun b sec s) b = true := by
  rw [heldBridge_iff, State.flag_eq, holdBegun, State.raise_eq, rd_wr_apart, State.rd_wr_same _ _ _ _ (by decide),
    State.rd_wr_same _ _ _ _ (by decide)]
  exact ⟨rfl, Nat.mod_eq_of_lt hb⟩

theorem holdBegun_end : (holdBegun b sec s).canopy.holdEnd = s.now + sec * tSec := by
  rw [holdBegun_canopy, holdSet, endHold_now]

theorem holdBegun_only : OnlyRegs { s with canopy := (holdBegun b sec s).canopy } (holdBegun b sec s) [A.CN_STATUS] := by
  rw [holdBegun_canopy]
  have hset : OnlyRegs { s with canopy := (holdSet sec s).canopy } (holdSet sec s) [A.CN_STATUS] := (endHold_only s).setCanopy _
  exact (hset.trans ((OnlyRegs.raise _ R.CN_STATUS.HOLD_ACT 0).trans (OnlyRegs.wr _ R.CN_STATUS.HOLD_BR 0 b))).mono
    fun a ha => by simpa [fldAddr, R.CN_STATUS.HOLD_ACT, R.CN_STATUS.HOLD_BR, A.CN_STATUS] using ha

theorem holdBegun_calm : Calm s (holdBegun b sec s) := (endHold_calm s).same.wr.wr

theorem canopyHold_begins (hb : b < 4) (h0 : 0 < sec) (h30 : sec ≤ 30) (hr : cmdReady (.canopyHold h b sec) s = true)
    (hheld : heldBridge s b = false) (hlast : ∀ e ∈ s.canopy.lastHold, e.1 = b → e.2 + 4000000000 ≤ s.now) :
    exec (.canopyHold h b sec) s = .next (answer (.canopyHold h b sec) stDone [] (holdBegun b sec s)) := by
  have hfree : ¬ (heldBridge s b ∨ s.canopy.lastHold.any (fun e => decide (e.1 = b) && decide (s.now < e.2 + 10 * tSec))) := by
    rw [hheld, List.any_eq_true]
    rintro (hf | ⟨e, he, hw⟩)
    · cases hf
    · rw [Bool.and_eq_true, decide_eq_true_eq, decide_eq_true_eq] at hw
      obtain ⟨hbr, hnow⟩ := hw
      have hend := hlast e he hbr
      rw [tSec] at hnow
      omega
  have hbody : canopyHoldBody b sec s = ⟨stDone, [], none, holdBegun b sec s⟩ :=
    (if_neg (by omega)).trans ((if_neg (by omega)).trans (if_neg hfree))
  exact congrArg Host.Outcome.next (acceptCmd_calm (c := .canopyHold h b sec) rfl hr hbody (.inl rfl) holdBegun_calm)

theorem canopyHold_busy (hb : b < 4) (h0 : 0 < sec) (h30 : sec ≤ 30) (hr : cmdReady (.canopyHold h b sec) s = true)
    (hbusy : heldBridge s b = true ∨ ∃ e ∈ s.canopy.lastHold, e.1 = b ∧ s.now < e.2 + 4000000000) :
    exec (.canopyHold h b sec) s =
      .next (answer (.canopyHold h b sec) stBusy [] (refusedBy (.canopyHold h b sec) stBusy s)) := by
  have hwait : heldBridge s b ∨ s.canopy.lastHold.any (fun e => decide (e.1 = b) && decide (s.now < e.2 + 10 * tSec)) := by
    refine hbusy.imp_right fun ⟨e, he, hbr, hnow⟩ => List.any_eq_true.2 ⟨e, he, ?_⟩
    rw [Bool.and_eq_true, decide_eq_true_eq, decide_eq_true_eq]
    exact ⟨hbr, hnow⟩
  have hbody : canopyHoldBody b sec s = refuse stBusy s :=
    (if_neg (by omega)).trans ((if_neg (by omega)).trans (if_pos hwait))
  exact congrArg Host.Outcome.next (acceptCmd_refused (.canopyHold h b sec) h 0x0B03 _ _ s rfl hr stBusy s hbody rfl rfl)

/-- The state once no hold of bridge `b` runs. -/
def holdEnded (b : Nat) (s : State) : State := if heldBridge s b then endHold s else s

theorem holdEnded_off : heldBridge (holdEnded b s) b = false := by
  rw [holdEnded]
  split
  · exact heldBridge_off (endHold_off s)
  · next hh => exact Bool.eq_false_iff.2 hh

theorem holdEnded_only : OnlyRegs { s with canopy := (holdEnded b s).canopy } (holdEnded b s) [A.CN_STATUS] := by
  rw [holdEnded]
  split
  · exact endHold_only s
  · exact OnlyRegs.refl s _

theorem canopyHold_ends (hb : b < 4) (hr : cmdReady (.canopyHold h b 0) s = true) :
    exec (.canopyHold h b 0) s = .next (answer (.canopyHold h b 0) stDone [] (holdEnded b s)) := by
  have hbody : canopyHoldBody b 0 s = ⟨stDone, [], none, holdEnded b s⟩ := (if_neg (by omega)).trans (if_pos rfl)
  exact congrArg Host.Outcome.next (acceptCmd_calm (c := .canopyHold h b 0) rfl hr hbody (.inl rfl)
    (.ite (endHold_calm s) (Calm.refl s)))

/-- A hold ends at its time. -/
theorem canopyHoldExpiry_ends (hh : heldBridge s b = true) : canopyHoldExpiry s = endHold (reachTime s.canopy.holdEnd s) :=
  if_pos (heldBridge_iff.1 hh).1

/-! ### SASH_LOAD -/

theorem sashLoad_wrongMode (hb : b < 4) (hm : modeOf s b ≠ 1) (hr : cmdReady (.sashLoad h b) s = true) :
    exec (.sashLoad h b) s = .next (answer (.sashLoad h b) stWrongMode [] (refusedBy (.sashLoad h b) stWrongMode s)) := by
  have hbody : sashLoadBody b s = refuse stWrongMode s := (if_neg (by omega)).trans (if_pos hm)
  exact congrArg Host.Outcome.next (acceptCmd_refused (.sashLoad h b) h 0x0202 _ _ s rfl hr stWrongMode s hbody rfl rfl)

theorem sashLoad_deferred (hb : b < 4) (hm : modeOf s b = 1) (hp : (s.br b).placed.isSome = true)
    (hr : cmdReady (.sashLoad h b) s = true) :
    exec (.sashLoad h b) s = .next (answer (.sashLoad h b) stDeferred [] (refusedBy (.sashLoad h b) stDeferred s)) := by
  have hbody : sashLoadBody b s = refuse stDeferred s :=
    (if_neg (by omega)).trans ((if_neg (not_not_intro hm)).trans (if_pos hp))
  exact congrArg Host.Outcome.next (acceptCmd_refused (.sashLoad h b) h 0x0202 _ _ s rfl hr stDeferred s hbody rfl rfl)

/-- The reply of an unauthenticated command that waits, as it is stored. -/
def heldReply (h : Hdr) (op : Nat) (ps : List Byte) (u : State) : Held :=
  ⟨h.can, op, packetBytes (commandPacket h op ps), replyBytes h op ⟨stDone, [], none, u⟩ false,
    replyBytes h op ⟨stInternal, [], none, u⟩ false, u.now⟩

/-- A command without authentication that leaves its reply to wait. -/
theorem acceptCmd_held {c : Instr} {op : Nat} {ps : List Byte} {body : State → Res} (hc : hostRow c = some (h, op, ps))
    (hr : cmdReady c s = true) (hb : body s = ⟨stDone, [], none, u⟩) (hh : u.host.heldMask ≠ 0) (hs : u.host.serving = true) :
    acceptCmd h op ps body s = { u with host := { u.host with held := some (heldReply h op ps u) } } := by
  simp only [cmdReady, hc] at hr
  obtain ⟨p1, p2, p3⟩ := ready_parts s h op ps hr
  simp only [acceptCmd, expireHeld_zero s (takes_held s _ p1), p1, p2, Bool.true_eq_false, if_false, p3, if_true, hb, giveReply,
    recordRefusal, true_or, hs, hh]
  rfl

/-- The load waits for the next master valley, and its reply with it (R209). -/
def sashWaits (b : Nat) (s : State) : State :=
  let s1 := s.setBr b { s.br b with sashLoad := true }
  holdReply (4 + b) (s1.now + presentPer s1 b) s1

/-- The state in which SASH_LOAD leaves the device. -/
def sashHeld (h : Hdr) (b : Nat) (s : State) : State :=
  { sashWaits b s with host := { (sashWaits b s).host with held := some (heldReply h 0x0202 (le 1 b) (sashWaits b s)) } }

theorem sashLoad_waits (hb : b < 4) (hm : modeOf s b = 1) (hp : (s.br b).placed = none) (hr : cmdReady (.sashLoad h b) s = true) :
    exec (.sashLoad h b) s = .next (sashHeld h b s) := by
  have hready : ready s h 0x0202 (le 1 b) = true := hr
  have hserving : (sashWaits b s).host.serving = true := ready_serving s h _ _ hready
  have hbody : sashLoadBody b s = ⟨stDone, [], none, sashWaits b s⟩ :=
    (if_neg (by omega)).trans ((if_neg (not_not_intro hm)).trans (if_neg (by rw [hp]; exact Bool.false_ne_true)))
  have hmask : (sashWaits b s).host.heldMask = 2 ^ (4 + b) := by
    rw [sashWaits, holdReply, State.setBr_host, ready_held _ _ _ _ hready, Nat.zero_or]
  exact congrArg Host.Outcome.next (acceptCmd_held (c := .sashLoad h b) rfl hr hbody
    (by rw [hmask]; exact (Nat.two_pow_pos _).ne') hserving)

/-- What SASH_LOAD leaves of a SERVICE bridge: its command waits, and the reply for it, with the second of R332 beyond the present
period to spare. -/
theorem sashHeld_waits (hr : cmdReady (.sashLoad h b) s = true) :
    (sashHeld h b s).host.heldMask = 2 ^ (4 + b) ∧ s.now + presentPer s b + 400000000 ≤ (sashHeld h b s).host.heldDue ∧
      (sashHeld h b s).br b = { s.br b with sashLoad := true } := by
  have hready : ready s h 0x0202 (le 1 b) = true := hr
  have hper : presentPer (s.setBr b { s.br b with sashLoad := true }) b = presentPer s b := by
    rw [presentPer, State.br_setBr_same]
    rfl
  refine ⟨?_, ?_, ?_⟩
  · change s.host.heldMask ||| 2 ^ (4 + b) = 2 ^ (4 + b)
    rw [ready_held _ _ _ _ hready, Nat.zero_or]
  · refine le_trans ?_ (le_max_right _ _)
    rw [hper]
    exact Nat.le_refl _
  · exact State.br_setBr_same ..

/-! ### The master valley after it -/

/-- The time, the host port and what is pending of bridge `b`'s fall-back path stay. -/
structure ValleyKept (b : Nat) (s t : State) : Prop where
  now : t.now = s.now
  host : t.host = s.host
  fbPer : (t.br b).fbPer = (s.br b).fbPer
  fbDuty : (t.br b).fbDuty = (s.br b).fbDuty
  load : (t.br b).sashLoad = (s.br b).sashLoad
  split : t.rd R.FB_STATUS.SPLIT b = s.rd R.FB_STATUS.SPLIT b
  age : t.rd R.FB_STATUS.SPLIT_AGE b = s.rd R.FB_STATUS.SPLIT_AGE b

namespace ValleyKept

protected theorem refl (b : Nat) (s : State) : ValleyKept b s s := ⟨rfl, rfl, rfl, rfl, rfl, rfl, rfl⟩

protected theorem each {α : Type} {f : State → α → State} {l : List α} (h : ValleyKept b s t)
    (hf : ∀ v x, ValleyKept b s v → ValleyKept b s (f v x)) : ValleyKept b s (t.each l f) := State.each_ind _ f hf l t h

protected theorem setLeg {n : Nat} {x : Leg} (h : ValleyKept b s t) : ValleyKept b s (t.setLeg n x) :=
  ⟨h.now, h.host, h.fbPer, h.fbDuty, h.load, h.split, h.age⟩

protected theorem wrTon {n v : Nat} (h : ValleyKept b s t) : ValleyKept b s (t.wr R.SH_TON.TON n v) :=
  ⟨h.now, h.host, h.fbPer, h.fbDuty, h.load, (rd_wr_apart ..).trans h.split, (rd_wr_apart ..).trans h.age⟩

protected theorem takePeriod {n : Nat} (h : ValleyKept b s t) : ValleyKept b s (takePeriod n t) := by
  unfold takePeriod
  extract_lets l
  split
  · exact h
  · split
    · exact h.wrTon.setLeg
    · exact h.setLeg

protected theorem pushValley {v : Nat} (h : ValleyKept b s t) : ValleyKept b s (pushValley b v t) := by
  obtain ⟨hnow, hhost, hper, hduty, hload, hsplit, hage⟩ := h
  refine ⟨hnow, hhost, ?_, ?_, ?_, hsplit, hage⟩
  · rw [pushValley, State.br_setBr_same, hper]
  · rw [pushValley, State.br_setBr_same, hduty]
  · rw [pushValley, State.br_setBr_same, hload]

end ValleyKept

/-- The time, the host port and the registers stay, and of bridge `b` all that a strobed period leaves. -/
structure StrobeKept (b : Nat) (s t : State) : Prop where
  now : t.now = s.now
  host : t.host = s.host
  regs : t.regs = s.regs
  placed : (t.br b).placed = (s.br b).placed
  load : (t.br b).sashLoad = (s.br b).sashLoad

theorem takeStrobePer_kept (b k : Nat) (s : State) : StrobeKept b s (takeStrobePer b k s) := by
  have hnone : StrobeKept b s (s.setBr b { s.br b with strobePer := none }) := by
    refine ⟨rfl, rfl, rfl, ?_, ?_⟩
    · rw [State.br_setBr_same]
    · rw [State.br_setBr_same]
  unfold takeStrobePer
  split
  · split
    · refine State.each_ind (StrobeKept b s) _ (fun _ _ h => ?_) _ _ hnone
      exact ⟨h.now, h.host, h.regs, h.placed, h.load⟩
    · exact ⟨rfl, rfl, rfl, rfl, rfl⟩
  · exact ⟨rfl, rfl, rfl, rfl, rfl⟩

/-- A complete set is applied: nothing is pending any more (R207, R209). -/
theorem applySet_br (b : Nat) (lim : FbLimit) (s : State) : ((applySet b lim s).br b).fbPer = false ∧
    ((applySet b lim s).br b).fbDuty = [] ∧ ((applySet b lim s).br b).sashLoad = false := by
  unfold applySet
  rw [State.br_setBr_same]
  exact ⟨rfl, rfl, rfl⟩

theorem applySet_kept (b : Nat) (lim : FbLimit) (s : State) : (applySet b lim s).now = s.now ∧ (applySet b lim s).host = s.host := by
  have hper : ValleyKept b s (applyFbPer b s) := by
    unfold applyFbPer
    split
    · exact (ValleyKept.refl b s).each fun _ _ h => h.setLeg
    · exact .refl b s
  unfold applySet
  extract_lets s1 valley s2
  have hset : ValleyKept b s s2 := hper.each fun v x h => by
    split
    split
    · exact h.setLeg
    · exact h.setLeg
  exact ⟨hset.now, hset.host⟩

/-- The last event that a held reply waits for sends it, before its time has run out (R74, R332). -/
theorem swapSettled_sends {k : Nat} {r : Held} (hheld : s.host.held = some r) (hmask : s.host.heldMask = 2 ^ k)
    (hdue : s.now < s.host.heldDue) : swapSettled k s = sendHeld r r.reply s := by
  have hnone : expireHeld s = s := by
    unfold expireHeld
    rw [hheld]
    exact if_neg fun he => by omega
  have hbit : bitAt (2 ^ k) k = true := Nat.testBit_two_pow_self
  rw [swapSettled, hnone, hmask, if_pos hbit, Nat.sub_self, hheld]
  rfl

theorem sendHeld_bridges (r : Held) (s : State) : (sendHeld r r.reply s).bridges = s.bridges := (GroveKept.refl s).sendHeld.bridges

theorem sendHeld_regs (r : Held) (s : State) : (sendHeld r r.reply s).regs = s.regs := by
  rw [sendHeld, State.setTransport_regs, sendReply_regs]
  rfl

theorem sendHeld_host (r : Held) (s : State) : (sendHeld r r.reply s).host.held = none ∧ (sendHeld r r.reply s).host.heldMask = 0 ∧
    ((sendHeld r r.reply s).transport r.can).rp = (s.transport r.can).rp ++ [r.reply] := by
  cases hc : r.can with
  | false =>
    simp only [sendHeld, hc]
    exact ⟨rfl, rfl, rfl⟩
  | true =>
    simp only [sendHeld, hc]
    exact ⟨rfl, rfl, rfl⟩

/-- A master valley as it begins: the strobed period goes to the carriers. -/
def valleyBegun (b : Nat) (s : State) : State := takeStrobePer b ((s.br b).valN + 1) (reachTime (nextValley (s.br b)) s)

/-- The fall-back path at it. -/
def valleySet (b : Nat) (s : State) : State :=
  if fallbackRuns (valleyBegun b s) b then fallbackValley b (valleyBegun b s) else valleyBegun b s

/-- A master valley up to the reply that it sends. -/
def valleyPassed (b : Nat) (s : State) : State :=
  pushValley b (nextValley (s.br b)) ((valleySet b s).each (legsOf (valleySet b s) b) (fun s n => takePeriod n s))

theorem valleyBegun_kept (b : Nat) (s : State) : StrobeKept b (reachTime (nextValley (s.br b)) s) (valleyBegun b s) :=
  takeStrobePer_kept ..

theorem clearSplit_now (b : Nat) (s : State) : (clearSplit b s).now = s.now := by
  rw [clearSplit, State.clear_eq, State.clear_eq, State.wr_now, State.wr_now]

theorem clearSplit_host (b : Nat) (s : State) : (clearSplit b s).host = s.host := by
  rw [clearSplit, State.clear_eq, State.clear_eq, State.wr_host, State.wr_host]

theorem clearSplit_br (b c : Nat) (s : State) : (clearSplit b s).br c = s.br c := by
  rw [clearSplit, State.clear_eq, State.clear_eq, State.br_wr, State.br_wr]

theorem valleyPassed_kept (b : Nat) (s : State) : ValleyKept b (valleySet b s) (valleyPassed b s) :=
  ((ValleyKept.refl b _).each fun _ _ h => h.takePeriod).pushValley

theorem masterValley_eq (hb : b < 4) (hc : cfgOk s b = true) (hp : masterPer s b ≠ 0) :
    masterValley b s = swapSettled (4 + b) (valleyPassed b s) :=
  if_neg (by rw [hc]; simp [hp]; omega)

/-- On the fall-back path a SASH_LOAD that waits applies what is pending (R209). -/
theorem valleySet_applied (hm : modeOf s b = 1) (hp : (s.br b).placed = none) (hl : (s.br b).sashLoad = true) :
    valleySet b s = clearSplit b (applySet b .none (valleyBegun b s)) := by
  obtain ⟨-, -, hregs, hplaced, hload⟩ := valleyBegun_kept b s
  have hmode : modeOf (valleyBegun b s) b = 1 := by
    rw [modeOf, State.rd_eq, State.reg_congr (show (valleyBegun b s).regs = s.regs from hregs), ← State.rd_eq]
    exact hm
  have hnone : ((valleyBegun b s).br b).placed = none := hplaced.trans hp
  have hruns : fallbackRuns (valleyBegun b s) b = true := by
    rw [fallbackRuns, hmode, hnone]
    rfl
  exact (if_pos hruns).trans (if_pos (hload.trans hl))

/-- With it SPLIT clears. -/
theorem valleyPassed_applied (hm : modeOf s b = 1) (hp : (s.br b).placed = none) (hl : (s.br b).sashLoad = true) :
    (valleyPassed b s).host = s.host ∧ (valleyPassed b s).now = max s.now (nextValley (s.br b)) ∧
      (((valleyPassed b s).br b).fbPer = false ∧ ((valleyPassed b s).br b).fbDuty = [] ∧
        ((valleyPassed b s).br b).sashLoad = false) ∧
      (valleyPassed b s).rd R.FB_STATUS.SPLIT b = 0 ∧ (valleyPassed b s).rd R.FB_STATUS.SPLIT_AGE b = 0 := by
  have hbegun := valleyBegun_kept b s
  obtain ⟨hnow2, hhost2⟩ := applySet_kept b .none (valleyBegun b s)
  obtain ⟨hnow, hhost, hfbPer, hfbDuty, hfbLoad, hsplit, hage⟩ := valleyPassed_kept b s
  rw [valleySet_applied hm hp hl] at hnow hhost hfbPer hfbDuty hfbLoad hsplit hage
  rw [hhost, hnow, hfbPer, hfbDuty, hfbLoad, hsplit, hage, clearSplit_host, clearSplit_now, clearSplit_br, hhost2, hnow2,
    hbegun.host, hbegun.now]
  refine ⟨rfl, rfl, applySet_br b .none (valleyBegun b s), ?_, ?_⟩
  · rw [clearSplit, State.clear_eq, State.clear_eq, rd_wr_apart, State.rd_wr_same _ _ _ _ (by decide), Nat.zero_mod]
  · rw [clearSplit, State.clear_eq, State.clear_eq, State.rd_wr_same _ _ _ _ (by decide), Nat.zero_mod]

/-- The valley after a SASH_LOAD: what is pending is applied and the DONE goes out (R209). -/
theorem masterValley_replies (hb : b < 4) (hr : cmdReady (.sashLoad h b) s = true) (hm : modeOf s b = 1)
    (hp : (s.br b).placed = none) (hc : cfgOk s b = true) (hper : masterPer s b ≠ 0)
    (hv : nextValley (s.br b) ≤ s.now + presentPer s b) :
    ∃ u, exec (.masterValley b) (sashHeld h b s) = .next u ∧
      (u.transport h.can).rp = (s.transport h.can).rp ++ [replyBytes h 0x0202 ⟨stDone, [], none, s⟩ false] ∧
      u.host.held = none ∧ u.host.heldMask = 0 ∧ (u.br b).fbPer = false ∧ (u.br b).fbDuty = [] ∧
      (u.br b).sashLoad = false ∧ u.rd R.FB_STATUS.SPLIT b = 0 ∧ u.rd R.FB_STATUS.SPLIT_AGE b = 0 := by
  obtain ⟨hmask, hdue, hbr⟩ := sashHeld_waits hr
  have hvalley : nextValley ((sashHeld h b s).br b) = nextValley (s.br b) := by rw [hbr]; rfl
  obtain ⟨hhost, hnow, ⟨hfbPer, hfbDuty, hload⟩, hsplit, hage⟩ := valleyPassed_applied (b := b) (s := sashHeld h b s) hm
    (by rw [hbr]; exact hp) (by rw [hbr])
  have hsent := swapSettled_sends (s := valleyPassed b (sashHeld h b s)) (k := 4 + b)
    (r := heldReply h 0x0202 (le 1 b) (sashWaits b s)) (by rw [hhost]; rfl) (by rw [hhost, hmask]) (by
      rw [hnow, hhost, hvalley]
      have hstill : (sashHeld h b s).now = s.now := rfl
      omega)
  obtain ⟨hheld, hzero, hrp⟩ := sendHeld_host (heldReply h 0x0202 (le 1 b) (sashWaits b s)) (valleyPassed b (sashHeld h b s))
  refine ⟨_, congrArg Host.Outcome.next (masterValley_eq (s := sashHeld h b s) hb hc hper), ?_⟩
  have hregs := State.reg_congr (sendHeld_regs (heldReply h 0x0202 (le 1 b) (sashWaits b s)) (valleyPassed b (sashHeld h b s)))
  rw [hsent, State.br_congr (sendHeld_bridges ..), State.rd_eq, State.rd_eq, hregs, hregs, ← State.rd_eq, ← State.rd_eq]
  refine ⟨?_, hheld, hzero, hfbPer, hfbDuty, hload, hsplit, hage⟩
  refine hrp.trans ?_
  rw [State.transport, hhost]
  rfl

end

/-- Settles O40: each command in its branch, and the master valley that a SASH_LOAD waits for. -/
theorem canopyCommands : Obligations.CanopyCommands := by
  refine ⟨fun h b p s hb hp hr => canopyMap_answered hb hp hr, fun h b i p s hb hp hr hi => canopyWhere_answered hb hp hr hi,
    fun h b i s hb hp => ⟨canopyMap_refused hb hp, canopyWhere_refused hb hp⟩,
    fun h b sec s hb h30 hr => ⟨fun h0 hheld hlast => ?_, fun h0 hbusy => canopyHold_busy hb h0 h30 hr hbusy, fun h0 => ?_⟩,
    fun b s hh => ?_,
    fun h b s hb hr => ⟨fun hm hp => ?_, fun hm => sashLoad_wrongMode hb hm hr, fun hm hp => sashLoad_deferred hb hm hp hr⟩⟩
  · exact ⟨_, canopyHold_begins hb h0 h30 hr hheld hlast, holdBegun_held hb, holdBegun_end, holdBegun_only⟩
  · subst h0
    exact ⟨_, canopyHold_ends hb hr, holdEnded_off, holdEnded_only⟩
  · obtain ⟨heq, hreg⟩ := endHold_only (reachTime s.canopy.holdEnd s)
    refine ⟨_, exec_canopyHoldExpiry, ?_⟩
    rw [canopyHoldExpiry_ends hh]
    refine ⟨endHold_now _, heldBridge_off (endHold_off _), ?_, ?_⟩
    · rw [endHold_last (s := reachTime s.canopy.holdEnd s) hh, endHold_now]
    · rw [endHold_now]
      exact ⟨heq, hreg⟩
  · obtain ⟨hmask, -, hbr⟩ := sashHeld_waits hr
    refine ⟨_, sashLoad_waits hb hm hp hr, rfl, by rw [hbr], hmask, rfl, rfl, fun hc hper hv => ?_⟩
    exact masterValley_replies hb hr hm hp hc hper hv

end Sys2Proof.Machine
end
section
/-! O21: writes of the Louvre taps, DRV_CLR, DRV_SUP, TW_CLR and the steering registers (R187, R234, R241, R246, R266). -/

namespace Sys2Proof.Machine

open Sys2Proof

/-! ### The rows of the register table, by evaluation -/

theorem louvreRows : ∀ k < 48, regRowOk (A.DRV_LOUVRE + 0x40 * k) A.DRV_LOUVRE k 0 false false = true ∧
    (regAt (A.DRV_LOUVRE + 0x40 * k)).map (fun x =>
      (x.1.fields.any fun f => f.lo == 12 && f.width == 4 && f.acc == .RW,
        x.1.fields.any fun f => f.lo == 8 && f.width == 4 && f.acc == .RW)) = some (true, true) := by decide +kernel

theorem supplyRows : ∀ k < 48, regRowOk (A.DRV_SUP + 0x40 * k) A.DRV_SUP k 0 false false = true := by decide +kernel

theorem dieClearRows : ∀ k < 48, regRowOk (A.DRV_CTRL + 0x40 * k) A.DRV_CTRL k 0 false false = true ∧
    (regAt (A.DRV_CTRL + 0x40 * k)).map (fun x => (fieldsOk x.1 1, x.1.fields.all fun f => f.acc == .WS)) =
      some (true, true) := by decide +kernel

theorem twinClearRows : ∀ p < 8, regRowOk (A.TW_CTRL + 0x100 * p) A.TW_CTRL p 0 false false = true ∧
    (regAt (A.TW_CTRL + 0x100 * p)).map (fun x => (fieldsOk x.1 1, x.1.fields.all fun f => f.acc == .WS)) =
      some (true, true) := by decide +kernel

theorem steerRows : ∀ b < 4, regRowOk (A.CN_STEER + 0x20 * b) A.CN_STEER b 0 true false = true ∧
    regRowOk (A.CN_STEER2 + 0x20 * b) A.CN_STEER2 b 0 true true = true ∧
    (regAt (A.CN_STEER + 0x20 * b)).map (fun x => x.1.fields.any fun f => f.lo == 31 && f.width == 1 && f.acc == .WA) =
      some true := by decide +kernel

/-! ### What such a write stores, and what follows -/

/-- The bases of the registers of the driver and measurement blocks whose writes act here. -/
def powerBases : List Nat := [A.DRV_LOUVRE, A.DRV_SUP, A.DRV_CTRL, A.TW_CTRL]

section
variable {a base i : Nat} {wa plain : Bool} {r : RegDef}

theorem storeWord_power (h : RegRow a base i 0 wa plain r) (hbase : base ∈ powerBases) (w : Word) (s : State) :
    storeWord a w s = s.setReg a (mergeWord r (s.reg a) w) := by
  have hne : ∀ x ∈ powerBases, x ≠ A.BUF_ID ∧ x ≠ A.BUF_CTL ∧ x ≠ A.BUF_DATA ∧ x ≠ A.LG_CFG := by decide
  obtain ⟨h1, h2, h3, h4⟩ := hne base hbase
  simp only [storeWord, h.sig, h.reg, h.base, h1, h2, h3, h4, if_false]

/-- What follows from it is what the driver and measurement blocks say. -/
theorem actWord_power (h : RegRow a base i 0 wa plain r) (hbase : base ∈ powerBases) (s0 : State) (w : Word) (s : State) :
    actWord s0 a w s = actPower base i w s := by
  have hbridge : ∀ u, actBridge s0 base i 0 w u = u := fun u => by
    simp only [powerBases, List.mem_cons, List.not_mem_nil, or_false] at hbase
    rcases hbase with rfl | rfl | rfl | rfl <;> rfl
  have hlink : ∀ u, actLink s0 a base i 0 w u = u := fun u => by
    simp only [powerBases, List.mem_cons, List.not_mem_nil, or_false] at hbase
    have hsafe : (if inSafety a then applySafety (recode (blankChannels (noteKon u))) else u) = u :=
      if_neg (by rw [h.safe]; decide)
    rcases hbase with rfl | rfl | rfl | rfl <;> exact hsafe
  simp only [actWord, h.sig, h.reg, h.base, hbridge, hlink]

/-- A write of a register whose fields all start something stores nothing. -/
theorem storeWord_start (h : RegRow a base i 0 wa plain r) (hbase : base ∈ powerBases)
    (hstart : r.fields.all (fun f => f.acc == .WS) = true) (w : Word) (s : State) : OnlyRegs s (storeWord a w s) [] := by
  rw [storeWord_power h hbase, mergeWord_eq, foldMerge_start w _ hstart]
  refine ⟨rfl, fun x _ => ?_⟩
  by_cases hx : x = a
  · rw [hx, State.reg_setReg_same]
  · exact State.reg_setReg_ne s _ _ hx

/-- A write of 1 that clears passes check 4 where its register's mode does. -/
theorem writeOpen_start (h : RegRow a base i 0 false plain r) (hbase : base ∈ [A.DRV_CTRL, A.TW_CTRL]) (s : State)
    (hrange : fieldsOk r 1 = true) (hstate : ∀ s', stateStatus s s' base i 0 1 = stDone) : writeOpen a 1 s = true := by
  have hothers : ∀ s', (sashOk s s' base i && (fallbackOk s' base i 0 && (tractionOk s' base i && (driverOk s' base i &&
      (measureOk s' base i && (canCfgOk s' base i 1 && otherOk s' base i 0)))))) = true := fun s' => by
    simp only [List.mem_cons, List.not_mem_nil, or_false] at hbase
    rcases hbase with rfl | rfl <;> rfl
  have hranges : ∀ s', rangesOk s s' r i 0 1 = true := fun s' => by
    rw [← hrange]
    simp only [rangesOk, Bool.and_assoc, h.base, hothers, Bool.and_true]
  have hcheck : ∀ s', checkWord s s' a 1 = stDone := fun s' => by
    simp only [checkWord, h.sig, h.reg, hranges, if_true, h.base, hstate, h.safe, need, Bool.not_false, Bool.true_or]
    rfl
  simp only [writeOpen, h.wa, hcheck, decide_true, Bool.not_false, Bool.and_self]

/-- A field that an authenticated write sets takes the bits written. -/
theorem mergeWord_field_wa {j lo width : Nat} (hx : regAt a = some (r, i, j))
    (hf : r.fields.any (fun f => f.lo == lo && f.width == width && f.acc == .WA) = true) (old w : Word) :
    bitsOf (mergeWord r old w).toNat lo width = bitsOf w.toNat lo width := by
  obtain ⟨f, hmem, hf⟩ := List.any_eq_true.1 hf
  simp only [Bool.and_eq_true, beq_iff_eq] at hf
  obtain ⟨⟨rfl, rfl⟩, hacc⟩ := hf
  rw [mergeWord_eq, foldMerge_in w r.fields old (regAt_apart hx) f hmem, hacc]

end

section
variable {h : Hdr} {s t u : State} {k p b : Nat}

/-! ### States that read alike -/

/-- Where every register reads the same, so does the bridge block. -/
theorem OnlyRegs.frame (hu : OnlyRegs s u []) : Frame s u where
  now := by rw [hu.1]
  pending := by rw [hu.1]
  serving := by rw [hu.host]
  held h0 := by rw [hu.host, h0]
  reg a _ := hu.2 a List.not_mem_nil
  br c := (hu.br c).symm ▸ BrKeeps.refl _

theorem OnlyRegs.die {l : List Nat} (hu : OnlyRegs s u l) (k : Nat) : u.die k = s.die k := by
  rw [hu.1]
  rfl

theorem OnlyRegs.pair {l : List Nat} (hu : OnlyRegs s u l) (p : Nat) : u.pair p = s.pair p := by
  rw [hu.1]
  rfl

theorem pairOwner_congr (hu : OnlyRegs s u []) (p : Nat) : pairOwner u p = pairOwner s p := by
  have hconv : convOwner u = convOwner s := by
    funext c
    simp only [convOwner, hu.nil_rd, hu.frame.bridgeOfLeg]
  rw [pairOwner, ownersOf, hconv, pairOwner, ownersOf]

/-! ### DRV_LOUVRE -/

theorem exec_louvreWrite (w : Word) : exec (.louvreWrite h k w) s = .next (writeWin h (A.DRV_LOUVRE + 0x40 * k) [w] s) := rfl

/-- The address of a field of a die's register. -/
theorem fldAddr_die (f : Fld) (hf : f.stride = 0x40 := by rfl) : fldAddr f k 0 = f.base + 0x40 * k := by
  rw [fldAddr, hf, Nat.zero_mul, Nat.add_zero, Nat.mul_comm]

theorem louvreInit_taps (k : Nat) (u : State) :
    (louvreInit k u).rd R.DRV_STATUS.NON_M1 k = u.rd R.DRV_LOUVRE.ON_INIT_M1 k ∧
      (louvreInit k u).rd R.DRV_STATUS.NOFF_M1 k = u.rd R.DRV_LOUVRE.OFF_INIT_M1 k := by
  refine ⟨?_, ?_⟩
  · rw [louvreInit, rd_wr_apart, State.rd_wr_same _ _ _ _ (by decide)]
    exact Nat.mod_eq_of_lt (State.rd_lt ..)
  · rw [louvreInit, State.rd_wr_same _ _ _ _ (by decide)]
    exact Nat.mod_eq_of_lt (State.rd_lt ..)

theorem louvreInit_only (k : Nat) (u : State) : OnlyRegs u (louvreInit k u) [A.DRV_STATUS + 0x40 * k] :=
  ((OnlyRegs.wr u R.DRV_STATUS.NON_M1 k _).trans (OnlyRegs.wr _ R.DRV_STATUS.NOFF_M1 k _)).mono fun a ha => by
    simpa [fldAddr_die, R.DRV_STATUS.NON_M1, R.DRV_STATUS.NOFF_M1, A.DRV_STATUS] using ha

theorem louvreWrite_answered {w : Word} (hk : k < 48) (hr : cmdReady (.louvreWrite h k w) s = true)
    (ho : writeOpen (A.DRV_LOUVRE + 0x40 * k) w s = true) : ∃ t,
      exec (.louvreWrite h k w) s = .next (answer (.louvreWrite h k w) stDone [] t) ∧
      t.rd R.DRV_STATUS.NON_M1 k = fldOf R.DRV_LOUVRE.ON_INIT_M1 w ∧
      t.rd R.DRV_STATUS.NOFF_M1 k = fldOf R.DRV_LOUVRE.OFF_INIT_M1 w ∧
      OnlyRegs s t [A.DRV_LOUVRE + 0x40 * k, A.DRV_STATUS + 0x40 * k] := by
  obtain ⟨hrow, hfields⟩ := louvreRows k hk
  obtain ⟨r, hrow⟩ := RegRow.of hrow
  simp only [hrow.reg, Option.map_some, Option.some.injEq, Prod.mk.injEq] at hfields
  obtain ⟨hon, hoff⟩ := hfields
  have hbase : A.DRV_LOUVRE ∈ powerBases := by decide
  have hstore := storeWord_power hrow hbase w s
  have heff : actWord s (A.DRV_LOUVRE + 0x40 * k) w (storeWord (A.DRV_LOUVRE + 0x40 * k) w s) =
      louvreInit k (storeWord (A.DRV_LOUVRE + 0x40 * k) w s) := actWord_power hrow hbase ..
  have hu : OnlyRegs s (storeWord (A.DRV_LOUVRE + 0x40 * k) w s) [A.DRV_LOUVRE + 0x40 * k] := by
    rw [hstore]
    exact OnlyRegs.setReg ..
  have ht := hu.trans (louvreInit_only k _)
  obtain ⟨hnon, hnoff⟩ := louvreInit_taps k (storeWord (A.DRV_LOUVRE + 0x40 * k) w s)
  refine ⟨_, ?_, hnon.trans ?_, hnoff.trans ?_, ht⟩
  · rw [exec_louvreWrite, writeWin_one (.louvreWrite h k w) h _ w s rfl hr hrow.addr ho (by rw [heff, ht.host])
      (by rw [heff, ht.host]), heff]
  · rw [State.rd_eq, fldAddr_die R.DRV_LOUVRE.ON_INIT_M1, hstore,
      show R.DRV_LOUVRE.ON_INIT_M1.base = A.DRV_LOUVRE from rfl, State.reg_setReg_same]
    exact mergeWord_field hrow.reg hon _ w
  · rw [State.rd_eq, fldAddr_die R.DRV_LOUVRE.OFF_INIT_M1, hstore,
      show R.DRV_LOUVRE.OFF_INIT_M1.base = A.DRV_LOUVRE from rfl, State.reg_setReg_same]
    exact mergeWord_field hrow.reg hoff _ w

/-! ### DRV_SUP -/

theorem supplyWritten_host (k : Nat) (u : State) : (supplyWritten k u).host = u.host := by
  simp only [supplyWritten, zoneSupplyRecovery, setUvSince, State.clear_eq, State.host_ite, State.setDie_host, State.wr_host, ite_self]

theorem supplyWrite_answered {w : Word} (hk : k < 48) (hr : cmdReady (.writeWin h (A.DRV_SUP + 0x40 * k) [w]) s = true)
    (ho : writeOpen (A.DRV_SUP + 0x40 * k) w s = true) :
    exec (.writeWin h (A.DRV_SUP + 0x40 * k) [w]) s = .next (answer (.writeWin h (A.DRV_SUP + 0x40 * k) [w]) stDone []
      (supplyWritten k (storeWord (A.DRV_SUP + 0x40 * k) w s))) := by
  obtain ⟨r, hrow⟩ := RegRow.of (supplyRows k hk)
  have hbase : A.DRV_SUP ∈ powerBases := by decide
  have heff : actWord s (A.DRV_SUP + 0x40 * k) w (storeWord (A.DRV_SUP + 0x40 * k) w s) =
      supplyWritten k (storeWord (A.DRV_SUP + 0x40 * k) w s) := actWord_power hrow hbase ..
  have hhost : (storeWord (A.DRV_SUP + 0x40 * k) w s).host = s.host := by rw [storeWord_power hrow hbase, State.setReg_host]
  refine congrArg Host.Outcome.next ((writeWin_one (.writeWin h (A.DRV_SUP + 0x40 * k) [w]) h _ w s rfl hr hrow.addr ho ?_ ?_).trans ?_)
  · rw [heff, supplyWritten_host, hhost]
  · rw [heff, supplyWritten_host, hhost]
  · rw [heff]

/-! ### DRV_CLR -/

theorem exec_drvClr : exec (.drvClr h k) s = .next (writeWin h (A.DRV_CTRL + 0x40 * k) [1] s) := rfl

/-- The judgement of a cause draws at most a free value (log entry 25). -/
theorem causeGone_draws (k : Nat) (u : State) : ∃ n, (causeGone k u).2 = { u with freeCtr := n } := by
  unfold causeGone
  split
  · exact ⟨u.freeCtr, rfl⟩
  · exact ⟨u.freeCtr, rfl⟩
  · exact ⟨u.freeCtr, rfl⟩
  · exact ⟨u.freeCtr, rfl⟩
  · exact ⟨u.freeCtr, rfl⟩
  · exact ⟨_, rfl⟩

theorem causeGone_congr (hu : OnlyRegs s u []) (k : Nat) : (causeGone k u).1 = (causeGone k s).1 := by
  have hfree : u.freeCtr = s.freeCtr := by rw [hu.1]
  have hnow : u.now = s.now := by rw [hu.1]
  simp only [causeGone, hu.nil_rd, hu.nil_flag, hu.die, drawFree, hfree, hnow]
  split
  · rfl
  · rfl
  · rfl
  · rfl
  · rfl
  · rfl

theorem clearDie_other (hs : dieState s k ≠ 2 ∨ (s.die k).faultAt = s.now) : clearDie k s = s := if_pos hs

theorem clearDie_faulted (h2 : dieState s k = 2) (hn : (s.die k).faultAt ≠ s.now) (ha : (s.die k).again = none) : clearDie k s =
    if (causeGone k s).1 then ((causeGone k s).2.wr R.DRV_STATUS.STATE k 1).clear R.DRV_STATUS.FAULT_CAUSE k
    else (causeGone k s).2 := by
  refine (if_neg (not_or.2 ⟨not_not_intro h2, hn⟩)).trans ?_
  rw [ha]
  rfl

theorem causeEvents_host (k n : Nat) (u : State) : (causeEvents k n u).host = u.host := by
  simp only [causeEvents, State.raise_eq, State.host_ite, State.wr_host, ite_self]

theorem clearDie_host (k : Nat) (u : State) : (clearDie k u).host = u.host := by
  obtain ⟨n, hgone⟩ := causeGone_draws k u
  unfold clearDie
  split
  · rfl
  · split
    · rw [causeEvents_host, State.wr_host]
    · extract_lets c
      rw [show c.2 = _ from hgone]
      split
      · rw [State.clear_eq, State.wr_host, State.wr_host]
      · rfl

/-- A die whose cause is gone is READY, with no cause. -/
theorem clearDie_gone (h2 : dieState s k = 2) (hn : (s.die k).faultAt ≠ s.now) (ha : (s.die k).again = none)
    (hg : (causeGone k s).1 = true) : dieState (clearDie k s) k = 1 ∧ (clearDie k s).rd R.DRV_STATUS.FAULT_CAUSE k = 0 := by
  rw [clearDie_faulted h2 hn ha, if_pos hg, dieState, State.clear_eq, rd_wr_apart, State.rd_wr_same _ _ _ _ (by decide),
    State.rd_wr_same _ _ _ _ (by decide)]
  exact ⟨rfl, rfl⟩

/-- One whose cause stays keeps it. -/
theorem clearDie_stays (h2 : dieState s k = 2) (ha : (s.die k).again = none) (hg : (causeGone k s).1 = false) :
    (clearDie k s).regs = s.regs := by
  by_cases hn : (s.die k).faultAt = s.now
  · rw [clearDie_other (.inr hn)]
  · obtain ⟨n, hgone⟩ := causeGone_draws k s
    rw [clearDie_faulted h2 hn ha, hg, if_neg Bool.false_ne_true, hgone]

/-- The command: the write of 1 stores nothing, and the die is cleared. -/
theorem drvClr_answered (hk : k < 48) (hr : cmdReady (.drvClr h k) s = true) (hf : legFree s (k / 2) = true) :
    ∃ u, OnlyRegs s u [] ∧ exec (.drvClr h k) s = .next (answer (.drvClr h k) stDone [] (clearDie k u)) := by
  obtain ⟨hrow, hfields⟩ := dieClearRows k hk
  obtain ⟨r, hrow⟩ := RegRow.of hrow
  simp only [hrow.reg, Option.map_some, Option.some.injEq, Prod.mk.injEq] at hfields
  obtain ⟨hrange, hstart⟩ := hfields
  have hbase : A.DRV_CTRL ∈ powerBases := by decide
  have hu := storeWord_start hrow hbase hstart 1 s
  have heff : actWord s (A.DRV_CTRL + 0x40 * k) 1 (storeWord (A.DRV_CTRL + 0x40 * k) 1 s) =
      clearDie k (storeWord (A.DRV_CTRL + 0x40 * k) 1 s) := actWord_power hrow hbase ..
  have hstate : ∀ s', stateStatus s s' A.DRV_CTRL k 0 1 = stDone := fun s' => by
    change need (legFree s (k / 2) || _) stWrongMode = stDone
    rw [hf, Bool.true_or]
    rfl
  have ho := writeOpen_start hrow (by decide) s hrange hstate
  refine ⟨_, hu, ?_⟩
  rw [exec_drvClr, writeWin_one (.drvClr h k) h _ 1 s rfl hr hrow.addr ho (by rw [heff, clearDie_host, hu.host])
    (by rw [heff, clearDie_host, hu.host]), heff]

/-! ### TW_CLR -/

theorem exec_twClr : exec (.twClr h p) s = .next (writeWin h (A.TW_CTRL + 0x100 * p) [1] s) := rfl

/-- The pair's bridge is SEALED, or it has none. -/
def pairFree (s : State) (p : Nat) : Bool := sealedOr s (pairOwner s p)

/-- FAIL and both suspect bits of a pair cleared (R266). -/
def twinCleared (p : Nat) (s : State) : State :=
  ((s.clear R.TW_STATUS.FAIL p).clear R.TW_STATUS.SUSP_A p).clear R.TW_STATUS.SUSP_B p

theorem clearTwin_eq (p : Nat) (s : State) : clearTwin p s = if pairFree s p && (s.pair p).agreed then twinCleared p s else s := rfl

theorem twinCleared_status (p : Nat) (s : State) : (twinCleared p s).rd R.TW_STATUS.FAIL p = 0 ∧
    (twinCleared p s).rd R.TW_STATUS.SUSP_A p = 0 ∧ (twinCleared p s).rd R.TW_STATUS.SUSP_B p = 0 := by
  refine ⟨?_, ?_, ?_⟩
  · rw [twinCleared, State.clear_eq, State.clear_eq, State.clear_eq, rd_wr_apart, rd_wr_apart,
      State.rd_wr_same _ _ _ _ (by decide), Nat.zero_mod]
  · rw [twinCleared, State.clear_eq, State.clear_eq, State.clear_eq, rd_wr_apart, State.rd_wr_same _ _ _ _ (by decide), Nat.zero_mod]
  · rw [twinCleared, State.clear_eq, State.clear_eq, State.clear_eq, State.rd_wr_same _ _ _ _ (by decide), Nat.zero_mod]

theorem twinCleared_only (p : Nat) (s : State) : OnlyRegs s (twinCleared p s) [A.TW_STATUS + 0x100 * p] :=
  (((OnlyRegs.clear s R.TW_STATUS.FAIL p).trans (OnlyRegs.clear _ R.TW_STATUS.SUSP_A p)).trans
    (OnlyRegs.clear _ R.TW_STATUS.SUSP_B p)).mono fun a ha => by
      simpa [fldAddr, Nat.mul_comm, R.TW_STATUS.FAIL, R.TW_STATUS.SUSP_A, R.TW_STATUS.SUSP_B, A.TW_STATUS] using ha

theorem clearTwin_only (p : Nat) (s : State) : OnlyRegs s (clearTwin p s) [A.TW_STATUS + 0x100 * p] := by
  rw [clearTwin_eq]
  split
  · exact twinCleared_only p s
  · exact OnlyRegs.refl s _

theorem pairFree_congr (hu : OnlyRegs s u []) (p : Nat) : pairFree u p = pairFree s p := by
  unfold pairFree sealedOr
  rw [pairOwner_congr hu]
  split
  · rw [modeOf, modeOf, hu.nil_rd]
  · rfl

theorem pairFree_of_sealed (hm : ∀ b, pairOwner s p = some b → modeOf s b = 0) : pairFree s p = true := by
  unfold pairFree sealedOr
  split
  · next b hb => exact decide_eq_true (hm b hb)
  · rfl

theorem twClr_answered (hp : p < 8) (hr : cmdReady (.twClr h p) s = true) : ∃ u, OnlyRegs s u [] ∧
    exec (.twClr h p) s = .next (answer (.twClr h p) stDone [] (clearTwin p u)) := by
  obtain ⟨hrow, hfields⟩ := twinClearRows p hp
  obtain ⟨r, hrow⟩ := RegRow.of hrow
  simp only [hrow.reg, Option.map_some, Option.some.injEq, Prod.mk.injEq] at hfields
  obtain ⟨hrange, hstart⟩ := hfields
  have hbase : A.TW_CTRL ∈ powerBases := by decide
  have hu := storeWord_start hrow hbase hstart 1 s
  have heff : actWord s (A.TW_CTRL + 0x100 * p) 1 (storeWord (A.TW_CTRL + 0x100 * p) 1 s) =
      clearTwin p (storeWord (A.TW_CTRL + 0x100 * p) 1 s) := actWord_power hrow hbase ..
  have hhost := (hu.trans (clearTwin_only p _)).host
  have ho := writeOpen_start hrow (by decide) s hrange fun _ => rfl
  refine ⟨_, hu, ?_⟩
  rw [exec_twClr, writeWin_one (.twClr h p) h _ 1 s rfl hr hrow.addr ho (by rw [heff, hhost]) (by rw [heff, hhost]), heff]

/-! ### The steering registers -/

variable {v w : Word}

/-- CN_STEER and CN_STEER2 stored (R187). -/
def steerStored (b : Nat) (v w : Word) (s : State) : State :=
  storeWord (A.CN_STEER2 + 0x20 * b) w (storeWord (A.CN_STEER + 0x20 * b) v s)

/-- The two registers of a steering write with their words. -/
def steerWords (b : Nat) (v w : Word) : List (Nat × Word) := [(A.CN_STEER + 0x20 * b, v), (A.CN_STEER2 + 0x20 * b, w)]

theorem winAddrs_steer (b : Nat) : winAddrs (A.CN_STEER + 0x20 * b) 2 = [A.CN_STEER + 0x20 * b, A.CN_STEER2 + 0x20 * b] := by
  have hnext : A.CN_STEER + 0x20 * b + 4 = A.CN_STEER2 + 0x20 * b := by
    unfold A.CN_STEER A.CN_STEER2
    omega
  rw [winAddrs_succ, winAddrs_one, hnext]

/-- CN_STEER stores its word, and its bridge's shares follow. -/
theorem steerRow_acts {r : RegDef} (hrow : RegRow (A.CN_STEER + 0x20 * b) A.CN_STEER b 0 true false r) :
    (∀ s, storeWord (A.CN_STEER + 0x20 * b) v s = s.setReg (A.CN_STEER + 0x20 * b) (mergeWord r (s.reg (A.CN_STEER + 0x20 * b)) v)) ∧
      ∀ s0 s, actWord s0 (A.CN_STEER + 0x20 * b) v s = steerWritten b s := by
  refine ⟨fun s => ?_, fun s0 s => ?_⟩
  · have hne : A.CN_STEER ≠ A.BUF_ID ∧ A.CN_STEER ≠ A.BUF_CTL ∧ A.CN_STEER ≠ A.BUF_DATA ∧ A.CN_STEER ≠ A.LG_CFG := by decide
    obtain ⟨h1, h2, h3, h4⟩ := hne
    simp only [storeWord, hrow.sig, hrow.reg, hrow.base, h1, h2, h3, h4, if_false]
  · have hlink : ∀ u, actLink s0 (A.CN_STEER + 0x20 * b) A.CN_STEER b 0 v u = u := fun u =>
      if_neg (c := inSafety (A.CN_STEER + 0x20 * b) = true) (by rw [hrow.safe]; decide)
    simp only [actWord, hrow.sig, hrow.reg, hrow.base, hlink]
    rfl

theorem steerWritten_eq (b : Nat) (u : State) : ∃ x, steerWritten b u = { u with canopy := x } := by
  unfold steerWritten
  split
  · exact ⟨u.canopy, rfl⟩
  · refine State.each_ind (fun t => ∃ x, t = { u with canopy := x }) _ (fun t n ⟨x, ht⟩ => ?_) _ u ⟨u.canopy, rfl⟩
    exact ⟨(setShare n 0x2000 t).canopy, congrArg (fun y => { y with canopy := (setShare n 0x2000 t).canopy }) ht⟩

/-- With STEER_EN 0 every leg of the bridge returns to its equal share. -/
theorem steerWritten_shares {n : Nat} (hoff : u.flag R.CN_STEER.STEER_EN b = false) (hn : n ∈ legsOf u b) :
    sget (fun _ => 0x2000) (steerWritten b u).canopy.shares n = 0x2000 := by
  rw [steerWritten, hoff, if_neg Bool.false_ne_true]
  refine each_reaches (p := fun t => sget (fun _ => 0x2000) t.canopy.shares n = 0x2000) hn (fun t => ?_) (fun t m ht => ?_) u
  · rw [setShare, sget_sput_same]
  · rw [setShare, sget_sput]
    split
    · rfl
    · exact ht

/-- Both registers hold their words, and the bridge block stays. -/
theorem steerStored_regs (hb : b < 4) (v w : Word) (s : State) :
    (steerStored b v w s).rd R.CN_STEER.STEER_EN b = fldOf R.CN_STEER.STEER_EN v ∧
      (steerStored b v w s).reg (A.CN_STEER2 + 0x20 * b) =
        (storeWord (A.CN_STEER2 + 0x20 * b) w s).reg (A.CN_STEER2 + 0x20 * b) ∧
      ∀ a, bridgeBlock a → (steerStored b v w s).reg a = s.reg a := by
  obtain ⟨hrow, hrow2, hfield⟩ := steerRows b hb
  obtain ⟨r, hrow⟩ := RegRow.of hrow
  obtain ⟨r2, hrow2⟩ := RegRow.of hrow2
  obtain ⟨hstore, -⟩ := steerRow_acts (v := v) hrow
  simp only [hrow.reg, Option.map_some, Option.some.injEq] at hfield
  have hne : A.CN_STEER2 + 0x20 * b ≠ A.CN_STEER + 0x20 * b := by
    unfold A.CN_STEER A.CN_STEER2
    omega
  have haddr : fldAddr R.CN_STEER.STEER_EN b 0 = A.CN_STEER + 0x20 * b := by
    rw [fldAddr, Nat.zero_mul, Nat.add_zero, Nat.mul_comm]
    rfl
  have hstore2 := fun u => storeWord_plain (A.CN_STEER2 + 0x20 * b) w u hrow2.plain r2 b 0 hrow2.reg
  refine ⟨?_, ?_, fun a ⟨h1, h2⟩ => ?_⟩
  · rw [State.rd_eq, haddr, steerStored, hstore2, State.reg_setReg_ne _ _ _ hne.symm, hstore, State.reg_setReg_same]
    exact mergeWord_field_wa hrow.reg hfield _ v
  · rw [steerStored, hstore2, hstore2, State.reg_setReg_same, State.reg_setReg_same, hstore, State.reg_setReg_ne _ _ _ hne]
  · have ha : a ≠ A.CN_STEER + 0x20 * b ∧ a ≠ A.CN_STEER2 + 0x20 * b := by
      unfold A.CN_STEER A.CN_STEER2
      omega
    obtain ⟨ha1, ha2⟩ := ha
    rw [steerStored, hstore2, State.reg_setReg_ne _ _ _ ha2, hstore, State.reg_setReg_ne _ _ _ ha1]

/-- The stored word of CN_STEER2 is said by its word before. -/
theorem storeWord_steer2 (hb : b < 4) (w : Word) (hreg : t.reg (A.CN_STEER2 + 0x20 * b) = s.reg (A.CN_STEER2 + 0x20 * b)) :
    (storeWord (A.CN_STEER2 + 0x20 * b) w t).reg (A.CN_STEER2 + 0x20 * b) =
      (storeWord (A.CN_STEER2 + 0x20 * b) w s).reg (A.CN_STEER2 + 0x20 * b) := by
  obtain ⟨-, hrow2, -⟩ := steerRows b hb
  obtain ⟨r2, hrow2⟩ := RegRow.of hrow2
  have hstore2 := fun u => storeWord_plain (A.CN_STEER2 + 0x20 * b) w u hrow2.plain r2 b 0 hrow2.reg
  rw [hstore2, hstore2, State.reg_setReg_same, State.reg_setReg_same, hreg]

theorem steerWrite_answered (hb : b < 4) (ha : cmdAuth (.steerWrite h b v w) .any s = true)
    (hf : firstRefused (used (.steerWrite h b v w) s) (steerStored b v w (used (.steerWrite h b v w) s)) (steerWords b v w) = none) :
    exec (.steerWrite h b v w) s = .next (signed (.steerWrite h b v w) stDone [] s
      (steerWritten b (steerStored b v w (used (.steerWrite h b v w) s)))) := by
  obtain ⟨hrow1, hrow2, -⟩ := steerRows b hb
  obtain ⟨r, hrow⟩ := RegRow.of hrow1
  obtain ⟨r2, hrow2⟩ := RegRow.of hrow2
  obtain ⟨hstore, hact⟩ := steerRow_acts (v := v) hrow
  have haddrs : winAddrs (A.CN_STEER + 0x20 * b) [v, w].length = [A.CN_STEER + 0x20 * b, A.CN_STEER2 + 0x20 * b] := winAddrs_steer b
  have hshape : winShapeOk (A.CN_STEER + 0x20 * b) [v, w].length = true := by
    have hlow : A.CN_STEER + 0x20 * b < 2 ^ 24 := by
      unfold A.CN_STEER
      omega
    exact Bool.and_eq_true_iff.2 ⟨decide_eq_true hlow, rfl⟩
  have hfault : winFault (A.CN_STEER + 0x20 * b) [v, w].length = none := by
    simp only [winFault, haddrs, List.find?_cons, hrow.addr, hrow2.addr, Bool.not_true, List.find?_nil]
  have hbody : writeWinBody h (A.CN_STEER + 0x20 * b) [v, w] s = withAuth h 0x0402
      (writeParams (A.CN_STEER + 0x20 * b) [v, w]) .any s (writeChecked (steerWords b v w)) := by
    simp only [writeWinBody, hshape, hfault, Bool.true_eq_false, if_false, haddrs,
      List.any_cons, hrow.wa, Bool.true_or, if_true, List.zip_cons_cons, List.zip_nil_left, steerWords]
  have hdone : writeChecked (steerWords b v w) (used (.steerWrite h b v w) s) =
      ⟨stDone, [], none, steerWritten b (steerStored b v w (used (.steerWrite h b v w) s))⟩ := by
    have hall : writeAll (steerWords b v w) (used (.steerWrite h b v w) s) =
        steerWritten b (steerStored b v w (used (.steerWrite h b v w) s)) := by
      simp only [writeAll, steerWords, List.foldl_cons, List.foldl_nil, hact, actWord_plain _ _ _ _ hrow2.plain, steerStored]
    rw [steerStored] at hf
    simp only [writeChecked, steerWords, List.foldl_cons, List.foldl_nil] at hf hall ⊢
    rw [hf, hall]
    rfl
  have hcalm : Calm (used (.steerWrite h b v w) s) (steerWritten b (steerStored b v w (used (.steerWrite h b v w) s))) := by
    obtain ⟨x, hx⟩ := steerWritten_eq b (steerStored b v w (used (.steerWrite h b v w) s))
    rw [hx, steerStored, storeWord_plain _ _ _ hrow2.plain r2 b 0 hrow2.reg, hstore]
    exact (Calm.refl _).setReg.setReg.same
  exact congrArg Host.Outcome.next (acceptCmd_calmSigned (c := .steerWrite h b v w) rfl ha hbody hdone (.inl rfl) hcalm)

end

/-- Settles O21: the five writes, each the word stored and what its block says follows. -/
theorem driverRegisterCommands : Obligations.DriverRegisterCommands := by
  intro h s
  refine ⟨fun k w hk hr ho => louvreWrite_answered hk hr ho, fun k hk hr hf => ?_,
    fun k w hk hr ho => supplyWrite_answered hk hr ho, fun p hp hr => ?_, fun b v w hb ha hf => ?_⟩
  · obtain ⟨u, hu, hexec⟩ := drvClr_answered hk hr hf
    have hstate : dieState u k = dieState s k := hu.nil_rd ..
    have hnow : u.now = s.now := by rw [hu.1]
    rw [← hstate, ← hnow, ← hu.die k, ← causeGone_congr hu k]
    refine ⟨_, hexec, clearDie_gone, fun h2 ha hg => ?_, fun h2 hn => ?_, fun h2 => ?_⟩
    · have hregs := State.reg_congr (clearDie_stays h2 ha hg)
      rw [dieState, State.rd_eq, State.rd_eq, hregs, hregs, ← State.rd_eq, ← State.rd_eq, hu.nil_rd R.DRV_STATUS.FAULT_CAUSE]
      exact ⟨h2, rfl⟩
    · rw [clearDie_other (.inr hn), h2]
    · rw [clearDie_other (.inl h2)]
      exact ⟨hu.mono fun _ ha => absurd ha List.not_mem_nil, rfl⟩
  · obtain ⟨u, hu, hexec⟩ := twClr_answered hp hr
    refine ⟨_, hexec, (hu.trans (clearTwin_only p u)).mono fun a ha => List.mem_cons_of_mem _ ha, fun ha hm => ?_, fun ha => ?_⟩
    · rw [clearTwin_eq, pairFree_congr hu, pairFree_of_sealed hm, hu.pair, ha, Bool.and_self, if_pos rfl]
      exact twinCleared_status p u
    · rw [clearTwin_eq, hu.pair, ha, Bool.and_false, if_neg Bool.false_ne_true, hu.nil_rd]
  · obtain ⟨hen, hsteer2, hblock⟩ := steerStored_regs hb v w (used (.steerWrite h b v w) s)
    obtain ⟨x, hx⟩ := steerWritten_eq b (steerStored b v w (used (.steerWrite h b v w) s))
    have hused := (used_frame (s := s) (.steerWrite h b v w)).reg
    have hlegs : legsOf (steerStored b v w (used (.steerWrite h b v w) s)) b = legsOf s b := by
      have hreg : ∀ a, bridgeBlock a → (steerStored b v w (used (.steerWrite h b v w) s)).reg a = s.reg a := fun a ha =>
        (hblock a ha).trans (hused a ha)
      refine legsOf_congr (hreg _ ?_) (hreg _ ?_)
      · simp only [bridgeBlock, A.BR_CFG]
        omega
      · simp only [bridgeBlock, A.BR_PHASE]
        omega
    refine ⟨_, steerWrite_answered hb ha hf, ?_, ?_, fun hoff n hn => steerWritten_shares ?_ (hlegs.symm ▸ hn)⟩
    · rw [hx]
      exact hen
    · rw [hx]
      refine hsteer2.trans (storeWord_steer2 hb w (used_reg _ _ _ ?_))
      unfold A.CN_STEER2
      omega
    · rw [State.flag_eq, hen, hoff]
      rfl

end Sys2Proof.Machine
end
section
/-! O20: writes of the carrier, the fall-back registers, LATCH_CLR and XCHK_TRIP (R196, R206, R214, R229). -/

namespace Sys2Proof.Machine

open Sys2Proof

/-! ### The rows of the register table, by evaluation -/

theorem carrierRows : ∀ n < 24, regRowOk (A.SH_CARRIER + 0x100 * n) A.SH_CARRIER n 0 false false = true := by decide +kernel

theorem latchRows : ∀ n < 24, regRowOk (A.SH_CTRL + 0x100 * n) A.SH_CTRL n 0 false false = true ∧
    (regAt (A.SH_CTRL + 0x100 * n)).map (fun x => (fieldsOk x.1 1, x.1.fields.all fun f => f.acc == .WS)) =
      some (true, true) := by decide +kernel

theorem interlockRows : ∀ n < 24, regRowOk (A.IL_STATUS + 0x10 * n) A.IL_STATUS n 0 false true = true ∧
    (regAt (A.IL_STATUS + 0x10 * n)).map (fun x => (fieldsOk x.1 0x40000000,
      x.1.fields.any fun f => f.lo == 30 && f.width == 1 && f.acc == .W1C)) = some (true, true) := by decide +kernel

theorem fallbackPerRows : ∀ b < 4, regRowOk (A.FB_PER + 0x400 * b) A.FB_PER b 0 false false = true ∧
    (regAt (A.FB_PER + 0x400 * b)).map (fun x => x.1.fields.any fun f => f.lo == 0 && f.width == 19 && f.acc == .RW) =
      some true := by decide +kernel

theorem fallbackDutyRows : ∀ b < 4, ∀ j < 12, regRowOk (A.FB_DUTY + 0x400 * b + 4 * j) A.FB_DUTY b j false false = true ∧
    (regAt (A.FB_DUTY + 0x400 * b + 4 * j)).map (fun x => x.1.fields.any fun f => f.lo == 0 && f.width == 25 && f.acc == .RW) =
      some true := by decide +kernel

/-! ### What such a write stores, and what follows -/

/-- The bases of the registers of a leg and of the fall-back path from whose writes something follows. -/
def sashBases : List Nat := [A.SH_CARRIER, A.SH_CTRL, A.FB_PER, A.FB_DUTY]

section
variable {a base i j : Nat} {wa plain : Bool} {r : RegDef}

theorem storeWord_sash (h : RegRow a base i j wa plain r) (hbase : base ∈ sashBases) (w : Word) (s : State) :
    storeWord a w s = s.setReg a (mergeWord r (s.reg a) w) := by
  have hne : ∀ x ∈ sashBases, x ≠ A.BUF_ID ∧ x ≠ A.BUF_CTL ∧ x ≠ A.BUF_DATA ∧ x ≠ A.LG_CFG := by decide
  obtain ⟨h1, h2, h3, h4⟩ := hne base hbase
  simp only [storeWord, h.sig, h.reg, h.base, h1, h2, h3, h4, if_false]

/-- What follows from it is what the bridge block and the sash units say. -/
theorem actWord_sash (h : RegRow a base i j wa plain r) (hbase : base ∈ sashBases) (s0 : State) (w : Word) (s : State) :
    actWord s0 a w s = actPower base i w (actBridge s0 base i j w s) := by
  have hlink : ∀ u, actLink s0 a base i j w u = u := fun u => by
    simp only [sashBases, List.mem_cons, List.not_mem_nil, or_false] at hbase
    have hsafe : (if inSafety a then applySafety (recode (blankChannels (noteKon u))) else u) = u :=
      if_neg (by rw [h.safe]; decide)
    rcases hbase with rfl | rfl | rfl | rfl <;> exact hsafe
  simp only [actWord, h.sig, h.reg, h.base, hlink]

/-- A clear of a leg passes check 4 where its bridge is SEALED, or it has none. -/
theorem writeOpen_legClear (h : RegRow a base i 0 false plain r) (hbase : base ∈ [A.SH_CTRL, A.IL_STATUS]) {w : Word} {s : State}
    (hrange : fieldsOk r w = true) (hfree : legFree s i = true) : writeOpen a w s = true := by
  have hothers : ∀ s', (sashOk s s' base i && (fallbackOk s' base i 0 && (tractionOk s' base i && (driverOk s' base i &&
      (measureOk s' base i && (canCfgOk s' base i w && otherOk s' base i 0)))))) = true := fun s' => by
    simp only [List.mem_cons, List.not_mem_nil, or_false] at hbase
    rcases hbase with rfl | rfl <;> rfl
  have hstate : ∀ s', stateStatus s s' base i 0 w = stDone := fun s' => by
    simp only [List.mem_cons, List.not_mem_nil, or_false] at hbase
    have hneed : ∀ ok : Bool, need (legFree s i || ok) stWrongMode = stDone := fun ok => by
      rw [hfree, Bool.true_or]
      rfl
    rcases hbase with rfl | rfl
    · exact hneed (decide (wf w R.SH_CTRL.LATCH_CLR = 0))
    · exact hneed (decide (wf w R.IL_STATUS.XCHK_TRIP = 0))
  have hranges : ∀ s', rangesOk s s' r i 0 w = true := fun s' => by
    rw [← hrange]
    simp only [rangesOk, Bool.and_assoc, h.base, hothers, Bool.and_true]
  have hcheck : ∀ s', checkWord s s' a w = stDone := fun s' => by
    simp only [checkWord, h.sig, h.reg, hranges, if_true, h.base, hstate, h.safe, need, Bool.not_false, Bool.true_or]
    rfl
  simp only [writeOpen, h.wa, hcheck, decide_true, Bool.not_false, Bool.and_self]

/-- A write-1-to-clear field whose one bit is written 1 reads 0. -/
theorem mergeWord_cleared {lo : Nat} (hx : regAt a = some (r, i, j))
    (hf : r.fields.any (fun f => f.lo == lo && f.width == 1 && f.acc == .W1C) = true) (old w : Word)
    (hw : w.toNat.testBit lo = true) : bitsOf (mergeWord r old w).toNat lo 1 = 0 := by
  obtain ⟨f, hmem, hf⟩ := List.any_eq_true.1 hf
  simp only [Bool.and_eq_true, beq_iff_eq] at hf
  obtain ⟨⟨rfl, hwidth⟩, hacc⟩ := hf
  have hmerge := foldMerge_in w r.fields old (regAt_apart hx) f hmem
  rw [hacc, hwidth] at hmerge
  rw [mergeWord_eq, hmerge]
  refine Nat.eq_of_testBit_eq fun k => ?_
  rw [testBit_bitsOf, Nat.zero_testBit, BitVec.testBit_toNat, BitVec.getLsbD_and, BitVec.getLsbD_not]
  rw [BitVec.testBit_toNat] at hw
  by_cases hk : k < 1
  · have hk0 : k = 0 := by omega
    rw [hk0, Nat.add_zero, hw]
    simp
  · simp [hk]

end

/-- A taken write of one register that leaves the host port as it is. -/
theorem writeWin_one_calm {c : Instr} {h : Hdr} {a : Nat} {w : Word} {s u : State}
    (hc : hostRow c = some (h, 0x0402, writeParams a [w])) (hr : cmdReady c s = true) (ha : winAddrOk a = true)
    (ho : writeOpen a w s = true) (heff : actWord s a w (storeWord a w s) = u) (hu : Calm s u) :
    writeWin h a [w] s = answer c stDone [] u := by
  subst heff
  have hready : ready s h 0x0402 (writeParams a [w]) = true := by simpa only [cmdReady, hc] using hr
  have h0 := ready_held s h _ _ hready
  exact writeWin_one c h a w s hc hr ha ho ((hu.held h0).trans h0.symm) hu.serving

section
variable {h : Hdr} {s u : State} {b j n : Nat} {w : Word}

/-! ### PER -/

theorem exec_perWrite : exec (.perWrite h n w) s = .next (writeWin h (A.SH_CARRIER + 0x100 * n) [w] s) := rfl

theorem Calm.applyPer (hu : Calm s u) : Calm s (applyPer n u) := by
  unfold Machine.applyPer
  split
  · exact .ite hu (.ite hu.startCarriers (hu.each fun _ _ h1 => h1.setLeg))
  · exact hu

theorem perWrite_answered (hn : n < 24) (hr : cmdReady (.perWrite h n w) s = true)
    (ho : writeOpen (A.SH_CARRIER + 0x100 * n) w s = true) :
    exec (.perWrite h n w) s = .next (answer (.perWrite h n w) stDone []
      (applyPer n (storeWord (A.SH_CARRIER + 0x100 * n) w s))) := by
  obtain ⟨r, hrow⟩ := RegRow.of (carrierRows n hn)
  have hbase : A.SH_CARRIER ∈ sashBases := by decide
  have heff : actWord s (A.SH_CARRIER + 0x100 * n) w (storeWord (A.SH_CARRIER + 0x100 * n) w s) =
      applyPer n (storeWord (A.SH_CARRIER + 0x100 * n) w s) := actWord_sash hrow hbase ..
  have hcalm : Calm s (applyPer n (storeWord (A.SH_CARRIER + 0x100 * n) w s)) := by
    rw [storeWord_sash hrow hbase]
    exact (Calm.refl s).setReg.applyPer
  rw [exec_perWrite, writeWin_one_calm (c := .perWrite h n w) rfl hr hrow.addr ho heff hcalm]

/-! ### The fall-back registers -/

/-- Registers change, and one bridge. -/
theorem OnlyRegs.setBr_rest {l : List Nat} (hu : OnlyRegs s u l) (b : Nat) (x : Bridge) :
    u.setBr b x = { s with regs := (u.setBr b x).regs, bridges := (u.setBr b x).bridges } := by
  obtain ⟨hrest, -⟩ := hu
  generalize u.regs = r at hrest
  subst hrest
  rfl

/-- Registers change, and one leg. -/
theorem OnlyRegs.setLeg_rest {l : List Nat} (hu : OnlyRegs s u l) (n : Nat) (x : Leg) :
    u.setLeg n x = { s with regs := (u.setLeg n x).regs, legs := (u.setLeg n x).legs } := by
  obtain ⟨hrest, -⟩ := hu
  generalize u.regs = r at hrest
  subst hrest
  rfl

theorem exec_fallbackWrite (k : Nat) : exec (.fallbackWrite h b k [w]) s =
    .next (writeWin h (A.FB_PER + 0x400 * b + 4 * k) [w] s) := rfl

/-- FB_PER takes its tag, and is pending (R206). -/
theorem fbWritten_per (hu : OnlyRegs s u [A.FB_PER + 0x400 * b]) :
    (fbWritten b none u).rd R.FB_PER.PER b = u.rd R.FB_PER.PER b ∧
      (fbWritten b none u).rd R.FB_PER.TAG b = (s.br b).tag % 128 ∧
      (fbWritten b none u).br b = { s.br b with fbPer := true } ∧
      fbWritten b none u = { s with regs := (fbWritten b none u).regs, bridges := (fbWritten b none u).bridges } ∧
      ∀ a, a ≠ A.FB_PER + 0x400 * b → (fbWritten b none u).reg a = s.reg a := by
  have haddr : fldAddr R.FB_PER.TAG b 0 = A.FB_PER + 0x400 * b := by
    rw [fldAddr, Nat.zero_mul, Nat.add_zero, Nat.mul_comm]
    rfl
  have ht := (hu.trans (OnlyRegs.wr u R.FB_PER.TAG b (u.br b).tag)).mono (m := [A.FB_PER + 0x400 * b]) fun a ha => by
    simpa [haddr] using ha
  rw [fbWritten]
  refine ⟨?_, ?_, ?_, ht.setBr_rest .., fun a ha => ?_⟩
  · rw [State.rd_setBr, rd_wr_apart]
  · rw [State.rd_setBr, State.rd_wr_same _ _ _ _ (by decide), hu.br]
    rfl
  · rw [State.br_setBr_same, hu.br]
  · rw [State.reg_setBr, ht.2 a (by rwa [List.mem_singleton])]

/-- The same of FB_DUTYj. -/
theorem fbWritten_duty (hu : OnlyRegs s u [A.FB_DUTY + 0x400 * b + 4 * j]) :
    (fbWritten b (some j) u).rd R.FB_DUTY.TON b j = u.rd R.FB_DUTY.TON b j ∧
      (fbWritten b (some j) u).rd R.FB_DUTY.TAG b j = (s.br b).tag % 128 ∧
      j ∈ ((fbWritten b (some j) u).br b).fbDuty ∧
      fbWritten b (some j) u =
        { s with regs := (fbWritten b (some j) u).regs, bridges := (fbWritten b (some j) u).bridges } ∧
      ∀ a, a ≠ A.FB_DUTY + 0x400 * b + 4 * j → (fbWritten b (some j) u).reg a = s.reg a := by
  have haddr : fldAddr R.FB_DUTY.TAG b j = A.FB_DUTY + 0x400 * b + 4 * j := by
    rw [fldAddr, Nat.mul_comm b, Nat.mul_comm j]
    rfl
  have ht := (hu.trans (OnlyRegs.wr2 u R.FB_DUTY.TAG b j (u.br b).tag)).mono (m := [A.FB_DUTY + 0x400 * b + 4 * j])
    fun a ha => by simpa [haddr] using ha
  rw [fbWritten]
  refine ⟨?_, ?_, ?_, ht.setBr_rest .., fun a ha => ?_⟩
  · rw [State.rd_setBr, State.rd_wr2_bits _ _ _ _ _ _ _ _ (by decide) (by decide)]
  · rw [State.rd_setBr, State.rd_wr2_same _ _ _ _ _ (by decide), hu.br]
    rfl
  · rw [State.br_setBr_same]
    dsimp only
    split
    · assumption
    · exact List.mem_append_right _ (List.mem_singleton_self j)
  · rw [State.reg_setBr, ht.2 a (by rwa [List.mem_singleton])]

theorem fallbackPer_answered (hb : b < 4) (hr : cmdReady (.fallbackWrite h b 0 [w]) s = true)
    (ho : writeOpen (A.FB_PER + 0x400 * b) w s = true) : ∃ u,
      exec (.fallbackWrite h b 0 [w]) s = .next (answer (.fallbackWrite h b 0 [w]) stDone [] (fbWritten b none u)) ∧
      OnlyRegs s u [A.FB_PER + 0x400 * b] ∧ u.rd R.FB_PER.PER b = fldOf R.FB_PER.PER w := by
  obtain ⟨hrow, hfield⟩ := fallbackPerRows b hb
  obtain ⟨r, hrow⟩ := RegRow.of hrow
  simp only [hrow.reg, Option.map_some, Option.some.injEq] at hfield
  have hbase : A.FB_PER ∈ sashBases := by decide
  have hstore := storeWord_sash hrow hbase w s
  have heff : actWord s (A.FB_PER + 0x400 * b) w (storeWord (A.FB_PER + 0x400 * b) w s) =
      fbWritten b none (s.setReg (A.FB_PER + 0x400 * b) (mergeWord r (s.reg (A.FB_PER + 0x400 * b)) w)) := by
    rw [hstore]
    exact actWord_sash hrow hbase ..
  have haddr : fldAddr R.FB_PER.PER b 0 = A.FB_PER + 0x400 * b := by
    rw [fldAddr, Nat.zero_mul, Nat.add_zero, Nat.mul_comm]
    rfl
  refine ⟨_, congrArg Host.Outcome.next (writeWin_one_calm (c := .fallbackWrite h b 0 [w]) rfl hr hrow.addr ho heff
    (Calm.refl s).setReg.wr.setBr), OnlyRegs.setReg .., ?_⟩
  rw [State.rd_eq, haddr, State.reg_setReg_same]
  exact mergeWord_field hrow.reg hfield _ w

theorem fallbackDuty_answered (hb : b < 4) (hj : j < 12) (hr : cmdReady (.fallbackWrite h b (1 + j) [w]) s = true)
    (ho : writeOpen (A.FB_DUTY + 0x400 * b + 4 * j) w s = true) : ∃ u,
      exec (.fallbackWrite h b (1 + j) [w]) s =
        .next (answer (.fallbackWrite h b (1 + j) [w]) stDone [] (fbWritten b (some j) u)) ∧
      OnlyRegs s u [A.FB_DUTY + 0x400 * b + 4 * j] ∧ u.rd R.FB_DUTY.TON b j = fldOf R.FB_DUTY.TON w := by
  obtain ⟨hrow, hfield⟩ := fallbackDutyRows b hb j hj
  obtain ⟨r, hrow⟩ := RegRow.of hrow
  simp only [hrow.reg, Option.map_some, Option.some.injEq] at hfield
  have hbase : A.FB_DUTY ∈ sashBases := by decide
  have hstore := storeWord_sash hrow hbase w s
  have heff : actWord s (A.FB_DUTY + 0x400 * b + 4 * j) w (storeWord (A.FB_DUTY + 0x400 * b + 4 * j) w s) =
      fbWritten b (some j)
        (s.setReg (A.FB_DUTY + 0x400 * b + 4 * j) (mergeWord r (s.reg (A.FB_DUTY + 0x400 * b + 4 * j)) w)) := by
    rw [hstore]
    exact actWord_sash hrow hbase ..
  have hplace : A.FB_PER + 0x400 * b + 4 * (1 + j) = A.FB_DUTY + 0x400 * b + 4 * j := by
    unfold A.FB_PER A.FB_DUTY
    omega
  have haddr : fldAddr R.FB_DUTY.TON b j = A.FB_DUTY + 0x400 * b + 4 * j := by
    rw [fldAddr, Nat.mul_comm b, Nat.mul_comm j]
    rfl
  have hhost : hostRow (.fallbackWrite h b (1 + j) [w]) =
      some (h, 0x0402, writeParams (A.FB_DUTY + 0x400 * b + 4 * j) [w]) := by
    rw [← hplace]
    rfl
  refine ⟨s.setReg (A.FB_DUTY + 0x400 * b + 4 * j) (mergeWord r (s.reg (A.FB_DUTY + 0x400 * b + 4 * j)) w), ?_,
    OnlyRegs.setReg .., ?_⟩
  · rw [exec_fallbackWrite, hplace]
    exact congrArg Host.Outcome.next (writeWin_one_calm hhost hr hrow.addr ho heff (Calm.refl s).setReg.wr2.setBr)
  · rw [State.rd_eq, haddr, State.reg_setReg_same]
    exact mergeWord_field hrow.reg hfield _ w

/-! ### LATCH_CLR -/

theorem exec_latchClr : exec (.latchClr h n) s = .next (writeWin h (A.SH_CTRL + 0x100 * n) [1] s) := rfl

/-- The address of a field of a leg's register. -/
theorem fldAddr_leg (f : Fld) (n : Nat) (hf : f.stride = 0x100 := by rfl) : fldAddr f n 0 = f.base + 0x100 * n := by
  rw [fldAddr, hf, Nat.zero_mul, Nat.add_zero, Nat.mul_comm]

/-- The window of leg `n` empties: SH_TRIPS and SH_STATUS alone change, and the slots of the leg (R214). -/
theorem clearLatchOff_only (n : Nat) (u : State) : ∃ t, clearLatchOff n u = t.setLeg n { u.leg n with slots := [] } ∧
    OnlyRegs u t [A.SH_STATUS + 0x100 * n, A.SH_TRIPS + 0x100 * n] := by
  refine ⟨_, rfl, ?_⟩
  refine (((OnlyRegs.wr u R.SH_TRIPS.TRIP_EXP n _).trans (OnlyRegs.clear _ R.SH_STATUS.LATCH_OFF n)).trans
    (OnlyRegs.clear _ R.SH_STATUS.WIN_SUM n)).mono fun a ha => ?_
  rw [fldAddr_leg R.SH_TRIPS.TRIP_EXP, fldAddr_leg R.SH_STATUS.LATCH_OFF, fldAddr_leg R.SH_STATUS.WIN_SUM] at ha
  simp only [List.mem_append, List.mem_cons, List.not_mem_nil, or_false] at ha ⊢
  exact ha.elim (fun ha => ha.elim .inr .inl) .inl

/-- LATCH_OFF clears, and the trips of the window count as expired (R213, R214). -/
theorem clearLatchOff_counts (n : Nat) (u : State) : (clearLatchOff n u).rd R.SH_STATUS.LATCH_OFF n = 0 ∧
    (clearLatchOff n u).rd R.SH_STATUS.WIN_SUM n = 0 ∧ (clearLatchOff n u).rd R.SH_TRIPS.TRIP_EXP n =
      (u.rd R.SH_TRIPS.TRIP_EXP n + u.rd R.SH_STATUS.WIN_SUM n) % 2 ^ R.SH_TRIPS.TRIP_EXP.width := by
  refine ⟨?_, ?_, ?_⟩
  · rw [clearLatchOff, State.rd_setLeg, State.clear_eq, State.clear_eq, rd_wr_apart, State.rd_wr_same _ _ _ _ (by decide),
      Nat.zero_mod]
  · rw [clearLatchOff, State.rd_setLeg, State.clear_eq, State.rd_wr_same _ _ _ _ (by decide), Nat.zero_mod]
  · rw [clearLatchOff, State.rd_setLeg, State.clear_eq, State.clear_eq, rd_wr_apart, rd_wr_apart,
      State.rd_wr_same _ _ _ _ (by decide)]

/-- A write of 1 to LATCH_CLR stores nothing, and the latch clears. -/
theorem latchClr_answered (hn : n < 24) (hr : cmdReady (.latchClr h n) s = true) (hf : legFree s n = true) :
    ∃ u, OnlyRegs s u [] ∧ exec (.latchClr h n) s = .next (answer (.latchClr h n) stDone [] (clearLatchOff n u)) := by
  obtain ⟨hrow, hfields⟩ := latchRows n hn
  obtain ⟨r, hrow⟩ := RegRow.of hrow
  simp only [hrow.reg, Option.map_some, Option.some.injEq, Prod.mk.injEq] at hfields
  obtain ⟨hrange, hstart⟩ := hfields
  have hbase : A.SH_CTRL ∈ sashBases := by decide
  have hstore := storeWord_sash hrow hbase 1 s
  rw [mergeWord_eq, foldMerge_start 1 _ hstart] at hstore
  have heff : actWord s (A.SH_CTRL + 0x100 * n) 1 (storeWord (A.SH_CTRL + 0x100 * n) 1 s) =
      clearLatchOff n (s.setReg (A.SH_CTRL + 0x100 * n) (s.reg (A.SH_CTRL + 0x100 * n))) := by
    rw [hstore]
    exact actWord_sash hrow hbase ..
  refine ⟨_, ⟨rfl, fun a _ => ?_⟩, congrArg Host.Outcome.next (writeWin_one_calm (c := .latchClr h n) rfl hr hrow.addr
    (writeOpen_legClear hrow (by decide) hrange hf) heff
    (Calm.refl s).setReg.wr.wr.wr.setLeg)⟩
  by_cases ha : a = A.SH_CTRL + 0x100 * n
  · rw [ha, State.reg_setReg_same]
  · exact State.reg_setReg_ne s _ _ ha

/-! ### XCHK_TRIP -/

theorem xchkTripClear_answered (hn : n < 24) (hr : cmdReady (.xchkTripClear h n) s = true) (hf : legFree s n = true) :
    ∃ t, exec (.xchkTripClear h n) s = .next (answer (.xchkTripClear h n) stDone [] t) ∧
      t.rd R.IL_STATUS.XCHK_TRIP n = 0 ∧ OnlyRegs s t [A.IL_STATUS + 0x10 * n] := by
  obtain ⟨hrow, hfields⟩ := interlockRows n hn
  obtain ⟨r, hrow⟩ := RegRow.of hrow
  simp only [hrow.reg, Option.map_some, Option.some.injEq, Prod.mk.injEq] at hfields
  obtain ⟨hrange, hbit⟩ := hfields
  have hstore := storeWord_plain (A.IL_STATUS + 0x10 * n) 0x40000000 s hrow.plain r n 0 hrow.reg
  have heff : actWord s (A.IL_STATUS + 0x10 * n) 0x40000000 (storeWord (A.IL_STATUS + 0x10 * n) 0x40000000 s) =
      s.setReg (A.IL_STATUS + 0x10 * n) (mergeWord r (s.reg (A.IL_STATUS + 0x10 * n)) 0x40000000) := by
    rw [actWord_plain _ _ _ _ hrow.plain, hstore]
  have haddr : fldAddr R.IL_STATUS.XCHK_TRIP n 0 = A.IL_STATUS + 0x10 * n := by
    rw [fldAddr, Nat.zero_mul, Nat.add_zero, Nat.mul_comm]
    rfl
  refine ⟨_, congrArg Host.Outcome.next (writeWin_one_calm (c := .xchkTripClear h n) rfl hr hrow.addr
    (writeOpen_legClear hrow (by decide) hrange hf) heff (Calm.refl s).setReg), ?_, OnlyRegs.setReg ..⟩
  rw [State.rd_eq, haddr, State.reg_setReg_same]
  exact mergeWord_cleared hrow.reg hbit _ _ (by decide)

end

/-- Settles O20: each write stores its word, and its block says what follows. -/
theorem sashRegisterCommands : Obligations.SashRegisterCommands := by
  intro h s
  refine ⟨fun n w hn hr ho => perWrite_answered hn hr ho, fun b w hb hr ho => ?_, fun b j w hb hj hr ho => ?_,
    fun n hn hr hf => ?_, fun n hn hr hf => xchkTripClear_answered hn hr hf⟩
  · obtain ⟨u, hexec, hu, hper⟩ := fallbackPer_answered hb hr ho
    obtain ⟨hkept, htag, hpending, hrest, hreg⟩ := fbWritten_per hu
    exact ⟨_, hexec, hkept.trans hper, htag, hpending, hrest, hreg⟩
  · obtain ⟨u, hexec, hu, hton⟩ := fallbackDuty_answered hb hj hr ho
    obtain ⟨hkept, htag, hpending, hrest, hreg⟩ := fbWritten_duty hu
    exact ⟨_, hexec, hkept.trans hton, htag, hpending, hrest, hreg⟩
  · obtain ⟨u, hu, hexec⟩ := latchClr_answered hn hr hf
    obtain ⟨hoff, hsum, hexp⟩ := clearLatchOff_counts n u
    obtain ⟨t, ht, honly⟩ := clearLatchOff_only n u
    have hleg : u.leg n = s.leg n := by rw [hu.1]; rfl
    rw [hu.nil_rd, hu.nil_rd] at hexp
    refine ⟨_, hexec, hoff, hsum, hexp, ?_, ?_, fun a ha => ?_⟩
    · rw [ht, State.leg_setLeg_same, hleg]
    · rw [ht]
      exact (hu.trans honly).setLeg_rest ..
    · rw [ht, State.reg_setLeg, honly.2 a fun hm => ha (List.mem_cons_of_mem _ hm), hu.2 a List.not_mem_nil]

end Sys2Proof.Machine
end
section
/-! SUPPORT. O45: no operation that a seal is made of moves the pass-through inputs. One lemma for each operation, in the order of
the model. -/

namespace Sys2Proof.Machine

open Sys2Proof

/-- The levels at PTH0 to PTH7 stay. -/
structure PthKept (s t : State) : Prop where
  pth : t.pth = s.pth

namespace PthKept

variable {s t u : State}

protected theorem refl (s : State) : PthKept s s := ⟨rfl⟩

protected theorem ite {c : Prop} [Decidable c] (ht : PthKept s t) (hu : PthKept s u) : PthKept s (if c then t else u) := by
  split
  · exact ht
  · exact hu

protected theorem each {α : Type} {f : State → α → State} {l : List α} (h : PthKept s t)
    (hf : ∀ v x, PthKept s v → PthKept s (f v x)) : PthKept s (t.each l f) := State.each_ind _ f hf l t h

section
variable {pending : List Instr} {now : Nat} {regs board : List (Nat × Word)} {aged : List (Nat × Nat)} {host : HostPort} {sec : Sec}
  {graphs : GraphStore} {bridges : List (Nat × Bridge)} {legs : List (Nat × Leg)} {dies : List (Nat × Die)}
  {convs : List (Nat × Conv)} {pairs : List (Nat × Pair)} {cal : Cal} {encs : List (Nat × Enc)} {pulses : List (Nat × Pulse)}
  {canopy : Canopy} {ledger : Ledger} {capture : Capture} {log : EvLog} {clk : Clk} {bg : Background} {rst : ResetCtl}
  {sill : Sill} {cans : List (Nat × CanCtl)} {latched : List (Nat × Word)} {freeCtr : Nat}

/-- An update of other parts of the state. -/
theorem same (h : PthKept s t) : PthKept s ⟨pending, now, regs, board, aged, host, sec, graphs, bridges, legs, dies, convs, pairs,
    cal, encs, pulses, t.pth, canopy, ledger, capture, log, clk, bg, rst, sill, cans, latched, freeCtr⟩ := ⟨h.pth⟩

end

protected theorem wr {f : Fld} {i v : Nat} (h : PthKept s t) : PthKept s (t.wr f i v) := h.same
protected theorem raise {f : Fld} {i : Nat} (h : PthKept s t) : PthKept s (t.raise f i) := h.wr
protected theorem clear {f : Fld} {i : Nat} (h : PthKept s t) : PthKept s (t.clear f i) := h.wr
protected theorem countUp {f : Fld} {i n : Nat} (h : PthKept s t) : PthKept s (t.countUp f i n) := h.wr
protected theorem raiseBit {f : Fld} {k i : Nat} (h : PthKept s t) : PthKept s (t.raiseBit f k i) := h.wr
protected theorem clearBit {f : Fld} {k i : Nat} (h : PthKept s t) : PthKept s (t.clearBit f k i) := h.wr
protected theorem setBr {b : Nat} {v : Bridge} (h : PthKept s t) : PthKept s (t.setBr b v) := h.same
protected theorem setLeg {n : Nat} {v : Leg} (h : PthKept s t) : PthKept s (t.setLeg n v) := h.same
protected theorem setDie {k : Nat} {v : Die} (h : PthKept s t) : PthKept s (t.setDie k v) := h.same
protected theorem setEntry {k : Nat} {v : Entry} (h : PthKept s t) : PthKept s (t.setEntry k v) := h.same
protected theorem setUnit {k : Nat} {v : Unit_} (h : PthKept s t) : PthKept s (t.setUnit k v) := h.same
protected theorem setTransport {can : Bool} {x : Transport} (h : PthKept s t) : PthKept s (t.setTransport can x) := h.same

/-! ### The host port, the log and the ledger -/

protected theorem endRun {op obj result : Nat} (h : PthKept s t) : PthKept s (endRun op obj result t) := by
  unfold Machine.endRun
  split
  · exact h
  · exact h.same.wr.wr.wr.raise

protected theorem sendHeld {r : Held} {reply : List Byte} (h : PthKept s t) : PthKept s (sendHeld r reply t) :=
  h.same.setTransport.setTransport.setTransport

protected theorem expireHeld (h : PthKept s t) : PthKept s (expireHeld t) := by
  unfold Machine.expireHeld
  split
  · exact .ite h.sendHeld.wr.wr.wr h
  · exact h

protected theorem swapSettled {b : Nat} (h : PthKept s t) : PthKept s (swapSettled b t) := by
  unfold Machine.swapSettled
  extract_lets u1
  have h1 : PthKept s u1 := h.expireHeld
  refine .ite ?_ h1
  split
  · exact h1.sendHeld
  · exact h1.same

protected theorem logEvent {code obj : Nat} {data : List Byte} (h : PthKept s t) : PthKept s (logEvent code obj data t) :=
  .ite h.same.same.countUp.raise (.ite h.same.same h.same.same.same.same)

protected theorem pullBlock {g : Graph} {states : List (List Nat)} {i : Nat} (h : PthKept s t) :
    PthKept s (pullBlock g states i t) := .ite h.setEntry (.ite h.setEntry h)

protected theorem pullBridge {b : Nat} (h : PthKept s t) : PthKept s (pullBridge b t) := by
  unfold Machine.pullBridge
  split
  · exact h
  · exact ((h.each fun _ _ h1 => h1.pullBlock).each fun _ _ h1 => h1.setEntry).setBr.each fun _ _ h1 => h1.setEntry

/-! ### Canopy -/

protected theorem showPlacement {b : Nat} (h : PthKept s t) : PthKept s (showPlacement b t) := by
  unfold Machine.showPlacement
  split
  · exact h
  · exact (h.each fun _ _ h1 => h1.wr.wr.wr).wr.wr.wr.wr

protected theorem idleEngine {e : Nat} (h : PthKept s t) : PthKept s (idleEngine e t) := h.wr.wr.wr.wr.wr

protected theorem failEngine {e cause : Nat} (h : PthKept s t) : PthKept s (failEngine e cause t) :=
  h.idleEngine.wr.wr.clearBit.raise.logEvent

protected theorem makeFallow {e : Nat} (h : PthKept s t) : PthKept s (makeFallow e t) := h.idleEngine.wr.wr.clear

protected theorem squeezeBridge {b : Nat} (h : PthKept s t) (hu : squeezeBridge b t = some u) : PthKept s u := by
  unfold Machine.squeezeBridge at hu
  split at hu
  · cases hu
  · dsimp only at hu
    split at hu
    · cases hu
    · split at hu
      · cases hu
        exact h.setBr.showPlacement
      · cases hu

protected theorem recoverFallow (h : PthKept s t) : PthKept s (recoverFallow t) := by
  unfold Machine.recoverFallow
  split
  · exact h.makeFallow
  · cases hu : (List.range 4).findSome? (fun b => squeezeBridge b t) with
    | none => exact .ite h h.raise.raise
    | some u =>
      obtain ⟨b, -, hs⟩ := List.exists_of_findSome?_eq_some hu
      exact .ite (h.squeezeBridge hs) (h.squeezeBridge hs).raise.raise

protected theorem rotate (h : PthKept s t) : PthKept s (rotate t) := by
  unfold Machine.rotate
  extract_lets _ _ u1
  have h1 : PthKept s u1 := h.same
  split
  · exact h1
  · refine .ite h1.wr.makeFallow ?_
    extract_lets b
    split
    · exact h1
    · exact .ite h h1.wr.wr.setBr.showPlacement

protected theorem freeEngines {b : Nat} (h : PthKept s t) : PthKept s (freeEngines b t) := by
  unfold Machine.freeEngines
  split
  · exact h
  · extract_lets u1 _ u2 u3
    have h1 : PthKept s u1 := by
      refine h.each fun _ _ h2 => .ite h2.idleEngine.wr ?_
      split
      · exact h2.failEngine
      · exact h2.idleEngine
    have h3 : PthKept s u3 := h1.setBr.wr.wr.wr.wr
    have h4 : PthKept s (if u3.flag R.CN_STATUS.NO_FALLOW then recoverFallow u3 else u3) := .ite h3.recoverFallow h3
    exact .ite h4.rotate h4

protected theorem endHold (h : PthKept s t) : PthKept s (endHold t) := .ite h.same.clear h

/-! ### Triggers -/

protected theorem sendTrigSymbol {own : Bool} {o : OutSym} (h : PthKept s t) : PthKept s (sendTrigSymbol own o t) := by
  unfold Machine.sendTrigSymbol
  split
  · exact h.countUp
  · extract_lets _ _ _ _ _ _ _ u1
    have h1 : PthKept s u1 := .ite h.countUp h
    exact h1.same.same

protected theorem sendTrigger {us : List Nat} {f : Fire} (h : PthKept s t) : PthKept s (sendTrigger us f t) :=
  .ite (.ite h.sendTrigSymbol h) h

protected theorem fillGroup {us : List Nat} {noPane : Bool} {from_ : Nat → Nat} (h : PthKept s t) :
    PthKept s (fillGroup us noPane from_ t) := by
  unfold Machine.fillGroup
  split
  · exact h
  · refine .ite (.each ?_ fun _ _ h1 => h1.setUnit.wr) ?_ <;> exact h.same.each fun _ _ h1 => h1.setUnit.wr.wr

protected theorem recordFull {n : Nat} (h : PthKept s t) : PthKept s (recordFull n t) := by
  unfold Machine.recordFull
  extract_lets _ _ _ u1
  have h1 : PthKept s u1 := h.same.setUnit.raise.setUnit
  exact .ite (.ite (.ite h1.fillGroup (h1.each fun _ _ h2 => h2.setUnit.wr.raise)) h1) h1.setUnit.wr

protected theorem fullCheck {n : Nat} (h : PthKept s t) : PthKept s (fullCheck n t) := by
  unfold Machine.fullCheck
  refine .ite ?_ h
  split
  · split
    · exact .ite h.recordFull h
    · exact h
  · exact h

protected theorem countIgnored {us : List Nat} (h : PthKept s t) : PthKept s (countIgnored us t) :=
  h.each fun _ _ h1 => .ite h1 h1.setUnit.countUp

protected theorem fireGroup {us : List Nat} {f : Fire} (h : PthKept s t) : PthKept s (fireGroup us f t) := by
  unfold Machine.fireGroup
  extract_lets u1 _ u2
  have h1 : PthKept s u1 := h.each fun _ _ h2 => h2.setUnit.wr.raise
  have h2 : PthKept s u2 := .ite h1.same h1
  exact h2.each fun _ _ h3 => h3.fullCheck

protected theorem triggerGroup {us on_ : List Nat} {f : Fire} (h : PthKept s t) : PthKept s (triggerGroup us on_ f t) := by
  unfold Machine.triggerGroup
  dsimp only
  refine .ite ?_ (.ite (h.each fun _ _ h1 => h1.setUnit) h.countIgnored)
  split
  · exact .ite h.same (.ite (.ite h.same.countIgnored.fireGroup h.same.countIgnored.same) h.countIgnored)
  · exact .ite h.fireGroup h.same

protected theorem triggerSource {source t' : Nat} (h : PthKept s t) : PthKept s (triggerSource source t' t) := by
  unfold Machine.triggerSource Machine.triggerUnits
  extract_lets _ u1
  have h1 : PthKept s u1 := h.each fun _ _ h2 => h2.triggerGroup
  exact .ite h1 (.triggerGroup (.ite h1.sendTrigger h1))

/-! ### Legs -/

protected theorem crossTrip {n : Nat} (h : PthKept s t) : PthKept s (crossTrip n t) := .ite h.setLeg.raise.countUp h

protected theorem gateOff {k : Nat} (h : PthKept s t) : PthKept s (gateOff k t) :=
  .ite h (.ite h.setDie (.ite h.crossTrip.clear.clear.setDie h.clear))

protected theorem legOff {n : Nat} (h : PthKept s t) : PthKept s (legOff n t) := h.gateOff.gateOff

protected theorem legBlock {n : Nat} (h : PthKept s t) : PthKept s (legBlock n t) :=
  h.clear.clear.setLeg.legOff.setDie.setDie

protected theorem closeShutter {b : Nat} (h : PthKept s t) : PthKept s (closeShutter b t) :=
  h.setBr.setBr.each fun _ _ h1 => h1.legBlock

protected theorem interlock {n : Nat} (h : PthKept s t) : PthKept s (interlock n t) := by
  unfold Machine.interlock
  split
  · exact h
  · exact .ite (.ite h h.raise.countUp.setLeg.legOff) (.ite h.clear.setLeg (.ite h h.setLeg))

protected theorem interlocks (h : PthKept s t) : PthKept s (interlocks t) := h.each fun _ _ h1 => h1.interlock

protected theorem ptLowEnds {old : State} (h : PthKept s t) : PthKept s (ptLowEnds old t) := h.each fun _ _ h1 => .ite h1.setLeg h1

/-! ### The seal -/

protected theorem opClock {b : Nat} {on_ : Bool} (h : PthKept s t) : PthKept s (opClock b on_ t) := by
  unfold Machine.opClock
  extract_lets
  split
  · exact .ite h h.setBr
  · exact .ite h.setBr h

protected theorem refuseBeat {b : Nat} (h : PthKept s t) : PthKept s (refuseBeat b t) := by
  unfold Machine.refuseBeat
  split
  · exact h.setBr
  · exact h

protected theorem changeMode {b mode step : Nat} (h : PthKept s t) : PthKept s (changeMode b mode step t) :=
  (h.wr.wr.raiseBit.setBr.each fun _ _ h1 => h1.same).opClock.logEvent

protected theorem sealRelease {b : Nat} {how : SealHow} (h : PthKept s t) : PthKept s (sealRelease b how t) := by
  have h0 : PthKept s (if how.auto then refuseBeat b t else t) := .ite h.refuseBeat h
  exact (PthKept.ite h0.pullBridge h0).closeShutter.swapSettled.swapSettled.freeEngines

protected theorem sealClear {ls : List Nat} {b : Nat} (h : PthKept s t) : PthKept s (sealClear ls b t) :=
  (h.each fun _ _ h1 => h1.setLeg.clear.clear.clear.clear.clear.clear.clear).clear
    |>.clear.clear.clear.clear.clear.clear.clear.clear.clear.clear.clear.setBr

protected theorem sealRecord {b : Nat} {how : SealHow} (h : PthKept s t) : PthKept s (sealRecord b how t) := by
  unfold Machine.sealRecord
  extract_lets u6 u7
  have h6 : PthKept s u6 := h.changeMode.wr.countUp
  have h7 : PthKept s u7 := .ite h6.raise h6
  exact .ite h7.raiseBit h7

protected theorem sealTell {b : Nat} {how : SealHow} (h : PthKept s t) : PthKept s (sealTell b how t) := by
  unfold Machine.sealTell
  extract_lets u9 u11
  have h9 : PthKept s u9 := h.endRun.logEvent
  have h10 : PthKept s (if heldBridge u9 b then endHold u9 else u9) := .ite h9.endHold h9
  have h11 : PthKept s u11 := .ite h10.same.same.logEvent h10
  exact h11.wr.wr.wr.wr.triggerSource

protected theorem sealBridge {b : Nat} {how : SealHow} (h : PthKept s t) : PthKept s (sealBridge b how t) := by
  by_cases hm : modeOf t b = 0
  · rwa [sealBridge_sealed how hm]
  · rw [sealBridge_eq how hm]
    exact h.sealRelease.sealClear.sealRecord.sealTell

protected theorem crossCheck {n : Nat} (h : PthKept s t) : PthKept s (crossCheck n t) := by
  unfold Machine.crossCheck
  refine .ite ?_ h
  split
  · exact h.crossTrip.sealBridge
  · exact h

end PthKept

end Sys2Proof.Machine
end
section
/-! SUPPORT. O45: what the interlock of one leg decides (R224, R225), and what it leaves to the other legs. -/

namespace Sys2Proof.Machine

open Sys2Proof

variable {s t u : State} {k m n : Nat} {hi lo : Bool}

/-! ### A gate that goes off -/

/-- A field that no copy of what a gate's fall writes shares a bit with. -/
def gateApart (f : Fld) : Bool :=
  [R.DRV_STATUS.GATE, R.DRV_STATUS.OC_ACT, R.IL_STATUS.XCHK_TRIP, R.IL_COUNT.XCHK_CNT].all (fun g => apartFld f g)

theorem rd_wr_gateApart {f g : Fld} {i j v : Nat} (hf : gateApart f = true)
    (hg : g ∈ [R.DRV_STATUS.GATE, R.DRV_STATUS.OC_ACT, R.IL_STATUS.XCHK_TRIP, R.IL_COUNT.XCHK_CNT]) :
    (s.wr g j v).rd f i = s.rd f i := rd_wr_apart s i 0 j v (List.all_eq_true.1 hf g hg)

theorem crossTrip_rd {f : Fld} {i : Nat} (hf : gateApart f = true) : (crossTrip n s).rd f i = s.rd f i := by
  unfold crossTrip
  split
  · rw [State.countUp_eq, rd_wr_gateApart hf (by decide), State.raise_eq, rd_wr_gateApart hf (by decide), State.rd_setLeg]
  · rfl

theorem gateFell_rd {f : Fld} {i : Nat} (hf : gateApart f = true) : (gateFell k s).rd f i = s.rd f i := by
  unfold gateFell
  split
  · rw [State.rd_setDie, State.clear_eq, rd_wr_gateApart hf (by decide), State.clear_eq, rd_wr_gateApart hf (by decide),
      crossTrip_rd hf]
  · rw [State.clear_eq, rd_wr_gateApart hf (by decide)]

theorem legOff_rd {f : Fld} {i : Nat} (hf : gateApart f = true) : (legOff n s).rd f i = s.rd f i := by
  have hone : ∀ (k : Nat) (v : State), (gateOff k v).rd f i = v.rd f i := fun k v => by
    unfold gateOff softTurnOff
    split
    · rfl
    · split
      · rfl
      · exact gateFell_rd hf
  rw [legOff, hone, hone]

theorem gateFell_leg (hk : m ≠ k / 2) : (gateFell k s).leg m = s.leg m := by
  have htrip : (crossTrip (k / 2) s).leg m = s.leg m := by
    unfold crossTrip
    split
    · rw [State.countUp_eq, State.leg_wr, State.raise_eq, State.leg_wr, State.leg_setLeg_ne _ _ _ hk]
    · rfl
  unfold gateFell
  split
  · rw [State.leg_setDie, State.clear_eq, State.leg_wr, State.clear_eq, State.leg_wr, htrip]
  · rw [State.clear_eq, State.leg_wr]

theorem legOff_leg (hn : m ≠ n) : (legOff n s).leg m = s.leg m := by
  have hone : ∀ (k : Nat) (v : State), k / 2 = n → (gateOff k v).leg m = v.leg m := fun k v hk => by
    unfold gateOff softTurnOff
    split
    · rfl
    · split
      · rfl
      · exact gateFell_leg (hk ▸ hn)
  rw [legOff, hone _ _ (by omega), hone _ _ (by omega)]

/-! ### The pass-through commands -/

/-- The fields that say what the interlock of a leg judges and what it has decided. -/
def ilFlds : List Fld := [R.IL_CFG.PT_EN, R.IL_CFG.PT_SEL, R.IL_STATUS.CONFLICT, R.IL_COUNT.CONFLICTS]

/-- The commands of leg `n`, what its interlock shows of them and the leg itself stay. -/
structure LegKept (n : Nat) (s t : State) : Prop where
  frame : Frame s t
  pth : t.pth = s.pth
  il : ∀ f ∈ ilFlds, t.rd f n = s.rd f n
  leg : t.leg n = s.leg n

theorem LegKept.refl (n : Nat) (s : State) : LegKept n s s := ⟨Frame.refl s, rfl, fun _ _ => rfl, rfl⟩

theorem LegKept.trans (h1 : LegKept n s t) (h2 : LegKept n t u) : LegKept n s u :=
  ⟨h1.frame.trans h2.frame, h2.pth.trans h1.pth, fun f hf => (h2.il f hf).trans (h1.il f hf), h2.leg.trans h1.leg⟩

theorem LegKept.setLeg {v : Leg} (h : LegKept n s t) (hn : n ≠ m) : LegKept n s (t.setLeg m v) :=
  ⟨h.frame.setLeg, h.pth, h.il, (State.leg_setLeg_ne _ _ _ hn).trans h.leg⟩

theorem LegKept.legOff (h : LegKept n s t) (hn : n ≠ m) : LegKept n s (legOff m t) :=
  ⟨h.frame.legOff, (PthKept.refl t).legOff.pth.trans h.pth,
    fun f hf => (legOff_rd ((by decide : ∀ f ∈ ilFlds, gateApart f = true) f hf)).trans (h.il f hf), (legOff_leg hn).trans h.leg⟩

/-- Another leg shows its conflict, or counts it. -/
theorem LegKept.wr {g : Fld} {v : Nat} (h : LegKept n s t) (hn : n ≠ m)
    (hg : g ∈ [R.IL_STATUS.CONFLICT, R.IL_COUNT.CONFLICTS] := by decide) : LegKept n s (t.wr g m v) := by
  have hapart : ∀ f ∈ ilFlds, ∀ g ∈ [R.IL_STATUS.CONFLICT, R.IL_COUNT.CONFLICTS],
      apartFld f g = true ∨ (f.base, f.stride) = (g.base, g.stride) ∧ 0 < g.stride := by decide
  have houter : ∀ g ∈ [R.IL_STATUS.CONFLICT, R.IL_COUNT.CONFLICTS], outerFld g = true := by decide
  refine ⟨h.frame.wr (houter g hg), h.pth, fun f hf => .trans ?_ (h.il f hf), h.leg⟩
  exact (hapart f hf g hg).elim (fun ha => rd_wr_apart _ _ _ _ _ ha) (fun hi => rd_wr_instance _ _ hn hi)

/-- The pass-through commands of a leg rest on its bridge, on the mode of that bridge, on IL_CFG and on the inputs. -/
theorem ptCommands_congr (hf : Frame s t) (hpth : t.pth = s.pth) (hen : t.rd R.IL_CFG.PT_EN n = s.rd R.IL_CFG.PT_EN n)
    (hsel : t.rd R.IL_CFG.PT_SEL n = s.rd R.IL_CFG.PT_SEL n) : ptCommands t n = ptCommands s n := by
  unfold ptCommands
  rw [hf.bridgeOfLeg]
  cases hb : bridgeOfLeg s n with
  | none => rfl
  | some b =>
    have hmode : modeOf t b = modeOf s b := hf.modes.rd (bridgeOfLeg_lt hb)
    simp only [hmode, State.flag_eq, hen, hsel, hpth]

theorem LegKept.commands (h : LegKept n s t) : ptCommands t n = ptCommands s n :=
  ptCommands_congr h.frame h.pth (h.il _ (by decide)) (h.il _ (by decide))

/-- Whether a leg is in pass-through does not rest on the inputs. -/
theorem ptCommands_pth (s : State) (p n : Nat) : (ptCommands { s with pth := p } n).isSome = (ptCommands s n).isSome := by
  have hb : bridgeOfLeg { s with pth := p } n = bridgeOfLeg s n := rfl
  unfold ptCommands
  rw [hb]
  cases bridgeOfLeg s n with
  | none => rfl
  | some b =>
    have hc : (modeOf { s with pth := p } b = 1 ∧ State.flag { s with pth := p } R.IL_CFG.PT_EN n = true) ↔
        (modeOf s b = 1 ∧ s.flag R.IL_CFG.PT_EN n = true) := Iff.rfl
    simp only [hc]
    split <;> rfl

/-! ### One interlock -/

theorem interlock_none (h : ptCommands s n = none) : interlock n s = s := by unfold interlock; rw [h]

theorem interlock_some (h : ptCommands s n = some (hi, lo)) : interlock n s =
    if hi && lo then
      if s.flag R.IL_STATUS.CONFLICT n then s
      else legOff n (((s.raise R.IL_STATUS.CONFLICT n).countUp R.IL_COUNT.CONFLICTS n).setLeg n { s.leg n with wait := none })
    else if s.flag R.IL_STATUS.CONFLICT n then
      (s.clear R.IL_STATUS.CONFLICT n).setLeg n { s.leg n with wait := if hi || lo then some s.now else none }
    else if hi || lo then s
    else s.setLeg n { s.leg n with wait := none } := by
  unfold interlock
  rw [h]

theorem conflict_of_flag {b : Bool} (h : s.flag R.IL_STATUS.CONFLICT n = b) : s.rd R.IL_STATUS.CONFLICT n = b2n b := by
  have hlt : s.rd R.IL_STATUS.CONFLICT n < 2 := State.rd_lt s _ _ _
  subst h
  rw [State.flag_eq]
  interval_cases s.rd R.IL_STATUS.CONFLICT n <;> rfl

theorem interlock_conflict (h : ptCommands s n = some (hi, lo)) :
    (interlock n s).rd R.IL_STATUS.CONFLICT n = b2n (hi && lo) := by
  rw [interlock_some h]
  split
  · rename_i hboth
    rw [hboth]
    split
    · exact conflict_of_flag ‹_›
    · rw [legOff_rd (by decide), State.rd_setLeg, State.countUp_eq, rd_wr_apart, State.raise_eq,
        State.rd_wr_same _ _ _ _ (by decide)]
      rfl
  · rename_i hboth
    rw [Bool.eq_false_iff.2 hboth]
    split
    · rw [State.rd_setLeg, State.clear_eq, State.rd_wr_same _ _ _ _ (by decide)]
      rfl
    · have hclear := conflict_of_flag (Bool.eq_false_iff.2 ‹¬ s.flag R.IL_STATUS.CONFLICT n = true›)
      split
      · exact hclear
      · rw [State.rd_setLeg]
        exact hclear

theorem interlock_conflicts (h : ptCommands s n = some (hi, lo)) :
    (interlock n s).rd R.IL_COUNT.CONFLICTS n = (if hi && lo && !s.flag R.IL_STATUS.CONFLICT n
      then min (2 ^ R.IL_COUNT.CONFLICTS.width - 1) (s.rd R.IL_COUNT.CONFLICTS n + 1) else s.rd R.IL_COUNT.CONFLICTS n) := by
  rw [interlock_some h]
  by_cases hboth : (hi && lo) = true <;> by_cases hflag : s.flag R.IL_STATUS.CONFLICT n = true
  · rw [if_pos hboth, if_pos hflag, hflag, Bool.not_true, Bool.and_false, if_neg Bool.false_ne_true]
  · rw [if_pos hboth, if_neg hflag, if_pos (by simp [hboth, hflag]), legOff_rd (by decide), State.rd_setLeg, State.countUp_eq,
      State.rd_wr_same _ _ _ _ (by decide), State.raise_eq, rd_wr_apart]
    exact Nat.mod_eq_of_lt (lt_of_le_of_lt (Nat.min_le_left ..) (by decide))
  · rw [if_neg hboth, if_pos hflag, Bool.eq_false_iff.2 hboth, Bool.false_and, if_neg Bool.false_ne_true, State.rd_setLeg,
      State.clear_eq, rd_wr_apart]
  · rw [if_neg hboth, if_neg hflag, Bool.eq_false_iff.2 hboth, Bool.false_and, if_neg Bool.false_ne_true]
    split
    · rfl
    · rw [State.rd_setLeg]

/-- Another field stays. -/
theorem interlock_rd {f : Fld} {i : Nat} (hg : gateApart f = true := by decide)
    (h1 : apartFld f R.IL_STATUS.CONFLICT = true := by decide) (h2 : apartFld f R.IL_COUNT.CONFLICTS = true := by decide) :
    (interlock n s).rd f i = s.rd f i := by
  cases hc : ptCommands s n with
  | none => rw [interlock_none hc]
  | some c =>
    rw [interlock_some hc]
    split
    · split
      · rfl
      · rw [legOff_rd hg, State.rd_setLeg, State.countUp_eq, rd_wr_apart _ _ _ _ _ h2, State.raise_eq, rd_wr_apart _ _ _ _ _ h1]
    · split
      · rw [State.rd_setLeg, State.clear_eq, rd_wr_apart _ _ _ _ _ h1]
      · split
        · rfl
        · rw [State.rd_setLeg]

/-- The interlock of a leg leaves the other legs alone. -/
theorem LegKept.interlock (h : LegKept n s t) (hn : n ≠ m) : LegKept n s (interlock m t) := by
  cases hc : ptCommands t m with
  | none => rwa [interlock_none hc]
  | some c =>
    rw [interlock_some hc]
    split
    · split
      · exact h
      · exact (((h.wr hn).wr hn).setLeg hn).legOff hn
    · split
      · exact (h.wr hn).setLeg hn
      · split
        · exact h
        · exact h.setLeg hn

/-! ### All interlocks, and the low-side pulses that end -/

/-- An operation on every row of a list without repetition: before row `x` and after it the others take their turn. -/
theorem State.each_at {α : Type} {r : State → State → Prop} (hrefl : ∀ v, r v v) (htrans : ∀ {v w x}, r v w → r w x → r v x)
    {f : State → α → State} {l : List α} {x : α} (hl : l.Nodup) (hx : x ∈ l) (hf : ∀ v, ∀ y ≠ x, r v (f v y)) (s : State) :
    ∃ u, r s u ∧ r (f u x) (s.each l f) := by
  have hrest : ∀ (l : List α) (v : State), x ∉ l → r v (v.each l f) := fun l => by
    induction l with
    | nil => exact fun v _ => hrefl v
    | cons y l ih =>
      intro v hy
      obtain ⟨hne, hl⟩ := not_or.1 (mt List.mem_cons.2 hy)
      exact htrans (hf v y (Ne.symm hne)) (ih _ hl)
  induction l generalizing s with
  | nil => cases hx
  | cons y l ih =>
    obtain ⟨hy, hl⟩ := List.nodup_cons.1 hl
    by_cases he : x = y
    · subst he
      exact ⟨s, hrefl s, hrest l (f s x) hy⟩
    · obtain ⟨u, h1, h2⟩ := ih hl ((List.mem_cons.1 hx).resolve_left he) (f s y)
      exact ⟨u, htrans (hf s y (Ne.symm he)) h1, h2⟩

theorem interlocks_at (hn : n < 24) (s : State) : ∃ u, LegKept n s u ∧ LegKept n (interlock n u) (interlocks s) :=
  State.each_at (LegKept.refl n) LegKept.trans List.nodup_range (List.mem_range.2 hn)
    (fun v _ hm => (LegKept.refl n v).interlock (Ne.symm hm)) s

/-- The interlocks leave a leg alone that is not in pass-through. -/
theorem interlocks_none (h : ptCommands s n = none) : LegKept n s (interlocks s) := by
  refine State.each_ind (LegKept n s) _ (fun v m hv => ?_) _ s (LegKept.refl n s)
  by_cases hm : n = m
  · subst hm
    rwa [interlock_none (hv.commands.trans h)]
  · exact hv.interlock hm

theorem interlocks_commands (hn : n < 24) (s : State) : ptCommands (interlocks s) n = ptCommands s n := by
  obtain ⟨u, h1, h2⟩ := interlocks_at hn s
  refine h2.commands.trans (.trans ?_ h1.commands)
  exact ptCommands_congr (Frame.refl u).interlock (PthKept.refl u).interlock.pth interlock_rd interlock_rd

/-- The end of a low-side pulse is kept with its leg alone. -/
theorem ptLowEnds_kept (old t : State) :
    Frame t (ptLowEnds old t) ∧ (ptLowEnds old t).pth = t.pth ∧ ∀ f i, (ptLowEnds old t).rd f i = t.rd f i := by
  refine State.each_ind (fun v => Frame t v ∧ v.pth = t.pth ∧ ∀ f i, v.rd f i = t.rd f i) _ (fun v m hv => ?_) _ t
    ⟨Frame.refl t, rfl, fun _ _ => rfl⟩
  split
  · obtain ⟨hf, hp, hr⟩ := hv
    exact ⟨hf.setLeg, hp, hr⟩
  · exact hv

theorem ptLowEnds_commands (old t : State) (n : Nat) : ptCommands (ptLowEnds old t) n = ptCommands t n := by
  obtain ⟨hf, hp, hr⟩ := ptLowEnds_kept old t
  exact ptCommands_congr hf hp (hr _ _) (hr _ _)

theorem ptLowEnds_leg {old : State} (h : ptCommands old n = none) (t : State) : (ptLowEnds old t).leg n = t.leg n := by
  refine State.each_ind (fun v => v.leg n = t.leg n) _ (fun v m hv => ?_) _ t rfl
  split
  · rename_i hm
    refine (State.leg_setLeg_ne _ _ _ ?_).trans hv
    rintro rfl
    rw [h] at hm
    exact Bool.false_ne_true hm.1
  · exact hv

end Sys2Proof.Machine
end
section
/-! SUPPORT. O45: the timebase (R191, R192), and states that differ in registers and in the legs. -/

namespace Sys2Proof.Machine

open Sys2Proof

variable {s t u : State} {n : Nat} {l : List Nat}

/-! ### States that differ in the legs too -/

theorem OnlyRegs.legs (h : OnlyRegs s u l) : OnlyRegs { s with legs := u.legs } u l := by
  obtain ⟨h1, h2⟩ := h
  have hl : u.legs = s.legs := by rw [h1]
  rw [hl]
  exact ⟨h1, h2⟩

/-- Two changes of registers and legs, one after the other. -/
theorem OnlyRegs.legsTrans (h : OnlyRegs { s with legs := t.legs } t l) (k : OnlyRegs { t with legs := u.legs } u l) :
    OnlyRegs { s with legs := u.legs } u l := by
  obtain ⟨h1, h2⟩ := h
  obtain ⟨k1, k2⟩ := k
  refine ⟨?_, fun a ha => (k2 a ha).trans (h2 a ha)⟩
  rw [h1] at k1
  exact k1

theorem OnlyRegs.legsSetLeg (h : OnlyRegs { s with legs := u.legs } u l) (m : Nat) (x : Leg) :
    OnlyRegs { s with legs := (u.setLeg m x).legs } (u.setLeg m x) l :=
  h.legsTrans ⟨rfl, fun _ _ => rfl⟩

/-- A change of each leg of a list, one that repeating does not alter. -/
theorem each_leg {r : State → Prop} {f : State → Nat → State} {g : Leg → Leg} (hg : ∀ x, g (g x) = g x)
    (hr : ∀ v m, r v → r (f v m)) (hf : ∀ v m k, r v → (f v m).leg k = if k = m then g (v.leg k) else v.leg k) (l : List Nat)
    (s : State) (hs : r s) (k : Nat) : (s.each l f).leg k = if k ∈ l then g (s.leg k) else s.leg k := by
  induction l generalizing s with
  | nil => rfl
  | cons m l ih =>
    refine (ih _ (hr s m hs)).trans ?_
    rw [hf s m k hs]
    by_cases hm : k = m
    · rw [if_pos hm, hg, ite_self, if_pos (hm ▸ List.mem_cons_self)]
    · simp only [hm, if_false, List.mem_cons, false_or]

/-- One leg changed. -/
theorem leg_setLeg (g : Leg → Leg) (s : State) (n k : Nat) :
    (s.setLeg n (g (s.leg n))).leg k = if k = n then g (s.leg k) else s.leg k := by
  split
  · subst_vars
    exact State.leg_setLeg_same ..
  · exact State.leg_setLeg_ne _ _ _ ‹_›

/-! ### The delay line fails -/

/-- The registers of the timebase. -/
def tbRegs : List Nat := [A.SH_TB, A.SH_TB_EVENT]

/-- A change of the registers of the timebase and of legs. -/
def TbOnly (s t : State) : Prop := OnlyRegs { s with legs := t.legs } t tbRegs

theorem TbOnly.refl (s : State) : TbOnly s s := OnlyRegs.refl s _

theorem TbOnly.wr {f : Fld} {v : Nat} (h : TbOnly s t) (hf : fldAddr f 0 0 ∈ tbRegs := by decide) : TbOnly s (t.wr f 0 v) :=
  OnlyRegs.legsTrans h ((OnlyRegs.wr t f 0 v).legs.mono fun _ ha => List.mem_singleton.1 ha ▸ hf)

theorem delayLineFails_set (h : s.flag R.SH_TB.DL_FAIL = true) : delayLineFails s = s := if_pos h

/-- The edges of a leg that are still to come go to whole ticks. -/
def coarsened (x : Leg) : Leg := { x with coarse := true }

theorem delayLineFails_rise (h : s.flag R.SH_TB.DL_FAIL = false) : delayLineFails s =
    ((s.raise R.SH_TB.DL_FAIL).raise R.SH_TB_EVENT.DL_FAIL_EV).each ((List.range 24).filter (fun n => (s.leg n).perF != 0))
      (fun v m => v.setLeg m (coarsened (v.leg m))) := if_neg (by simp [h])

theorem TbOnly.fails (h : TbOnly s t) : TbOnly s (delayLineFails t) :=
  match hf : t.flag R.SH_TB.DL_FAIL with
  | true => by rwa [delayLineFails_set hf]
  | false => by
    rw [delayLineFails_rise hf]
    exact State.each_ind (TbOnly s) _ (fun _ _ hv => OnlyRegs.legsSetLeg hv _ _) _ _ h.wr.wr

/-- What the failure shows where it was not shown before. -/
theorem delayLineFails_shows (h : s.flag R.SH_TB.DL_FAIL = false) :
    (delayLineFails s).regs = ((s.raise R.SH_TB.DL_FAIL).raise R.SH_TB_EVENT.DL_FAIL_EV).regs := by
  rw [delayLineFails_rise h]
  generalize (s.raise R.SH_TB.DL_FAIL).raise R.SH_TB_EVENT.DL_FAIL_EV = u
  exact State.each_ind (fun v => v.regs = u.regs) _ (fun v m hv => (State.setLeg_regs v m _).trans hv) _ u rfl

theorem rd_of_regs (h : t.regs = s.regs) (f : Fld) (i j : Nat) : t.rd f i j = s.rd f i j := by
  rw [State.rd_eq, State.rd_eq, State.reg_congr h]

theorem delayLineFails_dlFail (s : State) : (delayLineFails s).rd R.SH_TB.DL_FAIL = 1 := by
  cases hf : s.flag R.SH_TB.DL_FAIL with
  | true =>
    have hlt : s.rd R.SH_TB.DL_FAIL < 2 := State.rd_lt s _ _ _
    rw [delayLineFails_set hf]
    simp only [State.flag_eq, bne_iff_ne] at hf
    omega
  | false =>
    rw [rd_of_regs (delayLineFails_shows hf), State.raise_eq, rd_wr_apart, State.raise_eq, State.rd_wr_same _ _ _ _ (by decide)]
    rfl

theorem delayLineFails_event (h : s.flag R.SH_TB.DL_FAIL = false) : (delayLineFails s).rd R.SH_TB_EVENT.DL_FAIL_EV = 1 := by
  rw [rd_of_regs (delayLineFails_shows h), State.raise_eq, State.rd_wr_same _ _ _ _ (by decide)]
  rfl

/-- Another field of the timebase stays. -/
theorem delayLineFails_rd {f : Fld} (s : State) (h1 : apartFld f R.SH_TB.DL_FAIL = true := by decide)
    (h2 : apartFld f R.SH_TB_EVENT.DL_FAIL_EV = true := by decide) : (delayLineFails s).rd f = s.rd f := by
  cases hf : s.flag R.SH_TB.DL_FAIL with
  | true => rw [delayLineFails_set hf]
  | false =>
    rw [rd_of_regs (delayLineFails_shows hf), State.raise_eq, rd_wr_apart _ _ _ _ _ h2, State.raise_eq, rd_wr_apart _ _ _ _ _ h1]

theorem delayLineFails_leg (h : s.flag R.SH_TB.DL_FAIL = false) (hn : n < 24) :
    (delayLineFails s).leg n = if (s.leg n).perF = 0 then s.leg n else { s.leg n with coarse := true } := by
  rw [delayLineFails_rise h, each_leg (r := fun _ => True) (g := coarsened) (fun _ => rfl) (fun _ _ _ => trivial)
    (fun v m k _ => leg_setLeg coarsened v m k) _ _ trivial, State.raise_eq, State.leg_wr, State.raise_eq, State.leg_wr]
  by_cases hp : (s.leg n).perF = 0
  · rw [if_neg (by simp [hp]), if_pos hp]
  · rw [if_pos (by simp [hp, hn]), if_neg hp]
    rfl

end Sys2Proof.Machine
end
section
/-! PROOF. O45. -/

namespace Sys2Proof.Machine

open Sys2Proof

variable {s t u : State} {n input : Nat} {high hi lo : Bool}

/-! ### A measurement and its timeout -/

/-- A completed measurement is counted and shown. -/
def measured (n : Nat) (s : State) : State := (s.countWrap R.SH_TB.CAL_CNT).wr R.SH_TB.NCAL 0 n

theorem delayLineMeasurement_up (h : controlUp s = true) (n : Nat) : delayLineMeasurement n s =
    if 40 ≤ n ∧ n ≤ 120 then (measured n s).clear R.SH_TB.DL_FAIL else delayLineFails (measured n s) :=
  if_neg (by simp [h])

theorem measured_ncal (hn : n < 256) (s : State) : (measured n s).rd R.SH_TB.NCAL = n :=
  (State.rd_wr_same _ _ _ _ (by decide)).trans (Nat.mod_eq_of_lt hn)

theorem measured_count (n : Nat) (s : State) :
    (measured n s).rd R.SH_TB.CAL_CNT = (s.rd R.SH_TB.CAL_CNT + 1) % 2 ^ R.SH_TB.CAL_CNT.width :=
  (rd_wr_apart ..).trans (State.rd_wr_same _ _ _ _ (by decide))

theorem measured_legs (n : Nat) (s : State) : (measured n s).legs = s.legs := (State.wr_legs ..).trans (State.wr_legs ..)

theorem measured_only (n : Nat) (s : State) : TbOnly s (measured n s) :=
  TbOnly.wr (TbOnly.wr (f := R.SH_TB.CAL_CNT) (TbOnly.refl s))

theorem measurement_shows (hc : controlUp s = true) (hn : n < 256) : ∃ t, exec (.delayLineMeasurement n) s = .next t ∧
    t.rd R.SH_TB.NCAL = n ∧ t.rd R.SH_TB.CAL_CNT = (s.rd R.SH_TB.CAL_CNT + 1) % 2 ^ R.SH_TB.CAL_CNT.width ∧
    (t.rd R.SH_TB.DL_FAIL = 0 ↔ 40 ≤ n ∧ n ≤ 120) ∧ OnlyRegs { s with legs := t.legs } t [A.SH_TB, A.SH_TB_EVENT] ∧
    (40 ≤ n → n ≤ 120 → t.legs = s.legs) := by
  refine ⟨delayLineMeasurement n s, rfl, ?_⟩
  rw [delayLineMeasurement_up hc]
  split
  · rename_i hin
    rw [State.clear_eq]
    refine ⟨(rd_wr_apart ..).trans (measured_ncal hn s), (rd_wr_apart ..).trans (measured_count n s), ?_, (measured_only n s).wr,
      fun _ _ => (State.wr_legs ..).trans (measured_legs n s)⟩
    rw [State.rd_wr_same _ _ _ _ (by decide)]
    exact iff_of_true rfl hin
  · rename_i hout
    refine ⟨(delayLineFails_rd _).trans (measured_ncal hn s), (delayLineFails_rd _).trans (measured_count n s), ?_,
      (measured_only n s).fails, fun h1 h2 => absurd ⟨h1, h2⟩ hout⟩
    rw [delayLineFails_dlFail]
    exact iff_of_false Nat.one_ne_zero hout

theorem timeout_shows (hc : controlUp s = true) : ∃ t, exec .delayLineTimeout s = .next t ∧ t.rd R.SH_TB.DL_FAIL = 1 ∧
    t.rd R.SH_TB.NCAL = s.rd R.SH_TB.NCAL ∧ (s.rd R.SH_TB.DL_FAIL = 0 → t.rd R.SH_TB_EVENT.DL_FAIL_EV = 1 ∧
      ∀ k, k < 24 → t.leg k = if (s.leg k).perF = 0 then s.leg k else { s.leg k with coarse := true }) ∧
    OnlyRegs { s with legs := t.legs } t [A.SH_TB, A.SH_TB_EVENT] := by
  have hstep : exec .delayLineTimeout s = .next (delayLineFails s) := by
    refine .trans (b := .next (if controlUp s then delayLineFails s else s)) rfl ?_
    rw [if_pos hc]
  refine ⟨_, hstep, delayLineFails_dlFail s, delayLineFails_rd s, fun h0 => ?_, (TbOnly.refl s).fails⟩
  have hf : s.flag R.SH_TB.DL_FAIL = false := by rw [State.flag_eq, h0]; rfl
  exact ⟨delayLineFails_event hf, fun k hk => delayLineFails_leg hf hk⟩

theorem timebase_down (hc : controlUp s = false) (n : Nat) :
    exec (.delayLineMeasurement n) s = .next s ∧ exec .delayLineTimeout s = .next s := by
  constructor
  · exact congrArg Host.Outcome.next (if_pos hc)
  · exact congrArg Host.Outcome.next (if_neg (by simp [hc]))

/-! ### An edge of a pass-through input -/

/-- The levels of the inputs with one of them as given (R227). -/
def inputSet (i : Nat) (v : Bool) (p : Nat) : Nat := if bitAt p i = v then p else p ^^^ 2 ^ i

theorem inputSet_same (i : Nat) (v : Bool) (p : Nat) : bitAt (inputSet i v p) i = v := by
  unfold inputSet
  split
  · assumption
  · rename_i h
    rw [bitAt, Nat.testBit_xor, Nat.testBit_two_pow_self, ← bitAt]
    revert h
    cases bitAt p i <;> cases v <;> simp

theorem inputSet_ne {i j : Nat} (h : j ≠ i) (v : Bool) (p : Nat) : bitAt (inputSet i v p) j = bitAt p j := by
  unfold inputSet
  split
  · rfl
  · rw [bitAt, Nat.testBit_xor, Nat.testBit_two_pow_of_ne h.symm, Bool.xor_false, ← bitAt]

/-- The cross-checks of all legs. -/
def crossChecks (s : State) : State := s.each (List.range 24) (fun v m => crossCheck m v)

theorem crossChecks_pth (s : State) : (crossChecks s).pth = s.pth :=
  (PthKept.each (PthKept.refl s) fun _ _ h => h.crossCheck).pth

/-- Without an overlap of two gates no cross-check trips (R228). -/
theorem crossChecks_none (h : ∀ n < 24, gatesOverlap s n = false) : crossChecks s = s := by
  have hall : ∀ l : List Nat, (∀ n ∈ l, n < 24) → s.each l (fun v m => crossCheck m v) = s := fun l => by
    induction l with
    | nil => exact fun _ => rfl
    | cons m l ih =>
      intro hl
      have hm : crossCheck m s = s := crossCheck_none (h m (hl m List.mem_cons_self))
      exact (congrArg (fun v => State.each v l (fun v m => crossCheck m v)) hm).trans
        (ih fun n hn => hl n (List.mem_cons_of_mem _ hn))
  exact hall _ fun n hn => List.mem_range.1 hn

/-- The inputs change, and the interlocks judge the commands. -/
def edgeJudged (i : Nat) (v : Bool) (s : State) : State := interlocks { s with pth := inputSet i v s.pth }

theorem passThroughEdge_eq (hi : input < 8) (v : Bool) (s : State) :
    passThroughEdge input v s = ptLowEnds (crossChecks s) (edgeJudged input v (crossChecks s)) := if_pos hi

theorem passThroughEdge_pth (hi : input < 8) (v : Bool) (s : State) : (passThroughEdge input v s).pth = inputSet input v s.pth := by
  obtain ⟨-, hp, -⟩ := ptLowEnds_kept (crossChecks s) (edgeJudged input v (crossChecks s))
  rw [passThroughEdge_eq hi, hp, edgeJudged, (PthKept.refl _).interlocks.pth, crossChecks_pth]

theorem edgeJudged_commands (hn : n < 24) (i : Nat) (v : Bool) (s : State) :
    ptCommands (edgeJudged i v s) n = ptCommands { s with pth := inputSet i v s.pth } n := interlocks_commands hn _

/-- A leg in pass-through shows whether its commands are in conflict, and counts one that begins. -/
theorem edgeJudged_conflict (hn : n < 24) {i : Nat} {v : Bool} (hc : ptCommands (edgeJudged i v s) n = some (hi, lo)) :
    (edgeJudged i v s).rd R.IL_STATUS.CONFLICT n = b2n (hi && lo) ∧
    (edgeJudged i v s).rd R.IL_COUNT.CONFLICTS n = (if hi && lo && !s.flag R.IL_STATUS.CONFLICT n
      then min (2 ^ R.IL_COUNT.CONFLICTS.width - 1) (s.rd R.IL_COUNT.CONFLICTS n + 1) else s.rd R.IL_COUNT.CONFLICTS n) := by
  rw [edgeJudged_commands hn] at hc
  obtain ⟨u, h1, h2⟩ := interlocks_at hn { s with pth := inputSet i v s.pth }
  have hu : ptCommands u n = some (hi, lo) := h1.commands.trans hc
  have hconf : u.rd R.IL_STATUS.CONFLICT n = s.rd R.IL_STATUS.CONFLICT n := h1.il _ (by decide)
  have hcnt : u.rd R.IL_COUNT.CONFLICTS n = s.rd R.IL_COUNT.CONFLICTS n := h1.il _ (by decide)
  refine ⟨(h2.il _ (by decide)).trans (interlock_conflict hu), (h2.il _ (by decide)).trans ?_⟩
  rw [interlock_conflicts hu, State.flag_eq, hconf, hcnt, State.flag_eq]

/-- A leg that takes its sash commands is left alone. -/
theorem edgeJudged_none (hn : n < 24) {i : Nat} {v : Bool} (hc : ptCommands (edgeJudged i v s) n = none) :
    (edgeJudged i v s).leg n = s.leg n ∧ (edgeJudged i v s).rd R.IL_STATUS.CONFLICT n = s.rd R.IL_STATUS.CONFLICT n ∧
      ptCommands s n = none := by
  rw [edgeJudged_commands hn] at hc
  have hkept := interlocks_none hc
  refine ⟨hkept.leg, hkept.il _ (by decide), ?_⟩
  rw [← Option.isSome_eq_false_iff.trans Option.isNone_iff_eq_none, ← ptCommands_pth s (inputSet i v s.pth), hc]
  rfl

/-! ### The end of a conflict -/

theorem conflictResume_passes {t0 : Nat} (h : (s.leg n).wait = some t0) : ∃ t, exec (.conflictResume n) s = .next t ∧
    (t.leg n).wait = none ∧ t.regs = s.regs ∧
    t.now = max s.now (t0 + (max (s.rd R.SH_DEAD.DT_LH n) (s.rd R.SH_DEAD.DT_HL n) + 63) / 64) := by
  have hstep : conflictResume n s = reachTime (waitEnd s n t0) (s.setLeg n { s.leg n with wait := none }) := by
    unfold conflictResume
    rw [h]
  have hleg : ((conflictResume n s).leg n).wait = none := by
    rw [hstep]
    exact congrArg Leg.wait (State.leg_setLeg_same s n _)
  exact ⟨conflictResume n s, rfl, hleg, by rw [hstep]; rfl, by rw [hstep]; rfl⟩

theorem conflictResume_idle (h : (s.leg n).wait = none) : exec (.conflictResume n) s = .next s := by
  refine congrArg Host.Outcome.next (?_ : conflictResume n s = s)
  unfold conflictResume
  rw [h]

/-- Settles O45: the interlock of a leg judges its own commands and leaves those of the other legs alone. -/
theorem timebaseAndPassThrough : Obligations.TimebaseAndPassThrough := by
  unfold Obligations.TimebaseAndPassThrough
  refine ⟨fun n s hc => timebase_down hc n, fun s hc => ⟨fun n hn => measurement_shows hc hn, timeout_shows hc⟩,
    fun s => ⟨fun i v hi => ?_, fun i v hi hover => ?_, fun n => ⟨conflictResume_idle, fun t0 h => conflictResume_passes h⟩⟩⟩
  · refine ⟨passThroughEdge i v s, rfl, ?_, fun j hj => ?_⟩ <;> rw [passThroughEdge_pth hi]
    · exact inputSet_same i v s.pth
    · exact inputSet_ne hj v s.pth
  · refine ⟨passThroughEdge i v s, rfl, ?_⟩
    obtain ⟨-, -, hrd⟩ := ptLowEnds_kept s (edgeJudged i v s)
    rw [passThroughEdge_eq hi, crossChecks_none hover]
    simp only [ptLowEnds_commands, hrd]
    refine ⟨fun n hi lo hn hc => edgeJudged_conflict hn hc, fun n hn hc => ?_⟩
    obtain ⟨hleg, hconf, hold⟩ := edgeJudged_none hn hc
    exact ⟨(ptLowEnds_leg hold _).trans hleg, hconf⟩

end Sys2Proof.Machine
end
section
/-! SUPPORT. O46: an update point of a leg in the parts it is made of (R191, R194, R199 to R203). -/

namespace Sys2Proof.Machine

open Sys2Proof

variable {s t u : State} {b n m i p per : Nat} {peak : Bool} {l : Leg} {q : Plan}

/-! ### What comes into force -/

/-- The leg takes the newest NCAL, and fine placement where it is allowed (R191, R192). -/
def withTaps (s : State) (l : Leg) : Leg :=
  { l with coarse := s.flag R.SH_TB.DL_FAIL, ncal := if s.flag R.SH_TB.DL_FAIL then l.ncal else s.rd R.SH_TB.NCAL }

/-- The duty strobed last comes into force at the first point at or after the end of its beat (R203). -/
def strobeTaken (s : State) (b t : Nat) (l : Leg) : Leg :=
  match l.pend with
  | some (d, e) => if 64 * edgeTick s b e ≤ t then { l with pend := none, duty := some d } else l
  | none => l

/-- A duty in force is converted with the period of the point. -/
def converted (per : Nat) (l : Leg) : Leg :=
  match l.duty with
  | some d => { l with ton := onTime d (per / 64) }
  | none => l

theorem takePending_strobe (h : l.pendT = none) (t : Nat) :
    takePending s b t per l = converted per (strobeTaken s b t (withTaps s l)) := by
  obtain ⟨_, _, _, pend, _, pendT, _⟩ := l
  obtain rfl : pendT = none := h
  obtain _ | ⟨d, e⟩ := pend <;> rfl

/-- What of a leg an update point decides but for its duty and its on-time. -/
structure PointKept (l x : Leg) : Prop where
  upAt : x.upAt = l.upAt
  upN : x.upN = l.upN
  coarse : x.coarse = l.coarse
  ncal : x.ncal = l.ncal
  held : x.held = l.held
  gates : x.gates = l.gates
  edges : x.edges = l.edges

theorem strobeTaken_kept (s : State) (b t : Nat) (l : Leg) : PointKept l (strobeTaken s b t l) := by
  unfold strobeTaken
  split
  · split <;> exact ⟨rfl, rfl, rfl, rfl, rfl, rfl, rfl⟩
  · exact ⟨rfl, rfl, rfl, rfl, rfl, rfl, rfl⟩

theorem converted_kept (per : Nat) (l : Leg) : PointKept l (converted per l) := by
  unfold converted
  split <;> exact ⟨rfl, rfl, rfl, rfl, rfl, rfl, rfl⟩

/-! ### Tn and CARRY (R200, R201) -/

theorem planStart_le (per t : Nat) (c : Int) : (planStart per t c).tn ≤ per := by
  unfold planStart clampInt
  dsimp only
  omega

theorem planStart_whole (h : m ≤ per) : planStart per m 0 = ⟨m, 0, 0, 0⟩ := by
  have hclamp : clampInt 0 per (m : Int) = m := by
    unfold clampInt
    omega
  simp only [planStart, add_zero, hclamp, Int.toNat_natCast, sub_self]

theorem stretched_le (s : State) (n per : Nat) (w : PulseStart) : stretched s n per w ≤ per := by
  unfold stretched
  extract_lets x
  split
  · exact Nat.min_le_left ..
  · exact Nat.sub_le ..

theorem applyPolicy_le (w : PulseStart) : (applyPolicy s n per q w).tn ≤ per := by
  unfold applyPolicy
  split
  · split
    · exact Nat.zero_le _
    · exact le_rfl
  · exact stretched_le ..

/-- The loop over the pulses keeps Tn within the period. -/
theorem planPulses_le {saw upd : Bool} {held : Option Nat} {wait : Option (Bool × Nat)} (hq : q.tn ≤ per) :
    (planPulses s n saw upd peak per held wait q).tn ≤ per := by
  refine List.foldlRecOn (motive := fun v : Plan => v.tn ≤ per) _ _ hq fun v hv k _ => ?_
  split
  · split
    · exact applyPolicy_le _
    · exact hv
  · exact hv

/-- Where no pulse is short the loop changes nothing. -/
theorem planPulses_none {saw upd : Bool} {held : Option Nat} {wait : Option (Bool × Nat)}
    (h : (pulseStarts saw upd peak per held wait q.tn).all (fun w => !shortPulse s n per q.tn w) = true) :
    planPulses s n saw upd peak per held wait q = q := by
  refine List.foldl_fixed' (fun k => ?_) _
  split
  · rename_i w hw
    have hshort := List.all_eq_true.1 h w (List.mem_of_getElem? hw)
    rw [if_neg (by simpa using hshort)]
  · rfl

theorem planExtend_tn (s : State) (n : Nat) (upd high : Bool) (e : Nat) (q : Plan) : (planExtend s n upd high e q).tn = q.tn := by
  unfold planExtend
  split <;> rfl

theorem extension_off (minp : Nat) (ch : List (Bool × Nat)) : extension minp {} ch = 0 := rfl

theorem toSigned_ofSigned {w : Int} (hlo : -(2 ^ 25) < w) (hhi : w < 2 ^ 25) : toSigned 26 (ofSigned 26 w % 2 ^ 26) = w := by
  unfold toSigned ofSigned
  omega

/-! ### The registers of the plan -/

/-- Nothing but registers changes. -/
def RegsOnly (s t : State) : Prop := t = { s with regs := t.regs }

theorem RegsOnly.refl (s : State) : RegsOnly s s := rfl

theorem RegsOnly.wr {f : Fld} {k v : Nat} (h : RegsOnly s t) : RegsOnly s (t.wr f k v) := by
  unfold RegsOnly at h ⊢
  generalize t.regs = r at h
  subst h
  rfl

theorem RegsOnly.ite {c : Prop} [Decidable c] (ht : RegsOnly s t) (hu : RegsOnly s u) : RegsOnly s (if c then t else u) := by
  split
  · exact ht
  · exact hu

/-- What an update point writes of a plan (R200, R201). -/
def putPlan (n per : Nat) (q : Plan) (s : State) : State := putCounts n q (putCarry n per q.carry s)

theorem putPlan_regs (n per : Nat) (q : Plan) (s : State) : RegsOnly s (putPlan n per q s) := by
  have hcarry : RegsOnly s (putCarry n per q.carry s) := .ite (.wr (.refl s)) (.wr (.wr (.wr (.refl s))))
  exact .ite (.wr (.wr hcarry)) (.wr (.wr (.wr hcarry)))

theorem putPlan_carry (hper : per < 2 ^ 25) : carryOf (putPlan n per q s) n = clampInt (-(per : Int)) per q.carry := by
  have hcarry : (putCarry n per q.carry s).rd R.SH_CARRY.CARRY n = ofSigned 26 (clampInt (-(per : Int)) per q.carry) % 2 ^ 26 := by
    unfold putCarry
    dsimp only
    split
    · exact State.rd_wr_same _ _ _ _ (by decide)
    · rw [State.raise_eq, rd_wr_apart, State.countUp_eq, rd_wr_apart]
      exact State.rd_wr_same _ _ _ _ (by decide)
  have hcount : (putPlan n per q s).rd R.SH_CARRY.CARRY n = (putCarry n per q.carry s).rd R.SH_CARRY.CARRY n := by
    unfold putPlan putCounts
    dsimp only
    split
    · rw [State.countUp_eq, rd_wr_apart, State.countUp_eq, rd_wr_apart]
    · rw [State.raise_eq, rd_wr_apart, State.countUp_eq, rd_wr_apart, State.countUp_eq, rd_wr_apart]
  rw [carryOf, hcount, hcarry]
  refine toSigned_ofSigned ?_ ?_ <;> unfold clampInt <;> omega

/-! ### The point -/

/-- The leg at an update point: the point is noted, the trips of earlier periods are done with, and what is due comes into force. -/
def pointLeg (s : State) (b n i p per : Nat) : Leg :=
  converted per (strobeTaken s b p (withTaps s { s.leg n with
    upN := i + 1, upAt := some p, trips := (s.leg n).trips.filter (fun x => decide (x.period = i / 2)) }))

/-- The state at an update point, before its pulses. -/
def pointReached (s : State) (b n i p per : Nat) : State :=
  (reachTime (tickOf p) s).setLeg n (pointLeg s b n i p per)

/-- A leg that emits no pulses shows its on-time, without a CARRY. -/
def pointIdle (n : Nat) (s : State) : State :=
  ((s.wr R.SH_TON.TON n (s.leg n).ton).clear R.SH_CARRY.CARRY n).setLeg n { s.leg n with held := none }

theorem refreshCheck_none (h : (s.leg n).refresh = none) : refreshCheck n s = s := by
  unfold refreshCheck
  rw [h]

theorem updatePoint_missed (hb : bridgeOfLeg s n = some b) (hp : nextPoint s b n = none) (beat : Bool) :
    updatePoint n peak beat s = s := by
  unfold updatePoint
  rw [hb]
  dsimp only
  rw [hp]

theorem updatePoint_other {beat : Bool} (hb : bridgeOfLeg s n = some b) (hp : nextPoint s b n = some (i, p))
    (h : peak ≠ decide (i % 2 = 1) ∨ beat ≠ endsBeat s b n p) : updatePoint n peak beat s = s := by
  unfold updatePoint
  rw [hb]
  dsimp only
  rw [hp]
  exact if_pos h

theorem updatePoint_eq (hb : bridgeOfLeg s n = some b) (hp : nextPoint s b n = some (i, p)) (hper : periodAt (s.br b) p = per)
    (hT : (s.leg n).pendT = none) (hR : (s.leg n).refresh = none) :
    updatePoint n (decide (i % 2 = 1)) (endsBeat s b n p) s =
      if legRuns s n then updatePulses b n (decide (i % 2 = 1)) p (64 * per) (pointReached s b n i p (64 * per))
      else pointIdle n (pointReached s b n i p (64 * per)) := by
  unfold updatePoint
  simp -zeta only [hb, hp]
  refine (if_neg (by simp)).trans ?_
  extract_lets s0 per0 x l l1 s1 s2 y
  have hs0 : s0 = reachTime (tickOf p) s := refreshCheck_none hR
  have hper0 : per0 = 64 * per := by
    simp only [per0, hs0, ← hper]
    rfl
  have hx : x = s.leg n := by
    simp only [x, hs0]
    rfl
  have hl : l.pendT = none := by
    simp only [l, hx]
    exact hT
  have hl1 : l1 = pointLeg s b n i p (64 * per) := by
    refine (takePending_strobe hl p).trans ?_
    simp only [l, hx, hper0, hs0]
    rfl
  have hs1 : s1 = pointReached s b n i p (64 * per) := by
    simp only [s1, hl1, hs0]
    rfl
  have hs2 : s2 = pointReached s b n i p (64 * per) := by
    refine (if_neg ?_).trans hs1
    rw [hl]
    exact fun h => Bool.false_ne_true h.1
  have hton : l1.ton = ((pointReached s b n i p (64 * per)).leg n).ton := by
    rw [hl1, pointReached, State.leg_setLeg_same]
  have hruns : legRuns (pointReached s b n i p (64 * per)) n = legRuns s n := rfl
  simp only [y, hs2, hruns, hper0, hton]
  rfl

/-! ### The leg after the point -/

theorem pointLeg_kept (s : State) (b n i p per : Nat) :
    PointKept (withTaps s { s.leg n with upN := i + 1, upAt := some p }) (pointLeg s b n i p per) := by
  obtain ⟨h1, h2, h3, h4, h5, h6, h7⟩ := converted_kept per (strobeTaken s b p (withTaps s { s.leg n with
    upN := i + 1, upAt := some p, trips := (s.leg n).trips.filter (fun x => decide (x.period = i / 2)) }))
  obtain ⟨k1, k2, k3, k4, k5, k6, k7⟩ := strobeTaken_kept s b p (withTaps s { s.leg n with
    upN := i + 1, upAt := some p, trips := (s.leg n).trips.filter (fun x => decide (x.period = i / 2)) })
  exact ⟨h1.trans k1, h2.trans k2, h3.trans k3, h4.trans k4, h5.trans k5, h6.trans k6, h7.trans k7⟩

theorem converted_duty (per : Nat) (l : Leg) : (converted per l).duty = l.duty := by unfold converted; split <;> rfl
theorem converted_pend (per : Nat) (l : Leg) : (converted per l).pend = l.pend := by unfold converted; split <;> rfl

theorem converted_ton {d : Nat} (h : l.duty = some d) : (converted per l).ton = onTime d (per / 64) := by
  unfold converted
  rw [h]

theorem converted_ton_none (h : l.duty = none) : (converted per l).ton = l.ton := by
  unfold converted
  rw [h]

theorem strobeTaken_due {d e : Nat} (h : l.pend = some (d, e)) (hd : 64 * edgeTick s b e ≤ p) :
    strobeTaken s b p l = { l with pend := none, duty := some d } := by
  unfold strobeTaken
  rw [h]
  exact if_pos hd

theorem strobeTaken_early {d e : Nat} (h : l.pend = some (d, e)) (hd : p < 64 * edgeTick s b e) : strobeTaken s b p l = l := by
  unfold strobeTaken
  rw [h]
  exact if_neg (Nat.not_le.2 hd)

theorem strobeTaken_none (h : l.pend = none) : strobeTaken s b p l = l := by
  unfold strobeTaken
  rw [h]

/-- What a strobe of the duty does at the point, and the on-time that the duty in force gives (R203). -/
structure PointDuty (s : State) (b p per : Nat) (l x : Leg) : Prop where
  due : ∀ d e, l.pend = some (d, e) → 64 * edgeTick s b e ≤ p → x.duty = some d ∧ x.pend = none
  early : ∀ d e, l.pend = some (d, e) → p < 64 * edgeTick s b e → x.duty = l.duty ∧ x.pend = l.pend
  none : l.pend = none → x.duty = l.duty ∧ x.pend = none
  ton : ∀ d, x.duty = some d → x.ton = onTime d (per / 64)
  kept : x.duty = Option.none → x.ton = l.ton

theorem pointDuty (s : State) (b p per : Nat) (l : Leg) : PointDuty s b p per l (converted per (strobeTaken s b p l)) where
  due d e h hd := by rw [converted_duty, converted_pend, strobeTaken_due h hd]; exact ⟨rfl, rfl⟩
  early d e h hd := by rw [converted_duty, converted_pend, strobeTaken_early h hd]; exact ⟨rfl, rfl⟩
  none h := by rw [converted_duty, converted_pend, strobeTaken_none h]; exact ⟨rfl, h⟩
  ton d h := converted_ton (by rwa [converted_duty] at h)
  kept h := by
    rw [converted_duty] at h
    rw [converted_ton_none h]
    unfold strobeTaken at h ⊢
    split at h
    · split at h
      · cases h
      · rw [if_neg ‹_›]
    · rfl

/-! ### The two outcomes -/

/-- The state after the point: the leg's pulses and the registers may have changed. -/
structure PointDone (s : State) (b n i p per : Nat) (t : State) : Prop where
  now : t.now = max s.now (tickOf p)
  bridges : t.bridges = s.bridges
  others : ∀ m, m ≠ n → t.leg m = s.leg m
  leg : ∃ h g es, t.leg n = { pointLeg s b n i p per with held := h, gates := g, edges := es }

theorem PointDone.setLeg {h : Option Nat} {g : Gates} {es : List GateEdge} (hu : RegsOnly (pointReached s b n i p per) u) :
    PointDone s b n i p per (u.setLeg n { pointLeg s b n i p per with held := h, gates := g, edges := es }) := by
  have hlegs : u.legs = (pointReached s b n i p per).legs := by rw [hu]
  have hnow : u.now = (pointReached s b n i p per).now := by rw [hu]
  have hbr : u.bridges = (pointReached s b n i p per).bridges := by rw [hu]
  refine ⟨hnow, hbr, fun m hm => ?_, h, g, es, State.leg_setLeg_same ..⟩
  rw [State.leg_setLeg_ne _ _ _ hm, State.leg_congr hlegs, pointReached, State.leg_setLeg_ne _ _ _ hm]
  rfl

theorem pointReached_leg (s : State) (b n i p per : Nat) : (pointReached s b n i p per).leg n = pointLeg s b n i p per :=
  State.leg_setLeg_same ..

/-- A leg that emits no pulses at the point. -/
theorem pointIdle_done (s : State) (b n i p per : Nat) : PointDone s b n i p per (pointIdle n (pointReached s b n i p per)) := by
  rw [pointIdle, pointReached_leg, State.clear_eq]
  exact .setLeg (.wr (.wr (.refl _)))

theorem pointIdle_ton (n : Nat) (s : State) :
    (pointIdle n s).rd R.SH_TON.TON n = ((pointIdle n s).leg n).ton % 2 ^ R.SH_TON.TON.width := by
  rw [pointIdle, State.leg_setLeg_same, State.rd_setLeg, State.clear_eq, rd_wr_apart, State.rd_wr_same _ _ _ _ (by decide)]

theorem pointIdle_carry (n : Nat) (s : State) : carryOf (pointIdle n s) n = 0 := by
  rw [carryOf, pointIdle, State.rd_setLeg, State.clear_eq, State.rd_wr_same _ _ _ _ (by decide)]
  rfl

theorem pointIdle_held (n : Nat) (s : State) : ((pointIdle n s).leg n).held = none := by
  rw [pointIdle, State.leg_setLeg_same]

/-- No pulse was on, nothing is carried, and no pulse of the on-time is short: the plan is the on-time itself. -/
structure WholePulse (s : State) (b n : Nat) (peak : Bool) (per : Nat) (l : Leg) : Prop where
  held : l.held = none
  gates : l.gates = {}
  edges : l.edges = []
  carry : carryOf s n = 0
  within : l.ton ≤ per
  long : (pulseStarts (sawtooth s b) (updBoth s b) peak per none none l.ton).all (fun w => !shortPulse s n per l.ton w) = true

/-- An update point of a leg that emits pulses writes a plan whose Tn lies within the period (R199 to R201). -/
theorem updatePulses_plan (b n : Nat) (peak : Bool) (p per : Nat) (s : State) : ∃ q g es,
    updatePulses b n peak p per s = ((putPlan n per q s).wr R.SH_TON.TON n q.tn).setLeg n
      { s.leg n with held := some q.tn, gates := g, edges := es } ∧
    q.tn ≤ per ∧ (WholePulse s b n peak per (s.leg n) → q.tn = (s.leg n).ton ∧ q.carry = 0) := by
  unfold updatePulses
  extract_lets l saw upd g q0 ch e q es
  refine ⟨q, g, es, rfl, ?_, fun ⟨hheld, hgates, hedges, hcarry, hton, hlong⟩ => ?_⟩
  · refine (planExtend_tn ..).trans_le (planPulses_le (planStart_le ..))
  · have hg : g = {} := by
      simp only [g, l, hgates, hedges]
      rfl
    have he : e = 0 := by
      simp only [e, hg]
      exact extension_off _ _
    have hq0 : q0 = ⟨(s.leg n).ton, 0, 0, 0⟩ := by
      simp only [q0, l, hheld, hedges, hcarry]
      rw [planStart_whole hton]
      exact planPulses_none hlong
    have hq : q = q0 := if_pos he
    rw [hq, hq0]
    exact ⟨rfl, rfl⟩

/-- What the leg shows after the point where it emits no pulses, and where it does. -/
theorem updatePoint_outcome (hb : bridgeOfLeg s n = some b) (hp : nextPoint s b n = some (i, p))
    (hper : periodAt (s.br b) p = per) (hmax : per < 524288) (hT : (s.leg n).pendT = none) (hR : (s.leg n).refresh = none) :
    ∃ t, exec (.updatePoint n (decide (i % 2 = 1)) (endsBeat s b n p)) s = .next t ∧ PointDone s b n i p (64 * per) t ∧
      (legRuns s n = false → t.rd R.SH_TON.TON n = (t.leg n).ton % 2 ^ R.SH_TON.TON.width ∧ carryOf t n = 0 ∧ (t.leg n).held = none) ∧
      (legRuns s n = true → ∃ x, (t.leg n).held = some x ∧ t.rd R.SH_TON.TON n = x % 2 ^ R.SH_TON.TON.width ∧ x ≤ 64 * per ∧
        -(64 * per : Int) ≤ carryOf t n ∧ carryOf t n ≤ (64 * per : Int) ∧
        (WholePulse (pointReached s b n i p (64 * per)) b n (decide (i % 2 = 1)) (64 * per) (pointLeg s b n i p (64 * per)) →
          x = (pointLeg s b n i p (64 * per)).ton ∧ carryOf t n = 0)) := by
  refine ⟨updatePoint n (decide (i % 2 = 1)) (endsBeat s b n p) s, rfl, ?_⟩
  rw [updatePoint_eq hb hp hper hT hR]
  cases hruns : legRuns s n with
  | false =>
    rw [if_neg Bool.false_ne_true]
    exact ⟨pointIdle_done .., fun _ => ⟨pointIdle_ton .., pointIdle_carry .., pointIdle_held ..⟩, fun h => by cases h⟩
  | true =>
    obtain ⟨q, g, es, hpulses, htn, hwhole⟩ :=
      updatePulses_plan b n (decide (i % 2 = 1)) p (64 * per) (pointReached s b n i p (64 * per))
    rw [pointReached_leg] at hpulses hwhole
    rw [if_pos rfl, hpulses]
    refine ⟨.setLeg (.wr (putPlan_regs ..)), fun h => (by cases h), fun _ => ⟨q.tn, ?_, ?_, htn, ?_⟩⟩
    · rw [State.leg_setLeg_same]
    · rw [State.rd_setLeg, State.rd_wr_same _ _ _ _ (by decide)]
    · rw [carryOf, State.rd_setLeg, rd_wr_apart, ← carryOf, putPlan_carry (by omega)]
      have hclamp : clampInt (-((64 * per : Nat) : Int)) ((64 * per : Nat) : Int) q.carry =
          max (-(64 * per : Int)) (min (64 * per : Int) q.carry) := by push_cast; rfl
      rw [hclamp]
      refine ⟨by omega, by omega, fun hw => ?_⟩
      obtain ⟨hx, hc⟩ := hwhole hw
      exact ⟨hx, by omega⟩

end Sys2Proof.Machine
end
section
/-! PROOF. O46, the update point. -/

namespace Sys2Proof.Machine

open Sys2Proof

variable {s : State} {b n i p per : Nat}

/-- The leg after a point: the point itself, the taps, and the duty and the on-time (R191, R203). -/
theorem PointDone.shows {t : State} (h : PointDone s b n i p per t) :
    (t.leg n).upAt = some p ∧ (t.leg n).upN = i + 1 ∧ (t.leg n).coarse = s.flag R.SH_TB.DL_FAIL ∧
      (s.flag R.SH_TB.DL_FAIL = false → (t.leg n).ncal = s.rd R.SH_TB.NCAL) ∧ PointDuty s b p per (s.leg n) (t.leg n) ∧
      (t.leg n).ton = (pointLeg s b n i p per).ton := by
  obtain ⟨held, g, es, hleg⟩ := h.leg
  have hkept := pointLeg_kept s b n i p per
  have hduty := pointDuty s b p per (withTaps s { s.leg n with
    upN := i + 1, upAt := some p, trips := (s.leg n).trips.filter (fun x => decide (x.period = i / 2)) })
  rw [hleg]
  refine ⟨hkept.upAt, hkept.upN, hkept.coarse, fun hf => hkept.ncal.trans ?_, ?_, rfl⟩
  · simp only [withTaps, hf]
    rfl
  · exact ⟨hduty.due, hduty.early, hduty.none, hduty.ton, hduty.kept⟩

end Sys2Proof.Machine
end
section
/-! SUPPORT. O46: a master valley in the parts it is made of (R196, R203, R206, R207): what it does to the legs and
what the bridge shows of it. -/

namespace Sys2Proof.Machine

open Sys2Proof

variable {s t u : State} {b k m n : Nat} {lim : FbLimit}

/-! ### The period applied -/

/-- The period applied comes into force on a leg, and its duty with it. -/
def periodTaken (l : Leg) : Leg :=
  if l.per = l.perF then l
  else match l.duty with
    | some d => { l with perF := l.per, ton := onTime d l.per }
    | none => { l with perF := l.per }

theorem periodTaken_kept (l : Leg) : (periodTaken l).per = l.per ∧ (periodTaken l).perF = l.per ∧ (periodTaken l).pendT = l.pendT := by
  unfold periodTaken
  split
  · exact ⟨rfl, Eq.symm ‹_›, rfl⟩
  · split <;> exact ⟨rfl, rfl, rfl⟩

theorem periodTaken_twice (l : Leg) : periodTaken (periodTaken l) = periodTaken l := by
  obtain ⟨hper, hF, -⟩ := periodTaken_kept l
  exact if_pos (hper.trans hF.symm)

theorem takePeriod_leg (s : State) (n k : Nat) : (takePeriod n s).leg k = if k = n then periodTaken (s.leg k) else s.leg k := by
  rw [← leg_setLeg]
  by_cases hp : (s.leg n).per = (s.leg n).perF
  · rw [takePeriod, if_pos hp, periodTaken, if_pos hp]
    exact ((leg_setLeg id s n k).trans (ite_self _)).symm
  · rw [takePeriod, if_neg hp, periodTaken, if_neg hp]
    cases (s.leg n).duty <;> rfl

/-- The end of a master valley: every leg takes the period applied. -/
theorem valleyPassed_leg (b : Nat) (s : State) (k : Nat) : (valleyPassed b s).leg k =
    if k ∈ legsOf (valleySet b s) b then periodTaken ((valleySet b s).leg k) else (valleySet b s).leg k := by
  rw [valleyPassed, pushValley, State.leg_setBr]
  exact each_leg (r := fun _ => True) periodTaken_twice (fun _ _ _ => trivial) (fun v m k _ => takePeriod_leg v m k) _ _ trivial k

theorem valleyPassed_pendT (b : Nat) (s : State) (k : Nat) : ((valleyPassed b s).leg k).pendT = ((valleySet b s).leg k).pendT := by
  rw [valleyPassed_leg]
  split
  · obtain ⟨-, -, h⟩ := periodTaken_kept ((valleySet b s).leg k)
    exact h
  · rfl

theorem valleyPassed_per (b : Nat) (s : State) (k : Nat) : ((valleyPassed b s).leg k).per = ((valleySet b s).leg k).per := by
  rw [valleyPassed_leg]
  split
  · obtain ⟨h, -, -⟩ := periodTaken_kept ((valleySet b s).leg k)
    exact h
  · rfl

/-! ### The period strobed -/

theorem takeStrobePer_none (h : (s.br b).strobePer = none) : takeStrobePer b k s = s := by
  unfold takeStrobePer
  rw [h]

theorem takeStrobePer_early {p e : Nat} (h : (s.br b).strobePer = some (p, e)) (he : 2 * k < e) : takeStrobePer b k s = s := by
  unfold takeStrobePer
  rw [h]
  exact if_neg (Nat.not_le.2 he)

theorem takeStrobePer_due {p e : Nat} (h : (s.br b).strobePer = some (p, e)) (he : e ≤ 2 * k) :
    takeStrobePer b k s = (s.setBr b { s.br b with strobePer := none }).each (legsOf s b)
      (fun s n => s.setLeg n { s.leg n with per := p }) := by
  unfold takeStrobePer
  rw [h]
  exact if_pos he

theorem takeStrobePer_strobe {p e : Nat} (h : (s.br b).strobePer = some (p, e)) (he : e ≤ 2 * k) :
    ((takeStrobePer b k s).br b).strobePer = none := by
  rw [takeStrobePer_due h he]
  refine State.each_ind (fun v => (v.br b).strobePer = none) _ (fun v m hv => ?_) _ _ ?_
  · rwa [State.br_setLeg]
  · rw [State.br_setBr_same]

theorem takeStrobePer_leg {p e : Nat} (h : (s.br b).strobePer = some (p, e)) (he : e ≤ 2 * k) (m : Nat) :
    (takeStrobePer b k s).leg m = if m ∈ legsOf s b then { s.leg m with per := p } else s.leg m := by
  rw [takeStrobePer_due h he]
  exact each_leg (r := fun _ => True) (g := fun x => { x with per := p }) (fun _ => rfl) (fun _ _ _ => trivial)
    (fun v m k _ => leg_setLeg (fun x => { x with per := p }) v m k) _ _ trivial m

/-- A leg keeps its pending on-time, and the bridge all but the strobe. -/
theorem takeStrobePer_rest (b k : Nat) (s : State) : (∃ x, (takeStrobePer b k s).br b = { s.br b with strobePer := x }) ∧
    ∀ m, ((takeStrobePer b k s).leg m).pendT = (s.leg m).pendT := by
  cases h : (s.br b).strobePer with
  | none =>
    rw [takeStrobePer_none h]
    exact ⟨⟨(s.br b).strobePer, rfl⟩, fun _ => rfl⟩
  | some v =>
    obtain ⟨p, e⟩ := v
    by_cases he : e ≤ 2 * k
    · refine ⟨⟨none, ?_⟩, fun m => ?_⟩
      · rw [takeStrobePer_due h he]
        exact State.each_ind (fun v => v.br b = _) _ (fun v m hv => (State.br_setLeg ..).trans hv) _ _ (State.br_setBr_same ..)
      · rw [takeStrobePer_leg h he]
        split <;> rfl
    · rw [takeStrobePer_early h (Nat.not_le.1 he)]
      exact ⟨⟨(s.br b).strobePer, rfl⟩, fun _ => rfl⟩

/-! ### What a set of the fall-back path applies -/

theorem applyFbPer_regs (b : Nat) (s : State) : (applyFbPer b s).regs = s.regs := by
  unfold applyFbPer
  split
  · exact State.each_regs _ _ _ fun _ _ => rfl
  · rfl

theorem applyFbPer_leg (h : (s.br b).fbPer = true) (m : Nat) : (applyFbPer b s).leg m =
    if m ∈ legsOf s b then { s.leg m with per := s.rd R.FB_PER.PER b } else s.leg m := by
  refine .trans (congrArg (fun v => State.leg v m) (if_pos h)) ?_
  refine each_leg (r := fun v => v.regs = s.regs) (g := fun x => { x with per := s.rd R.FB_PER.PER b }) (fun _ => rfl)
    (fun v m hv => (State.setLeg_regs v m _).trans hv) (fun v m k hv => ?_) _ _ rfl m
  rw [rd_of_regs hv]
  exact leg_setLeg (fun x => { x with per := s.rd R.FB_PER.PER b }) v m k

/-- What `applySet` gives one leg with its index. -/
def legSet (b valley : Nat) (duty : List Nat) (lim : FbLimit) (s : State) (x : Nat × Nat) : State :=
  let l := s.leg x.2
  let top := 64 * l.per
  if x.1 ∈ duty then
    let t := s.rd R.FB_DUTY.TON b x.1
    let v := match lim with | .none => t | .period => min t top | .minOff => min t (top - minOff s x.2)
    s.setLeg x.2 { l with pendT := some (v, valley), pend := none }
  else
    let t := match l.pendT with | some x => x.1 | none => l.ton
    s.setLeg x.2 { l with pendT := some (if lim = .period then min t top else t, valley) }

theorem applySet_eq (b : Nat) (lim : FbLimit) (s : State) : ∃ x,
    applySet b lim s = (State.each (applyFbPer b s) (legIndexes (applyFbPer b s) b)
      (legSet b (64 * nextValley (s.br b)) ((applyFbPer b s).br b).fbDuty lim)).setBr b x := ⟨_, rfl⟩

/-- A pending on-time for the valley `valley` within the period of the leg. -/
def OnTimeSet (valley : Nat) (l : Leg) : Prop := ∃ v, l.pendT = some (v, valley) ∧ v ≤ 64 * l.per

theorem legSet_kept (b valley : Nat) (duty : List Nat) (lim : FbLimit) (s : State) (x : Nat × Nat) (m : Nat) :
    ((legSet b valley duty lim s x).leg m).per = (s.leg m).per := by
  unfold legSet
  extract_lets l top t v t'
  by_cases hm : m = x.2
  · subst hm
    split <;> rw [State.leg_setLeg_same]
  · split <;> rw [State.leg_setLeg_ne _ _ _ hm]

theorem legSet_other {x : Nat × Nat} (valley : Nat) (duty : List Nat) (s : State) (hm : m ≠ x.2) :
    (legSet b valley duty lim s x).leg m = s.leg m := by
  unfold legSet
  extract_lets l top t v t'
  split <;> exact State.leg_setLeg_ne _ _ _ hm

theorem legSet_period (b valley : Nat) (duty : List Nat) (s : State) (x : Nat × Nat) :
    OnTimeSet valley ((legSet b valley duty .period s x).leg x.2) := by
  unfold legSet OnTimeSet
  extract_lets l top t v t'
  split
  · rw [State.leg_setLeg_same]
    exact ⟨v, rfl, min_le_right _ _⟩
  · rw [State.leg_setLeg_same]
    exact ⟨_, rfl, by simp [top]⟩

/-- Under the limit of the period every leg of the bridge has an on-time to take, within the period applied (R207). -/
theorem applySet_period (h : (s.br b).fbPer = true) (hm : m ∈ legsOf s b) :
    ((applySet b .period s).leg m).per = s.rd R.FB_PER.PER b ∧
      OnTimeSet (64 * nextValley (s.br b)) ((applySet b .period s).leg m) := by
  have hlegs : legsOf (applyFbPer b s) b = legsOf s b :=
    legsOf_congr (State.reg_congr (applyFbPer_regs b s) _) (State.reg_congr (applyFbPer_regs b s) _)
  have hper : ((applyFbPer b s).leg m).per = s.rd R.FB_PER.PER b := by rw [applyFbPer_leg h, if_pos hm]
  obtain ⟨x, hx, rfl⟩ : ∃ x ∈ legIndexes (applyFbPer b s) b, x.2 = m := by
    have hsnd : (legIndexes (applyFbPer b s) b).map Prod.snd = legsOf (applyFbPer b s) b := List.map_snd_zip (by simp)
    rw [← hlegs, ← hsnd] at hm
    exact List.mem_map.1 hm
  obtain ⟨y, hy⟩ := applySet_eq b .period s
  rw [hy, State.leg_setBr]
  constructor
  · exact State.each_ind (fun v => (v.leg x.2).per = s.rd R.FB_PER.PER b) _ (fun v z hv => (legSet_kept ..).trans hv) _ _ hper
  · refine each_reaches (p := fun v => OnTimeSet _ (v.leg x.2)) hx (fun v => legSet_period ..) (fun v z hv => ?_) _
    by_cases hz : x.2 = z.2
    · rw [hz]
      exact legSet_period ..
    · rwa [legSet_other _ _ _ hz]

/-! ### The fall-back path at the valley (R206, R207) -/

theorem valleyBegun_mode (b : Nat) (s : State) : modeOf (valleyBegun b s) b = modeOf s b := rd_of_regs (valleyBegun_kept b s).regs _ _ _

theorem valleyBegun_fallback (b : Nat) (s : State) : fallbackRuns (valleyBegun b s) b = fallbackRuns s b := by
  have hplaced : ((valleyBegun b s).br b).placed = (s.br b).placed := (valleyBegun_kept b s).placed
  rw [fallbackRuns, fallbackRuns, valleyBegun_mode, hplaced]

theorem valleySet_run (h : fallbackRuns s b = true) : valleySet b s = fallbackValley b (valleyBegun b s) :=
  if_pos ((valleyBegun_fallback b s).trans h)

theorem valleySet_rest (h : fallbackRuns s b = false) : valleySet b s = valleyBegun b s :=
  if_neg (by rw [valleyBegun_fallback, h]; exact Bool.false_ne_true)

/-- What is pending of the fall-back path is a whole set of one tag. -/
def fbWhole (s : State) (b : Nat) : Prop := ∀ i ∈ (s.br b).fbDuty, s.rd R.FB_DUTY.TAG b i = s.rd R.FB_PER.TAG b

theorem fallbackValley_whole (hl : (s.br b).sashLoad = false) (hp : (s.br b).fbPer = true ∨ (s.br b).fbDuty ≠ [])
    (hw : fbWhole s b) : fallbackValley b s = clearSplit b (applySet b .period s) := by
  refine (if_neg (by simp [hl])).trans ((if_neg ?_).trans (if_pos ?_))
  · rintro ⟨hduty, hper⟩
    rcases hp with h | h
    · rw [hper] at h
      cases h
    · exact h hduty
  · exact List.all_eq_true.2 fun i hi => decide_eq_true (hw i hi)

/-- An incomplete set raises SPLIT and its age (R206, R207). -/
theorem fallbackValley_split (hl : (s.br b).sashLoad = false) (hw : ¬ fbWhole s b) (hage : s.rd R.FB_STATUS.SPLIT_AGE b < 3) :
    ∃ u, (u = s ∨ u = s.countUp R.FB_STATUS.SPLITS b) ∧ fallbackValley b s =
      (u.raise R.FB_STATUS.SPLIT b).wr R.FB_STATUS.SPLIT_AGE b (s.rd R.FB_STATUS.SPLIT_AGE b + 1) := by
  refine ⟨if s.rd R.FB_STATUS.SPLIT_AGE b = 0 then s.countUp R.FB_STATUS.SPLITS b else s, ?_, ?_⟩
  · split
    · exact .inr rfl
    · exact .inl rfl
  · refine (if_neg (by simp [hl])).trans ((if_neg ?_).trans ((if_neg ?_).trans (if_neg (by omega))))
    · rintro ⟨hduty, -⟩
      exact hw fun i hi => by rw [hduty] at hi; cases hi
    · exact fun h => hw fun i hi => of_decide_eq_true (List.all_eq_true.1 h i hi)

/-- The strobed period leaves the fall-back path as it was. -/
theorem valleyBegun_br (b : Nat) (s : State) : ∃ x, (valleyBegun b s).br b = { s.br b with strobePer := x } := by
  obtain ⟨hbr, -⟩ := takeStrobePer_rest b ((s.br b).valN + 1) (reachTime (nextValley (s.br b)) s)
  exact hbr

theorem valleyBegun_rd (b : Nat) (s : State) (f : Fld) (i j : Nat) : (valleyBegun b s).rd f i j = s.rd f i j :=
  rd_of_regs (valleyBegun_kept b s).regs f i j

theorem valleyBegun_whole (b : Nat) (s : State) : fbWhole (valleyBegun b s) b ↔ fbWhole s b := by
  obtain ⟨x, hx⟩ := valleyBegun_br b s
  unfold fbWhole
  rw [hx]
  simp only [valleyBegun_rd]

theorem valleyBegun_legs (b : Nat) (s : State) : legsOf (valleyBegun b s) b = legsOf s b :=
  legsOf_congr (State.reg_congr (valleyBegun_kept b s).regs _) (State.reg_congr (valleyBegun_kept b s).regs _)

theorem valleySet_whole (hr : fallbackRuns s b = true) (hl : (s.br b).sashLoad = false)
    (hp : (s.br b).fbPer = true ∨ (s.br b).fbDuty ≠ []) (hw : fbWhole s b) :
    valleySet b s = clearSplit b (applySet b .period (valleyBegun b s)) := by
  obtain ⟨x, hx⟩ := valleyBegun_br b s
  rw [valleySet_run hr]
  exact fallbackValley_whole (by rw [hx]; exact hl) (by rw [hx]; exact hp) ((valleyBegun_whole b s).2 hw)

/-- A whole set leaves nothing pending, and no split. -/
theorem valleyPassed_whole (h : valleySet b s = clearSplit b (applySet b lim (valleyBegun b s))) :
    ((valleyPassed b s).br b).fbDuty = [] ∧ ((valleyPassed b s).br b).fbPer = false ∧
      (valleyPassed b s).rd R.FB_STATUS.SPLIT b = 0 ∧ (valleyPassed b s).rd R.FB_STATUS.SPLIT_AGE b = 0 := by
  obtain ⟨-, -, hfbPer, hfbDuty, -, hsplit, hage⟩ := valleyPassed_kept b s
  obtain ⟨hper, hduty, -⟩ := applySet_br b lim (valleyBegun b s)
  rw [h] at hfbPer hfbDuty hsplit hage
  rw [hfbDuty, hfbPer, hsplit, hage, clearSplit_br]
  refine ⟨hduty, hper, ?_, ?_⟩
  · rw [clearSplit, State.clear_eq, State.clear_eq, rd_wr_apart, State.rd_wr_same _ _ _ _ (by decide), Nat.zero_mod]
  · rw [clearSplit, State.clear_eq, State.clear_eq, State.rd_wr_same _ _ _ _ (by decide), Nat.zero_mod]

theorem clearSplit_leg (b m : Nat) (s : State) : (clearSplit b s).leg m = s.leg m := by
  rw [clearSplit, State.clear_eq, State.clear_eq, State.leg_wr, State.leg_wr]

/-- A whole set with a period: every leg has it, and an on-time within it for this valley. -/
theorem valleyPassed_set (h : valleySet b s = clearSplit b (applySet b .period (valleyBegun b s))) (hp : (s.br b).fbPer = true)
    (hm : m ∈ legsOf s b) : ((valleyPassed b s).leg m).per = s.rd R.FB_PER.PER b ∧
      ∃ v, ((valleyPassed b s).leg m).pendT = some (v, 64 * nextValley (s.br b)) ∧ v ≤ 64 * s.rd R.FB_PER.PER b := by
  obtain ⟨x, hx⟩ := valleyBegun_br b s
  obtain ⟨hper, v, hv, hle⟩ := applySet_period (s := valleyBegun b s) (by rw [hx]; exact hp) (by rwa [valleyBegun_legs])
  rw [hper, valleyBegun_rd] at hle
  rw [hx] at hv
  rw [valleyPassed_per, valleyPassed_pendT, h, clearSplit_leg, hper, valleyBegun_rd]
  exact ⟨rfl, v, hv, hle⟩

/-- What is not a whole set is not applied. -/
theorem valleyPassed_split (hr : fallbackRuns s b = true) (hl : (s.br b).sashLoad = false) (hw : ¬ fbWhole s b)
    (hage : s.rd R.FB_STATUS.SPLIT_AGE b < 3) : ((valleyPassed b s).br b).fbDuty = (s.br b).fbDuty ∧
      (valleyPassed b s).rd R.FB_STATUS.SPLIT b = 1 ∧
      (valleyPassed b s).rd R.FB_STATUS.SPLIT_AGE b = s.rd R.FB_STATUS.SPLIT_AGE b + 1 ∧
      ∀ m, ((valleyPassed b s).leg m).pendT = (s.leg m).pendT := by
  obtain ⟨x, hx⟩ := valleyBegun_br b s
  obtain ⟨u, hu, hset⟩ := fallbackValley_split (s := valleyBegun b s) (by rw [hx]; exact hl) (mt (valleyBegun_whole b s).1 hw)
    (by rwa [valleyBegun_rd])
  rw [← valleySet_run hr, valleyBegun_rd] at hset
  have hbr : u.br b = (valleyBegun b s).br b := by
    rcases hu with rfl | rfl
    · rfl
    · rw [State.countUp_eq, State.br_wr]
  have hleg : ∀ m, u.leg m = (valleyBegun b s).leg m := fun m => by
    rcases hu with rfl | rfl
    · rfl
    · rw [State.countUp_eq, State.leg_wr]
  obtain ⟨-, -, -, hfbDuty, -, hsplit, hold⟩ := valleyPassed_kept b s
  refine ⟨?_, ?_, ?_, fun m => ?_⟩
  · rw [hfbDuty, hset, State.br_wr, State.raise_eq, State.br_wr, hbr, hx]
  · rw [hsplit, hset, rd_wr_apart, State.raise_eq, State.rd_wr_same _ _ _ _ (by decide)]
    rfl
  · rw [hold, hset, State.rd_wr_same _ _ _ _ (by decide)]
    exact Nat.mod_eq_of_lt (Nat.succ_lt_succ hage)
  · rw [valleyPassed_pendT, hset, State.leg_wr, State.raise_eq, State.leg_wr, hleg]
    obtain ⟨-, hpend⟩ := takeStrobePer_rest b ((s.br b).valN + 1) (reachTime (nextValley (s.br b)) s)
    exact hpend m

/-! ### The master valley itself (R196, R206) -/

theorem takePeriod_br (n : Nat) (s : State) (b : Nat) : (takePeriod n s).br b = s.br b := by
  unfold takePeriod
  extract_lets l
  split
  · rfl
  · split
    · rw [State.br_setLeg, State.br_wr]
    · rw [State.br_setLeg]

/-- The valley is counted and kept with the period that begins there. -/
theorem valleyPassed_br (b : Nat) (s : State) : ((valleyPassed b s).br b).tag = (((valleySet b s).br b).tag + 1) % 128 ∧
    ((valleyPassed b s).br b).valN = ((valleySet b s).br b).valN + 1 ∧
    ((valleyPassed b s).br b).strobePer = ((valleySet b s).br b).strobePer ∧
    ((valleyPassed b s).br b).vals.head? = some (nextValley (s.br b), masterPer (valleyPassed b s) b) := by
  have hbr : ((valleySet b s).each (legsOf (valleySet b s) b) (fun s n => takePeriod n s)).br b = (valleySet b s).br b :=
    State.each_ind (fun v => v.br b = (valleySet b s).br b) _ (fun v m hv => (takePeriod_br m v b).trans hv) _ _ rfl
  rw [valleyPassed]
  generalize (valleySet b s).each (legsOf (valleySet b s) b) (fun s n => takePeriod n s) = u at hbr
  have hper : masterPer (pushValley b (nextValley (s.br b)) u) b = masterPer u b := rfl
  rw [hper, pushValley, State.br_setBr_same, hbr]
  exact ⟨rfl, rfl, rfl, rfl⟩

/-- Off the fall-back path the valley brings the strobed period alone. -/
theorem valleyPassed_rest (hr : fallbackRuns s b = false) : ((valleyPassed b s).br b).tag = ((s.br b).tag + 1) % 128 ∧
    ((valleyPassed b s).br b).valN = (s.br b).valN + 1 ∧ (valleyPassed b s).now = max s.now (nextValley (s.br b)) ∧
    ((valleyPassed b s).br b).strobePer = ((valleyBegun b s).br b).strobePer ∧
    ∀ m ∈ legsOf s b, ((valleyPassed b s).leg m).perF = ((valleyBegun b s).leg m).per ∧
      ((valleyPassed b s).leg m).per = ((valleyBegun b s).leg m).per := by
  obtain ⟨htag, hval, hstrobe, -⟩ := valleyPassed_br b s
  obtain ⟨x, hx⟩ := valleyBegun_br b s
  have hnow : (valleyBegun b s).now = max s.now (nextValley (s.br b)) := (valleyBegun_kept b s).now
  have hnow' := (valleyPassed_kept b s).now
  rw [valleySet_rest hr] at htag hval hstrobe hnow'
  rw [htag, hval, hstrobe, hnow', hx]
  refine ⟨rfl, rfl, hnow, rfl, fun m hm => ?_⟩
  rw [valleyPassed_leg, valleySet_rest hr, valleyBegun_legs, if_pos hm]
  obtain ⟨hper, hF, -⟩ := periodTaken_kept ((valleyBegun b s).leg m)
  exact ⟨hF, hper⟩

/-- The strobed period reaches the legs at the valley with which its beat has ended. -/
theorem valleyBegun_due {p e : Nat} (h : (s.br b).strobePer = some (p, e)) (he : e ≤ 2 * ((s.br b).valN + 1)) :
    ((valleyBegun b s).br b).strobePer = none ∧ ∀ m ∈ legsOf s b, ((valleyBegun b s).leg m).per = p := by
  refine ⟨takeStrobePer_strobe (s := reachTime _ s) h he, fun m hm => ?_⟩
  rw [valleyBegun, takeStrobePer_leg (s := reachTime _ s) h he m]
  exact congrArg Leg.per (if_pos hm)

theorem valleyBegun_early {p e : Nat} (h : (s.br b).strobePer = some (p, e)) (he : 2 * ((s.br b).valN + 1) < e) :
    valleyBegun b s = reachTime (nextValley (s.br b)) s := takeStrobePer_early (s := reachTime _ s) h he

theorem valleyBegun_none (h : (s.br b).strobePer = none) : valleyBegun b s = reachTime (nextValley (s.br b)) s :=
  takeStrobePer_none (s := reachTime _ s) h

/-! ### The reply after it -/

theorem swapSettled_leg (k : Nat) (s : State) (m : Nat) : (swapSettled k s).leg m = s.leg m :=
  State.leg_congr (Aside.refl s).swapSettled.legs m

theorem swapSettled_br (k : Nat) (s : State) (c : Nat) : (swapSettled k s).br c = s.br c :=
  State.br_congr (GroveKept.refl s).swapSettled.bridges c

/-- The fields of a bridge's page stay. -/
theorem swapSettled_rd {f : Fld} (k : Nat) (s : State) (hb : b < 4)
    (hf : f.stride = 0x400 ∧ 0x100000 ≤ f.base ∧ f.base < 0x100400 := by decide) : (swapSettled k s).rd f b = s.rd f b := by
  obtain ⟨hstride, hlo, hhi⟩ := hf
  rw [State.rd_eq, State.rd_eq, (Aside.refl s).swapSettled.reg]
  simp only [bridgeBlock, fldAddr, hstride]
  omega

theorem swapSettled_masterPer (k : Nat) (s : State) (hb : b < 4) : masterPer (swapSettled k s) b = masterPer s b := by
  have hleg : masterLeg (swapSettled k s) b = masterLeg s b := swapSettled_rd (f := R.BR_PHASE.P0_FIRST) k s hb
  rw [masterPer, masterPer, hleg, swapSettled_leg]

end Sys2Proof.Machine
end
section
/-! PROOF. O46. -/

namespace Sys2Proof.Machine

open Sys2Proof

variable {s : State} {b : Nat}

theorem masterValley_exec (hb : b < 4) (hc : cfgOk s b = true) (hp : masterPer s b ≠ 0) :
    exec (.masterValley b) s = .next (swapSettled (4 + b) (valleyPassed b s)) :=
  congrArg Host.Outcome.next (masterValley_eq hb hc hp)

theorem fallback_parts (h : fallbackRuns s b = true) : modeOf s b = 1 ∧ (s.br b).placed = none := by
  rw [fallbackRuns, Bool.and_eq_true, decide_eq_true_eq, Option.isNone_iff_eq_none] at h
  exact h

/-- The valley that a SASH_LOAD waits for sends its reply (R209). -/
theorem masterValley_sends {r : Held} (hr : fallbackRuns s b = true) (hl : (s.br b).sashLoad = true)
    (hmask : s.host.heldMask = 2 ^ (4 + b)) (hheld : s.host.held = some r) (hdue : max s.now (nextValley (s.br b)) < s.host.heldDue) :
    ((swapSettled (4 + b) (valleyPassed b s)).br b).sashLoad = false ∧ ((swapSettled (4 + b) (valleyPassed b s)).br b).fbDuty = [] ∧
      (swapSettled (4 + b) (valleyPassed b s)).host.heldMask = 0 ∧ (swapSettled (4 + b) (valleyPassed b s)).host.held = none ∧
      ((swapSettled (4 + b) (valleyPassed b s)).transport r.can).rp = (s.transport r.can).rp ++ [r.reply] ∧
      (valleyPassed b s).rd R.FB_STATUS.SPLIT b = 0 := by
  obtain ⟨hmode, hplaced⟩ := fallback_parts hr
  obtain ⟨hhost, hnow, ⟨-, hduty, hload⟩, hsplit, -⟩ := valleyPassed_applied hmode hplaced hl
  have hsent := swapSettled_sends (s := valleyPassed b s) (by rw [hhost, hheld]) (by rw [hhost, hmask]) (by rwa [hnow, hhost])
  obtain ⟨hnone, hzero, hrp⟩ := sendHeld_host r (valleyPassed b s)
  rw [swapSettled_br, hsent]
  refine ⟨hload, hduty, hzero, hnone, hrp.trans ?_, hsplit⟩
  rw [State.transport, hhost]
  rfl

/-- Settles O46: an update point takes what is due and plans its pulses within the period; a master valley takes the strobed period
and, on the fall-back path, a whole set. -/
theorem sashUpdatesPulses : Obligations.SashUpdatesPulses := by
  refine ⟨fun b n s => ⟨fun hb hp peak beat => congrArg Host.Outcome.next (updatePoint_missed hb hp beat),
    fun i p peak beat hb hp h => congrArg Host.Outcome.next (updatePoint_other hb hp h),
    fun i p per hb hp hper _ hmax hT hR => ?_⟩, fun b s hb hc hper => ⟨fun hr hl => ?_, fun hr hl hp hw => ?_, fun hr hl hd => ⟨fun hw => ?_,
      fun hw hage => ?_⟩, fun r hr hl hmask hheld hdue => ?_⟩⟩
  · obtain ⟨t, hexec, hdone, hidle, hpulse⟩ := updatePoint_outcome hb hp hper hmax hT hR
    obtain ⟨hat, hN, hcoarse, hncal, hduty, hton⟩ := hdone.shows
    refine ⟨t, hexec, hdone.now, hat, hN, hdone.bridges, hdone.others, hcoarse, hncal,
      fun d e h => ⟨hduty.due d e h, hduty.early d e h⟩, hduty.none, fun d hd => ?_, hduty.kept, hidle, fun hruns => ?_⟩
    · rw [hduty.ton d hd, Nat.mul_div_cancel_left _ (by decide)]
    · obtain ⟨x, hheld, hshown, hle, hlo, hhi, hwhole⟩ := hpulse hruns
      refine ⟨x, hheld, hshown, hle, hlo, hhi, fun h1 h2 h3 h4 h5 h6 => ?_⟩
      have hkept := pointLeg_kept s b n i p (64 * per)
      rw [hton] at h5 h6 ⊢
      exact hwhole ⟨hkept.held.trans h1, hkept.gates.trans h2, hkept.edges.trans h3, h4, h5, h6⟩
  · obtain ⟨htag, hval, hnow, hstrobe, hlegs⟩ := valleyPassed_rest hr
    obtain ⟨-, -, -, hvals⟩ := valleyPassed_br b s
    have hstill : (swapSettled (4 + b) (valleyPassed b s)).now = (valleyPassed b s).now := (Aside.refl _).swapSettled.now
    refine ⟨_, masterValley_exec hb hc hper, ?_⟩
    rw [swapSettled_br, swapSettled_masterPer _ _ hb, hstill]
    simp only [swapSettled_leg]
    refine ⟨htag, hval, hnow, hvals, fun hnone m hm => ?_, fun p e hstr => ⟨fun he => ?_, fun he => ?_⟩⟩
    · have hleg := hlegs m hm
      rwa [valleyBegun_none hnone] at hleg
    · obtain ⟨hgone, hbegun⟩ := valleyBegun_due hstr he
      refine ⟨hstrobe.trans hgone, fun m hm => ?_⟩
      have hleg := hlegs m hm
      rwa [hbegun m hm] at hleg
    · rw [valleyBegun_early hstr he] at hstrobe hlegs
      exact ⟨hstrobe.trans hstr, hlegs⟩
  · have hset := valleySet_whole hr hl (.inl hp) hw
    obtain ⟨hduty, hfbPer, -, -⟩ := valleyPassed_whole hset
    refine ⟨_, masterValley_exec hb hc hper, ?_⟩
    simp only [swapSettled_br, swapSettled_leg]
    exact ⟨hduty, hfbPer, fun m hm => valleyPassed_set hset hp hm⟩
  · obtain ⟨hduty, hfbPer, hsplit, hzero⟩ := valleyPassed_whole (valleySet_whole hr hl (.inr hd) hw)
    refine ⟨_, masterValley_exec hb hc hper, ?_⟩
    rw [swapSettled_br, swapSettled_rd _ _ hb, swapSettled_rd _ _ hb]
    exact ⟨hduty, hfbPer, hsplit, hzero⟩
  · have hnot : ¬ fbWhole s b := by
      obtain ⟨i, hi, hne⟩ := hw
      exact fun h => hne (h i hi)
    obtain ⟨hduty, hsplit, hold, hpend⟩ := valleyPassed_split hr hl hnot hage
    refine ⟨_, masterValley_exec hb hc hper, ?_⟩
    simp only [swapSettled_br, swapSettled_leg]
    rw [swapSettled_rd _ _ hb, swapSettled_rd _ _ hb]
    exact ⟨hduty, hsplit, hold, hpend⟩
  · obtain ⟨hload, hduty, hzero, hnone, hrp, hsplit⟩ := masterValley_sends hr hl hmask hheld hdue
    exact ⟨_, masterValley_exec hb hc hper, hload, hduty, hzero, hnone, hrp, (swapSettled_rd _ _ hb).trans hsplit⟩

end Sys2Proof.Machine
end
section
/-! SUPPORT. O49: what the operations that a seal and a safety fault are made of leave of the reports of the dies. `ReportKept s t`:
what a frame shows of a die stays, a gate and a warning that are off stay off, and an overlap that has tripped trips no
more. -/

namespace Sys2Proof.Machine

open Sys2Proof

/-! ### The relation -/

/-- What a status frame and the line leave in a die (R228, R239, R243, R359). -/
structure DieTold where
  linkLost : Bool
  scHigh : Bool
  onAt : Nat
  shtBad : Nat
  stopped : Bool

def Die.told (d : Die) : DieTold := ⟨d.linkLost, d.scHigh, d.onAt, d.shtBad, d.stopped⟩

/-- The present overlap of leg `n`, if there is one, has tripped, or is too short to trip now (R228). -/
def tripSpent (s : State) (n : Nat) : Prop :=
  (s.leg n).xchk = true ∨ s.now ≤ max (s.die (2 * n)).onAt (s.die (2 * n + 1)).onAt + 16

/-- The fields that show the cross-check of a leg, and those that show the gate of a die (R228, R246). -/
def tripFlds : List Fld := [R.IL_STATUS.XCHK_TRIP, R.IL_COUNT.XCHK_CNT]

def gateFlds : List Fld := [R.DRV_STATUS.GATE, R.DRV_STATUS.OC_ACT]

/-- A leg whose overlap is spent trips no more. -/
def TripKept (n : Nat) (s t : State) : Prop := tripSpent s n → tripSpent t n ∧ ∀ g ∈ tripFlds, t.rd g n = s.rd g n

/-- The dies tell what they told, no gate and no warning comes on, the invalid edges are counted, and no spent overlap trips. -/
structure ReportKept (s t : State) : Prop where
  told : ∀ k, (t.die k).told = (s.die k).told
  low : ∀ g ∈ gateFlds, ∀ k < 48, s.rd g k = 0 → t.rd g k = 0
  invalid : ∀ k < 48, t.rd R.DRV_CNT2.INVALID k = s.rd R.DRV_CNT2.INVALID k
  trip : ∀ n < 24, TripKept n s t

/-- The fields that the relation speaks of. -/
def reportFlds : List Fld := gateFlds ++ R.DRV_CNT2.INVALID :: tripFlds

theorem reportFlds_base : ∀ g ∈ reportFlds, 0x480000 ≤ g.base ∧ g.base < 0x480c10 ∧ g.stride ≤ 0x40 := by decide

theorem reportFld_power {g : Fld} (hg : g ∈ reportFlds) {i : Nat} (hi : i < 48) : powerBlock (fldAddr g i 0) := by
  obtain ⟨h1, h2, h3⟩ := reportFlds_base g hg
  have h4 : i * g.stride ≤ 48 * 0x40 := Nat.mul_le_mul hi.le h3
  simp only [powerBlock, fldAddr]
  omega

/-- A write below the registers of the dies (R246). -/
theorem reportFld_wrBelow {f g : Fld} (hf : dieBelow f = true) (hg : g ∈ reportFlds) (s : State) (k : Nat) {i : Nat} (hi : i < 64)
    (v : Nat) : (s.wr f i v).rd g k = s.rd g k := by
  refine State.rd_wr_addr s g f k 0 i v fun he => ?_
  have h1 := (reportFlds_base g hg).1
  have h2 : i * f.stride ≤ 64 * f.stride := Nat.mul_le_mul_right _ hi.le
  simp only [dieBelow, decide_eq_true_eq] at hf
  simp only [fldAddr] at he
  omega

/-! ### A trip -/

theorem tripSpent_congr {s t : State} {n : Nat} (hnow : t.now = s.now) (hon : ∀ j, (t.die j).onAt = (s.die j).onAt)
    (hx : (s.leg n).xchk = true → (t.leg n).xchk = true) (h : tripSpent s n) : tripSpent t n := by
  unfold tripSpent at *
  rw [hnow, hon, hon]
  exact h.imp_left hx

theorem tripSpent_noOverlap {s : State} {n : Nat} (h : tripSpent s n) : gatesOverlap s n = false := by
  rcases h with h | h
  · simp only [gatesOverlap, h, Bool.not_true, Bool.and_false, Bool.false_and]
  · rw [gatesOverlap, decide_eq_false (Nat.not_lt.2 h), Bool.and_false]

theorem TripKept.refl (n : Nat) (s : State) : TripKept n s s := fun h => ⟨h, fun _ _ => rfl⟩

theorem TripKept.trans {n : Nat} {s t u : State} (h : TripKept n s t) (k : TripKept n t u) : TripKept n s u := fun hs => by
  obtain ⟨ht, h1⟩ := h hs
  obtain ⟨hu, h2⟩ := k ht
  exact ⟨hu, fun g hg => (h2 g hg).trans (h1 g hg)⟩

/-- A field of one of the 48 dies, as its registers lie below those of the interlocks (R246, R250). -/
def dieFld (f : Fld) : Bool := decide (f.base < 0x480040 ∧ f.stride = 0x40)

theorem dieFld_wrTrip {f g : Fld} (hf : dieFld f = true) (hg : g ∈ tripFlds) {k : Nat} (hk : k < 48) (s : State) (n v : Nat) :
    (s.wr g n v).rd f k = s.rd f k := by
  have hbase : ∀ g ∈ tripFlds, 0x480c00 ≤ g.base := by decide
  have h1 := hbase g hg
  simp only [dieFld, decide_eq_true_eq] at hf
  obtain ⟨h2, h3⟩ := hf
  refine State.rd_wr_addr s f g k 0 n v fun he => ?_
  simp only [fldAddr, h3] at he
  omega

/-- The trip of a cross-check leaves the registers of the dies. -/
theorem crossTrip_dieRd {f : Fld} (hf : dieFld f = true) {k : Nat} (hk : k < 48) (n : Nat) (s : State) :
    (crossTrip n s).rd f k = s.rd f k := by
  unfold crossTrip
  split
  · rw [State.countUp_eq, dieFld_wrTrip hf (by decide) hk, State.raise_eq, dieFld_wrTrip hf (by decide) hk, State.rd_setLeg]
  · rfl

theorem crossTrip_now (n : Nat) (s : State) : (crossTrip n s).now = s.now := (Frame.crossTrip (.refl s)).now

/-- It leaves the other legs as well. -/
theorem crossTrip_leg_ne {m n : Nat} (hm : m ≠ n) (s : State) : (crossTrip n s).leg m = s.leg m := by
  unfold crossTrip
  split
  · rw [State.countUp_eq, State.leg_wr, State.raise_eq, State.leg_wr, State.leg_setLeg_ne _ _ _ hm]
  · rfl

theorem crossTrip_rd_ne {m n : Nat} (hm : m ≠ n) (s : State) {g : Fld} (hg : g ∈ tripFlds) :
    (crossTrip n s).rd g m = s.rd g m := by
  have hsteps : ∀ g ∈ tripFlds, ∀ f ∈ tripFlds,
      apartFld g f = true ∨ (g.base, g.stride) = (f.base, f.stride) ∧ 0 < f.stride := by decide
  have hone : ∀ f ∈ tripFlds, ∀ (v : State) (x : Nat), (v.wr f n x).rd g m = v.rd g m := fun f hf v x =>
    (hsteps g hg f hf).elim (fun ha => rd_wr_apart v m 0 n x ha) (fun hi => rd_wr_instance v x hm hi)
  unfold crossTrip
  split
  · rw [State.countUp_eq, hone _ (by decide), State.raise_eq, hone _ (by decide), State.rd_setLeg]
  · rfl

/-- A cross-check that trips on one leg leaves the spent overlaps of every leg as they are. -/
theorem crossTrip_kept (m n : Nat) (s : State) : TripKept m s (crossTrip n s) := fun hs => by
  by_cases hm : m = n
  · subst hm
    rw [crossTrip_none (tripSpent_noOverlap hs)]
    exact TripKept.refl _ _ hs
  · refine ⟨tripSpent_congr (crossTrip_now n s) (fun j => by rw [crossTrip_die]) (fun hx => ?_) hs,
      fun g hg => crossTrip_rd_ne hm s hg⟩
    rwa [crossTrip_leg_ne hm]

namespace ReportKept

variable {s t u : State}

protected theorem refl (s : State) : ReportKept s s := ⟨fun _ => rfl, fun _ _ _ _ => id, fun _ _ => rfl, fun _ _ => .refl _ _⟩

protected theorem trans (h : ReportKept s t) (k : ReportKept t u) : ReportKept s u :=
  ⟨fun j => (k.told j).trans (h.told j), fun g hg j hj h0 => k.low g hg j hj (h.low g hg j hj h0),
    fun j hj => (k.invalid j hj).trans (h.invalid j hj), fun n hn => (h.trip n hn).trans (k.trip n hn)⟩

/-! What it says of a die, part by part. -/

protected theorem linkLost (h : ReportKept s t) (j : Nat) : (t.die j).linkLost = (s.die j).linkLost :=
  congrArg DieTold.linkLost (h.told j)

protected theorem scHigh (h : ReportKept s t) (j : Nat) : (t.die j).scHigh = (s.die j).scHigh :=
  congrArg DieTold.scHigh (h.told j)

protected theorem shtBad (h : ReportKept s t) (j : Nat) : (t.die j).shtBad = (s.die j).shtBad :=
  congrArg DieTold.shtBad (h.told j)

protected theorem stopped (h : ReportKept s t) (j : Nat) : (t.die j).stopped = (s.die j).stopped :=
  congrArg DieTold.stopped (h.told j)

protected theorem ite {c : Prop} [Decidable c] (ht : ReportKept s t) (hu : ReportKept s u) :
    ReportKept s (if c then t else u) := by
  split
  · exact ht
  · exact hu

/-- A loop whose passes are made for the members of its list. -/
protected theorem eachMem {α : Type} {f : State → α → State} {l : List α} (h : ReportKept s t)
    (hf : ∀ v x, x ∈ l → ReportKept s v → ReportKept s (f v x)) : ReportKept s (t.each l f) := by
  induction l generalizing t with
  | nil => exact h
  | cons x l ih => exact ih (hf t x List.mem_cons_self h) fun v y hy => hf v y (List.mem_cons_of_mem x hy)

/-- Other registers change, and other parts of the dies and the legs. -/
protected theorem rest (h : ReportKept s t) (hnow : u.now = t.now) (htold : ∀ k, (u.die k).told = (t.die k).told)
    (hx : ∀ n, (t.leg n).xchk = true → (u.leg n).xchk = true) (hrd : ∀ g ∈ reportFlds, ∀ i < 48, u.rd g i = t.rd g i) :
    ReportKept s u := by
  refine h.trans ⟨htold, fun g hg k hk h0 => ?_, hrd _ (by decide), fun n hn hs => ⟨?_, fun g hg => hrd g ?_ n (by omega)⟩⟩
  · rwa [hrd g (List.mem_append_left _ hg) k hk]
  · exact tripSpent_congr hnow (fun j => congrArg DieTold.onAt (htold j)) (hx n) hs
  · exact List.mem_append_right _ (List.mem_cons_of_mem _ hg)

/-- An operation that keeps the power block, the legs and the dies. -/
protected theorem aside (h : ReportKept s t) (k : Aside t u) : ReportKept s u := by
  refine h.rest k.now (fun j => ?_) (fun n => ?_) fun g hg i hi => k.rd (reportFld_power hg hi)
  · rw [State.die_congr k.dies]
  · rw [State.leg_congr k.legs]
    exact id

/-- A write that shares no bit with the fields of a report. -/
protected theorem wr {f : Fld} {i v : Nat} (h : ReportKept s t) (hrd : ∀ g ∈ reportFlds, ∀ k, (t.wr f i v).rd g k = t.rd g k) :
    ReportKept s (t.wr f i v) := h.rest rfl (fun _ => rfl) (fun _ => id) fun g hg k _ => hrd g hg k

protected theorem wrBelow {f : Fld} {i v : Nat} (h : ReportKept s t) (hi : i < 64) (hf : dieBelow f = true := by decide) :
    ReportKept s (t.wr f i v) := h.wr fun _ hg k => reportFld_wrBelow hf hg t k hi v

protected theorem clearBelow {f : Fld} {i : Nat} (h : ReportKept s t) (hi : i < 64) (hf : dieBelow f = true := by decide) :
    ReportKept s (t.clear f i) := h.wrBelow hi hf

protected theorem clearConflict {n : Nat} (h : ReportKept s t) : ReportKept s (t.clear R.IL_STATUS.CONFLICT n) := by
  have hconf : ∀ g ∈ reportFlds, apartFld g R.IL_STATUS.CONFLICT = true := by decide
  exact h.wr fun g hg i => rd_wr_apart t i 0 n 0 (hconf g hg)

protected theorem setBr {b : Nat} {v : Bridge} (h : ReportKept s t) : ReportKept s (t.setBr b v) :=
  h.rest rfl (fun _ => rfl) (fun _ => id) fun _ _ _ _ => rfl

protected theorem setLeg {n : Nat} {v : Leg} (h : ReportKept s t) (hv : (t.leg n).xchk = true → v.xchk = true) :
    ReportKept s (t.setLeg n v) := by
  refine h.rest rfl (fun _ => rfl) (fun m hm => ?_) fun _ _ _ _ => rfl
  by_cases hn : m = n
  · subst hn
    rw [State.leg_setLeg_same]
    exact hv hm
  · rwa [State.leg_setLeg_ne t n v hn]

protected theorem setDie {j : Nat} {v : Die} (h : ReportKept s t) (hv : v.told = (t.die j).told) :
    ReportKept s (t.setDie j v) := by
  refine h.rest rfl (fun k => ?_) (fun _ => id) fun _ _ _ _ => rfl
  by_cases hk : k = j
  · subst hk
    rw [State.die_setDie_same, hv]
  · rw [State.die_setDie_ne t j v hk]

/-- The gate of a switch, or its warning, reported off. -/
protected theorem clearGate {f : Fld} {j : Nat} (h : ReportKept s t) (hf : f ∈ gateFlds := by decide) :
    ReportKept s (t.clear f j) := by
  have hgate : ∀ g ∈ gateFlds, ∀ f ∈ gateFlds, g = f ∨ apartFld g f = true := by decide
  have hother : ∀ f ∈ gateFlds, ∀ g ∈ R.DRV_CNT2.INVALID :: tripFlds, apartFld g f = true := by decide
  have hwidth : ∀ f ∈ gateFlds, f.lo + f.width ≤ 32 ∧ 0 < f.stride := by decide
  refine h.trans ⟨fun _ => rfl, fun g hg k _ h0 => ?_, fun k _ => rd_wr_apart t k 0 j 0 (hother f hf _ (by decide)),
    fun n _ hs => ⟨hs, fun g hg => rd_wr_apart t n 0 j 0 (hother f hf g (List.mem_cons_of_mem _ hg))⟩⟩
  rw [State.clear_eq]
  rcases hgate g hg f hf with rfl | hap
  · by_cases hk : k = j
    · subst hk
      rw [State.rd_wr_same _ _ _ _ (hwidth g hg).1, Nat.zero_mod]
    · rw [rd_wr_instance t 0 hk ⟨rfl, (hwidth g hg).2⟩, h0]
  · rw [rd_wr_apart _ _ _ _ _ hap, h0]

/-! ### Gates and legs -/

protected theorem crossTrip {n : Nat} (h : ReportKept s t) : ReportKept s (crossTrip n t) := by
  have hdie : ∀ f ∈ R.DRV_CNT2.INVALID :: gateFlds, dieFld f = true := by decide
  refine h.trans ⟨fun k => by rw [crossTrip_die], fun g hg k hk h0 => ?_, fun k hk => ?_, fun m _ => crossTrip_kept m n t⟩
  · rw [crossTrip_dieRd (hdie g (List.mem_cons_of_mem _ hg)) hk, h0]
  · exact crossTrip_dieRd (hdie _ List.mem_cons_self) hk n t

protected theorem gateFell {k : Nat} (h : ReportKept s t) : ReportKept s (gateFell k t) := by
  refine .ite (h.crossTrip.clearGate.clearGate.setDie ?_) h.clearGate
  simp only [State.clear_eq, State.die_wr, Die.told]

protected theorem gateOff {k : Nat} (h : ReportKept s t) : ReportKept s (gateOff k t) := by
  refine .ite h (.ite (h.setDie ?_) h.gateFell)
  rfl

protected theorem legOff {n : Nat} (h : ReportKept s t) : ReportKept s (legOff n t) := h.gateOff.gateOff

protected theorem armSupply {k : Nat} {on_ : Bool} (h : ReportKept s t) : ReportKept s (armSupply k on_ t) := by
  refine h.setDie ?_
  rfl

protected theorem legBlock {n : Nat} (h : ReportKept s t) (hn : n < 64) : ReportKept s (legBlock n t) := by
  refine ((h.clearBelow hn).clearBelow hn |>.setLeg ?_).legOff.armSupply.armSupply
  intro hx
  rw [State.clear_eq, State.leg_wr, State.clear_eq, State.leg_wr] at hx
  split
  · exact hx
  · exact hx

protected theorem closeShutter {b : Nat} (h : ReportKept s t) : ReportKept s (closeShutter b t) := by
  refine ReportKept.eachMem h.setBr.setBr fun _ n hn h1 => h1.legBlock ?_
  have := legsOf_lt hn
  omega

protected theorem sealLeg {n : Nat} (h : ReportKept s t) (hn : n < 64) : ReportKept s (sealLeg n t) := by
  refine ((h.setLeg ?_).clearBelow hn |>.clearBelow hn |>.clearBelow hn |>.clearBelow hn |>.clearBelow hn |>.clearBelow hn
    |>.clearConflict)
  exact id

/-! ### The seal -/

protected theorem sealRelease {b : Nat} {how : SealHow} (h : ReportKept s t) (hb : b < 4) :
    ReportKept s (sealRelease b how t) := by
  have h0 : ReportKept s (if how.auto then refuseBeat b t else t) := .ite (h.aside (Aside.refl _).refuseBeat) h
  have h1 := ReportKept.ite (c := how.pull) (h0.aside ((Aside.refl _).pullBridge (b := b))) h0
  exact h1.closeShutter.aside ((Aside.refl _).swapSettled.swapSettled.freeEngines hb)

protected theorem sealClear {ls : List Nat} {b : Nat} (h : ReportKept s t) (hb : b < 64) (hl : ∀ n ∈ ls, n < 64) :
    ReportKept s (sealClear ls b t) :=
  (h.eachMem fun _ n hn h1 => h1.sealLeg (hl n hn)).clearBelow hb |>.clearBelow hb |>.clearBelow hb |>.clearBelow hb
    |>.clearBelow hb |>.clearBelow hb |>.clearBelow hb |>.clearBelow hb |>.clearBelow hb |>.clearBelow hb |>.clearBelow hb
    |>.clearBelow hb |>.setBr

protected theorem sealRecord {b : Nat} {how : SealHow} (h : ReportKept s t) (hb : b < 64) :
    ReportKept s (sealRecord b how t) := by
  unfold sealRecord
  extract_lets s6 s7
  have hmode : ReportKept s (changeMode b 0 0 t) := ReportKept.aside (t := modeWritten b 0 0 t)
    ((h.wrBelow hb).wrBelow hb |>.wrBelow (by decide)).setBr (changeMode_aside 0 0 t)
  have h6 : ReportKept s s6 := (hmode.wrBelow hb).wrBelow hb
  have h7 : ReportKept s s7 := .ite (h6.wrBelow hb) h6
  exact .ite (h7.wrBelow (by decide)) h7

protected theorem sealBridge {b : Nat} {how : SealHow} (h : ReportKept s t) (hb : b < 4) : ReportKept s (sealBridge b how t) := by
  by_cases hm : modeOf t b = 0
  · rwa [sealBridge_sealed how hm]
  · rw [sealBridge_eq how hm]
    have hb64 : b < 64 := by omega
    have hlegs : ∀ n ∈ legsOf t b, n < 64 := fun n hn => by
      have := legsOf_lt hn
      omega
    exact (((h.sealRelease hb).sealClear hb64 hlegs).sealRecord hb64).aside (sealTell_aside how _)

protected theorem crossCheck {n : Nat} (h : ReportKept s t) : ReportKept s (crossCheck n t) := by
  unfold Machine.crossCheck
  refine .ite ?_ h
  split
  · next hb => exact h.crossTrip.sealBridge (bridgeOfLeg_lt hb)
  · exact h

/-! ### A safety fault -/

protected theorem startRamp {b k len r : Nat} {l : Bool} (h : ReportKept s t) (hb : b < 4) :
    ReportKept s (startRamp b k len r l t) := by
  have h1 := (h.wrBelow (f := R.BR_STATUS.STEP) (i := b) (v := 6) (by omega)).setBr (b := b)
    (v := { t.br b with stepAt := t.now, stepOver := false, failDue := none })
  exact (h1.aside (Aside.refl _).noteKon).setBr

protected theorem ss1Start {b : Nat} (h : ReportKept s t) (hb : b < 4) : ReportKept s (ss1Start b t) := by
  unfold Machine.ss1Start
  split
  · exact .ite (h.sealBridge hb) (.ite h.setBr h)
  · exact .ite (h.startRamp hb).setBr (h.sealBridge hb)

protected theorem safetyBridge {old b : Nat} (h : ReportKept s t) (hb : b < 4) : ReportKept s (safetyBridge old b t) :=
  .ite h (.ite (h.sealBridge hb) (.ite (h.sealBridge hb) (.ite (h.ss1Start hb) h)))

protected theorem applySafety (h : ReportKept s t) : ReportKept s (applySafety t) :=
  ReportKept.aside (h.eachMem fun _ _ hb h1 => h1.safetyBridge (List.mem_range.1 hb)) (Aside.refl _).showActs

end ReportKept

/-- The Shutter test that fails is recorded before the safety functions act (R360, R371). -/
def shutterNoted (b : Nat) (s : State) : State :=
  safetyLog 9 15 (2 ^ b) 0 ((s.raiseBit R.SF_FAULT.SHT_FAULT b).raise R.SF_EVENT.FAULT_EV)

theorem shutterFails_eq (b : Nat) (s : State) : shutterFails b s = applySafety (shutterNoted b s) := rfl

theorem shutterNoted_aside (b : Nat) (s : State) : Aside s (shutterNoted b s) := by
  have h : Aside s (s.raiseBit R.SF_FAULT.SHT_FAULT b) := (Aside.refl s).wr
  exact h.raise.safetyLog

theorem ReportKept.shutterFails {b : Nat} {s t : State} (h : ReportKept s t) : ReportKept s (shutterFails b t) := by
  rw [shutterFails_eq]
  exact (h.aside (shutterNoted_aside b t)).applySafety

/-! ### A SEALED bridge stays so -/

/-- A SEALED bridge stays SEALED and keeps its reason (R40). -/
def SealStays (b : Nat) (s t : State) : Prop :=
  modeOf s b = 0 → modeOf t b = 0 ∧ t.rd R.BR_REASON.SEAL_REASON b = s.rd R.BR_REASON.SEAL_REASON b

theorem sealRecord_reason_ne {b c : Nat} {how : SealHow} {s : State} (hne : b ≠ c) :
    (sealRecord c how s).rd R.BR_REASON.SEAL_REASON b = (changeMode c 0 0 s).rd R.BR_REASON.SEAL_REASON b := by
  have hother : ∀ (u : State) (v : Nat), (u.wr R.BR_REASON.SEAL_REASON c v).rd R.BR_REASON.SEAL_REASON b =
      u.rd R.BR_REASON.SEAL_REASON b := fun u v => rd_wr_instance u v hne
  simp (disch := decide) only [sealRecord, State.countUp_eq, State.raise_eq, State.raiseBit_eq, State.rd_ite, rd_wr_apart,
    ite_self, hother]

namespace SealStays

variable {b c : Nat} {s t u : State}

protected theorem refl (b : Nat) (s : State) : SealStays b s s := fun h => ⟨h, rfl⟩

protected theorem trans (h : SealStays b s t) (k : SealStays b t u) : SealStays b s u := fun hs => by
  obtain ⟨ht, h1⟩ := h hs
  obtain ⟨hu, h2⟩ := k ht
  exact ⟨hu, h2.trans h1⟩

protected theorem frame (hb : b < 4) (h : Frame s t) : SealStays b s t := fun hs => ⟨(h.modes.rd hb).trans hs, h.modes.rd hb⟩

protected theorem ite {p : Prop} [Decidable p] (ht : SealStays b s t) (hu : SealStays b s u) :
    SealStays b s (if p then t else u) := by
  split
  · exact ht
  · exact hu

/-- The seal of another bridge records nothing of this one. -/
protected theorem sealBridge {how : SealHow} (hb : b < 4) (hc : c < 4) : SealStays b s (sealBridge c how s) := fun hs => by
  by_cases hm : modeOf s c = 0
  · rw [sealBridge_sealed how hm]
    exact ⟨hs, rfl⟩
  · have hne : b ≠ c := fun h => hm (h ▸ hs)
    refine ⟨(sealBridge_mode_ne how hc hb hne).trans hs, ?_⟩
    rw [sealBridge_rd how hm hb, sealRecord_reason_ne hne, changeMode_rd 0 0 _ hb, (sealCleared_modes how hc).rd hb]

protected theorem setBr {v : Bridge} : SealStays b s (s.setBr c v) := fun hs => ⟨hs, rfl⟩

protected theorem startRamp {k len r : Nat} {l : Bool} : SealStays b s (startRamp c k len r l s) := fun hs =>
  ⟨(startRamp_mode k len r l b).trans hs, by rw [startRamp_rd, rd_wr_apart]⟩

protected theorem ss1Start (hb : b < 4) (hc : c < 4) : SealStays b s (ss1Start c s) := by
  unfold Machine.ss1Start
  split
  · exact .ite (.sealBridge hb hc) (.ite .setBr (.refl b s))
  · exact .ite (SealStays.startRamp.trans .setBr) (.sealBridge hb hc)

protected theorem safetyBridge {old : Nat} (hb : b < 4) (hc : c < 4) : SealStays b s (safetyBridge old c s) :=
  .ite (.refl b s) (.ite (.sealBridge hb hc) (.ite (.sealBridge hb hc) (.ite (.ss1Start hb hc) (.refl b s))))

protected theorem applySafety (hb : b < 4) : SealStays b s (applySafety s) := by
  have hall : ∀ (l : List Nat), (∀ c ∈ l, c < 4) → ∀ (old : Nat) (v : State),
      SealStays b v (v.each l fun v c => safetyBridge old c v) := fun l => by
    induction l with
    | nil => exact fun _ _ v => .refl b v
    | cons c l ih =>
      exact fun hl old v => (SealStays.safetyBridge hb (hl c List.mem_cons_self)).trans
        (ih (fun x hx => hl x (List.mem_cons_of_mem c hx)) old _)
  exact (hall _ (fun _ => List.mem_range.1) _ s).trans (.frame hb (Aside.refl _).showActs.toFrame)

protected theorem shutterFails (hb : b < 4) : SealStays b s (shutterFails c s) := by
  rw [shutterFails_eq]
  exact (SealStays.frame hb (shutterNoted_aside c s).toFrame).trans (.applySafety hb)

end SealStays

end Sys2Proof.Machine
end
section
/-! SUPPORT. O49: a status frame in its parts: the gate it reports, the levels it reports, and the Shutter state judged against the
line (R228, R240, R243, R359). -/

namespace Sys2Proof.Machine

open Sys2Proof

section
variable {s u : State} {k b : Nat} {f : DieFrame}

/-! ### The gate reported on -/

theorem gateRose_gate (k : Nat) (s : State) : (gateRose k s).rd R.DRV_STATUS.GATE k = 1 := by
  unfold gateRose
  split
  · next hg =>
    have hlt : s.rd R.DRV_STATUS.GATE k < 2 := State.rd_lt s _ _ _
    have hne : s.rd R.DRV_STATUS.GATE k ≠ 0 := by simpa [State.flag_eq] using hg
    omega
  · rw [State.rd_setLeg, State.rd_setDie, State.raise_eq, State.rd_wr_same _ _ _ _ (by decide)]
    rfl

/-- It writes GATE alone. -/
theorem gateRose_rd (k : Nat) (s : State) {g : Fld} {i : Nat} (hg : apartFld g R.DRV_STATUS.GATE = true := by decide) :
    (gateRose k s).rd g i = s.rd g i := by
  unfold gateRose
  split
  · rfl
  · rw [State.rd_setLeg, State.rd_setDie, State.raise_eq, rd_wr_apart _ _ _ _ _ hg]

theorem gateRose_bridges (k : Nat) (s : State) : (gateRose k s).bridges = s.bridges := by
  simp only [gateRose, State.bridges_ite, State.setLeg_bridges, State.setDie_bridges, State.raise_eq, State.wr_bridges, ite_self]

theorem gateRose_board (k : Nat) (s : State) : (gateRose k s).board = s.board := by
  simp only [gateRose, State.board_ite, State.setLeg_board, State.setDie_board, State.raise_eq, State.wr_board, ite_self]

theorem gateRose_frame (k : Nat) (s : State) : Frame s (gateRose k s) := .ite (.refl s) (Frame.refl s).raise.setDie.setLeg

theorem gateRose_shtBad (k : Nat) (s : State) : ((gateRose k s).die k).shtBad = (s.die k).shtBad := by
  unfold gateRose
  split
  · rfl
  · rw [State.die_setLeg, State.die_setDie_same]

/-- A gate that rises begins a new on-interval, and its overlap is too short to trip. -/
theorem gateRose_kept (k : Nat) (s : State) : TripKept (k / 2) s (gateRose k s) := fun hs => by
  have hapart : ∀ g ∈ tripFlds, apartFld g R.DRV_STATUS.GATE = true := by decide
  refine ⟨?_, fun g hg => gateRose_rd k s (hapart g hg)⟩
  by_cases hgate : s.flag R.DRV_STATUS.GATE k = true
  · rwa [gateRose, if_pos hgate]
  · have hon : ((gateRose k s).die k).onAt = s.now := by
      rw [gateRose, if_neg hgate, State.die_setLeg, State.die_setDie_same]
    have hpair : k = 2 * (k / 2) ∨ k = 2 * (k / 2) + 1 := by omega
    refine .inr ?_
    rw [(gateRose_frame k s).now]
    rcases hpair with hpair | hpair
    · rw [← hpair, hon]
      omega
    · rw [← hpair, hon]
      omega

/-! ### The gate as a frame reports it -/

/-- GATE as reported (R228). -/
def gateShown (k : Nat) (on_ : Bool) (s : State) : State := if on_ then gateRose k s else gateFell k s

theorem gateShown_gate (k : Nat) (on_ : Bool) (s : State) : (gateShown k on_ s).rd R.DRV_STATUS.GATE k = b2n on_ := by
  cases on_
  · exact gateFell_gate k s
  · exact gateRose_gate k s

theorem gateShown_bridges (k : Nat) (on_ : Bool) (s : State) : (gateShown k on_ s).bridges = s.bridges := by
  cases on_
  · exact gateFell_bridges k s
  · exact gateRose_bridges k s

theorem gateShown_frame (k : Nat) (on_ : Bool) (s : State) : Frame s (gateShown k on_ s) :=
  .ite (gateRose_frame k s) (Frame.refl s).gateFell

theorem gateShown_shtBad (k : Nat) (on_ : Bool) (s : State) : ((gateShown k on_ s).die k).shtBad = (s.die k).shtBad := by
  cases on_
  · exact (ReportKept.refl s).gateFell.shtBad k
  · exact gateRose_shtBad k s

theorem gateShown_kept (hk : k < 48) (on_ : Bool) (s : State) : TripKept (k / 2) s (gateShown k on_ s) := by
  cases on_
  · exact (ReportKept.refl s).gateFell.trip _ (by omega)
  · exact gateRose_kept k s

/-! ### What a frame shows before its Shutter state is judged -/

/-- The gate and the levels as the frame reports them; the link stands (R228, R240, R243). -/
def frameShown (k : Nat) (f : DieFrame) (s : State) : State :=
  let s1 := (gateShown k f.gate s).setDie k { (gateShown k f.gate s).die k with linkLost := false, scHigh := f.sc }
  if f.oc then s1 else s1.clear R.DRV_STATUS.OC_ACT k

theorem frameShown_die (k : Nat) (f : DieFrame) (s : State) : (frameShown k f s).die k =
    { (gateShown k f.gate s).die k with linkLost := false, scHigh := f.sc } := by
  simp only [frameShown, State.clear_eq, State.die_ite, State.die_wr, State.die_setDie_same, ite_self]

theorem frameShown_rd (k : Nat) (f : DieFrame) (s : State) {g : Fld} {i : Nat}
    (hg : apartFld g R.DRV_STATUS.OC_ACT = true := by decide) : (frameShown k f s).rd g i = (gateShown k f.gate s).rd g i := by
  simp only [frameShown, State.clear_eq, State.rd_ite, rd_wr_apart _ _ _ _ _ hg, State.rd_setDie, ite_self]

theorem frameShown_gate (k : Nat) (f : DieFrame) (s : State) : (frameShown k f s).rd R.DRV_STATUS.GATE k = b2n f.gate := by
  rw [frameShown_rd, gateShown_gate]

/-- The warning ends with its level and with the gate (R240). -/
theorem frameShown_ocAct (h : f.gate = false ∨ f.oc = false) : (frameShown k f s).rd R.DRV_STATUS.OC_ACT k = 0 := by
  unfold frameShown
  split
  · next hoc =>
    have hgate : f.gate = false := h.resolve_right (by simp [hoc])
    rw [State.rd_setDie, hgate]
    exact gateFell_ocAct k s
  · rw [State.clear_eq, State.rd_wr_same _ _ _ _ (by decide)]
    rfl

theorem frameShown_bridges (k : Nat) (f : DieFrame) (s : State) : (frameShown k f s).bridges = s.bridges := by
  simp only [frameShown, State.clear_eq, State.bridges_ite, State.wr_bridges, State.setDie_bridges, ite_self, gateShown_bridges]

theorem frameShown_frame (k : Nat) (f : DieFrame) (s : State) : Frame s (frameShown k f s) :=
  .ite (gateShown_frame k f.gate s).setDie (gateShown_frame k f.gate s).setDie.clear

theorem frameShown_kept (hk : k < 48) (f : DieFrame) (s : State) : TripKept (k / 2) s (frameShown k f s) := by
  have hapart : ∀ g ∈ tripFlds, apartFld g R.DRV_STATUS.OC_ACT = true := by decide
  have hstep : TripKept (k / 2) (gateShown k f.gate s) (frameShown k f s) := fun hs => by
    refine ⟨tripSpent_congr ?_ (fun j => ?_) (fun hx => ?_) hs, fun g hg => frameShown_rd k f s (hapart g hg)⟩
    · rw [(frameShown_frame k f s).now, (gateShown_frame k f.gate s).now]
    · by_cases hj : j = k
      · subst hj
        rw [frameShown_die]
      · simp only [frameShown, State.clear_eq, State.die_ite, State.die_wr, State.die_setDie_ne _ k _ hj, ite_self]
    · simpa only [frameShown, State.clear_eq, State.leg_ite, State.leg_wr, State.leg_setDie, ite_self] using hx
  exact (gateShown_kept hk f.gate s).trans hstep

/-- The frame in its parts. -/
theorem dieStatusFrame_eq (hp : diePresent s k = true) (f : DieFrame) :
    dieStatusFrame k f s = judgeShutter k f.shutter (frameShown k f (crossCheck (k / 2) s)) := by
  rw [dieStatusFrame, if_neg (by simp [hp])]
  rfl

/-! ### The Shutter state judged -/

/-- What is noted of a frame's Shutter state: the successive differences, and the state that differs (R359, R360). -/
def shutterSeen (k : Nat) (asserted right : Bool) (s : State) : State :=
  s.setDie k { s.die k with
    shtBad := if right then 0 else min 3 ((s.die k).shtBad + 1)
    shtStuck := if !right then some asserted else (s.die k).shtStuck.filter (· == asserted) }

/-- The command frames to both dies of a leg stopped (R359). -/
def framesStopped (n : Nat) (s : State) : State :=
  let s1 := s.setDie (2 * n) { s.die (2 * n) with stopped := true }
  s1.setDie (2 * n + 1) { s1.die (2 * n + 1) with stopped := true }

theorem judgeShutter_none (hb : bridgeOfLeg s (k / 2) = none) (a : Bool) : judgeShutter k a s = s := by
  unfold judgeShutter
  rw [hb]

/-- A third successive difference stops the frames; any other frame is noted alone. -/
theorem judgeShutter_some (hb : bridgeOfLeg s (k / 2) = some b) (a : Bool) : judgeShutter k a s =
    if (a == !(s.br b).open_) = false ∧ (s.die k).shtBad = 2 then
      shutterFails b (framesStopped (k / 2) (shutterSeen k a (a == !(s.br b).open_) s))
    else shutterSeen k a (a == !(s.br b).open_) s := by
  have hthird : ∀ r : Bool, ((if r then 0 else min 3 ((s.die k).shtBad + 1)) = 3 ∧ (s.die k).shtBad < 3) ↔
      (r = false ∧ (s.die k).shtBad = 2) := fun r => by
    cases r
    · simp only [Bool.false_eq_true, if_false, true_and]
      omega
    · simp
  unfold judgeShutter
  rw [hb]
  exact if_congr (hthird _) rfl rfl

/-- The dies differ in what the line says of them alone. -/
structure LineOnly (s t : State) : Prop where
  rest : t = { s with dies := t.dies }
  link : ∀ j, (t.die j).linkLost = (s.die j).linkLost
  level : ∀ j, (t.die j).scHigh = (s.die j).scHigh
  since : ∀ j, (t.die j).onAt = (s.die j).onAt

theorem LineOnly.refl (s : State) : LineOnly s s := ⟨rfl, fun _ => rfl, fun _ => rfl, fun _ => rfl⟩

theorem LineOnly.setDie {t : State} (h : LineOnly s t) {j : Nat} {v : Die} (hv : v.linkLost = (t.die j).linkLost ∧
    v.scHigh = (t.die j).scHigh ∧ v.onAt = (t.die j).onAt) : LineOnly s (t.setDie j v) := by
  obtain ⟨hlink, hlevel, hsince⟩ := hv
  obtain ⟨h1, h2, h3, h4⟩ := h
  refine ⟨by rw [h1]; rfl, fun i => ?_, fun i => ?_, fun i => ?_⟩
  all_goals
    by_cases hi : i = j
    · subst hi
      rw [State.die_setDie_same]
      simp only [hlink, hlevel, hsince, h2, h3, h4]
    · rw [State.die_setDie_ne t j v hi]
      simp only [h2, h3, h4]

theorem shutterSeen_line (k : Nat) (a r : Bool) (s : State) : LineOnly s (shutterSeen k a r s) :=
  (LineOnly.refl s).setDie ⟨rfl, rfl, rfl⟩

theorem framesStopped_line {t : State} (h : LineOnly s t) (n : Nat) : LineOnly s (framesStopped n t) := by
  refine (h.setDie (j := 2 * n) ?_).setDie ?_
  · exact ⟨rfl, rfl, rfl⟩
  · exact ⟨rfl, rfl, rfl⟩

theorem framesStopped_dies (n : Nat) (s : State) : ((framesStopped n s).die (2 * n)).stopped = true ∧
    ((framesStopped n s).die (2 * n + 1)).stopped = true := by
  have hne : 2 * n ≠ 2 * n + 1 := by omega
  simp only [framesStopped, State.die_setDie_same, State.die_setDie_ne _ _ _ hne, and_self]

/-- The judgement notes the line, and what may follow it is a safety fault. -/
theorem judgeShutter_parts (k : Nat) (a : Bool) (s : State) : ∃ v, LineOnly s v ∧ ReportKept v (judgeShutter k a s) ∧
    ∀ b < 4, SealStays b v (judgeShutter k a s) := by
  cases hb : bridgeOfLeg s (k / 2) with
  | none =>
    rw [judgeShutter_none hb]
    exact ⟨s, .refl s, .refl s, fun b _ => .refl b s⟩
  | some b =>
    rw [judgeShutter_some hb]
    split
    · exact ⟨_, framesStopped_line (shutterSeen_line k a _ s) _, (ReportKept.refl _).shutterFails,
        fun c hc => .shutterFails hc⟩
    · exact ⟨_, shutterSeen_line k a _ s, .refl _, fun c _ => .refl c _⟩

theorem judgeShutter_die (k : Nat) (a : Bool) (s : State) : ((judgeShutter k a s).die k).linkLost = (s.die k).linkLost ∧
    ((judgeShutter k a s).die k).scHigh = (s.die k).scHigh := by
  obtain ⟨v, hline, hkept, -⟩ := judgeShutter_parts k a s
  exact ⟨(hkept.linkLost k).trans (hline.link k), (hkept.scHigh k).trans (hline.level k)⟩

theorem LineOnly.rd {t : State} (h : LineOnly s t) (f : Fld) (i : Nat) : t.rd f i = s.rd f i := by
  rw [h.rest]
  rfl

/-- A gate and a warning that are off stay off. -/
theorem judgeShutter_low {j : Nat} (hk : j < 48) (a : Bool) {g : Fld} (hg : g ∈ gateFlds) (h0 : s.rd g j = 0) :
    (judgeShutter k a s).rd g j = 0 := by
  obtain ⟨v, hline, hkept, -⟩ := judgeShutter_parts k a s
  exact hkept.low g hg j hk ((hline.rd g j).trans h0)

theorem judgeShutter_kept (a : Bool) {n : Nat} (hn : n < 24) (s : State) : TripKept n s (judgeShutter k a s) := by
  obtain ⟨v, hline, hkept, -⟩ := judgeShutter_parts k a s
  refine TripKept.trans (fun hs => ⟨tripSpent_congr ?_ hline.since (fun hx => ?_) hs, fun g _ => hline.rd g n⟩)
    (hkept.trip n hn)
  · rw [hline.rest]
  · rw [hline.rest]
    exact hx

theorem judgeShutter_sealStays (a : Bool) (hb : b < 4) (s : State) : SealStays b s (judgeShutter k a s) := by
  obtain ⟨v, hline, -, hseal⟩ := judgeShutter_parts k a s
  exact SealStays.trans (fun hs => ⟨(hline.rd _ b).trans hs, hline.rd _ b⟩) (hseal b hb)

/-- Fewer than two successive differences before the frame, or more: no safety fault follows, and the registers stay. -/
theorem judgeShutter_rd (hbad : (s.die k).shtBad ≠ 2) (a : Bool) (f : Fld) (i : Nat) : (judgeShutter k a s).rd f i = s.rd f i := by
  cases hb : bridgeOfLeg s (k / 2) with
  | none => rw [judgeShutter_none hb]
  | some b =>
    rw [judgeShutter_some hb, if_neg fun h => hbad h.2]
    exact (shutterSeen_line k a _ s).rd f i

theorem judgeShutter_right {a : Bool} (hb : bridgeOfLeg s (k / 2) = some b) (ha : a = (!(s.br b).open_)) :
    (judgeShutter k a s).bridges = s.bridges ∧ ((judgeShutter k a s).die k).shtBad = 0 := by
  have hr : (a == !(s.br b).open_) = true := by simp [ha]
  rw [judgeShutter_some hb, hr, if_neg (by simp), shutterSeen]
  refine ⟨State.setDie_bridges .., ?_⟩
  rw [State.die_setDie_same, if_pos rfl]

theorem judgeShutter_stops {a : Bool} (hb : bridgeOfLeg s (k / 2) = some b) (ha : a = (s.br b).open_)
    (hbad : (s.die k).shtBad = 2) : ((judgeShutter k a s).die (2 * (k / 2))).stopped = true ∧
      ((judgeShutter k a s).die (2 * (k / 2) + 1)).stopped = true := by
  have hr : (a == !(s.br b).open_) = false := by rw [ha]; cases (s.br b).open_ <;> rfl
  obtain ⟨hhigh, hlow⟩ := framesStopped_dies (k / 2) (shutterSeen k a (a == !(s.br b).open_) s)
  rw [judgeShutter_some hb, if_pos ⟨hr, hbad⟩]
  have hkept := fun u => ReportKept.shutterFails (b := b) (.refl u)
  exact ⟨((hkept _).stopped _).trans hhigh, ((hkept _).stopped _).trans hlow⟩

end

end Sys2Proof.Machine
end
section
/-! O49: the status frame of a present die, and the overlap that its cross-check finds (R228, R359). -/

namespace Sys2Proof.Machine

open Sys2Proof

section
variable {s : State} {k n b : Nat} {f : DieFrame}

theorem diePresent_iff : diePresent s k = true ↔ k < 48 ∧ s.rd R.DRV_STATUS.STATE k ≠ 0 := by
  rw [diePresent, Bool.and_eq_true, decide_eq_true_eq, decide_eq_true_eq, dieState]

theorem diePresent_lt (hp : diePresent s k = true) : k < 48 := (diePresent_iff.1 hp).1

/-! ### The cross-check -/

/-- The trip shows and counts, and the overlap is spent. -/
theorem crossTrip_trips (ho : gatesOverlap s n = true) : (crossTrip n s).rd R.IL_STATUS.XCHK_TRIP n = 1 ∧
    (crossTrip n s).rd R.IL_COUNT.XCHK_CNT n =
      min (2 ^ R.IL_COUNT.XCHK_CNT.width - 1) (s.rd R.IL_COUNT.XCHK_CNT n + 1) ∧ tripSpent (crossTrip n s) n := by
  rw [crossTrip, if_pos ho, State.countUp_eq, State.raise_eq]
  refine ⟨?_, ?_, .inl ?_⟩
  · rw [rd_wr_apart, State.rd_wr_same _ _ _ _ (by decide)]
    rfl
  · rw [State.rd_wr_same _ _ _ _ (by decide), rd_wr_apart, State.rd_setLeg]
    exact Nat.mod_eq_of_lt (lt_of_le_of_lt (Nat.min_le_left ..) (by decide))
  · rw [State.leg_wr, State.leg_wr, State.leg_setLeg_same]

theorem crossCheck_seals (ho : gatesOverlap s n = true) (hb : bridgeOfLeg s n = some b) :
    crossCheck n s = sealFor b 14 (crossTrip n s) := by
  unfold crossCheck
  rw [if_pos ho, hb]

/-- The trip seals the bridge of the leg with reason 14. -/
theorem crossCheck_reason (ho : gatesOverlap s n = true) (hb : bridgeOfLeg s n = some b) : modeOf (crossCheck n s) b = 0 ∧
    (modeOf s b ≠ 0 → (crossCheck n s).rd R.BR_REASON.SEAL_REASON b = 14) := by
  have hb4 := bridgeOfLeg_lt hb
  have hmode : modeOf (crossTrip n s) b = modeOf s b := (Frame.crossTrip (.refl s)).modes.rd hb4
  rw [crossCheck_seals ho hb]
  refine ⟨sealBridge_mode _ hb4, fun hm => sealBridge_reason _ hb4 ?_ (show 14 < 32 by decide)⟩
  rwa [hmode]

/-- It is shown and counted once, whatever the seal turns off. -/
theorem crossCheck_trips (hn : n < 24) (ho : gatesOverlap s n = true) (hb : bridgeOfLeg s n = some b) :
    (crossCheck n s).rd R.IL_STATUS.XCHK_TRIP n = 1 ∧ (crossCheck n s).rd R.IL_COUNT.XCHK_CNT n =
      min (2 ^ R.IL_COUNT.XCHK_CNT.width - 1) (s.rd R.IL_COUNT.XCHK_CNT n + 1) ∧ tripSpent (crossCheck n s) n := by
  obtain ⟨htrip, hcnt, hspent⟩ := crossTrip_trips ho
  have hseal : ReportKept (crossTrip n s) (sealFor b 14 (crossTrip n s)) :=
    (ReportKept.refl _).sealBridge (bridgeOfLeg_lt hb)
  obtain ⟨hstill, hrd⟩ := hseal.trip n hn hspent
  rw [crossCheck_seals ho hb]
  exact ⟨(hrd _ (by decide)).trans htrip, (hrd _ (by decide)).trans hcnt, hstill⟩

/-- A leg with a switch off has no overlap. -/
theorem gatesOverlap_oneOff (h : s.flag R.DRV_STATUS.GATE (2 * n) = false ∨ s.flag R.DRV_STATUS.GATE (2 * n + 1) = false) :
    gatesOverlap s n = false := by
  rcases h with h | h
  · simp only [gatesOverlap, h, Bool.and_false, Bool.false_and]
  · simp only [gatesOverlap, h, Bool.and_false, Bool.false_and]

/-! ### The frame -/

/-- The gate, the levels and the link that a frame shows (R228, R240, R243). -/
theorem dieStatusFrame_shows (hp : diePresent s k = true) (f : DieFrame) : ((dieStatusFrame k f s).die k).linkLost = false ∧
    ((dieStatusFrame k f s).die k).scHigh = f.sc ∧
    ((s.die k).shtBad ≠ 2 → (dieStatusFrame k f s).rd R.DRV_STATUS.GATE k = b2n f.gate) ∧
    (f.gate = false → (dieStatusFrame k f s).rd R.DRV_STATUS.GATE k = 0) ∧
    (f.gate = false ∨ f.oc = false → (dieStatusFrame k f s).rd R.DRV_STATUS.OC_ACT k = 0) := by
  have hk := diePresent_lt hp
  rw [dieStatusFrame_eq hp]
  obtain ⟨hlink, hlevel⟩ := judgeShutter_die k f.shutter (frameShown k f (crossCheck (k / 2) s))
  refine ⟨hlink.trans ?_, hlevel.trans ?_, fun hbad => ?_, fun hg => ?_, fun hoc => ?_⟩
  · rw [frameShown_die]
  · rw [frameShown_die]
  · rw [judgeShutter_rd, frameShown_gate]
    rw [frameShown_die]
    change ((gateShown k f.gate (crossCheck (k / 2) s)).die k).shtBad ≠ 2
    rwa [gateShown_shtBad, (ReportKept.refl s).crossCheck.shtBad]
  · exact judgeShutter_low hk _ (by decide) (by rw [frameShown_gate, hg]; rfl)
  · exact judgeShutter_low hk _ (by decide) (frameShown_ocAct hoc)

/-- A frame that finds an overlap: the trip shows, counts, and seals the bridge (R228). -/
theorem dieStatusFrame_trips (hp : diePresent s k = true) (hb : bridgeOfLeg s (k / 2) = some b)
    (ho : gatesOverlap s (k / 2) = true) (f : DieFrame) :
    (dieStatusFrame k f s).flag R.IL_STATUS.XCHK_TRIP (k / 2) = true ∧ modeOf (dieStatusFrame k f s) b = 0 ∧
    (modeOf s b ≠ 0 → (dieStatusFrame k f s).rd R.BR_REASON.SEAL_REASON b = 14) ∧
    (dieStatusFrame k f s).rd R.IL_COUNT.XCHK_CNT (k / 2) =
      min (2 ^ R.IL_COUNT.XCHK_CNT.width - 1) (s.rd R.IL_COUNT.XCHK_CNT (k / 2) + 1) := by
  have hk := diePresent_lt hp
  have hn : k / 2 < 24 := by omega
  have hb4 := bridgeOfLeg_lt hb
  obtain ⟨htrip, hcnt, hspent⟩ := crossCheck_trips hn ho hb
  obtain ⟨hmode, hreason⟩ := crossCheck_reason ho hb
  obtain ⟨-, hrd⟩ := ((frameShown_kept hk f _).trans (judgeShutter_kept f.shutter hn _)) hspent
  obtain ⟨hsealed, hkeep⟩ := ((SealStays.frame hb4 (frameShown_frame k f _)).trans
    (judgeShutter_sealStays (k := k) f.shutter hb4 _)) hmode
  rw [dieStatusFrame_eq hp]
  refine ⟨?_, hsealed, fun hm => hkeep.trans (hreason hm), (hrd _ (by decide)).trans hcnt⟩
  rw [State.flag_eq, hrd _ (by decide), htrip]
  rfl

/-- Without an overlap, the Shutter state as the line changes no bridge, and a third difference stops the frames (R359). -/
theorem dieStatusFrame_judges (hp : diePresent s k = true) (hb : bridgeOfLeg s (k / 2) = some b)
    (ho : gatesOverlap s (k / 2) = false) (f : DieFrame) :
    (f.shutter = (!(s.br b).open_) → (dieStatusFrame k f s).bridges = s.bridges ∧
      ((dieStatusFrame k f s).die k).shtBad = 0) ∧
    (f.shutter = (s.br b).open_ → (s.die k).shtBad = 2 → ((dieStatusFrame k f s).die (2 * (k / 2))).stopped = true ∧
      ((dieStatusFrame k f s).die (2 * (k / 2) + 1)).stopped = true) := by
  have hframe := frameShown_frame k f s
  have hbridge := frameShown_bridges k f s
  have hleg : bridgeOfLeg (frameShown k f s) (k / 2) = some b := (hframe.bridgeOfLeg _).trans hb
  have hbr : (frameShown k f s).br b = s.br b := State.br_congr hbridge b
  rw [dieStatusFrame_eq hp, crossCheck_none ho]
  refine ⟨fun hline => ?_, fun hline hbad => judgeShutter_stops hleg (hbr ▸ hline) ?_⟩
  · obtain ⟨hsame, hzero⟩ := judgeShutter_right hleg (hbr ▸ hline)
    exact ⟨hsame.trans hbridge, hzero⟩
  · rw [frameShown_die]
    exact (gateShown_shtBad k f.gate s).trans hbad

end

end Sys2Proof.Machine
end
section
/-! O49: an edge measurement (R223, R231, R232, R241) and a zone temperature (R244). -/

namespace Sys2Proof.Machine

open Sys2Proof

section
variable {s t : State} {k : Nat} {e : EdgeMeas} {r : NtcReading}

/-! ### The signal of an edge -/

theorem State.sig_congr (h : t.board = s.board) (i : Nat) : t.sig i = s.sig i := by
  unfold State.sig State.sigWord
  rw [h]

/-- What a writer has written reads back (R51, R52). -/
theorem sig_sigWrite_same (i v : Nat) (s : State) :
    (s.sigWrite i v).sig i = ⟨v % 65536, ((s.sig i).seq + 1) % 256, 0, false, false⟩ := by
  have h : (s.sigWrite i v).sigWord i = Sig.word ⟨v % 65536, ((s.sig i).seq + 1) % 256, 0, false, false⟩ :=
    sigWord_setSig_same s i _
  rw [State.sig, h, sigOf_word (Nat.mod_lt _ (by decide)) (Nat.mod_lt _ (by decide))]

theorem State.rd_sigWrite (s : State) (i v : Nat) (f : Fld) (j : Nat) : (s.sigWrite i v).rd f j = s.rd f j := rfl

theorem State.sigWrite_bridges (s : State) (i v : Nat) : (s.sigWrite i v).bridges = s.bridges := rfl

theorem edgeWord_lt (s : State) (k : Nat) (e : EdgeMeas) : edgeWord e.on (edgeValid s k e) e.time < 65536 := by
  have hon : b2n e.on ≤ 1 := by cases e.on <;> decide
  unfold edgeWord
  split
  · next hv =>
    simp only [edgeValid, Bool.and_eq_true, decide_eq_true_eq] at hv
    have := hv.2.trans (Nat.min_le_left _ _)
    omega
  · omega

/-! ### The edge in its parts -/

/-- The field of an edge's direction (R250). -/
def lastFld (on_ : Bool) : Fld := if on_ then R.DRV_EDGE.LAST_ON else R.DRV_EDGE.LAST_OFF

/-- The segment count that adapts (R233). -/
def countFld (on_ : Bool) : Fld := if on_ then R.DRV_STATUS.NON_M1 else R.DRV_STATUS.NOFF_M1

/-- The word in the signal and in its register, and the adapted count (R232, R233). -/
def edgeRecorded (k : Nat) (e : EdgeMeas) (valid : Bool) (s : State) : State :=
  let w := edgeWord e.on valid e.time
  adaptEdge k e.on valid e.time ((s.sigWrite (0x080 + k) w).wr (lastFld e.on) k w)

/-- The gate as the edge leaves it. -/
def edgeSwitched (k : Nat) (on_ : Bool) (s : State) : State := if on_ then gateRose k s else gateOff k s

/-- An edge that is made, before it is counted where its measurement is not valid (R231, R232). -/
def edgeShown (k : Nat) (e : EdgeMeas) (s : State) : State :=
  edgeSwitched k e.on (edgeRecorded k e (edgeValid s k e) (crossCheck (k / 2) s))

theorem switchEdgeMeasurement_eq (hp : diePresent s k = true)
    (he : e.on = false ∨ (gateCommand s k = true ∧ supplyLow s k = false)) : switchEdgeMeasurement k e s =
      if edgeValid s k e then edgeShown k e s else (edgeShown k e s).countUp R.DRV_CNT2.INVALID k := by
  have h1 : ¬ (diePresent s k = false ∨ (e.on = true ∧ gateCommand s k = false)) := by
    rcases he with he | ⟨hc, -⟩
    · simp [hp, he]
    · simp [hp, hc]
  have h2 : ¬ (e.on = true ∧ supplyLow s k = true) := by
    rcases he with he | ⟨-, hl⟩
    · simp [he]
    · simp [hl]
  rw [switchEdgeMeasurement, if_neg h1, if_neg h2]
  rfl

theorem edgeRecorded_eq (k : Nat) (e : EdgeMeas) (v : Bool) (s : State) : ∃ n, edgeRecorded k e v s =
    ((s.sigWrite (0x080 + k) (edgeWord e.on v e.time)).wr (lastFld e.on) k (edgeWord e.on v e.time)).wr (countFld e.on) k n := by
  unfold edgeRecorded adaptEdge
  cases e.on
  · exact ⟨_, rfl⟩
  · exact ⟨_, rfl⟩

theorem edgeRecorded_board (k : Nat) (e : EdgeMeas) (v : Bool) (s : State) :
    (edgeRecorded k e v s).board = (s.sigWrite (0x080 + k) (edgeWord e.on v e.time)).board := by
  obtain ⟨n, hn⟩ := edgeRecorded_eq k e v s
  rw [hn, State.wr_board, State.wr_board]

theorem edgeRecorded_bridges (k : Nat) (e : EdgeMeas) (v : Bool) (s : State) : (edgeRecorded k e v s).bridges = s.bridges := by
  obtain ⟨n, hn⟩ := edgeRecorded_eq k e v s
  rw [hn, State.wr_bridges, State.wr_bridges, State.sigWrite_bridges]

theorem edgeRecorded_last (k : Nat) (e : EdgeMeas) (v : Bool) (s : State) :
    (edgeRecorded k e v s).rd (lastFld e.on) k = edgeWord e.on v e.time % 65536 := by
  have hlast : ∀ on_ : Bool, apartFld (lastFld on_) (countFld on_) = true ∧
      (lastFld on_).lo + (lastFld on_).width ≤ 32 ∧ (lastFld on_).width = 16 := by decide
  obtain ⟨n, hn⟩ := edgeRecorded_eq k e v s
  obtain ⟨hcount, h32, h16⟩ := hlast e.on
  rw [hn, rd_wr_apart _ _ _ _ _ hcount, State.rd_wr_same _ _ _ _ h32, h16]
  rfl

theorem edgeRecorded_invalid (k : Nat) (e : EdgeMeas) (v : Bool) (s : State) :
    (edgeRecorded k e v s).rd R.DRV_CNT2.INVALID k = s.rd R.DRV_CNT2.INVALID k := by
  have hapart : ∀ on_ : Bool, apartFld R.DRV_CNT2.INVALID (countFld on_) = true ∧
      apartFld R.DRV_CNT2.INVALID (lastFld on_) = true := by decide
  obtain ⟨n, hn⟩ := edgeRecorded_eq k e v s
  obtain ⟨hcount, hlast⟩ := hapart e.on
  rw [hn, rd_wr_apart _ _ _ _ _ hcount, rd_wr_apart _ _ _ _ _ hlast, State.rd_sigWrite]

/-! ### The switch after its edge -/

theorem gateFell_board (k : Nat) (s : State) : (gateFell k s).board = s.board := by
  simp only [gateFell, crossTrip, State.countUp_eq, State.raise_eq, State.clear_eq, State.board_ite, State.setDie_board,
    State.wr_board, State.setLeg_board, ite_self]

/-- A fall of the gate leaves the other fields of the dies. -/
theorem gateFell_dieRd {f : Fld} (hk : k < 48) (hf : dieFld f = true)
    (hg : apartFld f R.DRV_STATUS.GATE = true) (ho : apartFld f R.DRV_STATUS.OC_ACT = true) (s : State) :
    (gateFell k s).rd f k = s.rd f k := by
  simp only [gateFell, State.clear_eq, State.rd_ite, State.rd_setDie, rd_wr_apart _ _ _ _ _ hg, rd_wr_apart _ _ _ _ _ ho,
    crossTrip_dieRd hf hk, ite_self]

theorem edgeSwitched_board (k : Nat) (on_ : Bool) (s : State) : (edgeSwitched k on_ s).board = s.board := by
  cases on_
  · change (gateOff k s).board = s.board
    simp only [gateOff, softTurnOff, State.board_ite, State.setDie_board, gateFell_board, ite_self]
  · exact gateRose_board k s

theorem edgeSwitched_bridges (k : Nat) (on_ : Bool) (s : State) : (edgeSwitched k on_ s).bridges = s.bridges := by
  cases on_
  · exact gateOff_bridges k s
  · exact gateRose_bridges k s

theorem edgeSwitched_rd {f : Fld} (hk : k < 48) (on_ : Bool) (s : State) (hf : dieFld f = true := by decide)
    (hg : apartFld f R.DRV_STATUS.GATE = true := by decide) (ho : apartFld f R.DRV_STATUS.OC_ACT = true := by decide) :
    (edgeSwitched k on_ s).rd f k = s.rd f k := by
  cases on_
  · change (gateOff k s).rd f k = s.rd f k
    simp only [gateOff, softTurnOff, State.rd_ite, State.rd_setDie, gateFell_dieRd hk hf hg ho, ite_self]
  · exact gateRose_rd k s hg

theorem edgeSwitched_gate (k : Nat) (on_ : Bool) (s : State) :
    (on_ = true → (edgeSwitched k on_ s).rd R.DRV_STATUS.GATE k = 1) ∧
    (on_ = false → switchDown (edgeSwitched k on_ s) k) := by
  cases on_
  · exact ⟨fun h => absurd h (by decide), fun _ => gateOff_down k s⟩
  · exact ⟨fun _ => gateRose_gate k s, fun h => absurd h (by decide)⟩

theorem edgeShown_sig (k : Nat) (e : EdgeMeas) (s : State) :
    ((edgeShown k e s).sig (0x080 + k)).val = edgeWord e.on (edgeValid s k e) e.time ∧
    ((edgeShown k e s).sig (0x080 + k)).age = 0 := by
  rw [edgeShown, State.sig_congr ((edgeSwitched_board ..).trans (edgeRecorded_board ..)), sig_sigWrite_same]
  exact ⟨Nat.mod_eq_of_lt (edgeWord_lt s k e), rfl⟩

theorem edgeShown_last (hk : k < 48) (e : EdgeMeas) (s : State) :
    (edgeShown k e s).rd (lastFld e.on) k = edgeWord e.on (edgeValid s k e) e.time := by
  have hlast : ∀ on_ : Bool, dieFld (lastFld on_) = true ∧ apartFld (lastFld on_) R.DRV_STATUS.GATE = true ∧
      apartFld (lastFld on_) R.DRV_STATUS.OC_ACT = true := by decide
  obtain ⟨hf, hg, ho⟩ := hlast e.on
  rw [edgeShown, edgeSwitched_rd hk e.on _ hf hg ho, edgeRecorded_last, Nat.mod_eq_of_lt (edgeWord_lt s k e)]

theorem edgeShown_invalid (hk : k < 48) (e : EdgeMeas) (s : State) :
    (edgeShown k e s).rd R.DRV_CNT2.INVALID k = s.rd R.DRV_CNT2.INVALID k := by
  rw [edgeShown, edgeSwitched_rd hk, edgeRecorded_invalid, (ReportKept.refl s).crossCheck.invalid k hk]

theorem edgeShown_bridges (ho : gatesOverlap s (k / 2) = false) (e : EdgeMeas) : (edgeShown k e s).bridges = s.bridges := by
  rw [edgeShown, edgeSwitched_bridges, edgeRecorded_bridges, crossCheck_none ho]

/-- An edge that is made: its word in the signal and the register, its gate, and the count of the invalid ones (R231, R232). -/
theorem switchEdgeMeasurement_made (hp : diePresent s k = true)
    (he : e.on = false ∨ (gateCommand s k = true ∧ supplyLow s k = false)) : ∃ t, switchEdgeMeasurement k e s = t ∧
      (t.sig (0x080 + k)).val = edgeWord e.on (edgeValid s k e) e.time ∧ (t.sig (0x080 + k)).age = 0 ∧
      t.rd (lastFld e.on) k = edgeWord e.on (edgeValid s k e) e.time ∧
      (e.on = true → t.rd R.DRV_STATUS.GATE k = 1) ∧ (e.on = false → switchDown t k) ∧
      t.rd R.DRV_CNT2.INVALID k = (if edgeValid s k e then s.rd R.DRV_CNT2.INVALID k
        else min (2 ^ R.DRV_CNT2.INVALID.width - 1) (s.rd R.DRV_CNT2.INVALID k + 1)) ∧
      (gatesOverlap s (k / 2) = false → t.bridges = s.bridges) := by
  have hk := diePresent_lt hp
  obtain ⟨hval, hage⟩ := edgeShown_sig k e s
  have hlast := edgeShown_last hk e s
  have hinv := edgeShown_invalid hk e s
  obtain ⟨hon, hoff⟩ : (e.on = true → (edgeShown k e s).rd R.DRV_STATUS.GATE k = 1) ∧
      (e.on = false → switchDown (edgeShown k e s) k) := edgeSwitched_gate k e.on _
  refine ⟨if edgeValid s k e then edgeShown k e s else (edgeShown k e s).countUp R.DRV_CNT2.INVALID k,
    switchEdgeMeasurement_eq hp he, ?_⟩
  split
  · exact ⟨hval, hage, hlast, hon, hoff, hinv, fun ho => edgeShown_bridges ho e⟩
  · have hapart : ∀ on_ : Bool, apartFld (lastFld on_) R.DRV_CNT2.INVALID = true := by decide
    have hsig := State.sig_congr (s := edgeShown k e s) (t := (edgeShown k e s).countUp R.DRV_CNT2.INVALID k)
      (State.wr_board ..) (0x080 + k)
    rw [hsig, State.countUp_eq, rd_wr_apart _ _ _ _ _ (hapart e.on), rd_wr_apart, State.rd_wr_same _ _ _ _ (by decide), hinv,
      State.wr_bridges]
    refine ⟨hval, hage, hlast, hon, fun h => ?_, ?_, fun ho => edgeShown_bridges ho e⟩
    · refine switchDown_congr (s := edgeShown k e s) (rd_wr_apart ..) ?_ (hoff h)
      rw [State.die_wr]
      exact id
    · exact Nat.mod_eq_of_lt (lt_of_le_of_lt (Nat.min_le_left ..) (by decide))

/-! ### A turn-on that is not made -/

theorem switchEdgeMeasurement_uncommanded (hon : e.on = true) (hc : gateCommand s k = false) :
    switchEdgeMeasurement k e s = s := if_pos (.inr ⟨hon, hc⟩)

theorem switchEdgeMeasurement_held (hp : diePresent s k = true) (hon : e.on = true) (hc : gateCommand s k = true)
    (hl : supplyLow s k = true) : switchEdgeMeasurement k e s = s.countUp R.DRV_CNT2.UV_HOLD k := by
  rw [switchEdgeMeasurement, if_neg (by simp [hp, hc]), if_pos ⟨hon, hl⟩]

/-! ### A zone temperature -/

/-- The reading that the input gives from here on (R244). -/
def ntcRead (k : Nat) (r : NtcReading) (s : State) : State := s.setDie k { s.die k with ntc := some r }

/-- The signal and NTC_ERR of a temperature in range (R89, R244). -/
def ntcShown (k : Nat) (x : Rat) (s : State) : State :=
  (s.clear R.DRV_STATUS.NTC_ERR k).sigWrite (0x0B0 + k) (ofSigned 16 (roundOpen 7 (x * 8192 / 100)))

theorem ntcWrite_graph {b : Nat} (hp : diePresent s k = true) (hb : bridgeOfLeg s (k / 2) = some b) (hg : graphRuns s b = true) :
    ntcWrite k r s = ntcRead k r s := by
  obtain ⟨hk, hstate⟩ := diePresent_iff.1 hp
  rw [ntcWrite, if_neg (by omega), hb]
  exact if_pos hg

theorem ntcWrite_converts (hp : diePresent s k = true) (hg : ∀ b, bridgeOfLeg s (k / 2) = some b → graphRuns s b = false) :
    ntcWrite k r s = ntcConvert k (ntcRead k r s) := by
  obtain ⟨hk, hstate⟩ := diePresent_iff.1 hp
  rw [ntcWrite, if_neg (by omega)]
  cases hb : bridgeOfLeg s (k / 2) with
  | none => rfl
  | some b => exact if_neg (by simp [hg b hb])

/-- The reading just taken is the one converted. -/
theorem ntcRead_temp (k : Nat) (r : NtcReading) (s : State) :
    ((ntcRead k r s).die k).ntc = some r ∧ ntcTemp (ntcRead k r s) k r = ntcTemp s k r :=
  ⟨congrArg Die.ntc (State.die_setDie_same ..), rfl⟩

theorem ntcRead_rd (k : Nat) (r : NtcReading) (s : State) (f : Fld) (i : Nat) : (ntcRead k r s).rd f i = s.rd f i := rfl

theorem ntcConvert_none (hx : ntcTemp s k r = none) :
    ntcConvert k (ntcRead k r s) = (ntcRead k r s).raise R.DRV_STATUS.NTC_ERR k := by
  obtain ⟨hread, htemp⟩ := ntcRead_temp k r s
  simp only [ntcConvert, hread, htemp, hx]

theorem ntcConvert_some {x : Rat} (hx : ntcTemp s k r = some x) : ntcConvert k (ntcRead k r s) =
    if (s.rd R.DRV_NTC.OT_TH k : Rat) < x then
      if s.flag R.DRV_STATUS.OT_WARN k then (ntcShown k x (ntcRead k r s)).raise R.DRV_STATUS.OT_WARN k
      else ((ntcShown k x (ntcRead k r s)).raise R.DRV_STATUS.OT_WARN k).raise R.DRV_EVENT.OT_EV k
    else (ntcShown k x (ntcRead k r s)).clear R.DRV_STATUS.OT_WARN k := by
  obtain ⟨hread, htemp⟩ := ntcRead_temp k r s
  simp only [ntcConvert, hread, htemp, hx, State.flag_eq, ntcRead_rd, ntcShown]

theorem ntcShown_err (k : Nat) (x : Rat) (s : State) : (ntcShown k x s).rd R.DRV_STATUS.NTC_ERR k = 0 := by
  rw [ntcShown, State.rd_sigWrite, State.clear_eq, State.rd_wr_same _ _ _ _ (by decide), Nat.zero_mod]

theorem ntcShown_age (k : Nat) (x : Rat) (s : State) : ((ntcShown k x s).sig (0x0B0 + k)).age = 0 :=
  congrArg Sig.age (sig_sigWrite_same ..)

/-- A broken input sets NTC_ERR alone (R244). -/
theorem ntcConvert_broken (hx : ntcTemp s k r = none) : ∃ t, ntcConvert k (ntcRead k r s) = t ∧ t.rd R.DRV_STATUS.NTC_ERR k = 1 ∧
    OnlyRegs { s with dies := t.dies } t [fldAddr R.DRV_STATUS.GATE k 0] := by
  refine ⟨_, ntcConvert_none hx, ?_, ?_⟩
  · rw [State.raise_eq, State.rd_wr_same _ _ _ _ (by decide)]
    rfl
  · have hread : OnlyRegs { s with dies := (ntcRead k r s).dies } (ntcRead k r s) [fldAddr R.DRV_STATUS.GATE k 0] :=
      (OnlyRegs.refl s _).setDie k _
    have herr : OnlyRegs (ntcRead k r s) ((ntcRead k r s).raise R.DRV_STATUS.NTC_ERR k) [fldAddr R.DRV_STATUS.GATE k 0] :=
      OnlyRegs.raise _ R.DRV_STATUS.NTC_ERR k
    exact hread.diesTrans herr.dies

/-- A temperature in range is shown, and judged by its threshold (R244). -/
theorem ntcConvert_inRange {x : Rat} (hx : ntcTemp s k r = some x) : ∃ t, ntcConvert k (ntcRead k r s) = t ∧
    t.rd R.DRV_STATUS.NTC_ERR k = 0 ∧ (t.rd R.DRV_STATUS.OT_WARN k = 1 ↔ (s.rd R.DRV_NTC.OT_TH k : Rat) < x) ∧
    (t.sig (0x0B0 + k)).age = 0 ∧ t.bridges = s.bridges := by
  have herr := ntcShown_err k x (ntcRead k r s)
  have hage := ntcShown_age k x (ntcRead k r s)
  have hbr : (ntcShown k x (ntcRead k r s)).bridges = s.bridges := by
    rw [ntcShown, State.sigWrite_bridges, State.clear_eq, State.wr_bridges, ntcRead, State.setDie_bridges]
  refine ⟨_, ntcConvert_some hx, ?_, ?_, ?_, ?_⟩
  · simp (disch := decide) only [State.raise_eq, State.clear_eq, State.rd_ite, rd_wr_apart, herr, ite_self]
  · by_cases hth : (s.rd R.DRV_NTC.OT_TH k : Rat) < x
    · rw [if_pos hth]
      simp (disch := decide) only [State.raise_eq, State.rd_ite, rd_wr_apart, State.rd_wr_same, ite_self]
      exact iff_of_true rfl hth
    · rw [if_neg hth, State.clear_eq, State.rd_wr_same _ _ _ _ (by decide), Nat.zero_mod]
      exact iff_of_false Nat.zero_ne_one hth
  · rw [State.sig_congr (s := ntcShown k x (ntcRead k r s)) ?_, hage]
    simp only [State.raise_eq, State.clear_eq, State.board_ite, State.wr_board, ite_self]
  · simp only [State.raise_eq, State.clear_eq, State.bridges_ite, State.wr_bridges, ite_self, hbr]

end

/-- Settles O49: a frame, an edge and a reading in their parts; what a seal and a safety fault keep of a report is `ReportKept`. -/
theorem dieReports : Obligations.DieReports := by
  intro k s hp
  refine ⟨fun f => ?_, fun e => ⟨fun hon hc => ?_, fun hon hc hl => ?_, fun he => ?_⟩, fun r => ⟨fun b hb hg => ?_, fun hg =>
    ⟨fun hx => ?_, fun x hx => ?_⟩⟩⟩
  · obtain ⟨hlink, hlevel, hgate, hoff, hoc⟩ := dieStatusFrame_shows hp f
    refine ⟨_, rfl, hlink, hlevel, hgate, hoff, hoc, fun b hb => ⟨fun hhi hlo hx hlate => ?_, fun ho => ?_⟩⟩
    · refine dieStatusFrame_trips hp hb ?_ f
      simp only [gatesOverlap, hb, hhi, hlo, hx, hlate, Option.isSome_some, Bool.not_false, decide_true, Bool.and_self]
    · exact dieStatusFrame_judges hp hb (gatesOverlap_oneOff ho) f
  · exact congrArg Host.Outcome.next (switchEdgeMeasurement_uncommanded hon hc)
  · refine ⟨_, congrArg Host.Outcome.next (switchEdgeMeasurement_held hp hon hc hl), ?_⟩
    rw [State.countUp_eq, State.wr_board, State.rd_wr_same _ _ _ _ (by decide)]
    refine ⟨rfl, OnlyRegs.wr .., ?_⟩
    exact Nat.mod_eq_of_lt (lt_of_le_of_lt (Nat.min_le_left ..) (by decide))
  · obtain ⟨t, ht, hval, hage, hlast, hon, hoff, hinv, hbr⟩ := switchEdgeMeasurement_made hp he
    exact ⟨t, congrArg Host.Outcome.next ht, hval, hage, hlast, hon, fun h => switchDown_iff.1 (hoff h), hinv,
      fun ho => hbr (gatesOverlap_oneOff ho)⟩
  · exact congrArg Host.Outcome.next (ntcWrite_graph hp hb hg)
  · obtain ⟨t, ht, herr, honly⟩ := ntcConvert_broken hx
    exact ⟨t, congrArg Host.Outcome.next ((ntcWrite_converts hp hg).trans ht), herr, honly⟩
  · obtain ⟨t, ht, hshown⟩ := ntcConvert_inRange hx
    exact ⟨t, congrArg Host.Outcome.next ((ntcWrite_converts hp hg).trans ht), hshown⟩

end Sys2Proof.Machine
end
